-- ==== Sys2Proof/Word.lean ====
section
/-!
DEFINITION. The word types the GX32 manual uses: bytes, 32-bit registers and mailbox words, 64-bit instructions
and 128-bit descriptors. All multi-byte values are little-endian (R6); the conversions stand in Machine/Bits.lean.
-/
namespace Sys2Proof

/-- One byte of a memory, a payload or a frame. -/
abbrev Byte := BitVec 8
/-- One register, mailbox word, scalar register or FP32 lane. -/
abbrev W32 := BitVec 32
/-- One Geode instruction or one 64-bit count that wraps. -/
abbrev W64 := BitVec 64
/-- One tensor descriptor (R112). -/
abbrev W128 := BitVec 128


/-! ### Registers (R56, R43, R104, R211, R310, R313, R378, R410, R439) -/

/-- The registers of a Geode's block (R104, R134, R185, R224, R402). -/
inductive GReg where
  | status | fault | ceCount | calLog0 | calLog1 | calCount | katCtrl | katStatus
  | slotCtrl (i : Nat) | slotBudget (i : Nat) | slotUsed (i : Nat) | slotWindow (i : Nat) | slotLimit (i : Nat) | slotPocket (i : Nat)
  | slotQmask (i : Nat) | slotFault (i : Nat)
  | qCfg (q : Nat) | qStatus (q : Nat) | qCtrl (q : Nat)
  deriving DecidableEq, Repr

/-- Every register the manual gives the device, by its own name. -/
inductive Reg where
  | devVendor | devPart | devStepping | devProto | devState | faultStatus | faultCtrl | heartbeat | winStatus
  | mbxCmdData (m : Nat) | mbxCmdCount (m : Nat) | mbxRspData (m : Nat) | mbxRspCount (m : Nat) | mbxCtrl (m : Nat) | mbxStatus (m : Nat)
  | qtzNowFrac | qtzNowNs | qtzNowSecLo | qtzNowSecHi | qtzRate | qtzStep | qtzStatus | ppsCapNs | ppsCapSecLo | ppsCapSecHi
  | dripCountLo | dripCountHi | dripLen | dripCfg
  | gd (g : Nat) (r : GReg)
  | galCtrl | galStatus | galCe (k : Nat) | galUe (k : Nat) | galErr (k : Nat)
  | shelfCtrl | shelfStatus | shelfErr | shelfErrLoc | shelfCeCount
  | cicPending (b : Nat) | cicEnable (b : Nat) | cicDrips (b : Nat) | cicDoorbell (b : Nat) | cicIpi (b : Nat) | cicCfg (b : Nat)
  | mtime | mtimecmp (b : Nat)
  | wakeCause
  | fcuCtrl | fcuTwin | fcuClk
  | dbgStatus | dbgCtrl | secCtrl | secGalKey (n : Nat)
  deriving DecidableEq, Repr

end Sys2Proof
end

