-- ==== Sys2Proof/Config.lean ====
section
/-!
DEFINITION. What the manual leaves open, as constants without a body: nothing in Lean can evaluate one or prove a
value of it. Each is named in the assumption log (notes/assumptions), with the rule that leaves it open.
-/
namespace Sys2Proof.Config

/-- A fresh value the device draws (nonces, salts, epochs, seed bases, ephemeral keys): the argument is the number of
values drawn so far, a counter of State (log entry 6). -/
opaque freeValue : Nat → Nat
/-- Which of the results within the error bound of R145 the unit delivers for a reciprocal of these operand bits. -/
opaque recipPick : W32 → Nat
/-- As `recipPick`, for the reciprocal square root. -/
opaque rsqrtPick : W32 → Nat
/-- As `recipPick`, for exp. -/
opaque expPick : W32 → Nat
/-- As `recipPick`, for sigmoid. -/
opaque sigmoidPick : W32 → Nat
/-- As `recipPick`, for the division inside VADAMW: dividend and divisor. -/
opaque divPick : W32 → W32 → Nat

/-- A result lane of the array while a Vein fault stands (R82): the draw's number and the lane. -/
opaque veinValue : Nat → Nat → W32

/-- The bases of the register blocks in the compute-die system window (R295), from its start: the manual gives each block's offsets and no base
(log entry 25). -/
opaque qtzBase : Nat
opaque gdBase : Nat
opaque galBase : Nat
opaque shelfBase : Nat
opaque pwrBase : Nat
opaque fcuBase : Nat
opaque secBase : Nat

/-- The value of a Lantern feature F4 or F6 to F9 that the sensor hub forms from the bytes read (R352): the manual gives its
unit and not the conversion; the arguments are the feature's number and the bytes (log entry 27). -/
opaque lanFeature : Nat → List Byte → Int
/-- F12 before any rule has fired, by the number of samples taken (R352, log entry 27). -/
opaque lanQuiet : Nat → Int
/-- The 32-bit pattern of a mass outside the signed 32-bit range of R315 (log entry 28). -/
opaque massOver : Int → W32

/-- The 32 bytes of the device secret S, as the PUF gives them (R417, log entry 31). -/
opaque deviceSecret : List Byte
/-- The keys of a slab, 64 bytes of the XTS pair and 32 of the CMAC key, from the root key, the slab number and the epoch: the manual says that they
are derived from these and not how (R207, log entry 49). -/
opaque slabKey : List W32 → Nat → Nat → List Byte
/-- A stored tag that does not match, for the tag that would (R209, log entry 49). -/
opaque wrongTag : Nat → Nat

/-- How far into the drop in progress Flint takes itself to be, in units of 2^-32 ns, by its own oscillator (R22, R40): by the number of the drop and
of the audit entries made (log entry 36). -/
opaque flintClock : Nat → Nat → Nat

end Sys2Proof.Config
end

