-- ==== Sys2Proof/Machine/Bits.lean ====
section
/-!
DEFINITION. Bit fields, byte order, the two CRCs of the manual and the canonical sparse memory, over plain data.
Nothing here reads the machine's state.
-/
namespace Sys2Proof.Machine

/-- The `len`-bit field of `n` that starts at bit `lo`. -/
def fld (n lo len : Nat) : Nat := n / 2 ^ lo % 2 ^ len

/-- Bit `i` of `n`. -/
def bitAt (n i : Nat) : Bool := n / 2 ^ i % 2 == 1

/-- A flag as the bit a register shows. -/
def bit (b : Bool) : Nat := if b then 1 else 0

/-- `n` read as a `w`-bit two's-complement number. -/
def signed (w n : Nat) : Int := if n % 2 ^ w < 2 ^ (w - 1) then (n % 2 ^ w : Nat) else ((n % 2 ^ w : Nat) : Int) - 2 ^ w

/-- An integer as its `w`-bit two's-complement pattern. -/
def unsigned (w : Nat) (x : Int) : Nat := (x % (2 ^ w : Nat)).toNat

/-- The little-endian value of a byte string (R6). -/
def leNat : List Byte → Nat
  | [] => 0
  | b :: t => b.toNat + 256 * leNat t

/-- `k` little-endian bytes of `n` (R6). -/
def leBytes : Nat → Nat → List Byte
  | 0, _ => []
  | k + 1, n => BitVec.ofNat 8 n :: leBytes k (n / 256)

/-- `k` bytes of `n`, the most significant first (a field whose standard fixes that order). -/
def beBytes (k n : Nat) : List Byte := (leBytes k n).reverse

/-- The 32-bit little-endian words of a byte string; a short tail is read as if zeros followed. -/
def leWords : Nat → List Byte → List W32
  | 0, _ => []
  | k + 1, b => BitVec.ofNat 32 (leNat (b.take 4)) :: leWords k (b.drop 4)

/-- The bytes of a list of 32-bit words, little-endian (R6). -/
def wordsBytes (ws : List W32) : List Byte := ws.flatMap fun w => leBytes 4 w.toNat

/-- `bs` followed by zeros up to `k` bytes, cut at `k`. -/
def padTo (k : Nat) (bs : List Byte) : List Byte := (bs ++ List.replicate (k - bs.length) 0).take k

/-- Least multiple of `a` at or above `n`. -/
def alignUp (n a : Nat) : Nat := (n + a - 1) / a * a

/-- Eight steps of the reflected CRC-32C shift register. -/
def crc32cByte : Nat → Nat → Nat
  | 0, c => c
  | k + 1, c => crc32cByte k (if c % 2 == 1 then (c / 2) ^^^ 0x82F63B78 else c / 2)

/-- The CRC-32C register after a byte string. -/
def crc32cGo (c : Nat) : List Byte → Nat
  | [] => c
  | b :: t => crc32cGo (crc32cByte 8 (c ^^^ b.toNat)) t

/-- CRC-32C, polynomial 0x1EDC_6F41, initial value and final XOR 0xFFFF_FFFF (R133). -/
def crc32c (bs : List Byte) : W32 := BitVec.ofNat 32 (crc32cGo 0xFFFFFFFF bs ^^^ 0xFFFFFFFF)

/-- Eight steps of the CRC-16 shift register of polynomial 0x1021, most significant bit first. -/
def crc16Byte : Nat → Nat → Nat
  | 0, c => c
  | k + 1, c => crc16Byte k (if c / 0x8000 % 2 == 1 then (c * 2 % 0x10000) ^^^ 0x1021 else c * 2 % 0x10000)

/-- CRC-16 with polynomial 0x1021 and initial value 0xFFFF (R243). -/
def crc16 (bs : List Byte) : Nat := bs.foldl (fun c b => crc16Byte 8 (c ^^^ (b.toNat * 256))) 0xFFFF

/-! ### The canonical sparse memory -/

/-- A memory: addresses strictly rising, no entry 0; an unlisted address reads 0 (log entry 4). -/
abbrev Mem := List Host.Cell

/-- The byte at an address. -/
def Mem.read : Mem → Nat → Byte
  | [], _ => 0
  | (k, v) :: t, a => if a = k then v else if a < k then 0 else Mem.read t a

/-- Write one byte, keeping the canonical form. -/
def Mem.write : Mem → Nat → Byte → Mem
  | [], a, b => if b = 0 then [] else [(a, b)]
  | (k, v) :: t, a, b =>
    if a = k then (if b = 0 then t else (k, b) :: t)
    else if a < k then (if b = 0 then (k, v) :: t else (a, b) :: (k, v) :: t)
    else (k, v) :: Mem.write t a b

/-- The `k` bytes from an address. -/
def Mem.readN (m : Mem) (a : Nat) : Nat → List Byte
  | 0 => []
  | k + 1 => m.read a :: Mem.readN m (a + 1) k

/-- Write a byte string from an address upwards. -/
def Mem.writeN (m : Mem) (a : Nat) : List Byte → Mem
  | [] => m
  | b :: t => Mem.writeN (m.write a b) (a + 1) t

/-- Zeros in the `n` bytes from `a`. -/
def Mem.clear (m : Mem) (a n : Nat) : Mem := m.filter fun c => !(decide (a ≤ c.1) && decide (c.1 < a + n))

/-- Every address above `a` is rising and no byte is 0. -/
def Mem.wfFrom : Nat → Mem → Bool
  | _, [] => true
  | a, (k, v) :: t => decide (a ≤ k) && (v != 0) && Mem.wfFrom (k + 1) t

/-- The canonical form of a memory. -/
def Mem.wf (m : Mem) : Bool := Mem.wfFrom 0 m

/-! ### Sorted sets of numbers: poisoned words, mapped indices, failed granules -/

/-- Put a number into a rising list. -/
def insNat (a : Nat) : List Nat → List Nat
  | [] => [a]
  | k :: t => if a = k then k :: t else if a < k then a :: k :: t else k :: insNat a t

/-- The numbers `lo`, …, `lo + n − 1`. -/
def range' (lo n : Nat) : List Nat := (List.range n).map (lo + ·)

/-- Mark (`p`) or unmark the 8-byte words that hold the bytes `a` to `a + n − 1`. -/
def setPoison (ps : List Nat) (a n : Nat) (p : Bool) : List Nat :=
  let ws := range' (a / 8) ((a + n + 7) / 8 - a / 8)
  if p then ws.foldl (fun l w => insNat w l) ps else ps.filter fun w => !ws.contains w

/-- Whether a word that holds one of the bytes `a` to `a + n − 1` is marked. -/
def anyPoison (ps : List Nat) (a n : Nat) : Bool := n != 0 && ps.any fun w => decide (a / 8 ≤ w) && decide (w ≤ (a + n - 1) / 8)

/-! ### Lists as register files and tables -/

/-- Change entry `i`; an index outside the list changes nothing. -/
def upd {α : Type} (l : List α) (i : Nat) (f : α → α) : List α := l.modify i f

/-- The value kept for a key. -/
def getKey {α β : Type} [BEq α] (l : List (α × β)) (k : α) : Option β := (l.find? fun x => x.1 == k).map fun x => x.2
/-- Keep a value for a key. -/
def setKey {α β : Type} [BEq α] (l : List (α × β)) (k : α) (v : β) : List (α × β) := l.filter (fun x => !(x.1 == k)) ++ [(k, v)]

/-- The position of the first element that meets a test. -/
def firstIdx {α : Type} (p : α → Bool) (l : List α) : Option Nat := l.findIdx? p

end Sys2Proof.Machine
end

