-- ==== Sys2Proof/Machine/Arith.lean ====
section
/-!
DEFINITION. Number formats and arithmetic of the Geodes (06_arithmetic.md): exact dyadic values, one rounding, the
matrix sum, the vector unit's operations, stochastic rounding. Nothing here reads the machine's state.
-/
namespace Sys2Proof.Machine

/-- The element types of a descriptor, in the order of their `ETYPE` codes (R112). -/
inductive EType where
  | e4m3 | e5m2 | int8 | bf16 | fp16 | fp32 | int32
  deriving DecidableEq, Repr

/-- The type an `ETYPE` code names; 7 is reserved (R112). -/
def EType.ofCode : Nat → Option EType
  | 0 => some .e4m3 | 1 => some .e5m2 | 2 => some .int8 | 3 => some .bf16 | 4 => some .fp16 | 5 => some .fp32 | 6 => some .int32
  | _ => none

/-- Bytes of one element (R113). -/
def EType.size : EType → Nat
  | .e4m3 | .e5m2 | .int8 => 1
  | .bf16 | .fp16 => 2
  | .fp32 | .int32 => 4

/-- Whether the type is one of the two FP8 types. -/
def EType.fp8 : EType → Bool
  | .e4m3 | .e5m2 => true
  | _ => false

/-- An exact value: NaN, a signed infinity, or a signed integer multiple of a power of two (a zero keeps its sign). -/
inductive Num where
  | nan
  | inf (neg : Bool)
  | fin (neg : Bool) (m : Nat) (e : Int)
  deriving DecidableEq, Repr

/-- Exponent bits, mantissa bits, bias, the code of the largest finite magnitude and the canonical NaN of a floating
type (R136, R137). -/
structure Fmt where
  eb : Nat
  mb : Nat
  bias : Int
  top : Nat
  nan : Nat
  deriving DecidableEq, Repr

/-- The parameters of R136 and R137; an integer type has none. -/
def EType.fmt : EType → Option Fmt
  | .e4m3 => some ⟨4, 3, 7, 0x7E, 0x7F⟩
  | .e5m2 => some ⟨5, 2, 15, 0x7B, 0x7E⟩
  | .bf16 => some ⟨8, 7, 127, 0x7F7F, 0x7FC0⟩
  | .fp16 => some ⟨5, 10, 15, 0x7BFF, 0x7E00⟩
  | .fp32 => some ⟨8, 23, 127, 0x7F7FFFFF, 0x7FC00000⟩
  | _ => none

/-- The value of a bit pattern (R136, R137); an E4M3 magnitude of 0x7F is its only NaN. -/
def decodeNum (t : EType) (b : Nat) : Num :=
  match t.fmt with
  | none =>
    let x := signed (8 * t.size) b
    .fin (decide (x < 0)) x.natAbs 0
  | some f =>
    let neg := bitAt b (f.eb + f.mb)
    let ex := fld b f.mb f.eb
    let m := fld b 0 f.mb
    if ex * 2 ^ f.mb + m > f.top then (if t ≠ .e4m3 ∧ m = 0 then .inf neg else .nan)
    else if ex = 0 then .fin neg m (1 - f.bias - f.mb)
    else .fin neg (2 ^ f.mb + m) ((ex : Int) - f.bias - f.mb)

/-- The unbiased exponent of an element that has one (R141): zeros, infinities and NaNs have none. -/
def elemExp (t : EType) (b : Nat) : Option Int :=
  match t.fmt with
  | none => none
  | some f =>
    let ex := fld b f.mb f.eb
    let m := fld b 0 f.mb
    if ex * 2 ^ f.mb + m > f.top then none
    else if ex = 0 then (if m = 0 then none else some (1 - f.bias))
    else some ((ex : Int) - f.bias)

/-- The magnitude `m`·2^`e` as a count of quanta 2^`q`, rounded to nearest even, or stochastically with the 16-bit
number `r` (R146, R147). -/
def roundAt (r : Option Nat) (q : Int) (m : Nat) (e : Int) : Nat :=
  if q ≤ e then m * 2 ^ (e - q).toNat
  else
    let d := 2 ^ (q - e).toNat
    let a := m / d
    let rest := m % d
    match r with
    | none => if 2 * rest > d ∨ (2 * rest = d ∧ a % 2 = 1) then a + 1 else a
    | some x => if x < 2 ^ 16 * rest / d then a + 1 else a

/-- The magnitude code of `m`·2^`e` in a floating format, not yet limited to the largest finite value. -/
def packMag (f : Fmt) (r : Option Nat) (m : Nat) (e : Int) : Nat :=
  if m = 0 then 0
  else
    let emin := 1 - f.bias
    let q := max ((Nat.log2 m : Int) + e) emin - f.mb
    let n := roundAt r q m e
    if n = 0 then 0
    else
      let tp := (Nat.log2 n : Int) + q
      if tp < emin then n
      else (tp + f.bias).toNat * 2 ^ f.mb + (n * 2 ^ f.mb / 2 ^ Nat.log2 n - 2 ^ f.mb)

/-- Convert a value into a stored type (R138, R139): FP8 saturates, BF16, FP16 and FP32 overflow to infinity, an FP32
result below the smallest normal is flushed, an integer type saturates and takes a NaN as 0. -/
def encodeNum (t : EType) (r : Option Nat) (x : Num) : Nat :=
  match t.fmt with
  | none =>
    let w := 8 * t.size
    let hi : Int := 2 ^ (w - 1) - 1
    match x with
    | .nan => 0
    | .inf neg => unsigned w (if neg then -hi - 1 else hi)
    | .fin neg m e =>
      let n : Int := roundAt none 0 m e
      unsigned w (max (-hi - 1) (min hi (if neg then -n else n)))
  | some f =>
    let sgn (neg : Bool) : Nat := bit neg * 2 ^ (f.eb + f.mb)
    let infCode := (2 ^ f.eb - 1) * 2 ^ f.mb
    match x with
    | .nan => f.nan
    | .inf neg => if t = .e4m3 then f.nan else sgn neg + infCode
    | .fin neg m e =>
      let c := packMag f (if t = .fp32 then none else r) m e
      if c > f.top then sgn neg + (if t.fp8 then f.top else infCode)
      else if t = .fp32 ∧ c < 2 ^ f.mb then sgn neg
      else sgn neg + c

/-- A value rounded to nearest even to FP32, with the flush of R138. -/
def toF32 (x : Num) : W32 := BitVec.ofNat 32 (encodeNum .fp32 none x)

/-- The exact value of FP32 bits, a subnormal kept (R138: conversions into BF16 take such a lane at its value). -/
def valRaw (b : W32) : Num := decodeNum .fp32 b.toNat

/-- An FP32 operand of the array or the vector unit: a subnormal is a zero of the same sign (R138). -/
def val (b : W32) : Num :=
  if fld b.toNat 23 8 = 0 then .fin (bitAt b.toNat 31) 0 0 else decodeNum .fp32 b.toNat

/-- The canonical FP32 NaN (R137). -/
def qNaN : W32 := 0x7FC00000
/-- FP32 1.0. -/
def one32 : W32 := 0x3F800000

/-- An element read as FP32 (R145 VLD): exact but for INT32; a subnormal BF16 element keeps its value as a lane, a
subnormal FP32 element is taken as zero (R138). -/
def elemF32 (t : EType) (b : Nat) : W32 :=
  if t = .bf16 ∧ fld b 7 8 = 0 then BitVec.ofNat 32 (b % 2 ^ 16 * 2 ^ 16)
  else BitVec.ofNat 32 (encodeNum .fp32 none (decodeNum t b))

/-! ### Exact operations -/

/-- Two magnitudes over a common exponent. -/
def alignNum (m1 : Nat) (e1 : Int) (m2 : Nat) (e2 : Int) : Nat × Nat × Int :=
  let e := min e1 e2
  (m1 * 2 ^ (e1 - e).toNat, m2 * 2 ^ (e2 - e).toNat, e)

/-- Change the sign. -/
def Num.neg : Num → Num
  | .nan => .nan
  | .inf s => .inf !s
  | .fin s m e => .fin (!s) m e

/-- IEEE 754 addition, exact. -/
def Num.add : Num → Num → Num
  | .nan, _ => .nan
  | _, .nan => .nan
  | .inf s, .inf t => if s = t then .inf s else .nan
  | .inf s, .fin _ _ _ => .inf s
  | .fin _ _ _, .inf t => .inf t
  | .fin s m e, .fin t n d =>
    let (a, b, q) := alignNum m e n d
    let x : Int := (if s then -(a : Int) else a) + (if t then -(b : Int) else b)
    if x = 0 then .fin (s && t) 0 0 else .fin (decide (x < 0)) x.natAbs q

/-- IEEE 754 multiplication, exact. -/
def Num.mul : Num → Num → Num
  | .nan, _ => .nan
  | _, .nan => .nan
  | .inf s, .inf t => .inf (s != t)
  | .inf s, .fin t m _ => if m = 0 then .nan else .inf (s != t)
  | .fin s m _, .inf t => if m = 0 then .nan else .inf (s != t)
  | .fin s m e, .fin t n d => .fin (s != t) (m * n) (e + d)

/-- Whether the first value is the greater; never with a NaN. -/
def Num.gt : Num → Num → Bool
  | .nan, _ => false
  | _, .nan => false
  | .inf s, .inf t => !s && t
  | .inf s, .fin _ _ _ => !s
  | .fin _ _ _, .inf t => t
  | .fin s m e, .fin t n d =>
    let (a, b, _) := alignNum m e n d
    decide ((if t then -(b : Int) else b) < (if s then -(a : Int) else a))

/-- Whether the value is a NaN. -/
def Num.isNaN : Num → Bool
  | .nan => true
  | _ => false

def fAdd (a b : W32) : W32 := toF32 ((val a).add (val b))
def fSub (a b : W32) : W32 := toF32 ((val a).add (val b).neg)
def fMul (a b : W32) : W32 := toF32 ((val a).mul (val b))
/-- Fused multiply-add, rounded once (R123). -/
def fFma (a b c : W32) : W32 := toF32 (((val a).mul (val b)).add (val c))
/-- The sign of FP32 bits. -/
def signF (a : W32) : Bool := bitAt a.toNat 31
/-- Maximum (R145): a NaN in either operand gives NaN, and max(+0, −0) = +0. -/
def fMax (a b : W32) : W32 :=
  let x := val a
  let y := val b
  if x.isNaN || y.isNaN then qNaN else if x.gt y then toF32 x else if y.gt x then toF32 y else if signF a then toF32 y else toF32 x
/-- Minimum (R145): a NaN in either operand gives NaN, and min(+0, −0) = −0. -/
def fMin (a b : W32) : W32 :=
  let x := val a
  let y := val b
  if x.isNaN || y.isNaN then qNaN else if x.gt y then toF32 y else if y.gt x then toF32 x else if signF a then toF32 x else toF32 y
/-- Greater-than as 1.0 or 0.0 (R123, R145). -/
def fGt (a b : W32) : W32 := if (val a).gt (val b) then one32 else 0
/-- ReLU (R142): x when x > 0, NaN when x is NaN, +0 otherwise. -/
def fRelu (a : W32) : W32 :=
  let x := val a
  if x.isNaN then qNaN else if x.gt (.fin false 0 0) then toF32 x else 0
/-- Absolute value. -/
def fAbs (a : W32) : W32 :=
  match val a with
  | .nan => qNaN
  | .inf _ => toF32 (.inf false)
  | .fin _ m e => toF32 (.fin false m e)
def fNeg (a : W32) : W32 := toF32 (val a).neg
def fCopy (a : W32) : W32 := toF32 (val a)

/-! ### Operations within an error bound -/

/-- `n`/`d`·2^`e` truncated to 24 significant bits: mantissa, exponent of its last bit, and whether that is exact. -/
def truncQ (n d : Nat) (e : Int) : Nat × Int × Bool :=
  let s := 26 + Nat.log2 d
  let q := n * 2 ^ s / d
  let k := Nat.log2 q - 23
  (q / 2 ^ k, e - s + k, n * 2 ^ s % d == 0 && q % 2 ^ k == 0)

/-- A result within 1 unit in the last place: the truncated value or the next one when the exact value is not
representable, else it or a neighbour. -/
def within1 (neg : Bool) (t : Nat × Int × Bool) (pick : Nat) : W32 :=
  toF32 (.fin neg (if t.2.2 then t.1 + pick % 3 - 1 else t.1 + pick % 2) t.2.1)

/-- A result within 2 units in the last place of the exact value. -/
def within2 (neg : Bool) (t : Nat × Int × Bool) (pick : Nat) : W32 :=
  toF32 (.fin neg (if t.2.2 then t.1 + pick % 5 - 2 else t.1 + pick % 4 - 1) t.2.1)

/-- Reciprocal within 1 unit in the last place (R145). -/
def fRecip (a : W32) : W32 :=
  match val a with
  | .nan => qNaN
  | .inf s => toF32 (.fin s 0 0)
  | .fin s m e => if m = 0 then toF32 (.inf s) else within1 s (truncQ 1 m (-e)) (Config.recipPick a)

/-- Division within 1 unit in the last place (R145, VADAMW), with IEEE 754 special operands. -/
def fDiv (a b : W32) : W32 :=
  match val a, val b with
  | .nan, _ => qNaN
  | _, .nan => qNaN
  | .inf _, .inf _ => qNaN
  | .inf s, .fin t _ _ => toF32 (.inf (s != t))
  | .fin s _ _, .inf t => toF32 (.fin (s != t) 0 0)
  | .fin s m e, .fin t n d =>
    if n = 0 then (if m = 0 then qNaN else toF32 (.inf (s != t)))
    else if m = 0 then toF32 (.fin (s != t) 0 0)
    else within1 (s != t) (truncQ m n (e - d)) (Config.divPick a b)

/-- Integer square root, one result bit per step from bit `k` − 1 down. -/
def isqrtGo (n : Nat) : Nat → Nat → Nat
  | 0, r => r
  | k + 1, r => isqrtGo n k (if (r + 2 ^ k) * (r + 2 ^ k) ≤ n then r + 2 ^ k else r)

/-- Integer square root. -/
def isqrt (n : Nat) : Nat := isqrtGo n (Nat.log2 n / 2 + 1) 0

/-- Reciprocal square root within 1 unit in the last place (R145). -/
def fRsqrt (a : W32) : W32 :=
  match val a with
  | .nan => qNaN
  | .inf s => if s then qNaN else 0
  | .fin s m e =>
    if m = 0 then toF32 (.inf s)
    else if s then qNaN
    else
      let m := if e % 2 = 0 then m else 2 * m
      let e := if e % 2 = 0 then e else e - 1
      let k := 26 + Nat.log2 m
      let q := 2 ^ (2 * k) / m
      let r := isqrt q
      let t := truncQ r 1 (-(e / 2) - k)
      within1 false (t.1, t.2.1, t.2.2 && r * r * m == 2 ^ (2 * k)) (Config.rsqrtPick a)

/-- Square root, correctly rounded (R145, VADAMW). -/
def fSqrt (a : W32) : W32 :=
  match val a with
  | .nan => qNaN
  | .inf s => if s then qNaN else toF32 (.inf false)
  | .fin s m e =>
    if m = 0 then toF32 (.fin s 0 0)
    else if s then qNaN
    else
      let m := if e % 2 = 0 then m else 2 * m
      let e := if e % 2 = 0 then e else e - 1
      let n := m * 2 ^ 60
      let r := isqrt n
      toF32 (.fin false (2 * r + (if r * r = n then 0 else 1)) (e / 2 - 31))

/-- ln 2 in units of 2^-200. -/
def ln2Fix : Nat := 1113844574712631719546256151097547306333272293549090750737802

/-- The Taylor sum of exp in units of 2^-200: `k` more terms, the last one having been `term`, of index `i`. -/
def expSeries (x : Nat) : Nat → Nat → Nat → Nat → Nat
  | 0, _, _, acc => acc
  | k + 1, i, term, acc =>
    let t := term * x / 2 ^ 200 / (i + 1)
    expSeries x k (i + 1) t (acc + t)

/-- exp of (−1)^`neg`·`m`·2^`e` as a mantissa of about 200 bits and its exponent. -/
def expFix (neg : Bool) (m : Nat) (e : Int) : Nat × Int :=
  let x : Nat := if 0 ≤ e + 200 then m * 2 ^ (e + 200).toNat else m / 2 ^ (-(e + 200)).toNat
  let k : Int := if neg then -((x + ln2Fix - 1) / ln2Fix : Nat) else (x / ln2Fix : Nat)
  let r : Nat := ((if neg then -(x : Int) else x) - k * ln2Fix).toNat
  (expSeries r 50 0 (2 ^ 200) (2 ^ 200), k - 200)

/-- Whether the magnitude `m`·2^`e` is above `h` hundredths. -/
def aboveHundredths (m : Nat) (e : Int) (h : Nat) : Bool :=
  let (a, b, _) := alignNum (100 * m) e h 0
  decide (b < a)

/-- exp within 2 units in the last place from −87.33 to 88.72 (R145). -/
def fExp (a : W32) : W32 :=
  match val a with
  | .nan => qNaN
  | .inf s => if s then 0 else toF32 (.inf false)
  | .fin s m e =>
    if s && aboveHundredths m e 8733 then 0
    else if !s && aboveHundredths m e 8872 then toF32 (.inf false)
    else
      let (n, q) := expFix s m e
      let t := truncQ n 1 q
      within2 false (t.1, t.2.1, decide (m = 0)) (Config.expPick a)

/-- Sigmoid within 2 units in the last place where the result is normal (R145). -/
def fSigmoid (a : W32) : W32 :=
  match val a with
  | .nan => qNaN
  | .inf s => if s then 0 else one32
  | .fin s m e =>
    if s && aboveHundredths m e 10400 then 0
    else if !s && aboveHundredths m e 10400 then within2 false (0xFFFFFF, -24, false) (Config.sigmoidPick a)
    else
      let (n, q) := expFix s m e
      let num := n * 2 ^ (q + 400).toNat
      let t := truncQ num (2 ^ 400 + num) 0
      within2 false (t.1, t.2.1, decide (m = 0)) (Config.sigmoidPick a)

/-! ### Reductions -/

/-- One level of the pairwise tree: lanes 2i and 2i + 1 (R123). -/
def pairUp (f : W32 → W32 → W32) : List W32 → List W32
  | a :: b :: t => f a b :: pairUp f t
  | l => l

/-- The fixed pairwise tree over 64 lanes (R123). -/
def treeRed (f : W32 → W32 → W32) (l : List W32) : W32 :=
  (pairUp f (pairUp f (pairUp f (pairUp f (pairUp f (pairUp f l)))))).headD 0

/-- 2^-6 as FP32. -/
def inv64 : W32 := 0x3C800000

/-- Mean and reciprocal square root of variance plus ε (R145, VMOMENTS). -/
def moments (l : List W32) (eps : W32) : W32 × W32 :=
  let mean := fMul (treeRed fAdd l) inv64
  let sq := l.map fun x => let d := fSub x mean; fMul d d
  (mean, fRsqrt (fAdd (fMul (treeRed fAdd sq) inv64) eps))

/-- FP32 lane to INT32 and back (R123 VCVT, R145). -/
def f32ToI32 (a : W32) : W32 := BitVec.ofNat 32 (encodeNum .int32 none (val a))
def i32ToF32 (a : W32) : W32 := toF32 (decodeNum .int32 a.toNat)

/-! ### The matrix sum -/

/-- The larger of two exponents, either of which may be absent. -/
def maxExp : Option Int → Option Int → Option Int
  | none, b => b
  | a, none => a
  | some a, some b => some (max a b)

/-- The largest exponent among elements that have one (R141: E_W and, for a raw block, E_X). -/
def blockExp (t : EType) (l : List Nat) : Option Int := l.foldl (fun a b => maxExp a (elemExp t b)) none

/-- The exact product of R140: a product with a zero operand is +0, whatever the other operand. -/
def matProduct (tx tw : EType) (x w : Nat) : Num :=
  match decodeNum tx x, decodeNum tw w with
  | .fin _ 0 _, _ => .fin false 0 0
  | _, .fin _ 0 _ => .fin false 0 0
  | a, b => a.mul b

/-- One finite product in units of 2^(A − 48), its magnitude truncated towards zero (R141). -/
def accTerm (lsb : Int) : Num → Int
  | .fin s m e =>
    let t : Nat := if lsb ≤ e then m * 2 ^ (e - lsb).toNat else m / 2 ^ (lsb - e).toNat
    if s then -(t : Int) else t
  | _ => 0

/-- One result of the array before the epilogue (R141, R142): the products of an X block and a tile column, summed in
the accumulator aligned to `A`, added to the partial sum and rounded once. -/
def matSum (prods : List Num) (A : Int) (p : W32) : W32 :=
  let special := val p :: prods.filter fun x => match x with | .fin _ _ _ => false | _ => true
  let posInf := special.contains (.inf false)
  let negInf := special.contains (.inf true)
  if special.contains .nan || (posInf && negInf) then qNaN
  else if posInf then toF32 (.inf false)
  else if negInf then toF32 (.inf true)
  else if prods.all fun x => match x with | .fin _ 0 _ => true | _ => false then toF32 (val p)
  else
    let s := prods.foldl (fun a x => a + accTerm (A - 48) x) 0
    match (val p).add (.fin (decide (s < 0)) s.natAbs (A - 48)) with
    | .fin _ 0 _ => 0
    | x => toF32 x

/-- One element of an array row in a floating mode: `xs` and `ws` are the X block and the tile column, `ex` is E_X. -/
def matElem (tx tw : EType) (xs ws : List Nat) (ex : Option Int) (p : W32) : W32 :=
  let A : Int := match ex, blockExp tw ws with
    | some a, some b => a + b + 2
    | _, _ => 0
  matSum (List.zipWith (matProduct tx tw) xs ws) A p

/-- One element of an INT8 row (R144): an exact sum, then the partial sum with saturation. -/
def matElemInt (xs ws : List Nat) (p : W32) : W32 :=
  let s := (List.zipWith (fun x w => signed 8 x * signed 8 w) xs ws).foldl (· + ·) 0
  BitVec.ofNat 32 (unsigned 32 (max (-2 ^ 31) (min (2 ^ 31 - 1) (s + signed 32 p.toNat))))

/-- The epilogue in FP32 (R120 EPI, R142), with the lane of V[VS]. -/
def epilogue (epi : Nat) (v y : W32) : W32 :=
  match epi with
  | 1 => fMul y v
  | 2 => fRelu y
  | 3 => fRelu (fMul y v)
  | 4 => fAdd y v
  | 5 => fRelu (fAdd y v)
  | _ => y

/-- ReLU of an INT8-mode row (R144). -/
def intRelu (y : W32) : W32 := if signed 32 y.toNat > 0 then y else 0

/-! ### Random numbers -/

/-- The mixing function of R148. -/
def mix (z : Nat) : Nat :=
  let z := ((z ^^^ (z / 2 ^ 30)) * 0xBF58476D1CE4E5B9) % 2 ^ 64
  let z := ((z ^^^ (z / 2 ^ 27)) * 0x94D049BB133111EB) % 2 ^ 64
  z ^^^ (z / 2 ^ 31)

/-- The 16-bit random number of element `e` of interval `n` (R148): seed base K, Geode and slot. -/
def randElem (K n geode slot e : Nat) : Nat :=
  let key := mix ((K ^^^ (n * 0x9E3779B97F4A7C15 % 2 ^ 64)) % 2 ^ 64)
  let w := mix ((key ^^^ ((geode * 2 ^ 56 + slot * 2 ^ 54 + e / 4) % 2 ^ 64)) % 2 ^ 64)
  fld w (16 * (e % 4)) 16

/-! ### Trackers -/

/-- A magnitude in units of 2^-149, which every FP32 and INT32 magnitude is a multiple of; NaNs and infinities have
none (R151). -/
def magUnits : Num → Option Nat
  | .fin _ m e => some (if 0 ≤ e + 149 then m * 2 ^ (e + 149).toNat else m / 2 ^ (-(e + 149)).toNat)
  | _ => none

/-- The scale of R153: 2^e with e = floor(log2 (F ÷ m)) limited to −126 … 127, for the maximum `m` in units of 2^-149
and F = 448 (E4M3) or 57,344 (E5M2). -/
def deriveScale (e5m2 : Bool) (m : Nat) : W32 :=
  let f := (if e5m2 then 57344 else 448) * 2 ^ 149
  let d : Int := (Nat.log2 f : Int) - Nat.log2 m
  let fits : Bool := if 0 ≤ d then decide (m * 2 ^ d.toNat ≤ f) else decide (m ≤ f * 2 ^ (-d).toNat)
  let e := if fits then d else d - 1
  BitVec.ofNat 32 ((max (-126) (min 127 e) + 127).toNat * 2 ^ 23)

end Sys2Proof.Machine
end

