-- ==== Sys2Proof/Machine/Calcite.lean ====
section
/-!
DEFINITION. Calcite coding (07_calcite.md): element fields, block forms, the canonical coder, the expander's checks,
groups and the index. A flag `bf` tells BF16 blocks (32 elements) from FP8 blocks (64 elements).
-/
namespace Sys2Proof.Machine

/-- Elements in a block (R113). -/
def calN (bf : Bool) : Nat := if bf then 32 else 64
/-- Raw-field width w (R160, R163). -/
def calW (bf : Bool) : Nat := if bf then 8 else 4
/-- The exponent code of an element (R160). -/
def calCode (bf : Bool) (x : Nat) : Nat := if bf then fld x 7 8 else fld x 3 4
/-- The raw field of an element (R160). -/
def calRaw (bf : Bool) (x : Nat) : Nat := if bf then fld x 15 1 * 128 + fld x 0 7 else fld x 7 1 * 8 + fld x 0 3
/-- Join an exponent code and a raw field (R160). -/
def calJoin (bf : Bool) (c r : Nat) : Nat :=
  if bf then r / 128 * 2 ^ 15 + c * 2 ^ 7 + r % 128 else r / 8 * 2 ^ 7 + c * 2 ^ 3 + r % 8

/-- The raw bytes of a block's elements, and back. -/
def calBytes (bf : Bool) (xs : List Nat) : List Byte := xs.flatMap fun x => leBytes (if bf then 2 else 1) x
/-- `k` elements of `sz` bytes each, from a byte string. -/
def elemsOf (sz : Nat) : Nat → List Byte → List Nat
  | 0, _ => []
  | k + 1, b => leNat (b.take sz) :: elemsOf sz k (b.drop sz)

/-- Fields, lowest first, packed into one little-endian bit stream (R164): pairs of value and width. -/
def packFields : List (Nat × Nat) → Nat
  | [] => 0
  | (v, w) :: t => v % 2 ^ w + 2 ^ w * packFields t

/-- The smallest delta width 0 … 4 that covers a span of exponent codes (R166). -/
def calDelta (span : Nat) : Option Nat := (List.range 5).find? fun d => decide (span ≤ 2 ^ d - 1)

/-- The lowest and the highest exponent code of some elements. -/
def codeRange (bf : Bool) (xs : List Nat) : Nat × Nat :=
  let cs := xs.map (calCode bf)
  (cs.foldl min 255, cs.foldl max 0)

/-- The length of a coded form (R163): mask present, coded elements, delta width. -/
def calSize (bf zf : Bool) (n d : Nat) : Nat := 2 + ((if zf then calN bf else 0) + n * (calW bf + d) + 7) / 8

/-- The canonical coding of a block (R166, R167). -/
def calEncode (bf : Bool) (xs : List Nat) : List Byte :=
  let nz := xs.filter (· != 0)
  if nz.isEmpty then [0x00, 0x05]
  else
    let r0 := codeRange bf xs
    let r1 := codeRange bf nz
    let size (zf : Bool) (n : Nat) (r : Nat × Nat) : Option Nat := (calDelta (r.2 - r.1)).map (calSize bf zf n)
    let s0 := size false xs.length r0
    let s1 := size true nz.length r1
    let zf : Bool := match s0, s1 with
      | some a, some b => decide (b < a)
      | none, some _ => true
      | _, none => false
    let picked := if zf then s1 else s0
    match picked with
    | some len =>
      if 64 < len then leBytes 2 (r0.2 + 2 ^ 12) ++ calBytes bf xs
      else
        let s := if zf then nz else xs
        let lo := if zf then r1.1 else r0.1
        let d := (calDelta (if zf then r1.2 - r1.1 else r0.2 - r0.1)).getD 0
        let header := lo + d * 2 ^ 8 + bit zf * 2 ^ 11
        let mask := if zf then xs.map fun x => (bit (x != 0), 1) else []
        leBytes 2 header ++ leBytes (len - 2) (packFields (mask ++ s.map (fun x => (calRaw bf x, calW bf)) ++ s.map fun x => (calCode bf x - lo, d)))
    | none => leBytes 2 (r0.2 + 2 ^ 12) ++ calBytes bf xs

/-- The fields of a block header (R162). -/
structure CalHeader where
  base : Nat
  ecode : Nat
  zf : Bool
  esc : Bool
  rsv : Nat
  deriving DecidableEq, Repr

/-- The header in the first two bytes. -/
def calHeader (b : List Byte) : CalHeader :=
  let h := leNat (b.take 2)
  ⟨fld h 0 8, fld h 8 3, bitAt h 11, bitAt h 12, fld h 13 3⟩

/-- Whether the header names one of the forms of R163 (else cause 2). -/
def CalHeader.legal (bf : Bool) (h : CalHeader) : Bool :=
  h.rsv == 0 && decide (h.ecode < 6) && (bf || decide (h.base < 16)) &&
    (if h.esc then h.ecode == 0 && !h.zf else if h.ecode == 5 then !h.zf && h.base == 0 else true)

/-- The mask bits of a masked block, or ones for every element. -/
def calMask (bf : Bool) (h : CalHeader) (b : List Byte) : List Bool :=
  if h.zf then (List.range (calN bf)).map (bitAt (leNat ((b.drop 2).take (calN bf / 8)))) else List.replicate (calN bf) true

/-- The bytes the form declared by the header needs, `len` of them being there (R163, R181 cause 3, R184). -/
def calNeed (bf : Bool) (b : List Byte) (len : Nat) : Nat :=
  let h := calHeader b
  if h.esc then 66
  else if h.ecode = 5 then 2
  else if h.zf && decide (len < 2 + calN bf / 8) then 2 + calN bf / 8
  else calSize bf h.zf ((calMask bf h b).filter id).length h.ecode

/-- Put the coded elements back among the zeros of a mask. -/
def spread : List Bool → List Nat → List Nat
  | [], _ => []
  | true :: m, x :: t => x :: spread m t
  | true :: m, [] => 0 :: spread m []
  | false :: m, l => 0 :: spread m l

/-- Expand a block of declared length `len`: its elements, or the cause of the first check of R181 that fails. -/
def calDecode (bf : Bool) (len : Nat) (b : List Byte) : Except Nat (List Nat) :=
  let h := calHeader b
  let n := calN bf
  if 66 < len then .error 1
  else if len < 2 then .error 3
  else if !h.legal bf then .error 2
  else if len < calNeed bf b len || (!h.esc && h.ecode != 5 && decide (64 < len)) then .error 3
  else if calNeed bf b len < len then .error 4
  else if h.esc then
    let xs := elemsOf (if bf then 2 else 1) n (b.drop 2)
    if xs.any fun x => decide (h.base < calCode bf x) then .error 5 else .ok xs
  else if h.ecode = 5 then .ok (List.replicate n 0)
  else
    let mask := calMask bf h b
    let k := (mask.filter id).length
    let body := leNat ((b.take len).drop 2) / 2 ^ (if h.zf then n else 0)
    let w := calW bf
    let d := h.ecode
    let raws := (List.range k).map fun i => fld body (i * w) w
    let codes := (List.range k).map fun i => h.base + fld body (k * w + i * d) d
    if k = 0 || codes.any (fun c => decide ((if bf then 255 else 15) < c)) then .error 5
    else .ok (spread mask (List.zipWith (calJoin bf) codes raws))

/-- Whether a block is ZERO, which a MATMUL row skips (R154). -/
def calIsZero (b : List Byte) : Bool := let h := calHeader b; h.ecode == 5 && !h.esc

/-- E_X of a coded block (R141), from its header; `t` is E4M3, E5M2 or BF16. -/
def calExp (t : EType) (b : List Byte) : Option Int :=
  let h := calHeader b
  if h.ecode = 5 && !h.esc then none
  else
    let k := min (if h.esc then h.base else h.base + 2 ^ h.ecode - 1) (if t = .bf16 then 255 else 15)
    match t with
    | .e5m2 => let f := min (2 * k + 1) 30; some (if f = 0 then -14 else (f : Int) - 15)
    | .bf16 => let f := min k 254; some (if f = 0 then -126 else (f : Int) - 127)
    | _ => some (if k = 0 then -6 else (k : Int) - 7)

/-- The blocks of a coded queue entry with their declared lengths (R181, R184): one for CALCITE8, two for CALCITE16. The
result is, per block, its bytes and its elements, or the cause; in a CALCITE16 entry a failed first block fails both. -/
def calEntry (fmt16 : Bool) (payload : List Byte) (count : Nat) : List (List Byte × Except Nat (List Nat)) :=
  if !fmt16 then [(payload, calDecode false count payload)]
  else if 132 < count then [(payload, .error 1), (payload, .error 1)]
  else
    let l1 := min (calNeed true payload count) count
    let b2 := payload.drop l1
    match calDecode true l1 payload with
    | .error c => [(payload, .error c), (payload, .error c)]
    | .ok xs => [(payload, .ok xs), (b2, calDecode true (count - l1) b2)]

/-! ### Groups and the index -/

/-- Groups of a coded tensor of `n` blocks (R169). -/
def calGroups (n : Nat) : Nat := (n + 15) / 16

/-- The groups of some coded blocks, packed as the coders place them: data bytes from offset `off` on and the index
entries (R169); the first argument counts groups. -/
def calPack : Nat → Nat → List (List Byte) → List Byte × List Nat
  | 0, _, _ => ([], [])
  | g + 1, off, blocks =>
    let grp := blocks.take 16
    let hdr := padTo 16 (grp.map fun b => BitVec.ofNat 8 b.length)
    let body := hdr ++ grp.flatten
    let next := alignUp (off + body.length) 16
    let (rest, idx) := calPack g next (blocks.drop 16)
    (body ++ List.replicate (if g = 0 then 0 else next - off - body.length) 0 ++ rest, off :: idx)

/-- The span in bytes of a coded tensor from its BASE (R170). -/
def calSpan (stride n : Nat) : Nat := stride + 4 * calGroups n

end Sys2Proof.Machine
end

