-- ==== Sys2Proof/Machine/GeodeState.lean ====
section
/-!
DEFINITION. The state of one Geode as plain data (04_geode_engine.md, 05_stage_programs.md): queues, stage slots, the
firing in progress, the array's tile buffers, the Pocket and the registers.
-/
namespace Sys2Proof.Machine

/-- The overrun classes (R32), in the order of their codes. -/
inductive OClass where
  | realtime | elastic | background
  deriving DecidableEq, Repr

def OClass.code : OClass → Nat
  | .realtime => 0 | .elastic => 1 | .background => 2

def OClass.ofCode : Nat → Option OClass
  | 0 => some .realtime | 1 => some .elastic | 2 => some .background | _ => none

/-- One entry of a queue with the fields of its sideband (R91). -/
structure Entry where
  payload : List Byte := []
  /-- The Quartz timestamp of R52 as a 128-bit number. -/
  ts : Nat := 0
  /-- The origin drip, bits [31:0]. -/
  origin : Nat := 0
  poison : Bool := false
  marker : Bool := false
  cls : OClass := .realtime
  fmt : Nat := 0
  /-- The count of a marker (R33, R37); 0 in a block. -/
  count : Nat := 0
  /-- Whether the entry has been released to consumers (R96). -/
  released : Bool := true
  /-- An uncorrectable ECC error waits in the entry (R90); it shows at the next read. -/
  ue : Bool := false
  /-- The payload bytes themselves came with poison, from a queue or a switch error (R90, R105, R183). -/
  bad : Bool := false
  /-- The slot whose firing pushed it, which alone releases or discards it (R96). -/
  slot : Nat := 0
  deriving DecidableEq, Repr

/-- A queue of a Geode (R90 to R96, R104). -/
structure Queue where
  fmt : Nat := 0
  quota : Nat := 0
  bind : Nat := 0
  peer : Nat := 0
  peerQ : Nat := 0
  /-- Blocks and markers in order, the oldest first. -/
  entries : List Entry := []
  /-- Entries popped and waiting for a commit (R35). -/
  held : List Entry := []
  /-- Markers that wait for a free marker entry (R95). -/
  waiting : List Entry := []
  /-- Credits the producer of an output queue holds (R95). -/
  credit : Nat := 0
  /-- Credits on their way back to the producer of an output queue (R106). -/
  creditDue : Nat := 0
  /-- Blocks released on an output queue by origin drip and slot (4 × drip + slot), for the count of a missing marker (R33, R92). -/
  sent : List (Nat × Nat) := []
  deriving DecidableEq, Repr

/-- A V register: 64 lanes and a poison bit (R111). -/
structure VReg where
  lanes : List W32 := List.replicate 64 0
  poison : Bool := false
  deriving DecidableEq, Repr

/-- One entry of a tracker's history (R151): interval, largest magnitude in units of 2^-149, void. -/
structure TrEntry where
  interval : Nat
  max : Nat
  void : Bool := false
  deriving DecidableEq, Repr

/-- A scale tracker (R132, R151 to R153). -/
structure Tracker where
  scale : W32 := one32
  held : Bool := false
  entries : List TrEntry := []
  /-- The last FP8 type written: 0 none, 1 E4M3, 2 E5M2 (R153, R228). -/
  last : Nat := 0
  /-- The scale in force for outputs of recent origin drips, which carried ELASTIC work keeps (R152). -/
  past : List (Nat × W32) := []
  deriving DecidableEq, Repr

/-- One write of a MOVE to the Gallery that other readers do not yet see (R114, R128, R133, R174): the address in the
context's address space, the bytes, poison, and the fields of the fold's trailer. -/
structure GalWrite where
  addr : Nat
  bytes : List Byte
  poison : Bool
  origin : Nat
  /-- Folded into the signature at its completion (R133): a block, and no group header, index or bare words. -/
  fold : Bool
  /-- Stored; clear for the fold alone of a coded block, whose bytes other writes of the MOVE store. -/
  store : Bool := true
  /-- It has completed (R128). -/
  done : Bool := false
  /-- The encoding MOVE it belongs to, which becomes visible as a whole (R174): its number and the bytes it writes. -/
  enc : Option (Nat × Nat) := none
  deriving DecidableEq, Repr

/-- What a commit saves (R35, R111, R133, R149). -/
structure Saved where
  s : List W32 := List.replicate 32 0
  a : List W32 := List.replicate 16 0
  pc : Nat := 0
  eCount : Nat := 0
  deriving DecidableEq, Repr

/-- `GD_SLOTs_CTRL.STATE` (R104). -/
inductive SlotState where
  | empty | loaded | run | halted
  deriving DecidableEq, Repr

def SlotState.code : SlotState → Nat
  | .empty => 0 | .loaded => 1 | .run => 2 | .halted => 3

/-- A stage slot: its registers (R104, R134), program memory and register files (R111). -/
structure Slot where
  state : SlotState := .empty
  ctx : Nat := 0
  cls : OClass := .realtime
  prio : Nat := 0
  budget : Nat := 0
  budgetNext : Nat := 0
  used : Nat := 0
  first : Nat := 0
  last : Nat := 255
  firstNext : Nat := 0
  lastNext : Nat := 255
  limit : Nat := 0
  base : Nat := 0
  size : Nat := 0
  qin : Nat := 0
  qout : Nat := 0
  cause : Nat := 0
  faultPc : Nat := 0
  /-- The interval of the last program fault, for its record (R414). -/
  faultIv : Nat := 0
  /-- A write of LOADED waits for the end of the firing in progress (R103). -/
  stopping : Bool := false
  prog : List W64 := []
  /-- The image the slot was bound from: context address, identifier of IMAGE_LOAD, Check field (R228). -/
  image : Option (Nat × Nat × Nat) := none
  /-- Instructions whose stored word holds an uncorrectable error (R102). -/
  progUe : List Nat := []
  s : List W32 := List.replicate 32 0
  a : List W32 := List.replicate 16 0
  t : List W128 := List.replicate 32 0
  v : List VReg := List.replicate 16 {}
  pc : Nat := 0
  saved : Saved := {}
  /-- The 64-bit micro-step count (R93). -/
  micro : Nat := 0
  /-- The number of the last stochastic interval and the elements rounded in it (R148, R149). -/
  interval : Option Nat := none
  eCount : Nat := 0
  trk : List Tracker := List.replicate 4 {}
  /-- Observations not yet folded (R151): tracker, interval, magnitude. -/
  obs : List (Nat × Nat × Nat) := []
  /-- Signature accumulators by interval (R133). -/
  acc : List (Nat × W32) := []
  /-- Bytes written by the last completed encoding MOVE (RDSPEC 11). -/
  lastEnc : Nat := 0
  /-- Gallery writes in flight, and completed ones that other readers do not yet see, in issue order. -/
  writes : List GalWrite := []
  deriving DecidableEq, Repr

/-- The firing in progress (R97 to R102). -/
structure Firing where
  slot : Nat
  /-- The drip in which the firing began. -/
  drip : Nat
  cycles : Nat := 0
  /-- The cycles among them stalled on a full commit list, which the limit leaves out (R38, R99). -/
  stalled : Nat := 0
  /-- The limit in force, taken when the firing began (R103). -/
  limit : Nat := 0
  /-- Entries popped from, and blocks pushed to, each queue. -/
  pops : List Nat := List.replicate 24 0
  pushes : List Nat := List.replicate 24 0
  firstOrigin : Option Nat := none
  lastOrigin : Option Nat := none
  /-- Origin drip of the entry popped last (RDSPEC 5); 0 before any pop. -/
  lastPop : Nat := 0
  lastMarker : Option Entry := none
  /-- The stochastic interval number once fixed (R149). -/
  interval : Option Nat := none
  /-- A boundary has passed in a BACKGROUND slot, which is restored at its YIELD (R35, R101). -/
  stopped : Bool := false
  /-- REALTIME: the drip whose boundary this firing has crossed first, and the latest (R33, R101). -/
  missed : List Nat := []
  /-- ELASTIC: a boundary has passed in this firing (R34, R101). -/
  crossed : Bool := false
  /-- A Vein fault has been found: later Y results carry poison (R82). -/
  veinPoison : Bool := false
  /-- Faulty Veins found in this firing, repaired or retired at its end (R82). -/
  veinFaults : Nat := 0
  deriving DecidableEq, Repr

/-- A weight tile buffer (R79, R121): its tag, its elements by column, poison. -/
structure Tile where
  slot : Nat
  tw : Nat
  kt : Nat
  nt : Nat
  transposed : Bool
  etype : EType
  cols : List (List Nat)
  poison : Bool
  deriving DecidableEq, Repr

/-- The known-answer self-test of a Geode (R402). -/
structure Kat where
  pending : Bool := false
  busy : Bool := false
  done : Bool := false
  fail : Bool := false
  unit : Nat := 0
  /-- A fault that the next test will find, with its unit (R415 KAT_FAIL, injected). -/
  latent : Option Nat := none
  deriving DecidableEq, Repr

/-- One Geode. -/
structure Geode where
  spareUsed : Bool := false
  retired : Bool := false
  retirePending : Bool := false
  /-- 1 while the repair of a first faulty Vein is under way (R82 step 4a). -/
  veinPending : Nat := 0
  /-- The slot that fired last (R98, `GD_STATUS.SLOT`). -/
  lastSlot : Nat := 0
  /-- Whether any slot has fired since reset. -/
  fired : Bool := false
  firing : Option Firing := none
  /-- `GD_FAULT`. -/
  fault : W32 := 0
  ceCount : Nat := 0
  /-- The tile buffers in use, the least recently used first; at most two. -/
  tiles : List Tile := []
  pocket : Mem := []
  /-- Poisoned 8-byte Pocket words. -/
  poison : List Nat := []
  /-- Pocket words that hold a correctable, or an uncorrectable, error not yet read. -/
  ce : List Nat := []
  ue : List Nat := []
  /-- The Pocket line the scrub reads next. -/
  scrub : Nat := 0
  queues : List Queue := List.replicate 24 {}
  slots : List Slot := List.replicate 4 {}
  calLog0 : W32 := 0
  calLog1 : W32 := 0
  calCount : Nat := 0
  kat : Kat := {}
  /-- The debug port has halted the sequencer (R434). -/
  halted : Bool := false
  /-- One instruction of a halted sequencer may issue (R434). -/
  step : Bool := false
  deriving DecidableEq, Repr

end Sys2Proof.Machine
end

