-- ==== Sys2Proof/Machine/DevState.lean ====
section
/-!
DEFINITION. State of the device around the Geodes as plain data: streams (10_streams.md), application cores and the
Shelf (13_application_cores.md), power (16_power_states.md), pair and FCU (17_twin_and_faults.md), security
(18_security_and_debug.md) and start-up (19_startup.md).
-/
namespace Sys2Proof.Machine

/-! ### The board record (R447) -/

/-- One sensor entry. -/
structure Sensor where
  number : Nat
  port : Nat
  protocol : Nat
  address : Nat
  clock : Nat
  register : Nat
  length : Nat
  deriving DecidableEq, Repr

/-- One host window (R297). -/
structure HostWin where
  base : Nat := 0
  /-- Size in units of 4 KiB; 0 is not defined. -/
  units : Nat := 0
  cacheable : Bool := false
  deriving DecidableEq, Repr

/-- An accepted board record. -/
structure Board where
  serial : Nat
  twinId : Nat
  role : Nat
  cameras : Nat
  loadCell : Bool
  coresStart : Bool
  ppsLow : Bool
  tdoHiz : Bool
  refPpm : Nat
  rtcPpm : Nat
  timeBound : Nat
  allowance : Nat
  wakeModes : List Nat
  limits : List Nat
  alarm : Nat
  entry : Nat
  lanRoles : List Nat
  windows : List HostWin
  sensors : List Sensor
  deriving DecidableEq, Repr

/-! ### Streams (R237 to R262) -/

/-- A Mica block of a camera tile (R240, R242): its four queue blocks' payloads, poison, the listed queue it goes to. -/
structure Mica where
  rows : List (List Byte)
  poison : Bool
  dest : Nat
  /-- Where its coded bytes end in the tile. -/
  endAt : Nat := 0
  /-- Its decoding breaks a Mica rule, which is not counted yet. -/
  err : Bool := false
  deriving DecidableEq, Repr

/-- A camera tile on its way through the coded-tile buffer (R241), in units of 4 KiB: its length, the units that have arrived and those given
back, the drip in which its first byte was accepted (R256), and the blocks not yet delivered. -/
structure TileIn where
  units : Nat
  got : Nat := 0
  freed : Nat := 0
  drip : Option Nat := none
  /-- What its header adds to `UNSUPPORTED` (R239). -/
  bad : Nat := 0
  blocks : List Mica := []
  deriving DecidableEq, Repr

/-- The counters of R260, in their order but for the device-wide one. -/
structure Counters where
  delivered : Nat := 0
  discarded : Nat := 0
  markers : Nat := 0
  markersLost : Nat := 0
  poisoned : Nat := 0
  unsupported : Nat := 0
  decodeErr : Nat := 0
  lost : Nat := 0
  twinLate : Nat := 0
  ovlRange : Nat := 0
  ovlOrder : Nat := 0
  indexErr : Nat := 0
  deriving DecidableEq, Repr

structure Stream where
  /-- 0 closed, 1 OPEN, 2 ERROR. -/
  state : Nat := 0
  kind : Nat := 0
  cls : OClass := .realtime
  ctx : Nat := 0
  queues : List (Nat × Nat) := []
  copy : Bool := false
  camera : Nat := 0
  mode : Nat := 0
  source : Nat := 0
  decim : Nat := 1
  width : Nat := 0
  height : Nat := 0
  ring : Nat := 0
  size : Nat := 0
  /-- E of R249. -/
  entry : Nat := 96
  wIdx : Nat := 0
  rIdx : Nat := 0
  /-- Entries are written that the write index in host memory does not cover yet (R250). -/
  idxDue : Bool := false
  /-- `MTIME` at the device's last read of the read index (R250). -/
  lastRead : Option Nat := none
  /-- The pending marker or drip-close entry (R251). -/
  held : Option Entry := none
  tiles : Nat := 0
  blocks : Nat := 0
  /-- The tiles in the coded-tile buffer and those that wait for credit, in their order (R241). -/
  tilesIn : List TileIn := []
  /-- Markers of this input stream not yet in its queues (R256); they go before every waiting block. -/
  marks : List Entry := []
  /-- Conduit blocks waiting at the receiver (R255): listed queue, the drip of the frame's timestamp, the block. -/
  waiting : List (Nat × Nat × Entry) := []
  cnt : Counters := {}
  /-- The snapshot of the last boundary: the counters, `CONDUIT_CRC`, the state (R260). -/
  snap : Counters := {}
  snapCrc : Nat := 0
  snapState : Nat := 0
  /-- Causes of R259 already sent in this drip. -/
  sent : List Nat := []
  /-- A REALTIME producer discards until the drip ends (R37). -/
  dropping : Bool := false
  /-- Blocks discarded and not yet in a marker: drip and count, in drip order (R37). -/
  gone : List (Nat × Nat) := []
  /-- OVERLAY: origins with data entries and no drip-close entry yet, each with the place of its last record, and the
  latest origin that is closed (R252). -/
  origins : List (Nat × Nat) := []
  closedTo : Option Nat := none
  deriving DecidableEq, Repr

/-- A conduit block copy on the twin link (R248): kind, source, sequence number, leader's LOST before it, the block. -/
structure Copy where
  kind : Nat
  source : Nat
  seq : Nat
  lost : Nat
  ts : Nat
  payload : List Byte
  poison : Bool
  deriving DecidableEq, Repr

/-- The conduit receiver (R243, R244, R248). -/
structure Conduit where
  crcErr : Nat := 0
  /-- Last sequence number by kind and source. -/
  last : List ((Nat × Nat) × Nat) := []
  /-- The follower: the leader's last sequence number by kind and source; the nominal start of each source's latest own
  sample, up to which copies are due; nominal starts whose stand-in has been delivered. -/
  lead : List ((Nat × Nat) × Nat) := []
  due : List (Nat × Nat) := []
  stood : List (Nat × Nat) := []
  /-- The follower: the timestamp of the leader's latest copy of each source, or of its stand-in. -/
  copyTs : List (Nat × Nat) := []
  /-- Copies sent on the twin link, and Flint answers received. -/
  copies : List Copy := []
  answers : List (List W32) := []
  /-- Counters of metrology commands answered E_TIMEOUT, whose late answers are discarded (R71). -/
  stale : List Nat := []
  /-- What the MP knows of the TWIN_CMP notices it carries (R326): drip, drop index and G of this Flint's latest, and of the twin's. -/
  ownG : List (Nat × Nat × Int) := []
  twinG : List (Nat × Nat × Int) := []
  /-- The last RTC_LATCH: the carried time (R346). -/
  rtc : Option Nat := none
  deriving DecidableEq, Repr

/-! ### Cores, Shelf and CIC (R293 to R314) -/

structure Sector where
  valid : Bool := false
  dirty : Bool := false
  data : List Byte := List.replicate 64 0
  /-- Poisoned 8-byte words of the sector. -/
  poison : List Nat := []
  /-- A correctable (1) or uncorrectable (2) error waits in the sector (R308). -/
  err : Nat := 0
  deriving DecidableEq, Repr

/-- A Shelf line. -/
structure Line where
  set : Nat
  way : Nat
  host : Bool
  addr : Nat
  sectors : List Sector := List.replicate 4 {}
  deriving DecidableEq, Repr

/-- A write held while its line's write-back is in flight: address, bytes. -/
structure EvEntry where
  host : Bool
  addr : Nat
  sectors : List Sector
  issued : Bool := false
  /-- A write was merged: the line is reallocated clean (R307). -/
  merged : Bool := false
  held : List (Nat × List Byte) := []
  deriving DecidableEq, Repr

/-- What a miss waits to do: a load's length, or a store's bytes; a prefetch has neither. -/
structure Miss where
  req : Nat
  host : Bool
  addr : Nat
  load : Option Nat := none
  store : Option (List Byte) := none
  deriving DecidableEq, Repr

/-- A streaming detector (R305). -/
structure StreamDet where
  last : Option (Bool × Nat) := none
  count : Nat := 0
  /-- The gathered sector: space, base, bytes written so far. -/
  gather : Option (Bool × Nat × List (Option Byte)) := none
  deriving DecidableEq, Repr

/-- A stride detector (R306). -/
structure Stride where
  last : Option (Bool × Nat) := none
  step : Int := 0
  /-- Equal steps seen in a row. -/
  run : Nat := 0
  deriving DecidableEq, Repr

structure Core where
  reset : Bool := true
  /-- The reservation of a load-reserve: space and sector. -/
  res : Option (Bool × Nat) := none
  /-- The result of the last load, and whether it raised an access fault (model's own return register). -/
  result : Nat := 0
  faulted : Bool := false
  /-- The machine timer interrupt is pending (R313). -/
  timer : Bool := false
  cmp : Nat := 2 ^ 64 - 1
  /-- The address at which the core left reset (R451). -/
  start : Nat := 0
  /-- The privilege mode (3 M, 1 S, 0 U) and the 16 PMP entries, each its configuration and its address register (R293): the program that
  the core runs sets them, and no row of the table is one of its instructions. -/
  mode : Nat := 3
  pmp : List (Nat × Nat) := List.replicate 16 (0, 0)
  deriving DecidableEq, Repr

/-- A CIC block (R313). -/
structure Cic where
  pending : Nat := 0
  enable : Nat := 0
  drips : Nat := 0
  doorbell : Nat := 0
  cfg : Nat := 0
  deriving DecidableEq, Repr

inductive ShelfSt where
  | disabled | enabled | draining
  deriving DecidableEq, Repr

def ShelfSt.code : ShelfSt → Nat
  | .disabled => 0 | .enabled => 1 | .draining => 2

structure Shelf where
  state : ShelfSt := .enabled
  pfEn : Bool := true
  streamEn : Bool := true
  lines : List Line := []
  /-- The replacement tree of each set used: 15 node bits (R303). -/
  plru : List (Nat × Nat) := []
  evict : List EvEntry := []
  misses : List Miss := []
  dets : List StreamDet := List.replicate 9 {}
  strides : List Stride := List.replicate 13 {}
  /-- The read-ahead buffers of the 4 DMA queues (R306). -/
  ahead : List (List Nat) := List.replicate 4 []
  ce : Bool := false
  ue : Bool := false
  loc : Nat := 0
  ceCount : Nat := 0
  deriving DecidableEq, Repr

/-! ### Power (R367 to R390) -/

structure Pw where
  /-- 0 ACTIVE, 1 ROOST, 2 TORPOR, 3 HIBERNATE, 4 OFF. -/
  state : Nat := 0
  target : Option Nat := none
  pend : Option Nat := none
  outcome : Nat := 0
  block : Nat := 0
  cause : Nat := 0
  wakeCause : Nat := 0
  /-- The handshake has begun; the block being asked; the blocks that agreed, the latest first. -/
  asking : Option Nat := none
  agreed : List Nat := []
  /-- A shallower request waits for the answer of the block being asked (R374). -/
  abort : Bool := false
  /-- Every block agreed and, in PAIRED, the follower holds at its commit for the strobe. -/
  ready : Bool := false
  /-- This device runs the handshake as the follower (R390). -/
  follower : Bool := false
  /-- Flint has acknowledged POWER ENTER; the state a first entry reached while a deeper one is tried (R374). -/
  flintAck : Bool := false
  reached : Option Nat := none
  /-- Wake bits that have reached the controller, with the Lantern rule (R373, R378). -/
  seen : Nat := 0
  seenRule : Nat := 0
  /-- Wake period in ticks of 2^-15 s, and debug-follows-power (R289). -/
  ticks : Nat := 0
  debugFollows : Bool := false
  /-- The rest of a second request: its wake period and debug-follows-power. -/
  pendTicks : Nat := 0
  pendFollows : Bool := false
  /-- Wake sources raised: levels now, edges latched, levels masked until they deassert (R375); bits as WAKE_CAUSE. -/
  levels : Nat := 0
  edges : Nat := 0
  masked : Nat := 0
  /-- Levels of WAKE0 to WAKE3 (R376). -/
  pins : Nat := 0
  /-- Pad groups held, and the level each holds (R382): PPS_OUT, FAULT_N driven, TDO high impedance. -/
  held : Nat := 0
  ppsHeld : Bool := false
  faultHeld : Bool := false
  tdoHeld : Bool := false
  /-- Operating points of ARITH, MEM, CORE (R383). -/
  points : List Nat := [3, 3, 1]
  /-- DVFS changes accepted, the running one first: domain, point, whether it has started (R385). -/
  dvfs : List (Nat × Nat × Bool) := []
  /-- Samples of the last second in 10 mW, their mean, and the five junction temperatures in °C (R386). -/
  samples : List Nat := []
  mean : Nat := 0
  temps : List Nat := List.replicate 5 0
  /-- Reduction steps in force, the latest first: a context, or 24 for an ARITH point (R387). -/
  steps : List Nat := []
  /-- Halvings in force per context. -/
  halved : List Nat := List.replicate 24 0
  /-- Samples in a row with the mean below 0.9 × A; samples in a row with every junction below 95 °C. -/
  low : Nat := 0
  cool : Nat := 0
  limit : Bool := false
  /-- Points and halvings to restore when the limit is undone. -/
  saved : List Nat := []
  savedHalved : List Nat := []
  /-- Boundaries passed in ROOST or TORPOR (R29). -/
  passed : Nat := 0
  deriving DecidableEq, Repr

/-! ### Slabs (08_gallery.md) -/

/-- The states of a slab (R192); `zeroing` is the part of FREE's entry that R193 describes. -/
inductive SlabState where
  | free | owned | prot | zeroing
  deriving DecidableEq, Repr

structure Slab where
  state : SlabState := .free
  owner : Nat := 0
  scratch : Bool := false
  /-- The coded-content mark (R186). -/
  coded : Bool := false
  epoch : Nat := 0
  /-- The image identifier IMAGE_LOAD recorded for the slab (R228). -/
  image : Nat := 0
  /-- A conversion to PROTECTED is under way (R205). -/
  converting : Bool := false
  deriving DecidableEq, Repr

/-! ### Contexts (09_contexts_and_training.md) -/

/-- A slab map entry with `VALID` 1 (R190). -/
structure MapEnt where
  slab : Nat
  write : Bool
  prot : Bool
  deriving DecidableEq, Repr

inductive CtxState where
  | free | created | running | stopped | halted
  deriving DecidableEq, Repr

def CtxState.code : CtxState → Nat
  | .free => 0 | .created => 1 | .running => 2 | .stopped => 3 | .halted => 4

/-- A closed REALTIME or ELASTIC signature of a context, kept until its comparison (R38, R39). -/
structure SigEntry where
  drip : Nat
  sig : W32
  abandoned : Bool
  /-- The drip that the boundary which closed it opened. -/
  at' : Nat
  deriving DecidableEq, Repr

/-- A committed micro-step's signature in a context's list (R38). -/
structure BgEntry where
  micro : Nat
  sig : W32
  /-- The boundary at which it was first sent (R400); `none` before. -/
  first : Option Nat := none
  deriving DecidableEq, Repr

structure Ctx where
  state : CtxState := .free
  cls : OClass := .realtime
  prio : Nat := 0
  share : Nat := 0
  limit : Nat := 0
  mask : Nat := 0
  seedBase : Nat := 0
  client : Option Nat := none
  ckAddr : Nat := 0
  ckSize : Nat := 0
  /-- Slots vacated by a program fault, and by a Geode retirement (R225, R404): Geode and slot. -/
  vacated : List (Nat × Nat) := []
  retiredSlots : List (Nat × Nat) := []
  /-- A CTX_STOP, or the stop of R225 step 4, is under way; the boundary it waits for has passed. -/
  stopping : Bool := false
  halting : Bool := false
  stopArmed : Bool := false
  map : List (Nat × MapEnt) := []
  /-- Signatures closed at a boundary whose work has not run yet. -/
  closed : List SigEntry := []
  /-- ELASTIC: the recent origin drips whose signature is closed already (R38). -/
  done : List Nat := []
  /-- Drips of this context whose work was abandoned or dropped (R39). -/
  abandoned : List Nat := []
  /-- Drips for which the context is reported abandoned, by either twin: their tracker entries are void (R152). -/
  voided : List Nat := []
  /-- The BACKGROUND list (R38). -/
  bg : List BgEntry := []
  /-- Whether the last compared drip was abandoned on one twin only (R39). -/
  oneSidedLast : Bool := false
  deriving DecidableEq, Repr

/-! ### Pair and FCU (R391 to R416) -/

/-- Twin modes (R56 `FAULT_STATUS.TWIN_MODE`). -/
inductive TwinMode where
  | none | paired | split | solo
  deriving DecidableEq, Repr

def TwinMode.code : TwinMode → Nat
  | .none => 0 | .paired => 1 | .split => 2 | .solo => 3

/-- An entry of an exchange packet (R399). -/
structure PkEnt where
  ctx : Nat
  cls : Nat
  abandoned : Bool
  num : Nat
  sig : W32
  deriving DecidableEq, Repr

/-- A received exchange packet. -/
structure Packet where
  drip : Nat
  send : Nat
  echo : Nat
  echoDrip : Nat
  entries : List PkEnt
  recv : Nat
  deriving DecidableEq, Repr

/-- An own closed signature, or one of the twin's, that has not found its counterpart yet, with the boundary at which it was
exchanged (R38, R399). -/
structure Waiting where
  ent : PkEnt
  since : Nat
  deriving DecidableEq, Repr

/-- A packet this device sent at a boundary: its drip count and send time, and whether its comparison is done or given up. -/
structure SentPk where
  drip : Nat
  send : Nat
  entries : List PkEnt
  done : Bool := false
  deriving DecidableEq, Repr

/-- A localisation in progress (R403): the context, the interval, the Geodes under test, and the Geodes that count as failed
without a test. -/
structure Local where
  ctx : Nat
  interval : Nat
  geodes : List Nat
  failed : List Nat
  deriving DecidableEq, Repr

/-- A journal entry (R397). -/
structure Journal where
  seq : Nat
  mbox : Nat
  op : Nat
  crc : W32
  status : Nat
  choices : List Nat
  deriving DecidableEq, Repr

/-- A TWIN_SYNC in progress (R406): with Pockets, phase 0 Gallery, 1 waits for the boundary, 2 Pockets. -/
structure Sync where
  pockets : Bool
  phase : Nat := 0
  start : Nat
  deriving DecidableEq, Repr

/-- What the twin tells of itself at TWIN_ATTACH (R395, R422): identifier, MP firmware version, role, whether it holds a context, the verdict
on its certificate and signature, its certificate. -/
structure TwinId where
  id : Nat
  fw : Nat
  role : Nat
  holds : Bool
  sigOk : Bool
  cert : List W32
  deriving DecidableEq, Repr

/-- What a TWIN_SYNC brings to the follower (R406): the leader's contexts with their slab maps, slab states and contents, stream
set-up, Geodes. -/
structure TwinCopy where
  ctxs : List Ctx
  slabs : List Slab
  mem : Mem
  poison : List Nat
  badTag : List Nat
  streams : List Stream
  geodes : List Geode
  deriving DecidableEq, Repr

structure Tw where
  attached : Bool := false
  leader : Bool := false
  mode : TwinMode := .none
  /-- A TWIN_MODE change that waits for its boundary (R290). -/
  modeNext : Option TwinMode := none
  id : Nat := 0
  fw : Nat := 0
  recv : List Packet := []
  sent : List SentPk := []
  missed : Nat := 0
  /-- Own signatures and the twin's that wait for their counterpart. -/
  mine : List Waiting := []
  theirs : List Waiting := []
  /-- Contexts whose localisation found no Geode, with the boundary (R403 step 5). -/
  history : List (Nat × Nat) := []
  locals : List Local := []
  journalSeq : Nat := 0
  /-- Entries the leader sent (log), and on the follower those received and not yet applied. -/
  journalOut : List Journal := []
  journalIn : List Journal := []
  applied : Nat := 0
  /-- Mailboxes whose next entry belongs to a command that has already answered E_TWIN. -/
  gone : List Nat := []
  sync : Option Sync := none
  /-- The twin's retired Geodes (R404, R405). -/
  twinRetired : Nat := 0
  /-- Geodes that the twin's Vein and Geode records name for the intervals of its latest packet (R403). -/
  named : List Nat := []
  /-- Link keys (R422): established, packet counters. -/
  keyed : Bool := false
  txCtr : Nat := 0
  rxCtr : Nat := 0
  /-- The twin announced a power entry (R412). -/
  announced : Bool := false
  /-- A failover moves to SOLO at the next boundary (R411). -/
  soloNext : Bool := false
  /-- The latest VERDICT sent (R401). -/
  verdict : Option Nat := none
  deriving DecidableEq, Repr

structure Fcu where
  mpHalt : Bool := false
  clock : Bool := false
  twinSignal : Bool := false
  result : Bool := false
  /-- This device drives FAULT_N low until it is released (R56, R408). -/
  faultN : Bool := false
  holdTx : Bool := false
  rx : Nat := 0
  /-- The cause of the latest run of valid frames, and its length (R393). -/
  runCause : Nat := 0
  runLen : Nat := 0
  /-- This device is held by its twin (R394). -/
  held : Bool := false
  failed : Nat := 0
  /-- Whether the thermal trip is in force, so ARITH is gated (R387, R407). -/
  trip : Bool := false
  /-- Monitor windows left in which each domain, in the order of `FCU_CLK.FAILED`, is not watched: 1 ms after an exit, 20 µs after an
  operating-point change (R368, R407). The sixth entry is the watch of `HEARTBEAT`, counted in windows of QTZ. -/
  quiet : List Nat := List.replicate 6 0
  deriving DecidableEq, Repr

/-! ### Security (R431 to R441) -/

structure Sec where
  cdLevel : Nat := 0
  flLevel : Nat := 0
  lifecycle : Nat := 0
  lcValid : Bool := false
  dbgHalt : Bool := false
  session : Nat := 0
  fwLock : Bool := false
  galKey : List W32 := List.replicate 8 0
  galSet : List Nat := []
  /-- KC as the MP holds it since its last HELLO (R344, R421). -/
  kc : Option (List Byte) := none
  /-- The level and die of the challenge the MP relayed. -/
  chal : Option (Nat × Nat) := none
  /-- MP SRAM as the DAP sees it (R434). -/
  sram : Mem := []
  sramErr : List (Nat × Nat) := []
  /-- Test access port: selected instructions, acknowledgement and data of the last DAP operation of each die, and of
  the last MBX3 access (R433 to R435). -/
  tap : List Nat := [2, 2]
  ack : List Nat := [0, 0]
  data : List Nat := [0, 0]
  mbx3Ack : Nat := 0
  mbx3Data : Nat := 0
  /-- Targets halted by control operations: 0 the MP, 1 to 8 the cores. -/
  halts : List Nat := []
  /-- Single steps ordered, and the halted core that may perform one. -/
  steps : Nat := 0
  stepOk : Option Nat := none
  deriving DecidableEq, Repr

/-! ### Start-up and the MP (R442 to R454, R54 to R76) -/

/-- What the host link brings: an access to the register window, with a parity error of the FIFO word where there is one (R59), a rejected access
(R55), or a camera tile (R240). In ROOST and TORPOR it holds them (R76, R262). -/
inductive HostAcc where
  | read (r : Reg) (upset : Bool)
  | write (r : Reg) (v : Nat) (upset : Bool)
  | reject (read : Bool)
  | tile (camera depth chroma mode count bytes : Nat) (blocks : List (Nat × Option (List Nat)))
  deriving DecidableEq, Repr

/-- How far the compute die is: in reset, running the boot ROM before BOOT, stopped by a PLL, serving. -/
inductive Die where
  | inReset | starting | noPll | serving
  deriving DecidableEq, Repr

structure Dev where
  die : Die := .inReset
  phase : Nat := 0
  /-- The selected protocol version: 3 once selected (R74). -/
  proto : Nat := 0
  accErr : Bool := false
  heartbeat : Nat := 0
  fwVer : Nat := 0
  /-- The mailbox the rotation visits first (R73). -/
  rot : Nat := 0
  seq : Nat := 0
  board : Option Board := none
  /-- A record relayed to Flint and not yet accepted (R449). -/
  boardPend : Option Board := none
  /-- Flint's firmware version and the MP floor, as the STATE answer gave them (R430). -/
  flVer : Nat := 0
  floor : Nat := 0
  unknownCam : Nat := 0
  /-- Whether a SET_DRIP has been accepted since the reset (R266). -/
  dripSet : Bool := false
  /-- The boundaries whose work waits for the MP, by the drip each opened, the oldest first (R265, R267). -/
  workDue : List Nat := []
  /-- Injected faults: code, target, drips left (R415). -/
  injected : List (Nat × Nat × Nat) := []
  /-- Flint did not answer STATE in time: the lifecycle counts as RETIRED until the next start (R445). -/
  stateLost : Bool := false
  /-- This start follows HIBERNATE: Quartz waits for the carried time (R50). -/
  fromHib : Bool := false
  /-- Rails in range and RST_N high (R457 to R460). -/
  rails : Bool := true
  rstN : Bool := true
  aon : Bool := true
  /-- REFCLK25 runs; without it every compute-die clock but the monitor oscillator stands (R23). -/
  refclk : Bool := true
  /-- UCIe modules that failed their training and stay down: 0 and 1 of the host link, 2 the twin link (R14). -/
  down : List Nat := []
  /-- Accesses that the host link holds, in their order (R76, R262). -/
  hostHeld : List HostAcc := []
  deriving DecidableEq, Repr

end Sys2Proof.Machine
end

