-- ==== Sys2Proof/Syntax.lean ====
section
/-!
DEFINITION. The commands of the block: one constructor per row of spec/opcode_table.json, in its order. An operand is
what the sender or the environment supplies with the event (an address, a value, the bytes a link brought).
-/
namespace Sys2Proof

/-- A command or event the block takes; the docstring of each constructor names the rule that governs it. -/
inductive Instr where
  /-- MBX_CMD_DATA_WRITE (R57). -/
  | mbxCmdDataWrite (m : Nat) (w : W32) (bad : Bool)
  /-- MBX_RSP_DATA_READ (R58). -/
  | mbxRspDataRead (m : Nat) (upset : Bool)
  /-- CMD_FLUSH (R61). -/
  | cmdFlush (m : Nat)
  /-- RSP_FLUSH (R61). -/
  | rspFlush (m : Nat)
  /-- CMD_HELD_CLEAR (R65). -/
  | cmdHeldClear (m : Nat)
  /-- FAULT_CTRL_RELEASE (R56). -/
  | faultCtrlRelease
  /-- WINDOW_ACCESS_REJECTED (R55). -/
  | windowAccessRejected (read : Bool) (off : Nat) (width : Nat) (v : Nat)
  /-- REGISTER_WRITE (R7). -/
  | registerWrite (who : Nat) (r : Reg) (v : Nat)
  /-- CLEARING_READ (R7). -/
  | clearingRead (who : Nat) (r : Reg)
  /-- MP_ACCEPT_COMMAND (R73). -/
  | mpAcceptCommand
  /-- CMD_PAYLOAD_TIMEOUT (R66). -/
  | cmdPayloadTimeout (m : Nat)
  /-- HELD_MESSAGE_WRITE (R64). -/
  | heldMessageWrite (m : Nat)
  /-- FLINT_RESPONSE_RELAY (R69). -/
  | flintResponseRelay (m : Nat) (tag : Nat)
  /-- METROLOGY_TIMEOUT (R71). -/
  | metrologyTimeout (m : Nat) (tag : Nat)
  /-- IDENTIFY (R74). -/
  | identify (m : Nat) (tag : Nat)
  /-- BOARD_RECORD (R280). -/
  | boardRecord (m : Nat) (tag : Nat) (data : List Byte) (failed : Option Nat) (sigOk : Bool)
  /-- GET_STATUS (R281). -/
  | getStatus (m : Nat) (tag : Nat)
  /-- SET_DRIP_START (R28). -/
  | setDripStart (m : Nat) (tag : Nat)
  /-- SET_DRIP (R28). -/
  | setDrip (m : Nat) (tag : Nat)
  /-- TIME_SET (R282). -/
  | timeSet (m : Nat) (tag : Nat)
  /-- TIME_ADJUST (R46). -/
  | timeAdjust (m : Nat) (tag : Nat)
  /-- TIME_READ (R282). -/
  | timeRead (m : Nat) (tag : Nat)
  /-- PPS_CONFIG (R48). -/
  | ppsConfig (m : Nat) (tag : Nat)
  /-- SLAB_ALLOC (R284). -/
  | slabAlloc (m : Nat) (tag : Nat)
  /-- SLAB_ALLOC_SHARE (R284). -/
  | slabAllocShare (m : Nat) (tag : Nat)
  /-- SLAB_FREE (R284). -/
  | slabFree (m : Nat) (tag : Nat)
  /-- SLAB_ZEROED (R193). -/
  | slabZeroed (sl : Nat)
  /-- SLAB_PROTECT (R205). -/
  | slabProtect (m : Nat) (tag : Nat)
  /-- DMA_IN (R284). -/
  | dmaIn (m : Nat) (tag : Nat)
  /-- DMA_OUT (R284). -/
  | dmaOut (m : Nat) (tag : Nat)
  /-- DMA_TRANSFER_DONE (R284). -/
  | dmaTransferDone (m : Nat) (tag : Nat) (data : List Byte) (failed : Option Nat)
  /-- IMAGE_LOAD (R284). -/
  | imageLoad (m : Nat) (tag : Nat)
  /-- IMAGE_VERIFY (R284). -/
  | imageVerify (m : Nat) (tag : Nat)
  /-- INDEX_BUILD (R177). -/
  | indexBuild (m : Nat) (tag : Nat)
  /-- SCRUB_CONFIG (R284). -/
  | scrubConfig (m : Nat) (tag : Nat)
  /-- CTX_CREATE (R215). -/
  | ctxCreate (m : Nat) (tag : Nat)
  /-- CTX_BIND (R220). -/
  | ctxBind (m : Nat) (tag : Nat)
  /-- CTX_START (R222). -/
  | ctxStart (m : Nat) (tag : Nat)
  /-- CTX_STOP (R223). -/
  | ctxStop (m : Nat) (tag : Nat)
  /-- CTX_STOP_COMPLETE (R223). -/
  | ctxStopComplete (ctx : Nat)
  /-- CTX_CHECKPOINT_SAVE (R227). -/
  | ctxCheckpointSave (m : Nat) (tag : Nat)
  /-- CTX_CHECKPOINT_RESTORE (R229). -/
  | ctxCheckpointRestore (m : Nat) (tag : Nat)
  /-- CTX_DESTROY (R226). -/
  | ctxDestroy (m : Nat) (tag : Nat) (reads : List (Nat × Nat))
  /-- STREAM_OPEN (R238). -/
  | streamOpen (m : Nat) (tag : Nat)
  /-- STREAM_CLOSE (R261). -/
  | streamClose (m : Nat) (tag : Nat) (r : Nat)
  /-- STREAM_STAT (R260). -/
  | streamStat (m : Nat) (tag : Nat)
  /-- MET_READ (R331). -/
  | metRead (m : Nat) (tag : Nat)
  /-- MET_PARAM_SET (R334). -/
  | metParamSet (m : Nat) (tag : Nat)
  /-- TARE (R322). -/
  | tare (m : Nat) (tag : Nat)
  /-- ZERO (R321). -/
  | zero (m : Nat) (tag : Nat)
  /-- KEY_GENERATION (R343). -/
  | keyGeneration (m : Nat) (tag : Nat)
  /-- MET_CAL_START (R335). -/
  | metCalStart (m : Nat) (tag : Nat)
  /-- MET_CAL_CAPTURE (R335). -/
  | metCalCapture (m : Nat) (tag : Nat)
  /-- MET_CAL_COMMIT (R335). -/
  | metCalCommit (m : Nat) (tag : Nat) (volts : Nat)
  /-- MET_CAL_ABORT (R335). -/
  | metCalAbort (m : Nat) (tag : Nat)
  /-- MET_LOG_READ (R340). -/
  | metLogRead (m : Nat) (tag : Nat)
  /-- MET_LOG_ACK (R340). -/
  | metLogAck (m : Nat) (tag : Nat)
  /-- LAN_MODEL_LOAD (R288). -/
  | lanModelLoad (m : Nat) (tag : Nat) (data : List Byte) (failed : Option Nat)
  /-- LAN_RULES (R288). -/
  | lanRules (m : Nat) (tag : Nat)
  /-- PWR_REQUEST (R289). -/
  | pwrRequest (m : Nat) (tag : Nat)
  /-- PWR_STATUS (R289). -/
  | pwrStatus (m : Nat) (tag : Nat)
  /-- PAD_RELEASE (R382). -/
  | padRelease (m : Nat) (tag : Nat)
  /-- DVFS_SET (R385). -/
  | dvfsSet (m : Nat) (tag : Nat)
  /-- DVFS_CHANGE_START (R384). -/
  | dvfsChangeStart (lead : Option Nat)
  /-- DVFS_CHANGE_DONE (R384). -/
  | dvfsChangeDone
  /-- TWIN_ATTACH (R395). -/
  | twinAttach (m : Nat) (tag : Nat) (asked : Bool) (twin : Option Machine.TwinId)
  /-- TWIN_DETACH (R398). -/
  | twinDetach (m : Nat) (tag : Nat) (asked : Bool)
  /-- TWIN_MODE (R290). -/
  | twinMode (m : Nat) (tag : Nat) (twinRuns : Bool) (twinHolds : Bool) (lead : Option Nat)
  /-- TWIN_SYNC (R406). -/
  | twinSync (m : Nat) (tag : Nat) (twinHolds : Bool)
  /-- TWIN_SYNC_GALLERY_DONE (R406). -/
  | twinSyncGalleryDone (copy : Option Machine.TwinCopy) (pockets : Bool)
  /-- FAULT_READ (R291). -/
  | faultRead (m : Nat) (tag : Nat)
  /-- FAULT_CLEAR (R408). -/
  | faultClear (m : Nat) (tag : Nat)
  /-- FAULT_INJECT (R415). -/
  | faultInject (m : Nat) (tag : Nat)
  /-- INJECTED_FAULT (R415). -/
  | injectedFault
  /-- LIFECYCLE_ADVANCE (R427). -/
  | lifecycleAdvance (m : Nat) (tag : Nat) (data : List Byte) (failed : Option Nat)
  /-- DEBUG_CHALLENGE (R436). -/
  | debugChallenge (m : Nat) (tag : Nat)
  /-- DEBUG_UNLOCK (R436). -/
  | debugUnlock (m : Nat) (tag : Nat)
  /-- FW_UPDATE_MP (R430). -/
  | fwUpdateMp (m : Nat) (tag : Nat) (data : List Byte) (failed : Option Nat) (sigOk : Bool)
  /-- FW_UPDATE_FLINT (R348). -/
  | fwUpdateFlint (m : Nat) (tag : Nat) (data : List Byte) (failed : Option Nat)
  /-- JOURNAL_ENTRY (R397). -/
  | journalEntry (m : Nat) (sq : Nat) (op : Nat) (crc : W32) (status : Nat) (choices : List Nat) (reads : List (Nat × Nat))
  /-- JOURNAL_TIMEOUT (R397). -/
  | journalTimeout (m : Nat) (tag : Nat)
  /-- DRIP_BOUNDARY (R30). -/
  | dripBoundary (reads : List (Nat × Nat)) (kats : Option (List Nat)) (retired : List Nat)
  /-- DROP_START (R27). -/
  | dropStart
  /-- BOUNDARY_WORK (R265). -/
  | boundaryWork
  /-- EXCHANGE_PACKET_RECEIVE (R399). -/
  | exchangePacketReceive (raw : List Byte) (named : List Nat)
  /-- EXCHANGE_TIMEOUT (R399). -/
  | exchangeTimeout
  /-- TWIN_PACKET_AUTH_FAIL (R422). -/
  | twinPacketAuthFail
  /-- QTZ_STEP_WRITE (R43). -/
  | qtzStepWrite (req : Nat) (v : W32)
  /-- QTZ_NOW_FRAC_READ (R44). -/
  | qtzNowFracRead (req : Nat)
  /-- DRIP_COUNT_LO_READ (R44). -/
  | dripCountLoRead (req : Nat)
  /-- QTZ_STATUS_READ (R43). -/
  | qtzStatusRead (req : Nat)
  /-- PPS_IN_EDGE (R45). -/
  | ppsInEdge (phase : Nat)
  /-- PPS_OUT_EDGE (R48). -/
  | ppsOutEdge
  /-- TIME_SERVO_SECOND (R46). -/
  | timeServoSecond
  /-- TIMING (R40). -/
  | timing (body : List W32) (ctr : Nat) (tag : List W32) (rtc : Nat)
  /-- TIMING_HOLDOVER (R41). -/
  | timingHoldover
  /-- FLINT_DROP_SAMPLE (R319). -/
  | flintDropSample (codes : List (List Int)) (volts : Nat) (reads : List (Nat × Nat × List Byte)) (skip : Bool)
  /-- WEIGHT_RECORD_DECISION (R327). -/
  | weightRecordDecision
  /-- WEIGHT_RECORD_SIGNED (R329). -/
  | weightRecordSigned
  /-- HELLO (R344). -/
  | hello
  /-- MODE (R345). -/
  | modeMsg (body : List W32) (ctr : Nat) (tag : List W32)
  /-- PAIR_CERTIFICATE (R344). -/
  | pairCertificate (body : List W32) (ctr : Nat) (tag : List W32) (certOk : Bool)
  /-- PAIR_TWIN_CMP (R326). -/
  | pairTwinCmp (body : List W32) (ctr : Nat) (tag : List W32)
  /-- FIRMWARE (R348). -/
  | firmware (body : List W32) (ctr : Nat) (tag : List W32) (sigOk : Bool)
  /-- LANTERN_CHUNK (R358). -/
  | lanternChunk (body : List W32) (ctr : Nat) (tag : List W32)
  /-- LANTERN_COMMIT (R358). -/
  | lanternCommit (body : List W32) (ctr : Nat) (tag : List W32)
  /-- LANTERN_RULES (R358). -/
  | lanternRules (body : List W32) (ctr : Nat) (tag : List W32)
  /-- LANTERN_REPORT (R358). -/
  | lanternReport (body : List W32) (ctr : Nat) (tag : List W32)
  /-- LANTERN_BOARD (R449). -/
  | lanternBoard (body : List W32) (ctr : Nat) (tag : List W32) (sigOk : Bool)
  /-- POWER_ENTER (R373). -/
  | powerEnter (body : List W32) (ctr : Nat) (tag : List W32) (rtc : Nat)
  /-- POWER_COMMIT (R373). -/
  | powerCommit (body : List W32) (ctr : Nat) (tag : List W32)
  /-- POWER_ABORT (R373). -/
  | powerAbort (body : List W32) (ctr : Nat) (tag : List W32)
  /-- POWER_RUNNING (R373). -/
  | powerRunning (body : List W32) (ctr : Nat) (tag : List W32) (rtc : Nat)
  /-- DEBUG_MSG_STATE (R432). -/
  | debugMsgState
  /-- DEBUG_MSG_CHALLENGE (R432). -/
  | debugMsgChallenge (body : List W32) (rtc : Nat)
  /-- DEBUG_MSG_UNLOCK (R436). -/
  | debugMsgUnlock (body : List W32) (sigOk : Bool) (rtc : Nat)
  /-- DEBUG_MSG_END (R437). -/
  | debugMsgEnd (body : List W32) (ctr : Nat) (tag : List W32)
  /-- DEBUG_MSG_CHUNK (R432). -/
  | debugMsgChunk (body : List W32)
  /-- DEBUG_MSG_ADVANCE (R427). -/
  | debugMsgAdvance (body : List W32) (sigOk : Bool) (certOk : Bool)
  /-- DEBUG_MSG_FLOOR (R430). -/
  | debugMsgFloor (body : List W32) (sigOk : Bool)
  /-- DEBUG_MSG_SIGN (R422). -/
  | debugMsgSign (body : List W32) (ctr : Nat) (tag : List W32)
  /-- SAMPLE (R244). -/
  | sampleFrame (raw : List Byte) (upset : Bool)
  /-- LANTERN_EVENT (R364). -/
  | lanternEvent (raw : List Byte) (upset : Bool)
  /-- MAILBOX_RESPONSE (R346). -/
  | mailboxResponse (raw : List Byte)
  /-- RECORD (R330). -/
  | recordFrame (raw : List Byte)
  /-- RTC_LATCH (R346). -/
  | rtcLatch (raw : List Byte)
  /-- CONDUIT_COPY (R248). -/
  | conduitCopy (kind : Nat) (source : Nat) (sq : Nat) (lost : Nat) (ts : Nat) (payload : List Byte) (poison : Bool)
  /-- TWIN_LATE (R248). -/
  | twinLate (source : Nat) (ts : Nat)
  /-- CAMERA_TILE (R239). -/
  | cameraTile (camera : Nat) (depth : Nat) (chroma : Nat) (mode : Nat) (count : Nat) (bytes : Nat) (blocks : List (Nat × Option (List Nat)))
  /-- INGEST_BLOCK_DELIVER (R240). -/
  | ingestBlockDeliver (strm : Nat) (upset : Bool)
  /-- RING_ENTRY_WRITE (R249). -/
  | ringEntryWrite (strm : Nat)
  /-- RING_WRITE_INDEX_UPDATE (R250). -/
  | ringWriteIndexUpdate (strm : Nat)
  /-- RING_READ_INDEX_READ (R250). -/
  | ringReadIndexRead (strm : Nat) (r : Nat)
  /-- HOST_LINK_REJECT (R253). -/
  | hostLinkReject (strm : Nat)
  /-- FIRING_START (R98). -/
  | firingStart (g : Nat) (slot : Nat)
  /-- MARKER_HANDLING (R100). -/
  | markerHandling (g : Nat) (slot : Nat) (q : Nat)
  /-- BLOCK_ARRIVAL (R106). -/
  | blockArrival (g : Nat) (q : Nat) (parity : Bool)
  /-- CREDIT_RETURN (R95). -/
  | creditReturn (g : Nat) (q : Nat)
  /-- FIRING_LIMIT (R99). -/
  | firingLimit (g : Nat)
  /-- PROGRAM_FAULT_HANDLING (R225). -/
  | programFaultHandling (g : Nat) (slot : Nat)
  /-- VEIN_REPAIR_DONE (R82). -/
  | veinRepairDone (g : Nat)
  /-- NOP (R118). -/
  | nop (g : Nat) (t : Nat)
  /-- YIELD (R118). -/
  | yieldI (g : Nat) (t : Nat)
  /-- COMMIT (R35). -/
  | commit (g : Nat) (t : Nat)
  /-- SETI (R118). -/
  | seti (g : Nat) (t : Nat)
  /-- ADDI (R118). -/
  | addi (g : Nat) (t : Nat)
  /-- ADD (R118). -/
  | add (g : Nat) (t : Nat)
  /-- SUB (R118). -/
  | sub (g : Nat) (t : Nat)
  /-- MULI (R118). -/
  | muli (g : Nat) (t : Nat)
  /-- ALUI (R118). -/
  | alui (g : Nat) (t : Nat)
  /-- RDSPEC (R119). -/
  | rdspec (g : Nat) (t : Nat)
  /-- LOOP (R118). -/
  | loopI (g : Nat) (t : Nat)
  /-- BR (R118). -/
  | br (g : Nat) (t : Nat)
  /-- BCMP (R118). -/
  | bcmp (g : Nat) (t : Nat)
  /-- ASET (R118). -/
  | aset (g : Nat) (t : Nat)
  /-- TSET (R118). -/
  | tset (g : Nat) (t : Nat)
  /-- SLD (R118). -/
  | sld (g : Nat) (t : Nat)
  /-- MATMUL (R121). -/
  | matmul (g : Nat) (t : Nat) (vein : Option Nat)
  /-- MATMUL_T (R121). -/
  | matmulT (g : Nat) (t : Nat) (vein : Option Nat)
  /-- VLD (R123). -/
  | vld (g : Nat) (t : Nat)
  /-- VST (R123). -/
  | vst (g : Nat) (t : Nat)
  /-- VOP (R123). -/
  | vop (g : Nat) (t : Nat)
  /-- VOPI (R123). -/
  | vopi (g : Nat) (t : Nat)
  /-- VFMA (R123). -/
  | vfma (g : Nat) (t : Nat)
  /-- VUN (R123). -/
  | vun (g : Nat) (t : Nat)
  /-- VEXPSUB (R123). -/
  | vexpsub (g : Nat) (t : Nat)
  /-- VRED (R123). -/
  | vred (g : Nat) (t : Nat)
  /-- VBCAST (R123). -/
  | vbcast (g : Nat) (t : Nat)
  /-- VSEL (R123). -/
  | vsel (g : Nat) (t : Nat)
  /-- VMOMENTS (R123). -/
  | vmoments (g : Nat) (t : Nat)
  /-- VADAMW (R124). -/
  | vadamw (g : Nat) (t : Nat)
  /-- VCVT (R123). -/
  | vcvt (g : Nat) (t : Nat)
  /-- MOVE (R125). -/
  | moveI (g : Nat) (t : Nat)
  /-- MOVE_ZERO (R125). -/
  | moveZero (g : Nat) (t : Nat)
  /-- MOVE_GALLERY_WRITE_DONE (R133). -/
  | moveGalleryWriteDone (g : Nat) (slot : Nat) (k : Nat)
  /-- QPOP (R130). -/
  | qpop (g : Nat) (t : Nat)
  /-- QPUSH (R130). -/
  | qpush (g : Nat) (t : Nat)
  /-- QSKIP (R130). -/
  | qskip (g : Nat) (t : Nat)
  /-- QFWD (R130). -/
  | qfwd (g : Nat) (t : Nat)
  /-- SCALE_GET (R132). -/
  | scaleGet (g : Nat) (t : Nat)
  /-- SCALE_SET (R132). -/
  | scaleSet (g : Nat) (t : Nat)
  /-- SCALE_OBSERVE (R132). -/
  | scaleObserve (g : Nat) (t : Nat)
  /-- SCALE_HOLD (R132). -/
  | scaleHold (g : Nat) (t : Nat)
  /-- SIG_FOLD (R133). -/
  | sigFold (g : Nat) (t : Nat)
  /-- SIG_READ (R133). -/
  | sigRead (g : Nat) (t : Nat)
  /-- SLOT_STATE_WRITE (R103). -/
  | slotStateWrite (g : Nat) (slot : Nat) (v : Nat)
  /-- QUEUE_DISCARD (R224). -/
  | queueDiscard (g : Nat) (q : Nat)
  /-- KAT_START (R402). -/
  | katStart (g : Nat)
  /-- KAT_DONE (R402). -/
  | katDone (g : Nat) (unit : Option Nat)
  /-- GEODE_RETIRE (R402). -/
  | geodeRetire (g : Nat)
  /-- POCKET_SCRUB (R87). -/
  | pocketScrub (g : Nat) (err : Nat) (word : Nat)
  /-- GALLERY_INIT (R212). -/
  | galleryInit
  /-- GALLERY_INIT_DONE (R212). -/
  | galleryInitDone
  /-- PATROL_SCRUB (R201). -/
  | patrolScrub (ch : Nat) (err : Nat) (word : Nat)
  /-- CORE_LOAD (R296). -/
  | coreLoad (req : Nat) (addr : Nat) (n : Nat) (err : Nat) (ext : List Byte)
  /-- CORE_STORE (R296). -/
  | coreStore (req : Nat) (addr : Nat) (data : List Byte) (ext : List Byte)
  /-- CORE_AMO (R298). -/
  | coreAmo (req : Nat) (addr : Nat) (n : Nat) (op : Nat) (v : Nat) (ext : List Byte)
  /-- FENCE (R298). -/
  | fence (req : Nat)
  /-- CBO_CLEAN (R300). -/
  | cboClean (req : Nat) (addr : Nat)
  /-- CBO_FLUSH (R300). -/
  | cboFlush (req : Nat) (addr : Nat)
  /-- CBO_INVAL (R300). -/
  | cboInval (req : Nat) (addr : Nat)
  /-- CBO_ZERO (R300). -/
  | cboZero (req : Nat) (addr : Nat)
  /-- SHELF_MISS_FILL (R304). -/
  | shelfMissFill (k : Nat) (ext : List Byte)
  /-- EVICTION_WRITEBACK_DONE (R307). -/
  | evictionWritebackDone (k : Nat) (issue : Bool) (ext : List Byte)
  /-- SHELF_DISABLE (R309). -/
  | shelfDisable
  /-- SHELF_ENABLE (R309). -/
  | shelfEnable
  /-- SHELF_DRAIN_DONE (R309). -/
  | shelfDrainDone
  /-- CIC_IPI (R311). -/
  | cicIpi (req : Nat) (v : Nat)
  /-- DOORBELL (R313). -/
  | doorbell (h : Nat) (v : Nat)
  /-- MACHINE_TIMER (R313). -/
  | machineTimer (h : Nat)
  /-- POWER_HANDSHAKE_START (R370). -/
  | powerHandshakeStart (busy : List Nat)
  /-- BLOCK_ANSWER (R371). -/
  | blockAnswer (busy : List Nat) (twin : Nat)
  /-- BLOCK_DELAY_TIMEOUT (R370). -/
  | blockDelayTimeout (busy : List Nat)
  /-- ENTRY_COMMIT (R373). -/
  | entryCommit
  /-- HIBERNATE_ENTRY (R380). -/
  | hibernateEntry
  /-- SB_SYNC (R390). -/
  | sbSync
  /-- WAKE (R375). -/
  | wake (src : Nat)
  /-- WAKE_PIN (R376). -/
  | wakePin (pin : Nat) (level : Bool)
  /-- HOST_ACCESS_WAKE (R76). -/
  | hostAccessWake
  /-- TCK_WAKE (R441). -/
  | tckWake
  /-- SB_WAKE (R390). -/
  | sbWake (level : Bool)
  /-- EXIT_ROOST_TORPOR (R379). -/
  | exitRoostTorpor (reads : List (Nat × Nat))
  /-- HIBERNATE_EXIT (R381). -/
  | hibernateExit
  /-- RTC_WAKE (R366). -/
  | rtcWake (codes : List (List Int)) (volts : Nat) (reads : List (Nat × Nat × List Byte))
  /-- POWER_SAMPLE (R386). -/
  | powerSample (p : Nat) (temps : List Nat)
  /-- THROTTLE (R387). -/
  | throttle (twin : Nat)
  /-- THERMAL_LIMIT (R387). -/
  | thermalLimit (sensor : Nat) (temp : Nat)
  /-- THERMAL_TRIP (R387). -/
  | thermalTrip (sensor : Nat) (temp : Nat)
  /-- BROWNOUT (R388). -/
  | brownout
  /-- FLINT_RESET (R350). -/
  | flintReset
  /-- CAL_EN_N_ASSERTED (R337). -/
  | calEnNAsserted
  /-- CAL_EN_N_DEASSERTED (R337). -/
  | calEnNDeasserted
  /-- HEARTBEAT_TICK (R56). -/
  | heartbeatTick
  /-- HEARTBEAT_MISS (R407). -/
  | heartbeatMiss
  /-- MP_LOCKSTEP_DIVERGE (R407). -/
  | mpLockstepDiverge
  /-- CLOCK_MONITOR_WINDOW (R407). -/
  | clockMonitorWindow (domain : Nat) (count : Nat) (ref : Bool)
  /-- ALERT_FRAME (R393). -/
  | alertFrame (w : Nat)
  /-- ALERT_CAUSE_APPLIED (R393). -/
  | alertCauseApplied
  /-- ALERT_ABSENT (R393). -/
  | alertAbsent
  /-- TWIN_FAILOVER (R411). -/
  | twinFailover
  /-- HOLD_END (R394). -/
  | holdEnd
  /-- FCU_HOLD_WRITE (R410). -/
  | fcuHoldWrite (b : Bool)
  /-- FCU_RESULT_WRITE (R410). -/
  | fcuResultWrite (b : Bool)
  /-- AON_POWER_UP (R444). -/
  | aonPowerUp (puf : Bool)
  /-- RST_N_LOW (R460). -/
  | rstNLow
  /-- RAIL_UNDERVOLTAGE (R459). -/
  | railUndervoltage
  /-- COMPUTE_DIE_START (R445). -/
  | computeDieStart (veins : List Nat) (down : List Nat)
  /-- FIRMWARE_SELF_CALIBRATION (R446). -/
  | firmwareSelfCalibration (fails : List (Nat × Nat))
  /-- DAP_READ (R434). -/
  | dapRead (die : Nat) (a : Nat)
  /-- DAP_WRITE (R434). -/
  | dapWrite (die : Nat) (a : Nat) (v : W32)
  /-- DAP_HALT (R434). -/
  | dapHalt (die : Nat) (t : Nat)
  /-- DAP_RESUME (R434). -/
  | dapResume (die : Nat) (t : Nat)
  /-- DAP_STEP (R434). -/
  | dapStep (die : Nat) (t : Nat)
  /-- DAP_END (R437). -/
  | dapEnd (die : Nat)
  /-- MBX3_ACCESS (R435). -/
  | mbx3Access (write : Bool) (idx : Nat) (v : W32) (upset : Bool)
  /-- TRST_N (R433). -/
  | trstN
  /-- DBG_CTRL_END (R439). -/
  | dbgCtrlEnd
  /-- SEC_GAL_KEY_WRITE (R439). -/
  | secGalKeyWrite (n : Nat) (w : W32)
  /-- FW_LOCK_WRITE (R439). -/
  | fwLockWrite
  /-- UNASSIGNED_OPCODE (R117). -/
  | unassignedOpcode (g : Nat) (t : Nat)
  /-- PROTECTION_CONVERSION_DONE (R205). -/
  | protectionConversionDone (sl : Nat)
  /-- INDEX_BUILD_DONE (R177). -/
  | indexBuildDone (m : Nat) (tag : Nat)
  /-- IMAGE_VERIFY_DONE (R284). -/
  | imageVerifyDone (m : Nat) (tag : Nat)
  /-- POCKET_PHASE_DONE (R406). -/
  | pocketPhaseDone (copy : Option Machine.TwinCopy)
  /-- FOLLOWER_HANDSHAKE (R371). -/
  | followerHandshake (target : Nat) (ticks : Nat) (follows : Bool) (busy : List Nat)
  /-- TWIN_CMP_RELAY (R326). -/
  | twinCmpRelay (body : List W32)
  /-- FLINT_STATE_TIMEOUT (R445). -/
  | flintStateTimeout
  /-- PLL_LOCK_TIMEOUT (R445). -/
  | pllLockTimeout (domain : Nat) (count : Nat)
  /-- MP_SRAM_SCRUB (R413). -/
  | mpSramScrub (errs : List (Nat × Nat))
  /-- AON_POWER_DOWN (R458). -/
  | aonPowerDown
  deriving DecidableEq, Repr

end Sys2Proof
end

