-- ==== Sys2Proof/Machine/Crypto.lean ====
section
/-!
DEFINITION. The cryptography that the manual names by its standards: AES-256 (FIPS 197), AES-CMAC (NIST SP 800-38B), AES-256-XTS (IEEE 1619),
SHA-256 and SHA-384 (FIPS 180-4), HMAC and HKDF-SHA-256 (RFC 5869). Byte strings run in the order of their standards.
-/
namespace Sys2Proof.Machine

/-! ### AES-256 (FIPS 197) -/

/-- The S-box: the substitute of byte x is byte x of this number. -/
def sboxTable : Nat :=
  0x16bb54b00f2d99416842e6bf0d89a18cdf2855cee9871e9b948ed9691198f8e19e1dc186b95735610ef6034866b53e708a8bbd4b1f74dde8c6b4a61c2e2578ba08ae7a65eaf4566ca94ed58d6d37c8e779e4959162acd3c25c2406490a3a32e0db0b5ede14b8ee4688902a22dc4f816073195d643d7ea7c41744975fec130ccdd2f3ff1021dab6bcf5389d928f40a351a89f3c507f02f94585334d43fbaaefd0cf584c4a39becb6a5bb1fc20ed00d153842fe329b3d63b52a05a6e1b1a2c830975b227ebe28012079a059618c323c7041531d871f1e5a534ccf73f362693fdb7c072a49cafa2d4adf04759fa7dc982ca76abd7fe2b670130c56f6bf27b777c63
def sbox (x : Nat) : Nat := sboxTable >>> (8 * x) % 256

/-- Multiply by x in the field of 256 elements. -/
def xtime (a : Nat) : Nat := if a < 128 then 2 * a else (2 * a) ^^^ 0x11B

def xorBytes (a b : List Nat) : List Nat := List.zipWith (fun x y => x ^^^ y) a b

/-- Further words of the key schedule, from word `i` on; the last 8 words stand in the third argument. -/
def expandKey : Nat → Nat → List (List Nat) → List (List Nat)
  | 0, _, _ => []
  | k + 1, i, win =>
    let t := win.getLastD []
    let t1 := if i % 8 = 0 then
        (match (t.drop 1 ++ t.take 1).map sbox with
          | [] => []
          | b :: r => (b ^^^ 2 ^ (i / 8 - 1)) :: r)
      else if i % 8 = 4 then t.map sbox else t
    let w := xorBytes (win.headD []) t1
    w :: expandKey k (i + 1) (win.drop 1 ++ [w])

/-- A list cut into groups of `n`; the first argument counts them. -/
def groups {α : Type} : Nat → Nat → List α → List (List α)
  | 0, _, _ => []
  | k + 1, n, l => l.take n :: groups k n (l.drop n)

/-- The 15 round keys of a 32-byte key. -/
def roundKeys (key : List Nat) : List (List Nat) :=
  let k := groups 8 4 key
  (groups 15 4 (k ++ expandKey 52 8 k)).map List.flatten

def shiftRows (s : List Nat) : List Nat := (List.range 16).map fun i => s.getD (i % 4 + 4 * ((i / 4 + i % 4) % 4)) 0

def mixColumn : List Nat → List Nat
  | [a, b, c, d] =>
    [xtime a ^^^ xtime b ^^^ b ^^^ c ^^^ d, a ^^^ xtime b ^^^ xtime c ^^^ c ^^^ d, a ^^^ b ^^^ xtime c ^^^ xtime d ^^^ d, xtime a ^^^ a ^^^ b ^^^ c ^^^ xtime d]
  | l => l

/-- The rounds after the first key: the last has no MixColumns. -/
def aesRounds : List (List Nat) → List Nat → List Nat
  | [], s => s
  | [k], s => xorBytes (shiftRows (s.map sbox)) k
  | k :: t, s => aesRounds t (xorBytes ((groups 4 4 (shiftRows (s.map sbox))).map mixColumn).flatten k)

/-- Encrypt one block of 16 bytes with expanded keys. -/
def aesWith (ks : List (List Nat)) (b : List Nat) : List Nat := aesRounds (ks.drop 1) (xorBytes b (ks.headD []))
def aes256 (key b : List Nat) : List Nat := aesWith (roundKeys key) b

/-! ### AES-CMAC (NIST SP 800-38B) -/

/-- The value of a byte string, the most significant first. -/
def beNat (b : List Nat) : Nat := b.foldl (fun n x => n * 256 + x) 0
def beList (k n : Nat) : List Nat := (List.range k).map fun i => n >>> (8 * (k - 1 - i)) % 256

/-- Double a 16-byte block, the most significant bit first. -/
def dbl (b : List Nat) : List Nat :=
  let n := 2 * beNat b
  beList 16 (if n < 2 ^ 128 then n else n ^^^ (2 ^ 128 + 0x87))

/-- The chain over the blocks; the last block has its subkey added. -/
def cmacGo (ks : List (List Nat)) (k1 k2 : List Nat) : Nat → List Nat → List Nat → List Nat
  | 0, c, _ => c
  | n + 1, c, m =>
    if m.length ≤ 16 then
      aesWith ks (xorBytes c (if m.length = 16 then xorBytes m k1 else xorBytes (m ++ 0x80 :: List.replicate (15 - m.length) 0) k2))
    else cmacGo ks k1 k2 n (aesWith ks (xorBytes c (m.take 16))) (m.drop 16)

/-- The 16 bytes of the CMAC of a message under a 32-byte key. -/
def cmac (key m : List Byte) : List Byte :=
  let ks := roundKeys (key.map BitVec.toNat)
  let k1 := dbl (aesWith ks (List.replicate 16 0))
  (cmacGo ks k1 (dbl k1) (m.length / 16 + 1) (List.replicate 16 0) (m.map BitVec.toNat)).map (BitVec.ofNat 8)

/-! ### AES-256-XTS (IEEE 1619) -/

/-- Double a tweak, its first byte the least significant. -/
def dblLe (b : List Nat) : List Nat :=
  let n := 2 * beNat b.reverse
  (beList 16 (if n < 2 ^ 128 then n else n ^^^ (2 ^ 128 + 0x87))).reverse

def xtsGo (ks : List (List Nat)) : Nat → List Nat → List Nat → List Nat
  | 0, _, _ => []
  | k + 1, t, m => if m.isEmpty then [] else xorBytes (aesWith ks (xorBytes (m.take 16) t)) t ++ xtsGo ks k (dblLe t) (m.drop 16)

/-- Encrypt a data unit of whole blocks under a 64-byte key pair, with a tweak given as a number. -/
def xts (key : List Byte) (tweak : Nat) (m : List Byte) : List Byte :=
  let k := key.map BitVec.toNat
  let t := aes256 (k.drop 32) ((leBytes 16 tweak).map BitVec.toNat)
  (xtsGo (roundKeys (k.take 32)) (m.length / 16) t (m.map BitVec.toNat)).map (BitVec.ofNat 8)

/-! ### SHA-256 and SHA-384 (FIPS 180-4) -/

/-- The sizes and rotations of a hash: word bits, rounds, the rotations of its four functions, the last of each a shift in the two of the schedule. -/
structure Sha where
  bits : Nat
  rounds : Nat
  up : List Nat
  dn : List Nat
  s0 : List Nat
  s1 : List Nat
  k : List Nat
  h : List Nat

def rotr (n x r : Nat) : Nat := x >>> r ||| (x <<< (n - r)) % 2 ^ n
def Sha.big (p : Sha) (r : List Nat) (x : Nat) : Nat := rotr p.bits x (r.getD 0 0) ^^^ rotr p.bits x (r.getD 1 0) ^^^ rotr p.bits x (r.getD 2 0)
def Sha.small (p : Sha) (r : List Nat) (x : Nat) : Nat := rotr p.bits x (r.getD 0 0) ^^^ rotr p.bits x (r.getD 1 0) ^^^ x >>> r.getD 2 0

/-- The message schedule: the last 16 words stand in the second argument. -/
def Sha.schedule (p : Sha) : Nat → List Nat → List Nat
  | 0, _ => []
  | k + 1, w =>
    let x := (p.small p.s1 (w.getD 14 0) + w.getD 9 0 + p.small p.s0 (w.getD 1 0) + w.getD 0 0) % 2 ^ p.bits
    w.headD 0 :: p.schedule k (w.drop 1 ++ [x])

/-- One round. -/
def Sha.round (p : Sha) (v : List Nat) (kw : Nat × Nat) : List Nat :=
  match v with
  | [a, b, c, d, e, f, g, h] =>
    let t1 := h + p.big p.up e + ((e &&& f) ^^^ ((2 ^ p.bits - 1 - e) &&& g)) + kw.1 + kw.2
    let t2 := p.big p.dn a + ((a &&& b) ^^^ (a &&& c) ^^^ (b &&& c))
    [(t1 + t2) % 2 ^ p.bits, a, b, c, (d + t1) % 2 ^ p.bits, e, f, g]
  | v => v

def Sha.block (p : Sha) (h : List Nat) (m : List Nat) : List Nat :=
  let w := p.schedule p.rounds ((groups 16 (p.bits / 8) m).map beNat)
  List.zipWith (fun x y => (x + y) % 2 ^ p.bits) h ((p.k.zip w).foldl p.round h)

/-- The digest of a message, all its words. -/
def Sha.digest (p : Sha) (m : List Byte) : List Byte :=
  let b := 2 * p.bits
  let z := (b - (m.length + 1 + b / 8) % b) % b
  let l := m.map BitVec.toNat ++ 0x80 :: List.replicate z 0 ++ beList (b / 8) (8 * m.length)
  (((groups (l.length / b) b l).foldl p.block p.h).flatMap fun x => beList (p.bits / 8) x).map (BitVec.ofNat 8)

/-- The constants of SHA-256: fractions of the cube roots of the first 64 primes, and of the square roots of the first 8. -/
def sha256 : Sha where
  bits := 32
  rounds := 64
  up := [6, 11, 25]
  dn := [2, 13, 22]
  s0 := [7, 18, 3]
  s1 := [17, 19, 10]
  k :=
    [0x428A2F98, 0x71374491, 0xB5C0FBCF, 0xE9B5DBA5, 0x3956C25B, 0x59F111F1, 0x923F82A4, 0xAB1C5ED5] ++
    [0xD807AA98, 0x12835B01, 0x243185BE, 0x550C7DC3, 0x72BE5D74, 0x80DEB1FE, 0x9BDC06A7, 0xC19BF174] ++
    [0xE49B69C1, 0xEFBE4786, 0xFC19DC6, 0x240CA1CC, 0x2DE92C6F, 0x4A7484AA, 0x5CB0A9DC, 0x76F988DA] ++
    [0x983E5152, 0xA831C66D, 0xB00327C8, 0xBF597FC7, 0xC6E00BF3, 0xD5A79147, 0x6CA6351, 0x14292967] ++
    [0x27B70A85, 0x2E1B2138, 0x4D2C6DFC, 0x53380D13, 0x650A7354, 0x766A0ABB, 0x81C2C92E, 0x92722C85] ++
    [0xA2BFE8A1, 0xA81A664B, 0xC24B8B70, 0xC76C51A3, 0xD192E819, 0xD6990624, 0xF40E3585, 0x106AA070] ++
    [0x19A4C116, 0x1E376C08, 0x2748774C, 0x34B0BCB5, 0x391C0CB3, 0x4ED8AA4A, 0x5B9CCA4F, 0x682E6FF3] ++
    [0x748F82EE, 0x78A5636F, 0x84C87814, 0x8CC70208, 0x90BEFFFA, 0xA4506CEB, 0xBEF9A3F7, 0xC67178F2]
  h := [0x6A09E667, 0xBB67AE85, 0x3C6EF372, 0xA54FF53A, 0x510E527F, 0x9B05688C, 0x1F83D9AB, 0x5BE0CD19]

/-- The constants of SHA-384: of the first 80 primes, and of the ninth to the sixteenth. -/
def sha512 : Sha where
  bits := 64
  rounds := 80
  up := [14, 18, 41]
  dn := [28, 34, 39]
  s0 := [1, 8, 7]
  s1 := [19, 61, 6]
  k :=
    [0x428A2F98D728AE22, 0x7137449123EF65CD, 0xB5C0FBCFEC4D3B2F, 0xE9B5DBA58189DBBC] ++
    [0x3956C25BF348B538, 0x59F111F1B605D019, 0x923F82A4AF194F9B, 0xAB1C5ED5DA6D8118] ++
    [0xD807AA98A3030242, 0x12835B0145706FBE, 0x243185BE4EE4B28C, 0x550C7DC3D5FFB4E2] ++
    [0x72BE5D74F27B896F, 0x80DEB1FE3B1696B1, 0x9BDC06A725C71235, 0xC19BF174CF692694] ++
    [0xE49B69C19EF14AD2, 0xEFBE4786384F25E3, 0xFC19DC68B8CD5B5, 0x240CA1CC77AC9C65] ++
    [0x2DE92C6F592B0275, 0x4A7484AA6EA6E483, 0x5CB0A9DCBD41FBD4, 0x76F988DA831153B5] ++
    [0x983E5152EE66DFAB, 0xA831C66D2DB43210, 0xB00327C898FB213F, 0xBF597FC7BEEF0EE4] ++
    [0xC6E00BF33DA88FC2, 0xD5A79147930AA725, 0x6CA6351E003826F, 0x142929670A0E6E70] ++
    [0x27B70A8546D22FFC, 0x2E1B21385C26C926, 0x4D2C6DFC5AC42AED, 0x53380D139D95B3DF] ++
    [0x650A73548BAF63DE, 0x766A0ABB3C77B2A8, 0x81C2C92E47EDAEE6, 0x92722C851482353B] ++
    [0xA2BFE8A14CF10364, 0xA81A664BBC423001, 0xC24B8B70D0F89791, 0xC76C51A30654BE30] ++
    [0xD192E819D6EF5218, 0xD69906245565A910, 0xF40E35855771202A, 0x106AA07032BBD1B8] ++
    [0x19A4C116B8D2D0C8, 0x1E376C085141AB53, 0x2748774CDF8EEB99, 0x34B0BCB5E19B48A8] ++
    [0x391C0CB3C5C95A63, 0x4ED8AA4AE3418ACB, 0x5B9CCA4F7763E373, 0x682E6FF3D6B2B8A3] ++
    [0x748F82EE5DEFB2FC, 0x78A5636F43172F60, 0x84C87814A1F0AB72, 0x8CC702081A6439EC] ++
    [0x90BEFFFA23631E28, 0xA4506CEBDE82BDE9, 0xBEF9A3F7B2C67915, 0xC67178F2E372532B] ++
    [0xCA273ECEEA26619C, 0xD186B8C721C0C207, 0xEADA7DD6CDE0EB1E, 0xF57D4F7FEE6ED178] ++
    [0x6F067AA72176FBA, 0xA637DC5A2C898A6, 0x113F9804BEF90DAE, 0x1B710B35131C471B] ++
    [0x28DB77F523047D84, 0x32CAAB7B40C72493, 0x3C9EBE0A15C9BEBC, 0x431D67C49C100D4C] ++
    [0x4CC5D4BECB3E42B6, 0x597F299CFC657E2A, 0x5FCB6FAB3AD6FAEC, 0x6C44198C4A475817]
  h := [0xCBBB9D5DC1059ED8, 0x629A292A367CD507, 0x9159015A3070DD17, 0x152FECD8F70E5939] ++
    [0x67332667FFC00B31, 0x8EB44A8768581511, 0xDB0C2E0D64F98FA7, 0x47B5481DBEFA4FA4]

def sha384 (m : List Byte) : List Byte := (sha512.digest m).take 48

/-! ### HMAC and HKDF-SHA-256 (RFC 2104, RFC 5869) -/

def hmac (key m : List Byte) : List Byte :=
  let k := padTo 64 (if 64 < key.length then sha256.digest key else key)
  sha256.digest (k.map (fun b => b ^^^ 0x5C) ++ sha256.digest (k.map (fun b => b ^^^ 0x36) ++ m))

/-- The first 32 bytes of the expansion. -/
def hkdf (ikm salt info : List Byte) : List Byte := hmac (hmac salt ikm) (info ++ [1])
/-- The first 64 bytes of the expansion. -/
def hkdf64 (ikm salt info : List Byte) : List Byte :=
  let t := hkdf ikm salt info
  t ++ hmac (hmac salt ikm) (t ++ info ++ [2])

/-! ### ECDSA and ECDH on P-256 (FIPS 186-5, RFC 6979) -/

def p256P : Nat := 0xFFFFFFFF00000001000000000000000000000000FFFFFFFFFFFFFFFFFFFFFFFF
/-- The order n of the group. -/
def p256N : Nat := 0xFFFFFFFF00000000FFFFFFFFFFFFFFFFBCE6FAADA7179E84F3B9CAC2FC632551
def p256G : Option (Nat × Nat) :=
  some (0x6B17D1F2E12C4247F8BCE6E563A440F277037D812DEB33A0F4A13945D898C296, 0x4FE342E2FE1A7F9B8EE7EB4A7C0F9E162BCE33576B315ECECBB6406837BF51F5)

/-- `b` to the power `e` below 2^256, modulo `m`. -/
def powMod (b e m : Nat) : Nat := (List.range 256).foldl (fun r i => let q := r * r % m; if e.testBit (255 - i) then q * b % m else q) 1
/-- The inverse modulo a prime. -/
def invMod (x m : Nat) : Nat := powMod (x % m) (m - 2) m

/-- Add two points; `none` is the point at infinity. -/
def ecAdd : Option (Nat × Nat) → Option (Nat × Nat) → Option (Nat × Nat)
  | none, q => q
  | p, none => p
  | some (x1, y1), some (x2, y2) =>
    if x1 = x2 ∧ (y1 + y2) % p256P = 0 then none
    else
      let l := if x1 = x2 then (3 * x1 * x1 + (p256P - 3)) * invMod (2 * y1) p256P % p256P else (y2 + p256P - y1) * invMod (x2 + p256P - x1) p256P % p256P
      let x3 := (l * l + 2 * p256P - x1 - x2) % p256P
      some (x3, (l * (x1 + p256P - x3) + p256P - y1) % p256P)
/-- The multiple of a point. -/
def ecMul (k : Nat) (p : Option (Nat × Nat)) : Option (Nat × Nat) :=
  (List.range 256).foldl (fun r i => let q := ecAdd r r; if k.testBit (255 - i) then ecAdd q p else q) none

/-- A number as 32 big-endian bytes. -/
def be32 (n : Nat) : List Byte := (beList 32 n).map (BitVec.ofNat 8)
/-- The value of big-endian bytes. -/
def beVal (b : List Byte) : Nat := beNat (b.map BitVec.toNat)
/-- A point as x, then y. -/
def pointBytes (p : Option (Nat × Nat)) : List Byte := match p with
  | some (x, y) => be32 x ++ be32 y
  | none => []
def pointOf (b : List Byte) : Option (Nat × Nat) := some (beVal (b.take 32), beVal ((b.drop 32).take 32))

/-- The x-coordinate of the ECDH product of a private key and a public key. -/
def ecdhX (d : Nat) (key : List Byte) : List Byte := (pointBytes (ecMul d (pointOf key))).take 32

/-- The signature of a message with private key `d` and nonce `k`: r, then s, each 32 big-endian bytes. -/
def ecdsaWith (d k : Nat) (m : List Byte) : List Byte :=
  let r := beVal ((pointBytes (ecMul k p256G)).take 32) % p256N
  be32 r ++ be32 (invMod k p256N * (beVal (sha256.digest m) + r * d) % p256N)

/-- The nonces that RFC 6979 tries, at most `n` of them: the first in range. -/
def rfc6979Go : Nat → List Byte → List Byte → Nat
  | 0, _, v => beVal v
  | n + 1, key, v =>
    let v1 := hmac key v
    if 1 ≤ beVal v1 ∧ beVal v1 < p256N then beVal v1
    else
      let key1 := hmac key (v1 ++ [0])
      rfc6979Go n key1 (hmac key1 v1)
/-- The nonce of RFC 6979 for a message under private key `d`. -/
def rfc6979 (d : Nat) (m : List Byte) : Nat :=
  let x := be32 d ++ be32 (beVal (sha256.digest m) % p256N)
  let v0 := List.replicate 32 (1 : Byte)
  let k1 := hmac (List.replicate 32 0) (v0 ++ 0 :: x)
  let v1 := hmac k1 v0
  let k2 := hmac k1 (v1 ++ 1 :: x)
  rfc6979Go 64 k2 (hmac k2 v1)
/-- The signature of a message, its nonce generated as RFC 6979 gives. -/
def ecdsa (d : Nat) (m : List Byte) : List Byte := ecdsaWith d (rfc6979 d m) m

end Sys2Proof.Machine
end

