-- ==== Sys2Proof/Machine/FlintState.lean ====
section
/-!
DEFINITION. State of the Flint die as plain data (14_flint_metrology.md, 15_lantern.md and Flint's part of
18_security_and_debug.md): the drop schedule, the weighing, MRAM, keys, Lantern and the conduit buffer.
-/
namespace Sys2Proof.Machine

/-- A frame in the conduit buffer (R243). -/
structure Frame where
  kind : Nat
  source : Nat
  seq : Nat
  ts : Nat
  payload : List Byte
  deriving DecidableEq, Repr

/-- The parameters of R332; a default that follows d is `none`. -/
structure Params where
  max : Nat := 0
  d : Nat := 0
  min : Nat := 0
  zeroInit : Nat := 100
  zeroSet : Nat := 20
  track : Nat := 50
  band : Option Nat := none
  time : Nat := 500
  conv : Nat := 0x1070
  filter : Nat := 8
  trim : List Nat := List.replicate 4 0x40000000
  tareLimit : Nat := 0
  twinTol : Option Nat := none
  policy : Nat := 1
  deriving DecidableEq, Repr

/-- What a completing drop fixes for its weight record (R327, R328). -/
structure Ready where
  /-- Its position in the count of drops. -/
  at' : Nat
  ts : Nat
  flags : Nat
  gross : Int
  tare : Int
  net : Int
  d : Nat
  events : Nat
  checksum : W32
  /-- Length of the stability window (R320). -/
  window : Nat
  compared : Bool
  deriving DecidableEq, Repr

/-- One recent drop: count of the drop, its drip count and index, G, and what the comparison found: none, agreed or not,
with the difference (R326). -/
structure DropRec where
  pos : Nat
  drip : Nat
  index : Nat
  G : Int
  cmp : Option (Bool × Int) := none
  deriving DecidableEq, Repr

/-- An audit entry (R339). -/
structure Audit where
  seq : Nat
  ts : Nat
  events : Nat
  kind : Nat
  v : Nat
  ident : Nat
  value : Nat
  deriving DecidableEq, Repr

/-- The values the drop in progress uses; accepted changes reach them at its end (R325). -/
structure Use where
  p : Params := {}
  curve : List (Int × Int) := []
  events : Nat := 0
  tare : Int := 0
  preset : Bool := false
  deriving DecidableEq, Repr

/-- A Lantern rule: the 4 words of R360 with its run state (R361). -/
structure Rule where
  w0 : Nat := 0
  w1 : Nat := 0
  w2 : Nat := 0
  w3 : Nat := 0
  out : Bool := false
  run : Nat := 0
  /-- Samples since it last fired; `none` when the refractory period counts as elapsed. -/
  since : Option Nat := none
  deriving DecidableEq, Repr

/-- The wake summary (R363, R364): rule, event code, sample number, scores. -/
structure Summary where
  rule : Nat
  code : Nat
  sample : Nat
  scores : List Int
  deriving DecidableEq, Repr

/-- Lantern (R351 to R366). -/
structure Lan where
  bufs : List Mem := [[], []]
  active : Nat := 0
  /-- A model is active; the other buffer is pending. -/
  on : Bool := false
  pending : Bool := false
  rules : List Rule := List.replicate 32 {}
  /-- Rules waiting for the next boundary (R362). -/
  next : List (Nat × Rule) := []
  /-- Raw features of the last samples, the latest first (R354), and G of the last eight (R352). -/
  history : List (List Int) := []
  gs : List Int := []
  /-- Samples since a rule last fired; `none` before the first firing. -/
  sinceFire : Option Nat := none
  scores : List Int := []
  xs : List Int := []
  samples : Nat := 0
  wakes : Nat := 0
  skipped : Nat := 0
  late : Nat := 0
  fired : Nat := 0
  suppressed : Nat := 0
  wakeActions : Nat := 0
  summary : Option Summary := none
  /-- The rule that raises LANTERN (R378). -/
  wakeRule : Nat := 0
  /-- What is left of the running wake at the last wake tick, in units of 1 ÷ 3.072 ns (R268). -/
  left : Nat := 0
  deriving DecidableEq, Repr

/-- A debug challenge (R436): level, die, RTC ticks, nonce (log entry 6). -/
structure Chal where
  level : Nat
  die : Nat
  ticks : Nat
  nonce : Nat
  deriving DecidableEq, Repr

structure Flint where
  /-- Powered and past R444. -/
  up : Bool := false
  /-- The device secret reconstructs (R417). -/
  secret : Bool := true
  /-- Duty-cycled in HIBERNATE; the LDO's low-power mode (R366, R388). -/
  hiber : Bool := false
  ldoLow : Bool := false
  rtc : Nat := 0
  /-- Time by the RTC (R50): Quartz time and RTC count at the latch. -/
  carry : Option (Nat × Nat) := none
  /-- HIBERNATE's latch waits for the next timing message (R380): the target of the latest POWER ENTER. -/
  entering : Option Nat := none
  period : Nat := 0
  /-- COMMIT waits for a wake (R373). -/
  committed : Bool := false
  /-- Wake bits recorded for the exit (R381). -/
  wakeBits : Nat := 0
  /-- The state as POWER messages tell it: 0 ACTIVE or ROOST, 1 TORPOR, 2 HIBERNATE; the brown-out flag (R388). -/
  pst : Nat := 0
  brown : Bool := false
  /-- The end of an INVASIVE session resets Flint (R437). -/
  resetDue : Bool := false
  /-- The debugger has halted the Flint core (R431). -/
  halted : Bool := false
  -- Drop schedule (R40, R41)
  timed : Bool := false
  drip : Nat := 0
  len : Nat := 0
  drops : Nat := 0
  start : Int := 0
  /-- The next drop of the drip. -/
  next : Nat := 0
  holdover : Bool := false
  /-- The drop in progress began in holdover (R41); the quality of the last timing message. -/
  late : Bool := false
  qual : Nat := 0
  /-- Drops since the Flint reset. -/
  pos : Nat := 0
  -- MRAM (R349)
  p : Params := {}
  curve : List (Int × Int) := []
  sense : Nat := 0
  events : Nat := 0
  kmGen : Nat := 0
  kmCtr : Nat := 0
  audit : List Audit := []
  auditNext : Nat := 1
  acked : Nat := 0
  readSeqs : List Nat := []
  records : List (Nat × List Byte) := []
  recNext : Nat := 1
  /-- Three copies of the lifecycle record (R423). -/
  life : List Nat := List.replicate 3 0x700
  owner : Option (List Byte) := none
  metOwner : Option (List Byte) := none
  cert : Option (List Byte) := none
  helper : Bool := true
  session : Nat := 0
  /-- Sessions open by die: level and number (R436). -/
  sessions : List (Nat × Nat × Nat) := []
  floor : Nat := 0
  /-- Firmware slots: version, valid, first 4 bytes of the image digest; the running slot (R348). -/
  slots : List (Nat × Bool × W32) := [(1, true, 0), (0, false, 0)]
  running : Nat := 0
  /-- The slot written last. -/
  newest : Nat := 0
  -- SRAM
  /-- Zero offset and z0, in units of 2^-32 calibrated units (log entry 29). -/
  z : Int := 0
  z0 : Int := 0
  zset : Bool := false
  /-- z of an accepted ZERO operation, and a committed calibration, that wait for the boundary (R325). -/
  zPend : Option Int := none
  zClear : Bool := false
  tare : Int := 0
  preset : Bool := false
  /-- A change of R325 waits for the next drop boundary. -/
  dirty : Bool := false
  use : Use := {}
  /-- The codes of the last drop by channel, and the last completed conversion of each (R318). -/
  codes : List Int := List.replicate 4 0
  convs : List Int := List.replicate 4 0
  u : Int := 0
  /-- g of recent drops, in units of 2^-32, and G with c of recent drops, the latest first, since the windows restarted. -/
  gs : List Int := []
  win : List (Int × Int) := []
  G : Int := 0
  stable : Bool := false
  recent : List DropRec := []
  /-- Accepted notices for drops that this Flint has not completed: drip, index, G (R326). -/
  notes : List (Nat × Nat × Int) := []
  /-- A comparison of the drop in progress found a disagreement (R326). -/
  disagree : Bool := false
  ready : List Ready := []
  /-- Records decided and being signed. -/
  signing : List Ready := []
  cal : Option (List (Nat × Int × Int)) := none
  calEn : Bool := false
  /-- Load-cell samples dropped since the last delivered one, by source (R245). -/
  dropped : List (Nat × Nat) := []
  -- Keys (R342 to R345)
  /-- The HELLO of this compute-die reset has been taken. -/
  hello : Bool := false
  kc : Bool := false
  kcKey : List Byte := []
  kcCtr : Option Nat := none
  kp : Bool := false
  kpKey : List Byte := []
  kpTx : Nat := 0
  kpRx : Nat := 0
  mode : TwinMode := .none
  chal : Option Chal := none
  level : Nat := 0
  /-- Bytes received in chunks: authorisation, board record, firmware image. -/
  auth : Mem := []
  boardBuf : Mem := []
  image : Mem := []
  board : Option Board := none
  boardNext : Option Board := none
  /-- Last data read of each sensor: number, status, bytes. -/
  sense' : List (Nat × Nat × List Byte) := []
  -- Conduit (R243)
  frames : List Frame := []
  seqs : List ((Nat × Nat) × Nat) := []
  lan : Lan := {}
  deriving DecidableEq, Repr

end Sys2Proof.Machine
end

