-- ==== Sys2Proof/Machine/State.lean ====
section
/-!
DEFINITION. The state of the whole block as plain data, the reasons a step can stop, and the state after reset.
-/
namespace Sys2Proof.Machine

/-! ### Quartz and the drip generator (02_drip_and_time.md) -/

/-- `QTZ_STATUS.QUALITY` (R43). -/
inductive Quality where
  | unset | holdover | disciplined | carried
  deriving DecidableEq, Repr

def Quality.code : Quality → Nat
  | .unset => 0 | .holdover => 1 | .disciplined => 2 | .carried => 3

/-- The latched time and drip count of one requester (R44). -/
structure Latch where
  ns : Nat := 0
  sec : Nat := 0
  dripHi : Nat := 0
  deriving DecidableEq, Repr

/-- A PPS_IN edge captured in the last 4 s (R46): its Quartz time in ns, and whether a TIME_ADJUST has used it. -/
structure Edge where
  ns : Nat
  /-- The instant of the edge on the running counter, in units of 2^-32 ns: every step moves it with the counter, so what has passed since is time
  and no step (R45, R47). -/
  mark : Int
  used : Bool := false
  /-- Its second's e has been computed from an extrapolated offset. -/
  done : Bool := false
  deriving DecidableEq, Repr

/-- The latest used TIME_ADJUST (R46): second, offset in 2^-16 ns, rate deviation in 10^-12, RATE_VALID. -/
structure TimeAdj where
  sec : Nat
  offset : Int
  rate : Int
  rateValid : Bool
  deriving DecidableEq, Repr

/-- Quartz (R42 to R48). -/
structure TimeSt where
  /-- The counter in units of 2^-32 ns: seconds, nanoseconds and fraction of R42. -/
  now : Nat := 0
  rate : Int := 0
  /-- A written `QTZ_STEP` that the next QTZ cycle applies. -/
  step : Int := 0
  quality : Quality := .unset
  ppsNew : Bool := false
  /-- Quartz time in ns of the last captured edge (`PPS_CAP`). -/
  ppsCap : Nat := 0
  /-- The instant of the last accepted edge, if any since reset, moved by every step as `Edge.mark` is (R45). -/
  ppsMark : Option Int := none
  latches : List Latch := List.replicate 9 {}
  edges : List Edge := []
  adj : Option TimeAdj := none
  /-- Consecutive seconds with |e| below 1 µs, and the last of them. -/
  good : Nat := 0
  goodSec : Nat := 0
  /-- The mark of the last edge that yielded an e (R46). -/
  lastE : Option Int := none
  ppsOutEn : Bool := false
  ppsOutOffset : Int := 0
  ppsOutWidth : Nat := 0
  /-- The PPS_OUT pin. -/
  ppsOut : Bool := false
  deriving DecidableEq, Repr

/-- Whether the drip generator is stopped, waits for its start time, or runs (R28, R453). -/
inductive DripPhase where
  | stopped | scheduled | running
  deriving DecidableEq, Repr

/-- A change accepted by SET_DRIP that waits for its boundary (R28). -/
structure DripChange where
  len : Nat
  drops : Nat
  trim : Int
  /-- The next boundary falls less than 10 µs after acceptance, so the change waits for the one after. -/
  skip : Bool
  deriving DecidableEq, Repr

/-- A drip that has opened: its count, B(n) as it opened in units of 2^-32 ns, its length and its drops. -/
structure PastDrip where
  count : Nat
  start : Int
  len : Nat
  drops : Nat
  deriving DecidableEq, Repr

/-- The drip generator (R26 to R30). -/
structure DripSt where
  phase : DripPhase := .stopped
  count : Nat := 0
  /-- L, without any trim, and the length of the current drip (`DRIP_LEN`). -/
  base : Nat := 0
  len : Nat := 0
  /-- N in force, and the index of the current drop. -/
  drops : Nat := 0
  drop : Nat := 0
  /-- B(n) of the current drip, or T while scheduled, in units of 2^-32 ns. -/
  start : Int := 0
  pend : Option DripChange := none
  /-- The last 64 drips, the current one first, by which a sample's timestamp is placed (R245, R256). -/
  past : List PastDrip := []
  deriving DecidableEq, Repr

/-! ### Mailboxes (03_mailboxes.md) -/

/-- A message in a response FIFO: its words not yet read by the host (R58, R62). -/
structure OutMsg where
  event : Bool
  tag : Nat
  words : List W32
  deriving DecidableEq, Repr

/-- A word in a command FIFO with its parity state (R57, R59). -/
structure InWord where
  w : W32
  bad : Bool := false
  deriving DecidableEq, Repr

/-- A command accepted on a mailbox and not yet answered (R72). -/
structure Cmd where
  tag : Nat
  op : Nat
  header : W32
  words : List W32
  fence : Bool := false
  /-- Its place in the order of acceptance over all mailboxes (R73, R274). -/
  seq : Nat
  /-- The leader's journal number of a journalled command; 0 of another (R397). -/
  jseq : Nat := 0
  /-- 0 accepted and not started; from 1 on, the step of a command that takes several. -/
  phase : Nat := 0
  /-- What the command keeps between its steps. -/
  note : List Nat := []
  deriving DecidableEq, Repr

/-- A message whose payload the MP is still reading (R61, R66 check 3). -/
structure Partial where
  header : W32
  words : List InWord := []
  /-- The message has lost its framing, and its E_LEN response waits for room (R61, R65). -/
  late : Bool := false
  deriving DecidableEq, Repr

/-- One mailbox. -/
structure Mbx where
  cmd : List InWord := []
  rsp : List OutMsg := []
  /-- Responses and events waiting for room, in order (R64). -/
  held : List OutMsg := []
  part : Option Partial := none
  out : List Cmd := []
  rspPoison : Bool := false
  cmdOvf : Bool := false
  rspUndf : Bool := false
  evtLost : Bool := false
  cmdHeld : Bool := false
  deriving DecidableEq, Repr

/-! ### The Gallery (08_gallery.md) -/

/-- The registers of one channel (R211). -/
structure GalCh where
  ceCount : Nat := 0
  ueCount : Nat := 0
  errLog : W32 := 0
  deriving DecidableEq, Repr

structure Gallery where
  /-- Byte `slab` × 2^20 + offset; a protected slab's data granules as the requesters see them (R208). -/
  mem : Mem := []
  /-- Words that hold the poison check pattern (R200). -/
  poison : List Nat := []
  /-- Words that hold a correctable, or an uncorrectable, error not yet found. -/
  ce : List Nat := []
  ue : List Nat := []
  /-- Granules whose stored tag does not match (R209): address ÷ 256. -/
  badTag : List Nat := []
  scrubEn : Bool := false
  period : Nat := 8
  initDone : Bool := false
  initBusy : Bool := false
  scrubPos : Nat := 0
  passes : Nat := 0
  chans : List GalCh := List.replicate 32 {}
  slabs : List Slab := List.replicate 512 {}
  deriving DecidableEq, Repr

/-! ### Fault records (17_twin_and_faults.md) -/

/-- A fault record (R414). -/
structure FRec where
  code : Nat
  role : Nat
  fcu : Bool
  seq : Nat
  ts : Nat
  drip : Nat
  ctx : Nat := 0xFF
  geode : Nat := 0xFF
  unit : Nat := 0xFF
  strm : Nat := 0xFF
  interval : Nat := 0
  detail : List W32 := []
  deriving DecidableEq, Repr

/-! ### The reasons a step can stop -/

/-- Faults of the model: none of the manual's events stops the block (log entry 3), so this type has no constructor
that a meaning raises. -/
inductive Fault where
  deriving DecidableEq, Repr

/-- Refusals. -/
inductive Refusal where
  /-- Raised by a dispatch arm whose command has no meaning yet; safe: the step proves nothing. -/
  | notModelled (mnemonic : String)
  deriving DecidableEq, Repr

/-- The state of the block. -/
structure State where
  time : TimeSt
  drip : DripSt
  mtime : Nat
  mbx : List Mbx
  geodes : List Geode
  gal : Gallery
  ctxs : List Ctx
  mpRecs : List FRec
  fcuRecs : List FRec
  role : Nat
  recSeq : Nat
  recLost : Nat
  dev : Dev
  streams : List Stream
  conduit : Conduit
  /-- The 8 cores, and the MP's own port as the ninth requester. -/
  cores : List Core
  cic : List Cic
  shelf : Shelf
  pw : Pw
  tw : Tw
  fcu : Fcu
  sec : Sec
  fl : Flint
  /-- Bytes the device has written to host memory: rings, DMA_OUT and checkpoints (R249, R284). -/
  host : Mem
  /-- Messages sent on the Flint mailbox path, the latest last: kind and body (R345). -/
  toFlint : List (Nat × List W32)
  /-- The value the last register or debug read returned (log entry 8). -/
  readData : Nat
  free : Nat
  pending : List Instr
  deriving DecidableEq, Repr

/-- The machine right after reset. -/
def State.reset : State where
  time := {}
  drip := {}
  mtime := 0
  mbx := List.replicate 8 {}
  geodes := List.replicate 32 {}
  gal := {}
  ctxs := List.replicate 24 {}
  mpRecs := []
  fcuRecs := []
  role := 0
  recSeq := 0
  recLost := 0
  dev := {}
  streams := List.replicate 64 {}
  conduit := {}
  cores := List.replicate 9 {}
  cic := List.replicate 9 {}
  shelf := {}
  pw := {}
  tw := {}
  fcu := {}
  sec := {}
  fl := { up := true }
  host := []
  toFlint := []
  readData := 0
  free := 0
  pending := []

/-- What a meaning answers. -/
abbrev Out := Host.Outcome State Fault Refusal

end Sys2Proof.Machine
end

