-- ==== Sys2Proof/Machine/Lantern.lean ====
section
/-!
DEFINITION. Lantern as functions over its own state: features, model images, the array, rules and their actions
(R351 to R366).
-/
namespace Sys2Proof.Machine

/-! ### Rounding and masses -/

/-- n ÷ d rounded to nearest even; `d` is not 0. -/
def rneDiv (n : Int) (d : Nat) : Int :=
  let q := n / d
  let r := n % d
  if 2 * r < d then q else if (d : Int) < 2 * r then q + 1 else if q % 2 = 0 then q else q + 1

/-- A mass as its signed 32-bit field (R315); outside the range the field is open (log entry 28). -/
def mass32 (x : Int) : W32 := if -(2 ^ 31) ≤ x ∧ x < 2 ^ 31 then BitVec.ofInt 32 x else Config.massOver x

def sat8 (x : Int) : Int := max (-128) (min 127 x)

/-! ### Model images (R355 to R357) -/

/-- The unsigned little-endian field of `n` bytes at `o`. -/
def byteFld (b : List Byte) (o n : Nat) : Nat := leNat ((b.drop o).take n)

structure Layer where
  nIn : Nat
  nOut : Nat
  int4 : Bool
  relu : Bool
  shift : Nat
  wOff : Nat
  bOff : Nat
  deriving DecidableEq, Repr

/-- Bytes of one stored row of weights. -/
def Layer.row (l : Layer) : Nat := if l.int4 then (l.nIn + 1) / 2 else l.nIn
/-- MACs the array performs for a layer (R351). -/
def Layer.macs (l : Layer) : Nat := 64 * ((l.nIn + 7) / 8) * ((l.nOut + 7) / 8)

/-- Entry `i` of the layer table. -/
def modelLayer (b : List Byte) (i : Nat) : Layer :=
  let o := 128 + 16 * i
  { nIn := byteFld b o 2, nOut := byteFld b (o + 2) 2, int4 := byteFld b (o + 4) 1 == 1, relu := byteFld b (o + 5) 1 == 1,
    shift := byteFld b (o + 6) 1, wOff := byteFld b (o + 8) 4, bOff := byteFld b (o + 12) 4 }

def modelLayers (b : List Byte) : List Layer := (List.range (byteFld b 6 1)).map (modelLayer b)
def modelH (b : List Byte) : Nat := byteFld b 7 1
def modelId (b : List Byte) : Nat := byteFld b 8 4

/-- Every byte of a range is zero. -/
def zeros (b : List Byte) (o n : Nat) : Bool := ((b.drop o).take n).all (· == 0)

/-- Consecutive layers fit. -/
def chained : List Layer → Bool
  | a :: c :: t => a.nOut == c.nIn && chained (c :: t)
  | _ => true

/-- No two areas (start, length) overlap. -/
def apart : List (Nat × Nat) → Bool
  | [] => true
  | a :: t => (t.all fun c => decide (a.1 + a.2 ≤ c.1) || decide (c.1 + c.2 ≤ a.1)) && apart t

/-- The checks of R357 on an image of `len` bytes. -/
def modelOk (b : List Byte) (len : Nat) : Bool :=
  let k := byteFld b 6 1
  let h := modelH b
  let ls := modelLayers b
  let crc := crc32c (b.take 16 ++ List.replicate 4 0 ++ b.drop 20)
  let areas := ls.flatMap fun l => [(l.wOff, l.row * l.nOut), (l.bOff, 4 * l.nOut)]
  decide (256 ≤ len) && b.length == len && byteFld b 0 4 == 0x4C4E5447 && byteFld b 4 2 == 1 && decide (1 ≤ k) && decide (k ≤ 8) &&
    decide (1 ≤ h) && decide (h ≤ 4) && modelId b != 0 && byteFld b 12 4 == len && byteFld b 16 4 == crc.toNat &&
    zeros b 20 12 && zeros b 112 16 && zeros b (128 + 16 * k) (128 - 16 * k) &&
    ((List.range 16).all fun f => decide (byteFld b (96 + f) 1 ≤ 31)) &&
    ((List.range k).all fun i =>
      let o := 128 + 16 * i
      decide (byteFld b (o + 4) 1 ≤ 1) && decide (byteFld b (o + 5) 1 ≤ 1) && decide (byteFld b (o + 6) 1 ≤ 31) && byteFld b (o + 7) 1 == 0) &&
    (ls.all fun l => decide (1 ≤ l.nIn) && decide (l.nIn ≤ 256) && decide (1 ≤ l.nOut) && decide (l.nOut ≤ 256)) &&
    ((ls.head?.map fun l => l.nIn == 16 * h).getD false) && chained ls && ((ls.getLast?.map fun l => decide (l.nOut ≤ 8)).getD false) &&
    (areas.all fun a => decide (256 ≤ a.1) && decide (a.1 + a.2 ≤ len) && a.1 % 4 == 0) && apart areas &&
    decide ((ls.map fun l => l.row * l.nOut).sum ≤ 65536)

/-- MACs per sample of a model (R351, R268). -/
def modelMacs (b : List Byte) : Nat := ((modelLayers b).map Layer.macs).sum

/-! ### The array (R356) -/

/-- Weight `i` of a stored row. -/
def weight (int4 : Bool) (row : List Byte) (i : Nat) : Int :=
  if int4 then signed 4 ((row.getD (i / 2) 0).toNat / 16 ^ (i % 2)) else signed 8 (row.getD i 0).toNat

/-- One layer. -/
def Layer.run (l : Layer) (b : List Byte) (x : List Int) : List Int :=
  (List.range l.nOut).map fun j =>
    let row := (b.drop (l.wOff + j * l.row)).take l.row
    let a := signed 32 (byteFld b (l.bOff + 4 * j) 4) + ((List.range l.nIn).map fun i => weight l.int4 row i * x.getD i 0).sum
    let y := sat8 (if l.shift = 0 then a else (a + 2 ^ (l.shift - 1)) / 2 ^ l.shift)
    if l.relu then max y 0 else y

/-- Quantise one sample's raw features with a model's offsets and shifts (R354). -/
def quantise (b : List Byte) (f : List Int) : List Int :=
  (List.range 16).map fun i => sat8 ((f.getD i 0 - signed 32 (byteFld b (32 + 4 * i) 4)) / 2 ^ (byteFld b (96 + i) 1))

/-- The scores of a model over the history of raw features, the latest first (R356). -/
def modelScores (b : List Byte) (history : List (List Int)) : List Int :=
  (modelLayers b).foldl (fun x l => l.run b x) ((List.range (modelH b)).flatMap fun i => quantise b (history.getD i []))

/-! ### Rules (R360 to R362) -/

/-- Whether the 4 words of a rule are legal (R360). -/
def ruleOk (w0 w1 w2 w3 : Nat) : Bool :=
  let cond (w : Nat) : Bool := decide (fld w 0 6 ≤ 55) && decide (fld w 8 3 ≤ 6) && fld w 6 2 == 0 && fld w 11 5 == 0 && fld w 24 8 == 0
  fld w0 1 3 == 0 && fld w0 7 1 == 0 && fld w0 10 6 == 0 && fld w0 16 8 != 0 && cond w1 && (fld w0 8 2 == 0 || cond w2) &&
    fld w3 2 6 == 0 && fld w3 16 16 == 0

/-- A condition of a rule; `outs` gives each rule's output as the rule sees it. -/
def ruleCond (scores xs : List Int) (outs : List Bool) (w : Nat) : Bool :=
  let o := fld w 0 6
  let v : Int := if o < 8 then scores.getD o 0 else if o < 24 then xs.getD (o - 8) 0 else (bit (outs.getD (o - 24) false) : Nat)
  let t := signed 8 (fld w 16 8)
  match fld w 8 3 with
  | 0 => decide (v > t)
  | 1 => decide (v ≥ t)
  | 2 => decide (v < t)
  | 3 => decide (v ≤ t)
  | 4 => decide (v = t)
  | 5 => decide (v ≠ t)
  | _ => decide (t < |v|)

/-- Evaluate one rule (R361): the rule after the sample, whether it fires, and whether a firing is suppressed. -/
def Rule.eval (r : Rule) (st : Nat) (scores xs : List Int) (outs : List Bool) : Rule × Bool × Bool :=
  let since := r.since.map (· + 1)
  if !bitAt r.w0 0 || !bitAt r.w0 (4 + st) then ({ r with out := false, run := 0, since := since }, false, false)
  else
    let a := ruleCond scores xs outs r.w1
    let b := ruleCond scores xs outs r.w2
    let holds := match fld r.w0 8 2 with
      | 0 => a
      | 1 => a && b
      | 2 => a || b
      | _ => a && !b
    let run := if holds then r.run + 1 else 0
    let out := decide (fld r.w0 16 8 ≤ run)
    let rising := out && !r.out
    let open' := (since.map fun n => decide (fld r.w0 24 8 ≤ n)).getD true
    ({ r with out := out, run := run, since := if rising && open' then some 0 else since }, rising && open', rising && !open')

/-- Evaluate the rules in order: each with its outcome. -/
def evalRules (st : Nat) (scores xs : List Int) (rules : List Rule) : List (Rule × Bool × Bool) :=
  rules.foldl (fun (done : List (Rule × Bool × Bool)) r =>
    let k := done.length
    let outs := (done.map fun x => x.1.out) ++ ((rules.drop k).map fun x => x.out)
    done ++ [r.eval st scores xs outs]) []

/-! ### One sample -/

/-- The bytes of the active model's buffer. -/
def Lan.model (l : Lan) : List Byte :=
  let m := l.bufs.getD l.active []
  m.readN 0 (leNat (m.readN 12 4))

/-- Bytes of a list of signed 8-bit values. -/
def int8Bytes (k : Nat) (xs : List Int) : List Byte := (List.range k).map fun i => BitVec.ofInt 8 (xs.getD i 0)

/-- The 64-byte payload of a DECISION (R364). -/
def Lan.decision (l : Lan) (st rule code actions : Nat) : List Byte :=
  padTo 64 ([1, BitVec.ofNat 8 rule, BitVec.ofNat 8 actions, BitVec.ofNat 8 code] ++ leBytes 4 l.samples ++ leBytes 1 l.active ++ leBytes 1 st ++ [0, 0] ++
    leBytes 4 (if l.on then modelId l.model else 0) ++ int8Bytes 8 l.scores ++ int8Bytes 16 l.xs)

/-- The 64-byte payload of a STATUS (R364). -/
def Lan.status (l : Lan) : List Byte :=
  let sm := l.summary
  padTo 64 ([2, BitVec.ofNat 8 (l.active + 2 * bit l.pending + 4 * bit l.on), 0, 0] ++ leBytes 4 l.samples ++ leBytes 4 l.wakes ++ leBytes 4 l.skipped ++
    leBytes 4 l.late ++ leBytes 4 l.fired ++ leBytes 4 l.suppressed ++ leBytes 4 l.wakeActions ++ leBytes 4 (if l.on then modelId l.model else 0) ++
    leBytes 1 ((sm.map fun x => x.rule).getD 0) ++ leBytes 1 ((sm.map fun x => x.code).getD 0) ++ [0, 0] ++ leBytes 4 ((sm.map fun x => x.sample).getD 0) ++
    int8Bytes 8 ((sm.map fun x => x.scores).getD []))

/-- Run the model and the rules on a sample's raw features (R354, R356, R361); `st` is 0 in ACTIVE and ROOST, 1 in
TORPOR, 2 in HIBERNATE. The firing rules come with their numbers, in order. -/
def Lan.sample (l : Lan) (st : Nat) (f : List Int) : Lan × List (Nat × Rule) :=
  let b := l.model
  let history := (f :: l.history).take 4
  let xs := if l.on then quantise b f else List.replicate 16 0
  let scores := if l.on then modelScores b history else []
  let res := evalRules st scores xs l.rules
  let firing := (res.zipIdx.filter fun x => x.1.2.1).map fun x => (x.2, x.1.1)
  ({ l with
      history := history, gs := (f.getD 2 0 :: l.gs).take 8, scores := scores, xs := xs, samples := (l.samples + 1) % 2 ^ 32
      rules := res.map fun x => x.1
      fired := (l.fired + firing.length) % 2 ^ 32
      suppressed := (l.suppressed + (res.filter fun x => x.2.2).length) % 2 ^ 32
      wakeActions := (l.wakeActions + (firing.filter fun x => bitAt x.2.w3 1).length) % 2 ^ 32
      sinceFire := if firing.isEmpty then l.sinceFire.map (· + 1) else some 0 }, firing)

/-- The boundary (R359, R362): a pending model becomes active, then pending rules replace their counterparts; whether
either happened. -/
def Lan.boundary (l : Lan) : Lan × Nat :=
  let l1 := if l.pending then { l with active := 1 - l.active, on := true, pending := false } else l
  ({ l1 with rules := l1.next.foldl (fun rs x => upd rs x.1 fun _ => x.2) l1.rules, next := [] },
    bit l.pending + bit (!l.next.isEmpty))

end Sys2Proof.Machine
end

