-- ==== Sys2Proof/Machine/Ops.lean ====
section
/-!
DEFINITION. Named operations over the state that every family shares: access to one object, time stamps, messages of
a mailbox, fault records, and the Gallery's memory.
-/
namespace Sys2Proof.Machine

/-! ### Access to one object -/

def State.mb (s : State) (m : Nat) : Mbx := s.mbx.getD m {}
def State.withMbx (s : State) (m : Nat) (f : Mbx → Mbx) : State := { s with mbx := upd s.mbx m f }
def State.geode (s : State) (g : Nat) : Geode := s.geodes.getD g {}
def State.withGeode (s : State) (g : Nat) (f : Geode → Geode) : State := { s with geodes := upd s.geodes g f }
/-- A Geode has 4 slots and 24 queues (R4). -/
def Geode.tables (d : Geode) : Bool := d.slots.length == 4 && d.queues.length == 24
def Geode.slot (d : Geode) (i : Nat) : Slot := d.slots.getD i {}
def Geode.withSlot (d : Geode) (i : Nat) (f : Slot → Slot) : Geode := { d with slots := upd d.slots i f }
def Geode.queue (d : Geode) (q : Nat) : Queue := d.queues.getD q {}
def Geode.withQueue (d : Geode) (q : Nat) (f : Queue → Queue) : Geode := { d with queues := upd d.queues q f }
def State.slot (s : State) (g i : Nat) : Slot := (s.geode g).slot i
def State.withSlot (s : State) (g i : Nat) (f : Slot → Slot) : State := s.withGeode g fun d => d.withSlot i f
def State.queue (s : State) (g q : Nat) : Queue := (s.geode g).queue q
def State.withQueue (s : State) (g q : Nat) (f : Queue → Queue) : State := s.withGeode g fun d => d.withQueue q f
def State.ctx (s : State) (c : Nat) : Ctx := s.ctxs.getD c {}
def State.withCtx (s : State) (c : Nat) (f : Ctx → Ctx) : State := { s with ctxs := upd s.ctxs c f }
def State.withGal (s : State) (f : Gallery → Gallery) : State := { s with gal := f s.gal }
def State.withTime (s : State) (f : TimeSt → TimeSt) : State := { s with time := f s.time }
def State.withDev (s : State) (f : Dev → Dev) : State := { s with dev := f s.dev }
def State.withPw (s : State) (f : Pw → Pw) : State := { s with pw := f s.pw }
def State.withTw (s : State) (f : Tw → Tw) : State := { s with tw := f s.tw }
def State.withFcu (s : State) (f : Fcu → Fcu) : State := { s with fcu := f s.fcu }
def State.withSec (s : State) (f : Sec → Sec) : State := { s with sec := f s.sec }
def State.withFl (s : State) (f : Flint → Flint) : State := { s with fl := f s.fl }
def State.withLan (s : State) (f : Lan → Lan) : State := s.withFl fun d => { d with lan := f d.lan }
def State.withShelf (s : State) (f : Shelf → Shelf) : State := { s with shelf := f s.shelf }
def State.stream (s : State) (i : Nat) : Stream := s.streams.getD i {}
def State.withStream (s : State) (i : Nat) (f : Stream → Stream) : State := { s with streams := upd s.streams i f }
def State.core (s : State) (h : Nat) : Core := s.cores.getD h {}
def State.withCore (s : State) (h : Nat) (f : Core → Core) : State := { s with cores := upd s.cores h f }
def State.withCic (s : State) (h : Nat) (f : Cic → Cic) : State := { s with cic := upd s.cic h f }
def State.withDrip (s : State) (f : DripSt → DripSt) : State := { s with drip := f s.drip }
def Gallery.slab (d : Gallery) (i : Nat) : Slab := d.slabs.getD i {}
def Gallery.withSlab (d : Gallery) (i : Nat) (f : Slab → Slab) : Gallery := { d with slabs := upd d.slabs i f }

/-! ### Time (R42, R52) -/

/-- Nanoseconds in a second. -/
def giga : Nat := 1000000000
/-- Quartz time in whole nanoseconds. -/
def State.ns (s : State) : Nat := s.time.now / 2 ^ 32
/-- A time of `ns` nanoseconds with fraction `frac` and quality `q` in the layout of R52. -/
def stampOf (frac ns q : Nat) : Nat := frac + ns % giga * 2 ^ 32 + ns / giga % 2 ^ 48 * 2 ^ 64 + q * 2 ^ 112
/-- The Quartz timestamp of this instant (R52). -/
def State.stamp (s : State) : Nat := stampOf (s.time.now % 2 ^ 32) s.ns s.time.quality.code

/-- The 64-bit drip number nearest to the current count that has the low bits `o` (R93). -/
def near64 (cur o : Nat) : Nat :=
  let b := cur / 2 ^ 32 * 2 ^ 32 + o % 2 ^ 32
  if b + 2 ^ 31 < cur then b + 2 ^ 32 else if cur + 2 ^ 31 < b ∧ 2 ^ 32 ≤ b then b - 2 ^ 32 else b

/-- Draw one open value (log entry 6). -/
def State.draw (s : State) : State × Nat := ({ s with free := s.free + 1 }, Config.freeValue s.free)

/-! ### Clocks and links (R14, R20, R23) -/

/-- Whether MEM, CORE and LINK run: out of reset, in ACTIVE, with REFCLK25. -/
def State.active (s : State) : Bool := s.dev.die != .inReset && s.dev.refclk && s.pw.state == 0
/-- Whether ARITH runs: the thermal trip gates it too (R387). -/
def State.arithRuns (s : State) : Bool := s.active && !s.fcu.trip
/-- Whether the Gallery takes requests: in ACTIVE, after its first fill (R212, R213). -/
def State.galOpen (s : State) : Bool := s.active && s.gal.initDone
/-- Whether a module of the host link is up. -/
def State.hostLink (s : State) : Bool := !(s.dev.down.contains 0 && s.dev.down.contains 1)
/-- Whether the twin link's module is up. -/
def State.twinLink (s : State) : Bool := !s.dev.down.contains 2

/-- Whether anything outside a Geode stops its firings: a fail-silent cause (R409), a gated clock or an agreed entry
block 4 (R20, R368, R371), the Pocket phase of a TWIN_SYNC (R406). -/
def State.mayFire (s : State) : Bool :=
  !s.fcu.mpHalt && !s.fcu.clock && s.arithRuns && !s.pw.agreed.contains 4 && !((s.tw.sync.map fun y => y.phase == 2).getD false)

/-- Whether the compute die answers the host's accesses: its clocks run and the host link is up. In ROOST and TORPOR the host link holds an
access until the exit, in HIBERNATE and OFF it reaches nothing (R76). -/
def State.winUp (s : State) : Bool := s.active && s.hostLink
/-- Whether a requester can make an access now: a core out of reset, the MP while it is not halted by the FCU, the host over its link. -/
def State.mayAccess (s : State) (who : Nat) : Bool := s.active && (if who = 9 then s.hostLink else if who = 8 then !s.fcu.mpHalt else !(s.core who).reset)

/-- Send a message on the Flint mailbox path (R345). -/
def State.sendFlint (s : State) (kind : Nat) (body : List W32) : State := { s with toFlint := s.toFlint ++ [(kind, body)] }
/-- Flint takes a message that the path carries, if the MP sent one like it. -/
def State.takeFlint (s : State) (kind : Nat) (body : List W32) : State := { s with toFlint := s.toFlint.erase (kind, body) }

/-! ### Messages of a mailbox (R62 to R64) -/

/-- A header word (R62). -/
def headerWord (op tag len : Nat) (auth flag9 : Bool) (status : Nat) : W32 :=
  BitVec.ofNat 32 (op % 256 * 2 ^ 24 + tag % 256 * 2 ^ 16 + len % 64 * 2 ^ 10 + bit flag9 * 2 ^ 9 + bit auth * 2 ^ 8 + status % 256)

/-- Words held in a response FIFO (R58). -/
def Mbx.rspCount (b : Mbx) : Nat := (b.rsp.map fun m => m.words.length).sum

/-- Whether a message fits the response FIFO. -/
def Mbx.fits (b : Mbx) (m : OutMsg) : Bool := decide (b.rspCount + m.words.length ≤ 64)

/-- Whether a message is the event with this code (R63). -/
def OutMsg.isEvent (m : OutMsg) (code : Nat) : Bool := m.event && (m.words.getD 1 0).toNat % 256 == code
/-- Whether a message can be written behind the held messages `h`: it fits, and no CMD_FLUSHED passes a RESYNC_LEN (R61, R64). -/
def Mbx.room (b : Mbx) (h : List OutMsg) (m : OutMsg) : Bool := b.fits m && !(m.isEvent 0x01 && h.any fun x => x.isEvent 0x03)

/-- Hold a message: a response always, an event while fewer than 4 are held (R64). -/
def Mbx.hold (b : Mbx) (m : OutMsg) : Mbx :=
  if m.event && decide (4 ≤ (b.held.filter fun x => x.event).length) then { b with evtLost := true } else { b with held := b.held ++ [m] }

/-- Write a message into the response FIFO, or hold it for want of room (R64). -/
def Mbx.send (b : Mbx) (m : OutMsg) : Mbx := if b.room b.held m then { b with rsp := b.rsp ++ [m] } else b.hold m

def State.send (s : State) (m : Nat) (msg : OutMsg) : State := s.withMbx m fun b => b.send msg

/-- Four tags per word, the lowest byte first (R63). -/
def tagWords : Nat → List Nat → List W32
  | 0, _ => []
  | k + 1, l => match l with
    | [] => []
    | l => BitVec.ofNat 32 (leNat ((l.take 4).map (BitVec.ofNat 8))) :: tagWords k (l.drop 4)

/-- An event message (R62, R63): its payload words. -/
def eventMsg (words : List W32) : OutMsg := ⟨true, 0, headerWord 0 0 words.length false true 0 :: words⟩

/-- Word 0 of an event (R63). -/
def eventWord0 (code tag m discarded : Nat) : W32 :=
  BitVec.ofNat 32 (code % 256 + tag % 256 * 2 ^ 8 + m % 256 * 2 ^ 16 + min discarded 127 * 2 ^ 24)

/-- Send an event on mailbox `m` with further payload words. -/
def State.event (s : State) (m code tag discarded : Nat) (more : List W32) : State :=
  s.send m (eventMsg (eventWord0 code tag m discarded :: more))

/-- Send an event on mailboxes 0 and 3, and no others (R416, R63). -/
def State.event03 (s : State) (code : Nat) (more : List W32) : State := (s.event 0 code 0 0 more).event 3 code 0 0 more

/-- A response message (R62). -/
def respMsg (c : Cmd) (status : Nat) (words : List W32) : OutMsg :=
  ⟨false, c.tag, headerWord c.op c.tag words.length false false status :: words⟩

/-- The phase of a command whose response waits for room (R64). -/
def answered : Nat := 1000

/-- Answer a command (R64, R72): the response is written and the command is no longer outstanding, or the response is
held and the command stays outstanding until it is written. -/
def State.respond (s : State) (m : Nat) (c : Cmd) (status : Nat) (words : List W32) : State :=
  s.withMbx m fun b =>
    let msg := respMsg c status words
    let b' := b.send msg
    if b.room b.held msg then { b' with out := b.out.filter fun x => x.tag != c.tag }
    else { b' with out := b.out.map fun x => if x.tag == c.tag then { x with phase := answered } else x }

/-! ### Fault records (R414 to R416) -/

/-- Records waiting for FAULT_READ. -/
def State.recCount (s : State) : Nat := s.mpRecs.length + s.fcuRecs.length

/-- A record of this instant with the next sequence number. -/
def State.mkRec (s : State) (fcu : Bool) (code ctx geode unit strm interval : Nat) (detail : List W32) : FRec :=
  { code := code, role := s.role, fcu := fcu, seq := s.recSeq + 1, ts := s.stamp, drip := s.drip.count, ctx := ctx, geode := geode,
    unit := unit, strm := strm, interval := interval, detail := detail }

/-- FAULT_NEW when a record joins an empty pair of stores and the MP runs to send it (R416). -/
def State.recNew (s : State) (wasEmpty : Bool) : State :=
  if wasEmpty && s.dev.die == .serving && !s.fcu.mpHalt && !s.sec.dbgHalt then s.event03 0x51 [] else s

/-- Add a record to the MP store; when it is full, the last place becomes RECORDS_LOST with the count of the records
lost, the displaced one among them (R416, log entry 22). -/
def State.addRec (s : State) (code ctx geode unit strm interval : Nat) (detail : List W32) : State :=
  let r := s.mkRec false code ctx geode unit strm interval detail
  let s1 := { s with recSeq := s.recSeq + 1 }
  if s.mpRecs.length < 128 then { s1 with mpRecs := s.mpRecs ++ [r] }.recNew (s.recCount == 0)
  else
    let n := if s.recLost = 0 then 2 else s.recLost + 1
    { s1 with
      recLost := n
      mpRecs := s.mpRecs.take 127 ++ [s.mkRec false 0x0001 0xFF 0xFF 0xFF 0xFF 0 [BitVec.ofNat 32 n]] }

/-- Add a record to the FCU store of 8 places; a full store keeps its oldest (R416, log entry 22). -/
def State.addFcuRec (s : State) (code unit : Nat) (detail : List W32) : State :=
  if s.fcuRecs.length < 8 then
    { s with recSeq := s.recSeq + 1, fcuRecs := s.fcuRecs ++ [s.mkRec true code 0xFF 0xFF unit 0xFF 0 detail] }.recNew (s.recCount == 0)
  else s

/-- The 16 words of a record (R414). -/
def FRec.words (r : FRec) : List W32 :=
  [BitVec.ofNat 32 (r.code + r.role * 2 ^ 16 + bit r.fcu * 2 ^ 18), BitVec.ofNat 32 r.seq] ++ leWords 4 (leBytes 16 r.ts) ++
    leWords 2 (leBytes 8 r.drip) ++ [BitVec.ofNat 32 (r.ctx + r.geode * 2 ^ 8 + r.unit * 2 ^ 16 + r.strm * 2 ^ 24), BitVec.ofNat 32 r.interval] ++
    (r.detail ++ List.replicate 6 0).take 6

/-! ### The Gallery's address map (R188 to R194) -/

/-- Byte `o` of slab `sl` in the Gallery's store. -/
def galAt (sl o : Nat) : Nat := sl * 2 ^ 20 + o
/-- The global channel of a stored byte (R194). -/
def galChan (p : Nat) : Nat :=
  let sl := p / 2 ^ 20
  8 * (sl / 128) + ((fld p 8 3) ^^^ (sl % 8))
/-- The line within the channel of a stored byte (R194). -/
def galLine (p : Nat) : Nat := (p / 2 ^ 20 % 128 * 2 ^ 17 + fld p 11 9 * 256 + p % 256) / 128

/-- The map entry of a context's index (R190). -/
def Ctx.ent (c : Ctx) (i : Nat) : Option MapEnt := (c.map.find? fun e => e.1 == i).map fun e => e.2

/-- Whether `n` bytes at context address `a` lie in the slab set (R191). -/
def Ctx.inSet (c : Ctx) (a n : Nat) (write : Bool) : Bool :=
  decide (a + n ≤ 2 ^ 29) && (range' (a / 2 ^ 20) ((a + max n 1 - 1) / 2 ^ 20 + 1 - a / 2 ^ 20)).all fun i =>
    match c.ent i with
    | none => false
    | some e => (!write || e.write) && !(e.prot && decide (i * 2 ^ 20 + 0xF8000 < a + max n 1))

/-- Whether any index that `n` bytes at `a` touch maps a protected slab. -/
def Ctx.anyProt (c : Ctx) (a n : Nat) : Bool :=
  (range' (a / 2 ^ 20) ((a + max n 1 - 1) / 2 ^ 20 + 1 - a / 2 ^ 20)).any fun i => ((c.ent i).map fun e => e.prot).getD false

/-- The place of a context address in the Gallery's store. -/
def Ctx.phys (c : Ctx) (a : Nat) : Nat := match c.ent (a / 2 ^ 20) with
  | some e => galAt e.slab (a % 2 ^ 20)
  | none => 0

/-- A range of context addresses cut at slab borders: stored place and length; the first argument counts pieces. -/
def Ctx.pieces (c : Ctx) : Nat → Nat → Nat → List (Nat × Nat)
  | 0, _, _ => []
  | k + 1, a, n =>
    if n = 0 then [] else
      let len := min n (2 ^ 20 - a % 2 ^ 20)
      (c.phys a, len) :: Ctx.pieces c k (a + len) (n - len)

/-- The context that owns a slab and the address at which it maps it, for a fault record (R212). -/
def State.slabOwner (s : State) (sl : Nat) : Nat × Nat :=
  let w := s.gal.slab sl
  if w.state = .free then (0xFF, 0)
  else (w.owner, (((s.ctx w.owner).map.find? fun e => e.2.slab == sl).map fun e => e.1 * 2 ^ 20).getD 0)

/-! ### Errors of the Gallery (R200, R209, R211, R212) -/

/-- Log an error of the Gallery at stored place `p`: the channel's count, its log while `VALID` is 0, and the fault
record of a logged error. -/
def State.galError (s : State) (p kind : Nat) : State :=
  let k := galChan p
  let ch := s.gal.chans.getD k {}
  let word := if kind = 2 then 0 else p % 128 / 8
  let log := galLine p + word * 2 ^ 17 + kind * 2 ^ 21 + 2 ^ 31
  let logged := !bitAt ch.errLog.toNat 31
  let s1 := s.withGal fun g => { g with chans := upd g.chans k fun c =>
    { c with ueCount := min 65535 (c.ueCount + 1), errLog := if logged then BitVec.ofNat 32 log else c.errLog } }
  if logged then
    let (c, base) := s.slabOwner (p / 2 ^ 20)
    s1.addRec (0x0201 + kind) c 0xFF k 0xFF 0 [BitVec.ofNat 32 log, BitVec.ofNat 32 (p / 2 ^ 20), BitVec.ofNat 32 (base + p % 2 ^ 20)]
  else s1

/-- Count a corrected error. -/
def State.galCorrected (s : State) (p : Nat) : State :=
  s.withGal fun g => { g with chans := upd g.chans (galChan p) fun c => { c with ceCount := min 65535 (c.ceCount + 1) } }

/-- Check the words of `n` bytes at stored place `p` as a read does (R200): corrected errors are written back, an
uncorrectable one becomes the poison check pattern and is logged with `kind`. -/
def State.galEcc (s : State) (p n kind : Nat) : State :=
  let inRange (w : Nat) : Bool := decide (p / 8 ≤ w) && decide (w ≤ (p + n - 1) / 8)
  let ces := s.gal.ce.filter inRange
  let ues := s.gal.ue.filter inRange
  let s1 := s.withGal fun g =>
    { g with ce := g.ce.filter (!inRange ·), ue := g.ue.filter (!inRange ·), poison := ues.foldl (fun l w => insNat w l) g.poison }
  let s2 := ces.foldl (fun s w => s.galCorrected (8 * w)) s1
  ues.foldl (fun s w => s.galError (8 * w) kind) s2

/-- The stored place of the tag of the granule at `p` (R206). -/
def tagAt (p : Nat) : Nat := galAt (p / 2 ^ 20) (0xF8000 + 8 * (p % 2 ^ 20 / 256))

/-- Check the granule at `p` of a protected slab, its tag with it, as a read does. -/
def State.granEcc (s : State) (p : Nat) : State := (s.galEcc (p / 256 * 256) 256 0).galEcc (tagAt p) 8 0

/-- Whether the granule at `p` of a protected slab fails: its tag, or poison in it or its tag (R209). -/
def Gallery.granBad (g : Gallery) (p : Nat) : Bool :=
  g.badTag.contains (p / 256) || anyPoison g.poison (p / 256 * 256) 256 ||
    anyPoison g.poison (tagAt p) 8

/-- The granules that `n` bytes at `p` touch. -/
def granules (p n : Nat) : List Nat := range' (p / 256) ((p + n - 1) / 256 + 1 - p / 256)

/-- The words of `n` bytes at `p` that a reader gets with poison: of a protected slab whole granules (R200, R209). -/
def Gallery.badWords (g : Gallery) (p n : Nat) : List Nat :=
  if (g.slab (p / 2 ^ 20)).state = .prot then ((granules p n).filter fun j => g.granBad (j * 256)).flatMap fun j => range' (j * 32) 32
  else g.poison.filter fun w => decide (p < 8 * w + 8) && decide (8 * w < p + n)

/-- Read `n` bytes at stored place `p`, all in one slab: the bytes and whether any arrives with poison. A protected slab is held as
its engines deliver it (R208, log entry 49). -/
def State.galReadP (s : State) (p n : Nat) : State × List Byte × Bool :=
  if n = 0 then (s, [], false)
  else if (s.gal.slab (p / 2 ^ 20)).state = .prot then
    let s1 := (granules p n).foldl (fun s j => s.granEcc (j * 256)) s
    let bad := (granules p n).filter fun j => s1.gal.granBad (j * 256)
    (bad.foldl (fun s j => s.galError (j * 256) 2) s1, s1.gal.mem.readN p n, !bad.isEmpty)
  else
    let s1 := s.galEcc p n 0
    (s1, s1.gal.mem.readN p n, anyPoison s1.gal.poison p n)

/-- The poison marks after writing `n` bytes at `a`, with poison or without: a partly covered word keeps its mark. -/
def writeMarks (ps : List Nat) (a n : Nat) (p : Bool) : List Nat :=
  if p then setPoison ps a n true else ps.filter fun w => !(decide (a ≤ 8 * w) && decide (8 * w + 8 ≤ a + n))

/-- Write bytes at stored place `p` of an unprotected slab (R200). -/
def State.galStore (s : State) (p : Nat) (bytes : List Byte) (poison : Bool) : State :=
  let n := bytes.length
  if n = 0 then s else
  let whole (w : Nat) : Bool := decide (p ≤ 8 * w) && decide (8 * w + 8 ≤ p + n)
  let s0 := s.withGal fun g => { g with ce := g.ce.filter (!whole ·), ue := g.ue.filter (!whole ·) }
  let s1 := if p % 8 = 0 then s0 else s0.galEcc p 1 0
  let s2 := if (p + n) % 8 = 0 then s1 else s1.galEcc (p + n - 1) 1 0
  s2.withGal fun g => { g with mem := g.mem.writeN p bytes, poison := writeMarks g.poison p n poison }

/-- Write the part of one granule of a protected slab (R208, R209): a whole granule restores it, a part of a failed
one is refused and reported. -/
def State.galStoreGran (s : State) (p : Nat) (bytes : List Byte) (poison : Bool) : State :=
  let j := p / 256
  let keep (w : Nat) : Bool := w != tagAt p / 8
  if bytes.length = 256 then
    (s.withGal fun g => { g with badTag := g.badTag.filter (· != j), poison := g.poison.filter keep, ce := g.ce.filter keep, ue := g.ue.filter keep }).galStore p bytes poison
  else
    let s1 := s.granEcc p
    if s1.gal.granBad p then s1.galError (j * 256) 2
    else s1.galStore p bytes poison

/-- The granules of a write to a protected slab, one after another; the first argument counts them. -/
def State.galStoreProt : Nat → State → Nat → List Byte → Bool → State
  | 0, s, _, _, _ => s
  | k + 1, s, p, bytes, poison =>
    if bytes.isEmpty then s else
      let n := min bytes.length (256 - p % 256)
      State.galStoreProt k (s.galStoreGran p (bytes.take n) poison) (p + n) (bytes.drop n) poison

/-- Write bytes at stored place `p`, all in one slab; what reaches a slab that is being zeroed is lost (R302). -/
def State.galWriteP (s : State) (p : Nat) (bytes : List Byte) (poison : Bool) : State :=
  if (s.gal.slab (p / 2 ^ 20)).state = .zeroing then s
  else if (s.gal.slab (p / 2 ^ 20)).state = .prot then State.galStoreProt (bytes.length / 256 + 2) s p bytes poison
  else s.galStore p bytes poison

/-- Read from a context's address space; the range lies in the slab set. -/
def State.galRead (s : State) (c a n : Nat) : State × List Byte × Bool :=
  (((s.ctx c).pieces (n / 2 ^ 20 + 2) a n).foldl (fun (r : State × List Byte × Bool) x =>
    let (s', b, p) := r.1.galReadP x.1 x.2
    (s', r.2.1 ++ b, r.2.2 || p)) (s, [], false))

/-- Write to a context's address space; the range lies in the slab set. -/
def State.galWrite (s : State) (c a : Nat) (bytes : List Byte) (poison : Bool) : State :=
  (((s.ctx c).pieces (bytes.length / 2 ^ 20 + 2) a bytes.length).foldl (fun (r : State × List Byte) x =>
    (r.1.galWriteP x.1 (r.2.take x.2) poison, r.2.drop x.2)) (s, bytes)).1

end Sys2Proof.Machine
end

