-- ==== Sys2Proof/Machine/Fire.lean ====
section
/-!
DEFINITION. Queues, firings, program faults and signatures of a Geode: the operations that the Geode instructions and
the sequencer's own events share (R90 to R102, R115, R132, R133, R148 to R153).
-/
namespace Sys2Proof.Machine

/-! ### Queues -/

/-- Released blocks at hand (`GD_Qq_STATUS.COUNT`). -/
def Queue.count (q : Queue) : Nat := (q.entries.filter fun e => e.released && !e.marker).length
/-- Markers held (`MARKERS`). -/
def Queue.markers (q : Queue) : Nat := (q.entries.filter fun e => e.marker).length
/-- Block places in use: queued, and popped and waiting for a commit. -/
def Queue.blocks (q : Queue) : Nat := ((q.entries ++ q.held).filter fun e => !e.marker).length

/-- Put a released entry behind the released ones, another at the end: consumers see entries in the order of their
release (R94). -/
def Queue.join (q : Queue) (e : Entry) : Queue :=
  { q with entries := if e.released then (q.entries.filter fun x => x.released) ++ e :: (q.entries.filter fun x => !x.released) else q.entries ++ [e] }

/-- Take markers that waited for a marker entry into the queue while one is free (R95). -/
def Queue.settle : Nat → Queue → Queue
  | 0, q => q
  | k + 1, q => match q.waiting with
    | [] => q
    | m :: t => if q.markers < 4 then Queue.settle k ({ q with waiting := t }.join m) else q

/-- Push a marker: it needs no credit and waits only while all 4 marker entries are full (R95). -/
def Queue.pushMarker (q : Queue) (m : Entry) : Queue := Queue.settle (q.waiting.length + 1) { q with waiting := q.waiting ++ [m] }

/-- The output queue that fills input queue `q` of Geode `g`, if one does (R94). -/
def State.producer (s : State) (g q : Nat) : Option (Nat × Nat) :=
  let w := s.queue g q
  if q < 16 then
    (if w.bind = 2 then some (w.peer, w.peerQ) else if w.bind = 3 then some (g, w.peerQ) else none)
  else none

/-- Credit for `n` blocks of an input queue starts back to its producer (R95). -/
def State.creditBack (s : State) (g q n : Nat) : State :=
  match s.producer g q with
  | some (pg, pq) => s.withQueue pg pq fun w => { w with creditDue := w.creditDue + n }
  | none => s

/-- The entries free in the consumer queue that a binding of an output queue of Geode `g` names: the credits its producer
begins with (R95; when they are given the spec does not say: at the write of the binding, none for an unbound queue, log
entry 13). -/
def State.freeEntries (s : State) (g kind peer peerQ : Nat) : Nat :=
  match kind with
  | 0 => 0
  | 1 => 32
  | 2 => 32 - (s.queue peer peerQ).blocks
  | _ => 32 - (s.queue g peerQ).blocks

/-- How many of some entries are blocks. -/
def blockCount (l : List Entry) : Nat := (l.filter fun e => !e.marker).length

/-- Discard every block and marker of a queue, and its held entries (R224): credit returns as R95 gives, and blocks of
an output queue return its own credit at once. -/
def State.discardQueue (s : State) (g q : Nat) : State :=
  let w := s.queue g q
  let n := w.blocks
  let s1 := s.withQueue g q fun w => { w with entries := [], held := [], waiting := [], credit := if q < 16 then w.credit else min 32 (w.credit + n) }
  if q < 16 then s1.creditBack g q n else s1

/-- Number of blocks, markers and held entries in a queue. -/
def Queue.left (q : Queue) : Nat := q.entries.length + q.held.length + q.waiting.length

/-! ### The firing in progress -/

/-- The slot and the firing of Geode `g`. -/
def State.firing (s : State) (g : Nat) : Option Firing := (s.geode g).firing
def State.withFiring (s : State) (g : Nat) (f : Firing → Firing) : State := s.withGeode g fun d => { d with firing := d.firing.map f }
/-- The slot that fires on Geode `g`. -/
def State.fslot (s : State) (g : Nat) : Nat := ((s.firing g).map fun f => f.slot).getD 0
def State.fsl (s : State) (g : Nat) : Slot := s.slot g (s.fslot g)
def State.withFsl (s : State) (g : Nat) (f : Slot → Slot) : State := s.withSlot g (s.fslot g) f

/-- The current origin drip of slot `i` (R92), as a 64-bit number: of its firing the latest origin popped, else the
current drip. -/
def State.originOf (s : State) (g i : Nat) : Nat :=
  ((s.firing g).bind fun f => if f.slot = i then f.lastOrigin else none).getD s.drip.count
/-- The origin drip a block pushed now by the firing would carry (R92). -/
def State.curOrigin (s : State) (g : Nat) : Nat := s.originOf g (s.fslot g)

/-- The interval of a slot's signatures and tracker entries (R38, R133, R152). -/
def State.sigInterval (s : State) (g i origin : Nat) : Nat :=
  let sl := s.slot g i
  if sl.cls = .background then sl.micro else origin

/-- The 12-byte trailer of a queue block's code: sideband bytes 16 to 27 (R91, R133). -/
def Entry.trailer (e : Entry) : List Byte :=
  leBytes 4 e.origin ++ leBytes 2 e.payload.length ++ leBytes 1 (bit e.poison + bit e.marker * (2 + 4 * e.cls.code)) ++ leBytes 1 e.fmt ++ leBytes 4 e.count

/-- The trailer of a Gallery write's code (R133). -/
def galTrailer (origin n : Nat) (poison : Bool) : List Byte :=
  leBytes 4 origin ++ leBytes 2 n ++ leBytes 1 (bit poison) ++ [0xFF, 0, 0, 0, 0]

/-- Fold a block's code into the accumulator of an interval (R133). -/
def foldAcc : List (Nat × W32) → Nat → W32 → List (Nat × W32)
  | [], n, c => [(n, crc32c (leBytes 4 0 ++ leBytes 4 c.toNat))]
  | (k, v) :: t, n, c => if k = n then (k, crc32c (leBytes 4 v.toNat ++ leBytes 4 c.toNat)) :: t else (k, v) :: foldAcc t n c

/-- Fold bytes and their trailer into a slot's accumulator for the interval `n`. -/
def Slot.fold (sl : Slot) (n : Nat) (bytes trailer : List Byte) : Slot := { sl with acc := foldAcc sl.acc n (crc32c (bytes ++ trailer)) }

/-- The accumulator of an interval; it starts at 0. -/
def Slot.accOf (sl : Slot) (n : Nat) : W32 := ((sl.acc.find? fun x => x.1 == n).map fun x => x.2).getD 0

/-! ### Trackers (R151 to R153) -/

/-- Fold an observation into a tracker's history; `v` says whether the interval is reported abandoned (R152). -/
def foldEntry : List TrEntry → Nat → Nat → Bool → List TrEntry
  | [], n, m, v => [⟨n, m, v⟩]
  | e :: t, n, m, v => if e.interval = n then { e with max := max e.max m } :: t else e :: foldEntry t n m v

/-- Fold a slot's observations into its trackers when its outputs are released (R151); `void` names the intervals reported
abandoned (R152). -/
def Slot.foldObs (void : Nat → Bool) (sl : Slot) : Slot :=
  { sl with
    trk := sl.obs.foldl (fun ts o => upd ts o.1 fun t => { t with entries := foldEntry t.entries o.2.1 o.2.2 (void o.2.1) }) sl.trk
    obs := [] }

/-- Derive a tracker's scale from the entries of intervals `lo` to `hi` (R153); a held scale, an empty window and a
maximum of 0 leave it. -/
def Tracker.derive (t : Tracker) (lo hi : Nat) : Tracker :=
  let m := (t.entries.filter fun e => decide (lo ≤ e.interval) && decide (e.interval ≤ hi) && !e.void).foldl (fun a e => max a e.max) 0
  if t.held || m == 0 then t else { t with scale := deriveScale (t.last == 2) m }

/-- The derivation at the boundary that opens drip `n` (R152): entries of origin drips n − 22 to n − 7; the scale stays
at hand for outputs of drip `n` that are written in later drips. -/
def Tracker.openDrip (t : Tracker) (n : Nat) : Tracker :=
  let t1 := if 7 ≤ n then t.derive (n - 22) (n - 7) else t
  { t1 with past := (n, t1.scale) :: t1.past.take 5, entries := t1.entries.filter fun e => decide (n ≤ e.interval + 30) }

/-- The derivation at the commit of micro-step `k` (R152): entries of micro-steps k − 15 to k. -/
def Tracker.commit (t : Tracker) (k : Nat) : Tracker :=
  let t1 := t.derive (k - 15) k
  { t1 with entries := t1.entries.filter fun e => decide (k ≤ e.interval + 15) }

/-- The scale in force for an output of origin drip `n` (R152). -/
def Tracker.scaleFor (t : Tracker) (cls : OClass) (n : Nat) : W32 :=
  if cls = .background then t.scale else ((t.past.find? fun x => x.1 == n).map fun x => x.2).getD t.scale

/-- Hold an observation of the firing: the largest magnitude of some lanes, NaNs and infinities left out (R151). -/
def Slot.observe (sl : Slot) (k n : Nat) (xs : List Num) : Slot :=
  match xs.filterMap magUnits with
  | [] => sl
  | ms => { sl with obs := sl.obs ++ [(k, n, ms.foldl max 0)] }

/-! ### Stochastic intervals (R148, R149) -/

/-- Fix the interval number of the firing, if it is not yet fixed, and open the interval when it differs from the
slot's previous one. -/
def State.fixInterval (s : State) (g : Nat) : State :=
  match s.firing g with
  | none => s
  | some f =>
    let sl := s.fsl g
    let n := if sl.cls = .background then 2 ^ 63 + sl.micro else (f.interval.getD (f.firstOrigin.getD s.drip.count))
    let s1 := s.withFiring g fun f => { f with interval := some n }
    if sl.interval = some n then s1 else s1.withFsl g fun sl => { sl with interval := some n, eCount := 0 }

/-- The next `k` random numbers of the firing slot (R148). -/
def State.randoms (s : State) (g k : Nat) : State × List Nat :=
  let s1 := s.fixInterval g
  let sl := s1.fsl g
  let n := sl.interval.getD 0
  let key := (s1.ctx sl.ctx).seedBase
  (s1.withFsl g fun sl => { sl with eCount := sl.eCount + k }, (List.range k).map fun i => randElem key n g (s1.fslot g) (sl.eCount + i))

/-! ### What stops an instruction -/

/-- A program fault in an instruction: its cause (R135), and the state it had reached if it had begun to have effects (log
entry 13). -/
structure Stop where
  cause : Nat
  reached : Option State := none
  deriving DecidableEq, Repr

/-- What a part of an instruction gives. -/
abbrev Res (α : Type) := Except Stop α

/-- A program fault before any effect. -/
def stop {α : Type} (c : Nat) : Res α := .error ⟨c, none⟩

/-- What follows an effect: a fault in it that has no effect of its own finds the state `s` reached before it. -/
def held {α : Type} (s : State) (r : Res α) : Res α := match r with
  | .error ⟨c, none⟩ => .error ⟨c, some s⟩
  | r => r

/-! ### Pops and pushes -/

/-- Take the entry a pop takes: in a BACKGROUND slot the oldest released entry, else the oldest released block. -/
def takeEntry (bg : Bool) : List Entry → Option (Entry × List Entry)
  | [] => none
  | e :: t =>
    if e.released && (bg || !e.marker) then some (e, t)
    else (takeEntry bg t).map fun x => (x.1, e :: x.2)

/-- Set bits of `GD_FAULT` (R104). -/
def State.geodeFault (s : State) (g b : Nat) : State :=
  s.withGeode g fun d => { d with fault := d.fault ||| BitVec.ofNat 32 b }

/-- An entry as it leaves a queue: an uncorrectable error has become poison in its bytes (R90). -/
def Entry.leave (e : Entry) : Entry := { e with poison := e.poison || e.ue, bad := e.bad || e.ue, ue := false }
/-- What an entry's uncorrectable error sets and records as it leaves queue `q` (R90, R107). -/
def State.entryUe (s : State) (g q ctx : Nat) (e : Entry) : State :=
  if e.ue then (s.geodeFault g 0x10).addRec 0x0104 ctx g q 0xFF e.origin [] else s

/-- Pop one entry of queue `q` in the firing of Geode `g`, or the cause of the program fault (R102, R130): the queue
must be an input the slot names; pops beyond the quota, and a 33rd pop since the last commit, fault. -/
def State.pop (s : State) (g q : Nat) : Res (State × Entry) :=
  match s.firing g with
  | none => stop 0x07
  | some f =>
    let sl := s.fsl g
    let w := s.queue g q
    let bg : Bool := sl.cls = .background
    if !(decide (q < 16) && bitAt sl.qin q) then stop 0x07
    else if w.quota ≤ f.pops.getD q 0 then stop 0x05
    else if bg && decide (32 ≤ w.held.length) then stop 0x0F
    else match takeEntry bg w.entries with
      | none => stop 0x05
      | some (e, rest) =>
        let o := near64 s.drip.count e.origin
        let s1 := s.withQueue g q fun w => { w with entries := rest, held := if bg then w.held ++ [e.leave] else w.held }
        let s2 := if bg || e.marker then s1 else s1.creditBack g q 1
        let s3 := s2.withFiring g fun f =>
          { f with
            pops := upd f.pops q (· + 1)
            firstOrigin := some (f.firstOrigin.getD o)
            lastOrigin := some (max o (f.lastOrigin.getD 0))
            lastPop := o
            lastMarker := if e.marker then some e else f.lastMarker }
        let s4 := s3.withQueue g q fun w => Queue.settle 4 w
        .ok ((s4.entryUe g q sl.ctx e).fixInterval g, e.leave)

/-- A block as a firing pushes it: stamped under R53, with the origin drip of R92. -/
def State.newBlock (s : State) (g q : Nat) (payload : List Byte) (poison : Bool) : Entry :=
  { payload := payload, ts := s.stamp, origin := s.curOrigin g % 2 ^ 32, poison := poison, cls := (s.fsl g).cls, fmt := (s.queue g q).fmt, released := false, slot := s.fslot g }

/-- Push an entry onto output queue `q` in the firing of Geode `g`, or the cause of the program fault (R102); a marker
counts as no block and needs no credit. -/
def State.push (s : State) (g q : Nat) (e : Entry) : Res State :=
  match s.firing g with
  | none => stop 0x07
  | some f =>
    let sl := s.fsl g
    if !(decide (16 ≤ q) && decide (q < 24) && bitAt sl.qout (q - 16)) then stop 0x07
    else if e.marker then .ok (s.withQueue g q fun w => w.pushMarker e)
    else if (s.queue g q).quota ≤ f.pushes.getD q 0 then stop 0x06
    else
      let s1 := s.withFiring g fun f => { f with pushes := upd f.pushes q (· + 1) }
      .ok (s1.withQueue g q fun w => { w with entries := w.entries ++ [e], credit := w.credit - 1 })

/-- `n` pops in order. -/
def State.popN : Nat → State → Nat → Nat → Res (State × List Entry)
  | 0, s, _, _ => .ok (s, [])
  | k + 1, s, g, q => do
    let (s1, e) ← s.pop g q
    held s1 do
      let (s2, es) ← State.popN k s1 g q
      pure (s2, e :: es)

/-- Pushes in order. -/
def State.pushN (s : State) (g q : Nat) : List Entry → Res State
  | [] => .ok s
  | e :: t => do
    let s1 ← s.push g q e
    held s1 (State.pushN s1 g q t)

/-! ### Release and discard -/

/-- The output queues a slot names. -/
def Slot.outs (sl : Slot) : List Nat := (range' 16 8).filter fun q => bitAt sl.qout (q - 16)
/-- The input queues a slot names. -/
def Slot.ins (sl : Slot) : List Nat := (List.range 16).filter fun q => bitAt sl.qin q

/-- The key of a queue's count of released blocks: origin drip and slot. -/
def sentKey (o i : Nat) : Nat := 4 * o + i

/-- Count released blocks of slot `i` by origin drip. -/
def countSent (l : List (Nat × Nat)) (cur i : Nat) (new : List Entry) : List (Nat × Nat) :=
  new.foldl (fun l e => let o := sentKey (near64 cur e.origin) i; setKey l o ((getKey l o).getD 0 + 1)) l

/-- Whether an entry is an unreleased output of slot `i` (R96). -/
def Entry.isHeldBy (e : Entry) (i : Nat) : Bool := !e.released && e.slot == i

/-- Release slot `i`'s entries of a queue: they follow those released before. -/
def Queue.release (w : Queue) (i : Nat) : Queue :=
  let up (e : Entry) : Entry := { e with released := true }
  { w with
    entries := (w.entries.filter fun e => e.released) ++ ((w.entries.filter fun e => e.isHeldBy i).map up) ++
      w.entries.filter fun e => !e.released && !e.isHeldBy i
    waiting := w.waiting.map fun e => if e.isHeldBy i then up e else e }

/-- Release the outputs of slot `i` (R96): its blocks become visible, each block is folded into the accumulator of its
interval (queues in number order, each in the order of its pushes, log entry 14), and its observations are folded. -/
def State.release (s : State) (g i : Nat) : State :=
  let sl := s.slot g i
  let s1 := sl.outs.foldl (fun s q =>
    let new := (s.queue g q).entries.filter fun e => e.isHeldBy i && !e.marker
    let s' := new.foldl (fun s e => s.withSlot g i fun sl =>
      sl.fold (if sl.cls = .background then sl.micro else near64 s.drip.count e.origin) e.payload e.trailer) s
    s'.withQueue g q fun w => { w.release i with sent := countSent w.sent s.drip.count i new }) s
  s1.withSlot g i (Slot.foldObs fun n => sl.cls != .background && (s.ctx sl.ctx).voided.contains n)

/-- Discard the unreleased outputs of slot `i`; their credit returns at once (R96). -/
def State.dropOutputs (s : State) (g i : Nat) : State :=
  let s1 := (s.slot g i).outs.foldl (fun s q => s.withQueue g q fun w =>
    let gone := w.entries.filter fun e => e.isHeldBy i
    { w with entries := w.entries.filter fun e => !e.isHeldBy i, waiting := w.waiting.filter fun e => !e.isHeldBy i, credit := min 32 (w.credit + blockCount gone) }) s
  s1.withSlot g i fun sl => { sl with obs := [] }

/-- Return the credit of a BACKGROUND slot's popped entries and forget them: at a commit, or when they are discarded. -/
def State.dropHeld (s : State) (g i : Nat) : State :=
  (s.slot g i).ins.foldl (fun s q =>
    let n := blockCount (s.queue g q).held
    (s.withQueue g q fun w => { w with held := [] }).creditBack g q n) s

/-- Restore the read position of every input queue of slot `i` (R35). -/
def State.unpop (s : State) (g i : Nat) : State :=
  (s.slot g i).ins.foldl (fun s q => s.withQueue g q fun w => { w with entries := w.held ++ w.entries, held := [] }) s

/-- Push a missing marker of drip `n` on each output queue of slot `i`, with the number of blocks of that drip it released
there (R33, R34, R92, R102). -/
def State.missing (s : State) (g i n : Nat) : State :=
  let sl := s.slot g i
  sl.outs.foldl (fun s q => s.withQueue g q fun w => w.pushMarker
      { ts := s.stamp, origin := n % 2 ^ 32, marker := true, cls := sl.cls, fmt := w.fmt, count := (getKey w.sent (sentKey n i)).getD 0 }) s

/-- Discard the queued input blocks of slot `i` of drips up to `cut`, with their credit; the drips found, rising. -/
def State.dropIn (s : State) (g i cut : Nat) : State × List Nat :=
  (s.slot g i).ins.foldl (fun (r : State × List Nat) q =>
    let w := r.1.queue g q
    let cur := r.1.drip.count
    let old (e : Entry) : Bool := e.released && !e.marker && decide (near64 cur e.origin ≤ cut)
    let gone := w.entries.filter old
    ((r.1.withQueue g q fun w => { w with entries := w.entries.filter fun e => !old e }).creditBack g q gone.length,
      gone.foldl (fun l e => insNat (near64 cur e.origin) l) r.2)) (s, [])

/-- Restore a BACKGROUND slot to its last commit (R35, R111, R133, R149, R151): saved registers and program counter, the
read positions of its input queues, no unreleased outputs, no observations, the accumulator of the commit. -/
def State.restoreBg (s : State) (g i : Nat) : State :=
  ((s.dropOutputs g i).unpop g i).withSlot g i fun sl =>
    { sl with s := sl.saved.s, a := sl.saved.a, pc := sl.saved.pc, eCount := sl.saved.eCount, acc := [] }

/-- Note that slot `i` abandoned or dropped work of drip `n` (R39). -/
def State.abandon (s : State) (g i n : Nat) : State :=
  let c := (s.slot g i).ctx
  s.withCtx c fun x => { x with abandoned := insNat n x.abandoned }

/-! ### The end of a firing -/

/-- Whether the drip generator runs. -/
def State.running (s : State) : Bool := s.drip.phase == .running

/-- The slots of a context: Geode and slot. -/
def State.slotsOf (s : State) (c : Nat) : List (Nat × Nat) :=
  (List.range 32).flatMap fun g => ((List.range 4).filter fun i => (s.slot g i).ctx == c && (s.slot g i).state != .empty).map fun i => (g, i)

/-- Write `BUDGET` 0 to every slot of a context (R223, R225). -/
def State.zeroBudgets (s : State) (c : Nat) : State := (s.slotsOf c).foldl (fun s x => s.withSlot x.1 x.2 fun sl => { sl with budgetNext := 0 }) s

/-- A context starts towards HALTED after slot `i` of Geode `g` was vacated (R225 steps 2 to 4, R404): the stop waits for
the next boundary, or for none while no boundary is due (R223). -/
def State.haltCtx (s : State) (c g i : Nat) (byRetirement : Bool) : State :=
  (s.zeroBudgets c).withCtx c fun x =>
    { x with
      halting := true
      stopArmed := x.stopArmed || !s.running
      vacated := if byRetirement then x.vacated else x.vacated ++ [(g, i)]
      retiredSlots := if byRetirement then x.retiredSlots ++ [(g, i)] else x.retiredSlots }

/-- The record of the program fault that slot `i` halted on (R225, R414). -/
def State.faultRec (s : State) (g i : Nat) : State :=
  let sl := s.slot g i
  s.addRec 0x0107 sl.ctx g i 0xFF sl.faultIv [BitVec.ofNat 32 sl.cause, BitVec.ofNat 32 sl.faultPc]

/-- A Geode's retirement (R82, R83, R402, R404): no slot fires again, its contents stay, and every context with a slot on
it is halted as for a program fault, with those slots vacated; a program fault not yet recorded keeps its record. -/
def State.retire (s : State) (g : Nat) : State :=
  let s1 := s.withGeode g fun d => { d with retired := true, retirePending := false, veinPending := 0, firing := none }
  (List.range 4).foldl (fun s i =>
    let sl := s.slot g i
    if sl.state = .empty then s
    else ((if sl.state = .halted then s.faultRec g i else s).withSlot g i fun sl => { sl with state := .empty }).haltCtx sl.ctx g i true) s1

/-- The retirement on a second faulty Vein, with its record (R82 step 4b). -/
def State.retireVein (s : State) (g : Nat) : State := (s.addRec 0x0102 0xFF g 0xFF 0xFF 0 []).retire g

/-- Faulty Veins of a Geode, `n` more found: among the 9, counting the one the spare has replaced (R80, R82). -/
def Geode.veinCount (d : Geode) (n : Nat) : Nat := bit d.spareUsed + d.veinPending + ((d.firing.map fun f => f.veinFaults).getD 0) + n

/-- The check of R80 finds `n` more faulty Veins (R82 steps 1 and 2): `GD_FAULT.VEIN` for a first, `GEODE` for a second. In a
firing, later Y results carry poison and the firing runs on; between firings, the repair or the retirement follows at once. -/
def State.faultyVeins (s : State) (g n : Nat) : State :=
  let d := s.geode g
  let k := d.veinCount 0
  let s1 := s.geodeFault g (bit (k == 0) + 2 * bit (decide (2 ≤ k + n)))
  if d.firing.isSome then s1.withFiring g fun f => { f with veinPoison := true, veinFaults := f.veinFaults + n }
  else if 2 ≤ k + n then s1.retireVein g
  else s1.withGeode g fun d => { d with veinPending := 1, tiles := [] }

/-- End the firing of Geode `g`: the repair of a first faulty Vein found in it begins and a second one retires the Geode (R82
steps 4a and 4b), a retirement that waited happens (R402), and a self-test that waited begins (R402). -/
def State.endFiring (s : State) (g : Nat) : State :=
  match s.firing g with
  | none => s
  | some f =>
    let d := s.geode g
    if 1 ≤ f.veinFaults ∧ 2 ≤ d.veinCount 0 then s.retireVein g
    else if d.retirePending then s.retire g
    else s.withGeode g fun d =>
      { d with
        firing := none
        veinPending := f.veinFaults
        tiles := if 1 ≤ f.veinFaults then [] else d.tiles
        kat := if d.kat.pending then { d.kat with pending := false, busy := true, done := false, fail := false, unit := 0 } else d.kat }

/-- A program fault of slot `i` with its cause and PC (R102, R134): unreleased outputs and popped inputs are discarded,
the slot halts, and a REALTIME or ELASTIC slot pushes markers for its current origin drip. -/
def State.progFault (s : State) (g i cause pc : Nat) : State :=
  let o := s.originOf g i
  let sl := s.slot g i
  let s1 := (s.dropOutputs g i).dropHeld g i
  let s2 := s1.withSlot g i fun sl => 
    { sl with state := .halted, cause := cause, faultPc := pc, stopping := false, faultIv := (if sl.cls = .background then sl.micro else o) % 2 ^ 32 }
  let s3 := s2.geodeFault g (2 ^ (8 + i))
  let s4 := if sl.cls = .background then s3 else (s3.missing g i o).abandon g i o
  if ((s4.firing g).map fun f => f.slot) = some i then s4.endFiring g else s4

/-- Charge cycles to the firing and its slot (R99). -/
def State.charge (s : State) (g t : Nat) : State :=
  (s.withFsl g fun sl => { sl with used := sl.used + t }).withFiring g fun f => { f with cycles := f.cycles + t }

/-- What an instruction does to the program counter. -/
inductive Flow where
  | next
  | jump (pc : Nat)
  /-- The instruction ended the firing or set the program counter itself. -/
  | done
  deriving DecidableEq, Repr

/-- Move on after an instruction at `pc` (R115, R118): past the last instruction faults with cause 0x04, a target at or
beyond the count with 0x03. -/
def State.advance (s : State) (g pc : Nat) (fl : Flow) : State :=
  let n := (s.fsl g).prog.length
  match fl with
  | .done => s
  | .next => if n ≤ pc + 1 then s.progFault g (s.fslot g) 0x04 pc else s.withFsl g fun sl => { sl with pc := pc + 1 }
  | .jump p => if n ≤ p then s.progFault g (s.fslot g) 0x03 pc else s.withFsl g fun sl => { sl with pc := p }

/-- Whether the instruction at the program counter is a COMMIT that stalls on the context's full list (R38, R118). -/
def State.commitFull (s : State) (g : Nat) : Bool :=
  let sl := s.fsl g
  sl.cls == .background && fld (sl.prog.getD sl.pc 0).toNat 56 8 == 0x02 && decide (16 ≤ (s.ctx sl.ctx).bg.length)

/-- An instruction begins: its cycles are charged, those of a COMMIT stalled on a full list apart (R99); a debugger's single
step is used (R434); the MP, told of an earlier format error, has cleared `GD_CAL_LOG0.VALID` by then (R185; the MP's delay is
the model's choice, log entry 18). -/
def State.spend (s : State) (g t : Nat) : State :=
  ((s.charge g t).withFiring g fun f => { f with stalled := f.stalled + if s.commitFull g then t else 0 }).withGeode g fun d =>
    { d with step := false, calLog0 := if s.fcu.mpHalt then d.calLog0 else d.calLog0 &&& 0x7FFFFFFF }

/-- Issue the instruction at the program counter of Geode `g`'s firing when its opcode is one of `ops`: `t` cycles are
charged, an uncorrectable program-memory error faults with cause 0x10, reaching the limit with 0x0E, and the body gives
the effect or the cause of a program fault. Not enabled: no firing, another opcode, a halted sequencer, or ARITH gated. -/
def State.issue (s : State) (g t : Nat) (isOp : Nat → Bool) (body : Nat → State → Res (State × Flow)) : State :=
  match s.firing g with
  | none => s
  | some f =>
    let sl := s.fsl g
    let pc := sl.pc
    let w := (sl.prog.getD pc 0).toNat
    if !s.arithRuns || ((s.geode g).halted && !(s.geode g).step) || !isOp (fld w 56 8) || decide (sl.prog.length ≤ pc) then s
    else
      let s1 := s.spend g t
      if sl.progUe.contains pc then ((s1.geodeFault g 0x20).addRec 0x0105 sl.ctx g f.slot 0xFF 0 []).progFault g f.slot 0x10 pc
      else if f.limit ≠ 0 ∧ f.limit + (f.stalled + if s.commitFull g then t else 0) ≤ f.cycles + t then s1.progFault g f.slot 0x0E pc
      else match body w s1 with
        | .error e => (e.reached.getD s1).progFault g f.slot e.cause pc
        | .ok (s2, fl) => s2.advance g pc fl

/-! ### Registers of the firing slot -/

/-- S register `i`; S0 reads as 0 (R111). -/
def State.sreg (s : State) (g i : Nat) : W32 := if i = 0 then 0 else (s.fsl g).s.getD i 0
/-- Write an S register; S0 ignores it (R111). -/
def State.setS (s : State) (g i : Nat) (v : W32) : State := if i = 0 then s else s.withFsl g fun sl => { sl with s := sl.s.set i v }
def State.areg (s : State) (g i : Nat) : Nat := ((s.fsl g).a.getD i 0).toNat
/-- Write an A register, which keeps bits [20:0] (R111). -/
def State.setA (s : State) (g i : Nat) (v : Nat) : State := s.withFsl g fun sl => { sl with a := sl.a.set i (BitVec.ofNat 32 (v % 2 ^ 21)) }
def State.vreg (s : State) (g i : Nat) : VReg := (s.fsl g).v.getD i {}
def State.setV (s : State) (g i : Nat) (v : VReg) : State := s.withFsl g fun sl => { sl with v := sl.v.set i v }
def State.treg (s : State) (g i : Nat) : Nat := ((s.fsl g).t.getD i 0).toNat

/-! ### The Pocket (R86 to R88) -/

/-- Bytes a slot's window really has: a window that passes the top of the Pocket ends there (R88). -/
def Slot.window (sl : Slot) : Nat := min sl.size (32 - sl.base) * 2 ^ 16

/-- The place in the Pocket of `n` bytes at offset `a` of the firing slot's window; outside it, cause 0x08. -/
def State.pocketAt (s : State) (g a n : Nat) : Res Nat :=
  let sl := s.fsl g
  if sl.window < a + n then stop 0x08 else .ok (sl.base * 2 ^ 16 + a)

/-- Check the words of a Pocket range as a read does (R87): a correctable error is corrected and counted, an
uncorrectable one is reported; both by word. -/
def State.pocketEcc (s : State) (g p n : Nat) : State :=
  let d := s.geode g
  let inR (w : Nat) : Bool := n != 0 && decide (p / 8 ≤ w) && decide (w ≤ (p + n - 1) / 8)
  let ces := d.ce.filter inR
  let ues := d.ue.filter inR
  let s1 := if ces.isEmpty then s else
    (s.withGeode g fun d => { d with ce := d.ce.filter (!inR ·), ceCount := min 65535 (d.ceCount + ces.length) }).geodeFault g 0x04
  if ues.isEmpty then s1 else
    ues.foldl (fun s w => s.addRec 0x0103 (s.fsl g).ctx g 0xFF 0xFF 0 [BitVec.ofNat 32 (8 * w)]) (s1.geodeFault g 0x08)

/-- Read a Pocket range: the bytes and whether any of its words carries poison. -/
def State.pocketRead (s : State) (g p n : Nat) : State × List Byte × Bool :=
  let s1 := s.pocketEcc g p n
  let d := s1.geode g
  (s1, d.pocket.readN p n, anyPoison d.poison p n || anyPoison d.ue p n)

/-- Write a Pocket range, with poison or without. -/
def State.pocketWrite (s : State) (g p : Nat) (bytes : List Byte) (poison : Bool) : State :=
  let n := bytes.length
  let whole (w : Nat) : Bool := decide (p ≤ 8 * w) && decide (8 * w + 8 ≤ p + n)
  s.withGeode g fun d =>
    { d with
      pocket := d.pocket.writeN p bytes
      poison := writeMarks d.poison p n poison
      ce := d.ce.filter (!whole ·)
      ue := d.ue.filter (!whole ·) }

end Sys2Proof.Machine
end

