-- ==== Sys2Proof/Machine/Operands.lean ====
section
/-!
DEFINITION. Operand forms of the Geode instructions: tensor descriptors and their checks (R112, R113), blocks of raw and
coded tensors and of queue entries (R169 to R171, R181 to R185), result conversion with tracker scaling (R132, R139).
-/
namespace Sys2Proof.Machine

/-- Where a tensor lies (R112 `LOC`). -/
inductive Loc where
  | pocket | gallery | queue
  deriving DecidableEq, Repr

/-- A tensor descriptor (R112). -/
structure Desc where
  base : Nat
  loc : Loc
  etype : EType
  coded : Bool
  trkEn : Bool
  trk : Nat
  rows : Nat
  cols : Nat
  stride : Nat
  deriving DecidableEq, Repr

/-- Whether a type may be coded (R112). -/
def EType.codable : EType → Bool
  | .e4m3 | .e5m2 | .bf16 => true
  | _ => false

/-- Bytes of a raw block, elements of a block, and blocks of a queue entry (R113, R127). -/
def EType.blockBytes (t : EType) : Nat := if t.size = 4 then 256 else 64
def EType.perBlock (t : EType) : Nat := t.blockBytes / t.size
def EType.perEntry (t : EType) : Nat := if t.size = 2 then 2 else 1

/-- Read a descriptor when an instruction uses it; cause 0x09 for each broken requirement (R112, R135, R170). -/
def readDesc (w : Nat) : Res Desc :=
  let base := fld w 0 32
  let loc : Option Loc := match fld w 32 2 with | 0 => some .pocket | 1 => some .gallery | 2 => some .queue | _ => none
  match loc, EType.ofCode (fld w 34 3) with
  | some l, some t =>
    let d : Desc := ⟨base, l, t, bitAt w 37, bitAt w 38, fld w 39 2, fld w 48 16, fld w 64 16, fld w 80 32⟩
    if d.coded && !t.codable then stop 0x09
    else if l = .pocket ∧ 2 ^ 21 ≤ base then stop 0x09
    else if l = .queue then (if 32 ≤ base then stop 0x09 else .ok d)
    else if d.rows = 0 ∨ d.cols = 0 then stop 0x09
    else if d.coded then (if base % 16 ≠ 0 ∨ d.stride % 4 ≠ 0 then stop 0x09 else .ok d)
    else if d.stride % 64 ≠ 0 then stop 0x09
    else .ok d
  | _, _ => stop 0x09

/-- Descriptor register `i` of the firing slot. -/
def State.desc (s : State) (g i : Nat) : Res Desc := readDesc (s.treg g i)

/-- Check that an access lies inside the slot's window (cause 0x08) or the context's slab set (cause 0x0B). -/
def State.memCheck (s : State) (g : Nat) (l : Loc) (a n : Nat) (write : Bool) : Res Unit :=
  match l with
  | .pocket => if (s.fsl g).window < a + n then stop 0x08 else .ok ()
  | .gallery => if (s.ctx (s.fsl g).ctx).inSet a n write then .ok () else stop 0x0B
  | .queue => stop 0x0A

/-- Whether two spans meet. -/
def spansMeet (a n b m : Nat) : Bool := decide (a < b + m) && decide (b < a + n)

/-- Gallery writes of a MOVE reach the Gallery, in order; one whose range has left the slab set is lost. -/
def State.storeWrites (s : State) (c : Nat) (l : List GalWrite) : State :=
  l.foldl (fun s w => if w.store && (s.ctx c).inSet w.addr w.bytes.length true then s.galWrite c w.addr w.bytes w.poison else s) s

/-- Read the context's Gallery as the firing slot sees it: with its own completed writes that other readers do not yet see
(R128, R174). -/
def State.ownRead (s : State) (g a n : Nat) : State × List Byte × Bool :=
  let sl := s.fsl g
  let own := sl.writes.filter fun w => w.done && w.store && spansMeet a n w.addr w.bytes.length
  let r := s.galRead sl.ctx a n
  if own.isEmpty then r else (r.1, ((s.storeWrites sl.ctx own).galRead sl.ctx a n).2)

/-- Read bytes of the Pocket window or of the context's Gallery: the bytes and whether any word carries poison. -/
def State.memRead (s : State) (g : Nat) (l : Loc) (a n : Nat) : Res (State × List Byte × Bool) := do
  s.memCheck g l a n false
  match l with
  | .pocket => pure (s.pocketRead g ((s.fsl g).base * 2 ^ 16 + a) n)
  | _ => pure (s.ownRead g a n)

/-- Log a Calcite format error (R185): `src` 0 W port, 1 X port, 2 MOVE engine. -/
def State.calError (s : State) (g src : Nat) (isQueue : Bool) (which cause block : Nat) : State :=
  let d := s.geode g
  let sl := s.fsl g
  let log0 := sl.ctx % 32 + s.fslot g * 2 ^ 5 + src * 2 ^ 7 + bit isQueue * 2 ^ 9 + which % 32 * 2 ^ 10 + cause * 2 ^ 16 + 2 ^ 31
  let s1 := s.withGeode g fun d => { d with calCount := min 65535 (d.calCount + 1) }
  if bitAt d.calLog0.toNat 31 then s1
  else
    (s1.withGeode g fun d => { d with calLog0 := BitVec.ofNat 32 log0, calLog1 := BitVec.ofNat 32 block }).addRec 0x0108 sl.ctx g (s.fslot g)
      0xFF 0 [BitVec.ofNat 32 log0, BitVec.ofNat 32 block]

/-- A block as an expander or a raw read delivers it: element patterns, poison, E_X (R141), whether it is coded ZERO. -/
structure Blk where
  elems : List Nat
  poison : Bool
  ex : Option Int
  zero : Bool := false
  deriving DecidableEq, Repr

/-- A block of zeros with poison (R100, R182, R183). -/
def badBlk (t : EType) : Blk := ⟨List.replicate t.perBlock 0, true, none, false⟩

/-- Whether `t` uses BF16 blocks. -/
def EType.isBf (t : EType) : Bool := t == .bf16

/-- A raw block from its bytes. -/
def rawBlk (t : EType) (b : List Byte) (poison : Bool) : Blk :=
  let xs := elemsOf t.size t.perBlock b
  ⟨xs, poison, blockExp t xs, false⟩

/-- The offset of a raw block (R113). -/
def Desc.rawAt (d : Desc) (r c : Nat) : Nat := d.base + r * d.stride + c * d.etype.blockBytes

/-- An access beyond the tensor is cause 0x09 (R113). -/
def Desc.bounds (d : Desc) (r c : Nat) : Res Unit := if r < d.rows ∧ c < d.cols then .ok () else stop 0x09

/-- Check the span of a coded tensor (R88, R127, R170): a protected slab is cause 0x0B. -/
def State.codedCheck (s : State) (g : Nat) (d : Desc) (write : Bool) : Res Unit :=
  let n := calSpan d.stride (d.rows * d.cols)
  if d.loc = .gallery ∧ (s.ctx (s.fsl g).ctx).anyProt d.base n then stop 0x0B
  else s.memCheck g d.loc d.base n write

/-- Locate block `k` of a coded tensor (R171): its offset, its declared length, the index entry, and whether the header
byte or the index entry carries poison. -/
def State.locate (s : State) (g : Nat) (d : Desc) (k : Nat) : Res (State × Nat × Nat × Nat × Bool) := do
  let (s1, e, p1) ← s.memRead g d.loc (d.base + d.stride + 4 * (k / 16)) 4
  let off := leNat e
  held s1 do
    let (s2, h, _) ← s1.memRead g d.loc (d.base + off) (k % 16)
    held s2 do
      let (s3, own, p2) ← s2.memRead g d.loc (d.base + off + k % 16) 1
      pure (s3, d.base + off + 16 + (h.map BitVec.toNat).sum, leNat own, off, p1 || p2)

/-- Block `k` of a coded tensor through an expander (R181 to R183); `reg` is the descriptor's T register. A block whose
declared length is below 2 or above 66 fails at once and is not read. -/
def State.codedBlk (s : State) (g src reg : Nat) (d : Desc) (k : Nat) : Res (State × Blk) := do
  let (s1, at_, len, off, p) ← s.locate g d k
  held s1 do
    let (s2, b, pb) ← if 2 ≤ len ∧ len ≤ 66 then s1.memRead g d.loc at_ len else pure (s1, [], false)
    if p || pb then pure (s2, badBlk d.etype)
    else
      let res : Except Nat (List Nat) := match calDecode d.etype.isBf len b with
        | .error c => .error c
        | .ok xs => if off % 16 = 0 then .ok xs else .error 6
      match res with
      | .error c => pure (s2.calError g src false reg c k, badBlk d.etype)
      | .ok xs => pure (s2, ⟨xs, false, calExp d.etype b, calIsZero b⟩)

/-- Block `c` of row `r` of a tensor in the Pocket or the Gallery. -/
def State.tensorBlk (s : State) (g src reg : Nat) (d : Desc) (r c : Nat) : Res (State × Blk) := do
  d.bounds r c
  if d.coded then s.codedBlk g src reg d (r * d.cols + c)
  else
    let (s1, b, p) ← s.memRead g d.loc (d.rawAt r c) d.etype.blockBytes
    pure (s1, rawBlk d.etype b p)

/-- Log the first failed block of an entry; of a CALCITE16 entry whose first block fails, the first alone (R184). -/
def logEntry (g src q pos : Nat) : Nat → State → List (Except Nat (List Nat)) → State
  | _, s, [] => s
  | half, s, .ok _ :: t => logEntry g src q pos (half + 1) s t
  | half, s, .error c :: _ => s.calError g src true q c (pos % 32 + half % 2 * 32)

/-- The blocks of a popped entry (R100, R127, R183, R184): `pos` is its position among the entries the instruction
popped from queue `q`. -/
def State.entryBlks (s : State) (g src q pos : Nat) (t : EType) (coded : Bool) (e : Entry) : State × List Blk :=
  if e.marker || (coded && e.bad) then (s, List.replicate t.perEntry (badBlk t))
  else if coded then
    let bs := calEntry t.isBf e.payload e.payload.length
    (logEntry g src q pos 0 s (bs.map fun x => x.2), bs.map fun x => match x.2 with
      | .ok xs => ⟨xs, e.poison, calExp t x.1, calIsZero x.1⟩
      | .error _ => badBlk t)
  else (s, (List.range t.perEntry).map fun i => rawBlk t (e.payload.drop (i * t.blockBytes)) e.poison)

/-- Whether a queue's `FMT` fits a descriptor's type and coding (R122, R126, R129). -/
def fmtFits (t : EType) (coded : Bool) (fmt : Nat) : Bool :=
  if coded then fmt == (if t.isBf then 5 else 4)
  else match t.size with
    | 1 => fmt == 0 || fmt == 1
    | 2 => fmt == 2
    | _ => fmt == 3

/-- Check a queue operand (R112, R122, R126): mask and direction (cause 0x07), then `FMT` (cause 0x0A), where `raw` allows
BYTES for elements of one byte. -/
def State.queueCheck (s : State) (g : Nat) (d : Desc) (input raw : Bool) : Res Unit :=
  let q := d.base
  let sl := s.fsl g
  let named : Bool := if input then decide (q < 16) && bitAt sl.qin q else decide (16 ≤ q) && decide (q < 24) && bitAt sl.qout (q - 16)
  if !named then stop 0x07
  else if fmtFits d.etype d.coded (s.queue g q).fmt && (raw || (s.queue g q).fmt != 0) then .ok ()
  else stop 0x0A

/-- Whether a conversion into `t` with ROUND 1 draws random numbers (R139). -/
def EType.draws : EType → Bool
  | .e4m3 | .e5m2 | .bf16 | .fp16 => true
  | _ => false

/-- A lane times a tracker's scale before a conversion: a subnormal lane, which came from a BF16 element, counts at its value
(R138, R153). -/
def fScale (x c : W32) : W32 := toF32 ((valRaw x).mul (val c))

/-- Convert FP32 lanes into stored elements (R138, R139): observed by a tracker before scaling (R132, R151), multiplied
by its scale when the type is FP8, rounded by `rnd`; poisoned lanes are not observed. -/
def State.convert (s : State) (g : Nat) (t : EType) (rnd : Bool) (trk : Option Nat) (poison : Bool) (lanes : List W32) : State × List Nat :=
  let o := s.curOrigin g
  let sl := s.fsl g
  let s1 := match trk with
    | none => s
    | some k => s.withFsl g fun sl =>
      let sl1 := if poison then sl else sl.observe k (if sl.cls = .background then sl.micro else o) (lanes.map valRaw)
      if t.fp8 then { sl1 with trk := upd sl1.trk k fun x => { x with last := if t = .e4m3 then 1 else 2 } } else sl1
  let scale : Option W32 := match trk with
    | some k => if t.fp8 then some ((sl.trk.getD k {}).scaleFor sl.cls o) else none
    | none => none
  let scaled := match scale with
    | some c => lanes.map fun x => fScale x c
    | none => lanes
  if rnd && t.draws then
    let (s2, rs) := s1.randoms g lanes.length
    (s2, List.zipWith (fun x r => encodeNum t (some r) (valRaw x)) scaled rs)
  else (s1, scaled.map fun x => encodeNum t none (valRaw x))

/-- The bytes of elements of a type. -/
def elemBytes (t : EType) (xs : List Nat) : List Byte := xs.flatMap fun x => leBytes t.size x

/-- The payload of a queue entry from the elements of its blocks, coded or raw (R167, R173, R90). -/
def entryPayload (t : EType) (coded : Bool) (blocks : List (List Nat)) : List Byte :=
  if coded then blocks.flatMap (calEncode t.isBf) else blocks.flatMap (elemBytes t)

end Sys2Proof.Machine
end

