-- ==== Sys2Proof/Machine/Ctrl.lean ====
section
/-!
DEFINITION. CTRL, SCALE and SIG instructions and the unassigned opcode (R117 to R119, R132, R133). Each command is one
issue by Geode `g`'s sequencer; `t` is the ARITH cycles it takes, stalls included (R99, R116).
-/
namespace Sys2Proof.Machine

/-- CTRL fields (R118). -/
def fD (w : Nat) : Nat := fld w 51 5
def fJ (w : Nat) : Nat := fld w 46 5
def fK (w : Nat) : Nat := fld w 41 5
def fF (w : Nat) : Nat := fld w 38 3
def fImm (w : Nat) : Nat := fld w 0 32

/-- Whether an opcode is assigned (R117). -/
def opAssigned (o : Nat) : Bool :=
  o < 0x10 || o == 0x10 || o == 0x11 || (decide (0x20 ≤ o) && decide (o ≤ 0x2C)) || o == 0x30 || o == 0x31 ||
    (decide (0x40 ≤ o) && decide (o ≤ 0x43)) || (decide (0x50 ≤ o) && decide (o ≤ 0x53)) || o == 0x60 || o == 0x61

/-- The sequencer issues an unassigned opcode: program fault 0x01 (R117). -/
def execUnassignedOpcode (g t : Nat) (s : State) : Out := .next (s.issue g t (fun o => !opAssigned o) fun _ _ => stop 0x01)

/-- NOP (R118). -/
def execNop (g t : Nat) (s : State) : Out := .next (s.issue g t (· == 0x00) fun _ s => .ok (s, .next))

/-- Whether the firing's Gallery writes are complete, which YIELD and COMMIT wait for (R118, R128). -/
def State.drained (s : State) (g : Nat) : Bool := (s.fsl g).writes.all fun w => w.done

/-- Slot `i`'s completed Gallery writes all become visible (R128). -/
def State.publishAll (s : State) (g i : Nat) : State :=
  let sl := s.slot g i
  (s.storeWrites sl.ctx sl.writes).withSlot g i fun sl => { sl with writes := [] }

/-- The resume point of a YIELD (R118). -/
def yieldTarget (w pc n : Nat) : Nat := if bitAt w 10 then fld w 0 10 else if pc + 1 = n then 0 else pc + 1

/-- A slot written LOADED during the firing is LOADED at its end (R103). -/
def State.finishStop (s : State) (g i : Nat) : State :=
  s.withSlot g i fun sl => if sl.stopping then { sl with state := .loaded, stopping := false } else sl

/-- The end of the firing at its YIELD, with resume point `p` (R33 to R35, R96, R101, R118): a REALTIME or ELASTIC slot's
outputs are released, or discarded with markers when a boundary closed the drip of its work; a BACKGROUND slot keeps its
outputs for the commit, or is restored when a boundary has passed. -/
def State.yieldAt (s : State) (g p : Nat) : State :=
  match s.firing g with
  | none => s
  | some f =>
    let i := f.slot
    let atP (s : State) : State := s.withSlot g i fun sl => { sl with pc := p }
    let s1 :=
      if (s.slot g i).cls = .background then (if f.stopped then s.restoreBg g i else atP s)
      else if f.missed ≠ [] then f.missed.foldl (fun s n => s.missing g i n) (((atP (s.dropOutputs g i)).dropIn g i (f.missed.foldl max 0)).1)
      else if f.crossed && decide (5 ≤ s.drip.count) then
        let o := f.lastOrigin.getD f.drip
        let cut := s.drip.count - 5
        let (s2, old) := (atP (if o ≤ cut then s.dropOutputs g i else s.release g i)).dropIn g i cut
        (if o ≤ cut then insNat o old else old).foldl (fun s n => (s.missing g i n).abandon g i n) s2
      else atP (s.release g i)
    (s1.finishStop g i).endFiring g

/-- YIELD (R118): waits for the firing's Gallery writes; a resume point at or beyond the count faults with 0x03. -/
def execYieldI (g t : Nat) (s : State) : Out :=
  .next (s.issue g t (· == 0x01) fun w s =>
    let sl := s.fsl g
    let p := yieldTarget w sl.pc sl.prog.length
    if !s.drained g then .ok (s, .done)
    else if sl.prog.length ≤ p then stop 0x03
    else .ok (s.yieldAt g p, .done))

/-- Add a micro-step's signature to the context's list; slots of one context that commit the same micro-step number
share the entry by XOR (R38, R133, log entry 15). -/
def addBg : List BgEntry → Nat → W32 → List BgEntry
  | [], m, v => [{ micro := m, sig := v }]
  | e :: t, m, v => if e.micro = m then { e with sig := e.sig ^^^ v } :: t else e :: addBg t m v

/-- COMMIT in a BACKGROUND slot (R35, R38, R118, R128, R149, R152). -/
def State.commitAt (s : State) (g i pc : Nat) : State :=
  let s1 := ((s.publishAll g i).release g i).dropHeld g i
  let sl := s1.slot g i
  let m := sl.micro
  let s2 := s1.withCtx sl.ctx fun c => { c with bg := addBg c.bg m (sl.accOf m) }
  s2.withSlot g i fun sl =>
    { sl with
      micro := m + 1
      interval := some (2 ^ 63 + m + 1)
      eCount := 0
      acc := []
      trk := sl.trk.map fun t => t.commit m
      saved := { s := sl.s, a := sl.a, pc := pc + 1, eCount := 0 } }

/-- COMMIT (R118): no effect in a REALTIME or ELASTIC slot; in a BACKGROUND slot it waits for earlier instructions and
stalls while the context's list of 16 signatures is full, those cycles not counting towards the limit (R38, R99). As the last
instruction it commits, and then the firing ends with cause 0x04 (R115). -/
def execCommit (g t : Nat) (s : State) : Out :=
  .next (s.issue g t (· == 0x02) fun _ s =>
    let sl := s.fsl g
    if sl.cls ≠ .background then .ok (s, .next)
    else if 16 ≤ (s.ctx sl.ctx).bg.length ∨ s.drained g = false then .ok (s, .done)
    else .ok (s.commitAt g (s.fslot g) sl.pc, .next))

/-- SETI (R118). -/
def execSeti (g t : Nat) (s : State) : Out :=
  .next (s.issue g t (· == 0x03) fun w s => .ok (s.setS g (fD w) (BitVec.ofNat 32 (fImm w)), .next))
/-- ADDI (R118). -/
def execAddi (g t : Nat) (s : State) : Out :=
  .next (s.issue g t (· == 0x04) fun w s => .ok (s.setS g (fD w) (s.sreg g (fJ w) + BitVec.ofNat 32 (fImm w)), .next))
/-- ADD (R118). -/
def execAdd (g t : Nat) (s : State) : Out :=
  .next (s.issue g t (· == 0x05) fun w s => .ok (s.setS g (fD w) (s.sreg g (fJ w) + s.sreg g (fK w)), .next))
/-- SUB (R118). -/
def execSub (g t : Nat) (s : State) : Out :=
  .next (s.issue g t (· == 0x06) fun w s => .ok (s.setS g (fD w) (s.sreg g (fJ w) - s.sreg g (fK w)), .next))
/-- MULI (R118). -/
def execMuli (g t : Nat) (s : State) : Out :=
  .next (s.issue g t (· == 0x07) fun w s => .ok (s.setS g (fD w) (s.sreg g (fJ w) * BitVec.ofNat 32 (fImm w)), .next))

/-- The operation of ALUI; F 6 and 7 are reserved (R118). -/
def aluOp (f : Nat) (x : W32) (imm : Nat) : Res W32 :=
  match f with
  | 0 => .ok (x &&& BitVec.ofNat 32 imm)
  | 1 => .ok (x ||| BitVec.ofNat 32 imm)
  | 2 => .ok (x ^^^ BitVec.ofNat 32 imm)
  | 3 => .ok (x <<< (imm % 32))
  | 4 => .ok (x >>> (imm % 32))
  | 5 => .ok (x.sshiftRight (imm % 32))
  | _ => stop 0x02

/-- ALUI (R118). -/
def execAlui (g t : Nat) (s : State) : Out :=
  .next (s.issue g t (· == 0x08) fun w s => do
    let v ← aluOp (fF w) (s.sreg g (fJ w)) (fImm w)
    pure (s.setS g (fD w) v, .next))

/-- The special values of RDSPEC (R119); 12 to 15 are reserved. -/
def State.special (s : State) (g k : Nat) : Res Nat :=
  let sl := s.fsl g
  match k with
  | 0 => .ok g
  | 1 => .ok (s.fslot g)
  | 2 => .ok sl.ctx
  | 3 => .ok sl.cls.code
  | 4 => .ok s.drip.drop
  | 5 => .ok (((s.firing g).map fun f => f.lastPop).getD 0 % 2 ^ 32)
  | 6 => .ok (s.drip.count % 2 ^ 32)
  | 7 => .ok (if sl.cls = .background then sl.micro % 2 ^ 32 else 0)
  | 8 => .ok (((s.firing g).map fun f => f.cycles).getD 0)
  | 9 => .ok (sl.size * 2 ^ 16)
  | 10 => .ok s.drip.drops
  | 11 => .ok sl.lastEnc
  | _ => stop 0x02

/-- RDSPEC (R118, R119). -/
def execRdspec (g t : Nat) (s : State) : Out :=
  .next (s.issue g t (· == 0x09) fun w s => do
    let v ← s.special g (fld w 0 4)
    pure (s.setS g (fD w) (BitVec.ofNat 32 v), .next))

/-- LOOP (R118): S0 reads as 0 and ignores the write, so the decremented value alone decides. -/
def execLoopI (g t : Nat) (s : State) : Out :=
  .next (s.issue g t (· == 0x0A) fun w s =>
    let v := s.sreg g (fD w) - 1
    .ok (s.setS g (fD w) v, if v = 0 then .next else .jump (fld w 0 10)))

/-- BR (R118). -/
def execBr (g t : Nat) (s : State) : Out := .next (s.issue g t (· == 0x0B) fun w s => .ok (s, .jump (fld w 0 10)))

/-- The comparison of BCMP; F 6 and 7 are reserved (R118). -/
def cmpOp (f : Nat) (x y : W32) : Res Bool :=
  match f with
  | 0 => .ok (x == y)
  | 1 => .ok (x != y)
  | 2 => .ok (x.slt y)
  | 3 => .ok (!x.slt y)
  | 4 => .ok (x.ult y)
  | 5 => .ok (!x.ult y)
  | _ => stop 0x02

/-- BCMP (R118). -/
def execBcmp (g t : Nat) (s : State) : Out :=
  .next (s.issue g t (· == 0x0C) fun w s => do
    let b ← cmpOp (fF w) (s.sreg g (fJ w)) (s.sreg g (fK w))
    pure (s, if b then .jump (fld w 0 10) else .next))

/-- ASET (R118): D 16 to 31 is reserved. -/
def execAset (g t : Nat) (s : State) : Out :=
  .next (s.issue g t (· == 0x0D) fun w s =>
    if 16 ≤ fD w then stop 0x02 else .ok (s.setA g (fD w) ((s.sreg g (fJ w)).toNat + fImm w), .next))

/-- Replace word `f` of a descriptor (R112, R118). -/
def setWord (d : W128) (f : Nat) (v : W32) : W128 :=
  BitVec.ofNat 128 (d.toNat - fld d.toNat (32 * f) 32 * 2 ^ (32 * f) + v.toNat * 2 ^ (32 * f))

/-- TSET (R118): F 4 to 7 is reserved. -/
def execTset (g t : Nat) (s : State) : Out :=
  .next (s.issue g t (· == 0x0E) fun w s =>
    if 4 ≤ fF w then stop 0x02
    else .ok (s.withFsl g fun sl => { sl with t := upd sl.t (fD w) fun d => setWord d (fF w) (s.sreg g (fJ w)) }, .next))

/-- SLD (R118): J 16 to 31 is reserved; a misaligned address or a poisoned word faults with 0x0D. -/
def execSld (g t : Nat) (s : State) : Out :=
  .next (s.issue g t (· == 0x0F) fun w s => do
    let a := (s.areg g (fJ w) + fImm w) % 2 ^ 32
    if 16 ≤ fJ w then stop 0x02
    else if a % 4 ≠ 0 then stop 0x0D
    else
      let p ← s.pocketAt g a 4
      let (s1, b, bad) := s.pocketRead g p 4
      if bad then held s1 (stop 0x0D)
      else pure (s1.setS g (fD w) (BitVec.ofNat 32 (leNat b)), .next))

/-! ### SCALE (R132) -/

/-- SCALE fields: tracker and V register. -/
def fTrk (w : Nat) : Nat := fld w 44 2
def fVJ (w : Nat) : Nat := fld w 40 4

/-- SCALE.GET. -/
def execScaleGet (g t : Nat) (s : State) : Out :=
  .next (s.issue g t (· == 0x50) fun w s =>
    let sl := s.fsl g
    .ok (s.setS g (fD w) ((sl.trk.getD (fTrk w) {}).scaleFor sl.cls (s.curOrigin g)), .next))

/-- Whether FP32 bits are a positive, finite, normal number (R132). -/
def posNormal (v : W32) : Bool := !signF v && decide (0 < fld v.toNat 23 8) && decide (fld v.toNat 23 8 < 255)

/-- SCALE.SET (R132, R153): the scale in force is set at once and every entry is voided; cause 0x13. The tracker's
observations of the firing that are not yet folded go too, on which the spec is silent (log entry 12). -/
def execScaleSet (g t : Nat) (s : State) : Out :=
  .next (s.issue g t (· == 0x51) fun w s =>
    let v := s.sreg g (fJ w)
    if posNormal v then
      .ok (s.withFsl g fun sl =>
        { sl with
          trk := upd sl.trk (fTrk w) fun t => { t with scale := v, entries := [], past := [] }
          obs := sl.obs.filter fun o => o.1 != fTrk w }, .next)
    else stop 0x13)

/-- SCALE.OBSERVE: the lanes of a poisoned register are not observed (R132, R151). -/
def execScaleObserve (g t : Nat) (s : State) : Out :=
  .next (s.issue g t (· == 0x52) fun w s =>
    let v := s.vreg g (fVJ w)
    if v.poison then .ok (s, .next)
    else .ok (s.withFsl g fun sl =>
      sl.observe (fTrk w) (if sl.cls = .background then sl.micro else s.curOrigin g) (v.lanes.map valRaw), .next))

/-- SCALE.HOLD (R132). -/
def execScaleHold (g t : Nat) (s : State) : Out :=
  .next (s.issue g t (· == 0x53) fun w s =>
    .ok (s.withFsl g fun sl => { sl with trk := upd sl.trk (fTrk w) fun t => { t with held := bitAt (fD w) 0 } }, .next))

/-! ### SIG (R133) -/

/-- The pairs of row and block that a region names, row by row. -/
def region (r0 c0 nr nc : Nat) : List (Nat × Nat) := (List.range nr).flatMap fun i => (List.range nc).map fun j => (r0 + i, c0 + j)

/-- Fold raw Pocket blocks one after another. -/
def State.sigFold (s : State) (g : Nat) (d : Desc) : List (Nat × Nat) → Res State
  | [] => .ok s
  | (r, c) :: t => do
    d.bounds r c
    let (s1, b, p) ← s.memRead g .pocket (d.rawAt r c) d.etype.blockBytes
    let o := s1.curOrigin g
    let s2 := s1.withFsl g fun sl => sl.fold (if sl.cls = .background then sl.micro else o) b (galTrailer o b.length p)
    held s2 (State.sigFold s2 g d t)

/-- SIG.FOLD: a TS that is not a raw Pocket tensor faults with 0x0A, an empty region with 0x0C. -/
def execSigFold (g t : Nat) (s : State) : Out :=
  .next (s.issue g t (· == 0x60) fun w s => do
    let sr := (s.sreg g (fld w 41 5)).toNat
    let sb := (s.sreg g (fld w 36 5)).toNat
    let nr := fld w 20 16
    let nb := fld w 12 8
    let d ← s.desc g (fld w 51 5)
    if nr = 0 ∨ nb = 0 then stop 0x0C
    else if d.loc ≠ .pocket ∨ d.coded then stop 0x0A
    else
      let s1 ← s.sigFold g d (region (fld sr 0 16) (fld sb 0 16) nr nb)
      pure (s1, .next))

/-- SIG.READ: the accumulator of the current interval. -/
def execSigRead (g t : Nat) (s : State) : Out :=
  .next (s.issue g t (· == 0x61) fun w s =>
    let sl := s.fsl g
    .ok (s.setS g (fD w) (sl.accOf (if sl.cls = .background then sl.micro else s.curOrigin g)), .next))

end Sys2Proof.Machine
end

