-- ==== Sys2Proof/Machine/Vec.lean ====
section
/-!
DEFINITION. The vector instructions (R123, R124, R145). A result built from a poisoned source register is poisoned; a
FN value the table does not list is reserved (cause 0x02).
-/
namespace Sys2Proof.Machine

/-- VEC fields (R123). -/
def vD (w : Nat) : Nat := fld w 52 4
def vJ (w : Nat) : Nat := fld w 48 4
def vK (w : Nat) : Nat := fld w 44 4
def vL (w : Nat) : Nat := fld w 40 4
def vFn (w : Nat) : Nat := fld w 36 4

/-- Advance the A register of a POST form by 64 elements. -/
def State.post (s : State) (g w size : Nat) : State := if bitAt w 35 then s.setA g (vJ w) (s.areg g (vJ w) + 64 * size) else s

/-- VLD: 64 elements of type FN to FP32; a poisoned word poisons VD. -/
def execVld (g t : Nat) (s : State) : Out :=
  .next (s.issue g t (· == 0x20) fun w s =>
    match EType.ofCode (vFn w) with
    | none => stop 0x02
    | some ty => do
      let p ← s.pocketAt g (s.areg g (vJ w) + fld w 0 21) (64 * ty.size)
      let (s1, b, bad) := s.pocketRead g p (64 * ty.size)
      let s2 := s1.setV g (vD w) ⟨(elemsOf ty.size 64 b).map (elemF32 ty), bad⟩
      pure (s2.post g w ty.size, .next))

/-- VST: VD as 64 elements of type FN, rounded by ROUND, observed and scaled with TRK_EN. -/
def execVst (g t : Nat) (s : State) : Out :=
  .next (s.issue g t (· == 0x21) fun w s =>
    match EType.ofCode (vFn w) with
    | none => stop 0x02
    | some ty => do
      let p ← s.pocketAt g (s.areg g (vJ w) + fld w 0 21) (64 * ty.size)
      let v := s.vreg g (vD w)
      let (s1, xs) := s.convert g ty (bitAt w 34) (if bitAt w 33 then some (fld w 30 2) else none) v.poison v.lanes
      pure ((s1.pocketWrite g p (elemBytes ty xs) v.poison).post g w ty.size, .next))

/-- The binary operations of VOP and VOPI. -/
def vopFn (fn : Nat) : Option (W32 → W32 → W32) :=
  match fn with
  | 0 => some fAdd | 1 => some fSub | 2 => some fMul | 3 => some fMax | 4 => some fMin | 5 => some fGt | _ => none

/-- VOP. -/
def execVop (g t : Nat) (s : State) : Out :=
  .next (s.issue g t (· == 0x22) fun w s =>
    match vopFn (vFn w) with
    | none => stop 0x02
    | some f =>
      let a := s.vreg g (vJ w)
      let b := s.vreg g (vK w)
      .ok (s.setV g (vD w) ⟨List.zipWith f a.lanes b.lanes, a.poison || b.poison⟩, .next))

/-- VOPI. -/
def execVopi (g t : Nat) (s : State) : Out :=
  .next (s.issue g t (· == 0x23) fun w s =>
    match vopFn (vFn w) with
    | none => stop 0x02
    | some f =>
      let a := s.vreg g (vJ w)
      .ok (s.setV g (vD w) ⟨a.lanes.map fun x => f x (BitVec.ofNat 32 (fld w 0 32)), a.poison⟩, .next))

/-- Three registers lane by lane. -/
def zip3 (f : W32 → W32 → W32 → W32) (a b c : List W32) : List W32 := List.zipWith (fun x (y : W32 × W32) => f x y.1 y.2) a (b.zip c)

/-- VFMA: rounded once. -/
def execVfma (g t : Nat) (s : State) : Out :=
  .next (s.issue g t (· == 0x24) fun w s =>
    let a := s.vreg g (vJ w)
    let b := s.vreg g (vK w)
    let c := s.vreg g (vL w)
    .ok (s.setV g (vD w) ⟨zip3 fFma a.lanes b.lanes c.lanes, a.poison || b.poison || c.poison⟩, .next))

/-- The unary functions of VUN. -/
def vunFn (fn : Nat) : Option (W32 → W32) :=
  match fn with
  | 0 => some fExp | 1 => some fRsqrt | 2 => some fRecip | 3 => some fRelu | 4 => some fAbs | 5 => some fNeg | 6 => some fSigmoid
  | 7 => some fCopy | _ => none

/-- VUN. -/
def execVun (g t : Nat) (s : State) : Out :=
  .next (s.issue g t (· == 0x25) fun w s =>
    match vunFn (vFn w) with
    | none => stop 0x02
    | some f =>
      let a := s.vreg g (vJ w)
      .ok (s.setV g (vD w) ⟨a.lanes.map f, a.poison⟩, .next))

/-- VEXPSUB: VJ − VK is rounded to FP32 first (R145). -/
def execVexpsub (g t : Nat) (s : State) : Out :=
  .next (s.issue g t (· == 0x26) fun w s =>
    let a := s.vreg g (vJ w)
    let b := s.vreg g (vK w)
    .ok (s.setV g (vD w) ⟨List.zipWith (fun x y => fExp (fSub x y)) a.lanes b.lanes, a.poison || b.poison⟩, .next))

/-- The reductions of VRED. -/
def vredFn (fn : Nat) (l : List W32) : Option W32 :=
  match fn with
  | 0 => some (treeRed fAdd l)
  | 1 => some (treeRed fMax l)
  | 2 => some (treeRed fAdd (l.map fun x => fMul x x))
  | _ => none

/-- VRED. -/
def execVred (g t : Nat) (s : State) : Out :=
  .next (s.issue g t (· == 0x27) fun w s =>
    let a := s.vreg g (vJ w)
    match vredFn (vFn w) a.lanes with
    | none => stop 0x02
    | some x => .ok (s.setV g (vD w) ⟨List.replicate 64 x, a.poison⟩, .next))

/-- VBCAST: FN 0 a lane of VJ, FN 1 an S register's FP32 bits; as for any operand a subnormal counts as a zero (R138). -/
def execVbcast (g t : Nat) (s : State) : Out :=
  .next (s.issue g t (· == 0x28) fun w s =>
    let a := s.vreg g (vJ w)
    match vFn w with
    | 0 => .ok (s.setV g (vD w) ⟨List.replicate 64 (fCopy (a.lanes.getD (fld w 0 6) 0)), a.poison⟩, .next)
    | 1 => .ok (s.setV g (vD w) ⟨List.replicate 64 (fCopy (s.sreg g (fld w 0 5))), false⟩, .next)
    | _ => stop 0x02)

/-- The lane that VSEL chooses: the first where the third is not ±0.0, otherwise the second. -/
def selLane (x y m : W32) : W32 := match val m with
  | .fin _ 0 _ => fCopy y
  | _ => fCopy x

/-- VSEL: VJ where VL is not ±0.0, otherwise VK. -/
def execVsel (g t : Nat) (s : State) : Out :=
  .next (s.issue g t (· == 0x29) fun w s =>
    let a := s.vreg g (vJ w)
    let b := s.vreg g (vK w)
    let c := s.vreg g (vL w)
    .ok (s.setV g (vD w) ⟨zip3 selLane a.lanes b.lanes c.lanes, a.poison || b.poison || c.poison⟩, .next))

/-- VMOMENTS: VD = 15 is reserved. -/
def execVmoments (g t : Nat) (s : State) : Out :=
  .next (s.issue g t (· == 0x2A) fun w s =>
    if vD w = 15 then stop 0x02
    else
      let a := s.vreg g (vJ w)
      let (m, r) := moments a.lanes (BitVec.ofNat 32 (fld w 0 32))
      .ok ((s.setV g (vD w) ⟨List.replicate 64 m, a.poison⟩).setV g (vD w + 1) ⟨List.replicate 64 r, a.poison⟩, .next))

/-- One AdamW update (R124, R145): the constants β1, β2, a, b, ε, λ and g, m, v, p; the new m, v and p. -/
def adamw (c : List W32) (gr m v p : W32) : W32 × W32 × W32 :=
  let k (i : Nat) : W32 := c.getD i 0
  let m' := fAdd (fMul (k 0) m) (fMul (fSub one32 (k 0)) gr)
  let v' := fAdd (fMul (k 1) v) (fMul (fSub one32 (k 1)) (fMul gr gr))
  let q := fDiv (fMul (k 2) m') (fAdd (fSqrt (fMul (k 3) v')) (k 4))
  (m', v', fSub (fSub p q) (fMul (k 5) p))

/-- VADAMW (R124): k above 26 is reserved. -/
def execVadamw (g t : Nat) (s : State) : Out :=
  .next (s.issue g t (· == 0x2B) fun w s =>
    let k := fld w 0 5
    if 26 < k then stop 0x02
    else
      let c := (range' k 6).map (s.sreg g)
      let a := s.vreg g (vJ w)
      let m := s.vreg g (vK w)
      let v := s.vreg g (vL w)
      let p := s.vreg g (vD w)
      let bad := a.poison || m.poison || v.poison || p.poison
      let r := List.zipWith (fun (x : W32 × W32) (y : W32 × W32) => adamw c x.1 x.2 y.1 y.2) (a.lanes.zip m.lanes) (v.lanes.zip p.lanes)
      .ok (((s.setV g (vK w) ⟨r.map fun x => x.1, bad⟩).setV g (vL w) ⟨r.map fun x => x.2.1, bad⟩).setV g (vD w) ⟨r.map fun x => x.2.2, bad⟩, .next))

/-- VCVT. -/
def execVcvt (g t : Nat) (s : State) : Out :=
  .next (s.issue g t (· == 0x2C) fun w s =>
    let a := s.vreg g (vJ w)
    match vFn w with
    | 0 => .ok (s.setV g (vD w) ⟨a.lanes.map i32ToF32, a.poison⟩, .next)
    | 1 => .ok (s.setV g (vD w) ⟨a.lanes.map f32ToI32, a.poison⟩, .next)
    | _ => stop 0x02)

end Sys2Proof.Machine
end

