-- ==== Sys2Proof/Machine/Matmul.lean ====
section
/-!
DEFINITION. MATMUL and MATMUL.T (R78 to R82, R120 to R122, R140 to R144, R154, R155).
-/
namespace Sys2Proof.Machine

/-- The operands of a MATMUL after its checks. -/
structure MatArgs where
  tw : Nat
  tx : Nat
  dw : Desc
  dx : Desc
  dy : Desc
  dp : Option Desc
  kt : Nat
  nt : Nat
  x0 : Nat
  y0 : Nat
  psrc : Nat
  epi : Nat
  vb : Nat
  vs : Nat
  rnd : Bool
  m : Nat
  transposed : Bool
  deriving DecidableEq, Repr

/-- Tile size (R78, R113): 64 in the 8-bit modes, 32 in the 16-bit modes. -/
def tileSize (t : EType) : Nat := if t.size = 1 then 64 else 32

/-- The operand types of R122. -/
def matTypesOk (a : MatArgs) : Bool :=
  let w := a.dw.etype
  let x := a.dx.etype
  let y := a.dy.etype
  let p := a.dp.map fun d => d.etype
  let fp := p == none || p == some .fp32
  match w with
  | .e4m3 | .e5m2 => x.fp8 && fp && [EType.fp32, .bf16, .fp16, .e4m3, .e5m2].contains y
  | .int8 => x == .int8 && y == .int32 && (p == none || p == some .int32) && (a.epi == 0 || a.epi == 2) && a.psrc != 2
  | .bf16 => x == .bf16 && fp && [EType.fp32, .bf16, .e4m3, .e5m2].contains y
  | .fp16 => x == .fp16 && fp && [EType.fp32, .fp16, .e4m3, .e5m2].contains y
  | _ => false

/-- The result types that may go to a queue (R122). -/
def matQueueYOk (w y : EType) (coded : Bool) : Bool :=
  match w with
  | .e4m3 | .e5m2 => (y == .fp32 && !coded) || y.fp8
  | .int8 => y == .int32 && !coded
  | .bf16 => y == .bf16
  | .fp16 => y == .fp16 && !coded
  | _ => false

/-- Decode and check a MATMUL (R120 to R122). -/
def State.matArgs (s : State) (g w : Nat) : Res MatArgs := do
  let m := fld w 0 12
  let psrc := fld w 24 2
  let epi := fld w 21 3
  if psrc = 3 ∨ 6 ≤ epi then stop 0x02
  else if m = 0 then stop 0x0C
  else
    let dw ← s.desc g (fld w 51 5)
    let dx ← s.desc g (fld w 46 5)
    let dy ← s.desc g (fld w 41 5)
    let dp ← if psrc = 1 then (s.desc g (fld w 36 5)).map some else pure none
    let sc := (s.sreg g (fld w 31 5)).toNat
    let sr := (s.sreg g (fld w 26 5)).toNat
    let a : MatArgs := ⟨fld w 51 5, fld w 46 5, dw, dx, dy, dp, fld sc 0 16, fld sc 16 16, fld sr 0 16, fld sr 16 16, psrc, epi,
      fld w 17 4, fld w 13 4, bitAt w 12, m, fld w 56 8 == 0x11⟩
    if dw.loc ≠ .pocket ∨ dx.loc = .gallery ∨ dy.loc = .gallery ∨ (dy.coded = true ∧ dy.loc ≠ .queue) then stop 0x0A
    else if (dp.map fun d => decide (d.loc ≠ .pocket) || d.coded).getD false then stop 0x0A
    else if !matTypesOk a then stop 0x0A
    else do
      if dx.loc = .queue then s.queueCheck g dx true false
      if dy.loc = .queue then (do
        s.queueCheck g dy false false
        if !matQueueYOk dw.etype dy.etype dy.coded then stop 0x0A)
      if dw.etype.size = 2 ∧ m % 2 = 1 ∧ (dx.loc = .queue ∨ dy.loc = .queue) then stop 0x0C
      if dw.coded then s.codedCheck g dw false
      if dx.coded ∧ dx.loc ≠ .queue then s.codedCheck g dx false
      pure a

/-- The rows of a weight tile, one W-port block each (R79, R121): blocks and poison. -/
def State.tileRows (s : State) (g : Nat) (a : MatArgs) : List Nat → Res (State × List (List Nat) × Bool)
  | [] => .ok (s, [], false)
  | i :: t => do
    let T := tileSize a.dw.etype
    let (r, c) := if a.transposed then (a.nt * T + i, a.kt) else (a.kt * T + i, a.nt)
    let (s1, b) ← s.tensorBlk g 0 a.tw a.dw r c
    held s1 do
      let (s2, rows, p) ← State.tileRows s1 g a t
      pure (s2, b.elems :: rows, b.poison || p)

/-- Columns from rows. -/
def columns (T : Nat) (rows : List (List Nat)) : List (List Nat) := (List.range T).map fun j => rows.map fun r => r.getD j 0

/-- The tile a MATMUL uses (R79): the buffer whose tag matches, else a load into the buffer used least recently. For
MATMUL.T a tile row as read holds one column of W. The tag's TW is the number of the T register, and a buffer outlives a
TSET of it or a load of the slot: R79 and R121 leave open whether it is the descriptor's contents instead (log entry 13). -/
def State.tile (s : State) (g : Nat) (a : MatArgs) : Res (State × Tile) :=
  let d := s.geode g
  let i := s.fslot g
  let hit (x : Tile) : Bool := x.slot == i && x.tw == a.tw && x.kt == a.kt && x.nt == a.nt && x.transposed == a.transposed
  match d.tiles.find? hit with
  | some x => .ok (s.withGeode g fun d => { d with tiles := (d.tiles.filter fun y => !hit y) ++ [x] }, x)
  | none => do
    let T := tileSize a.dw.etype
    let (s1, rows, p) ← s.tileRows g a (List.range T)
    let x : Tile := ⟨i, a.tw, a.kt, a.nt, a.transposed, a.dw.etype, if a.transposed then rows else columns T rows, p⟩
    pure (s1.withGeode g fun d => { d with tiles := (if d.tiles.length < 2 then d.tiles else d.tiles.drop 1) ++ [x] }, x)

/-- X blocks waiting from the last popped entry, and the position among the entries popped (R121). -/
abbrev XState := List Blk × Nat

/-- The X block of row `m` (R121): from the tensor, or from the queue, one entry per row or per two rows. -/
def State.xBlk (s : State) (g : Nat) (a : MatArgs) (m : Nat) (xs : XState) : Res (State × Blk × XState) :=
  if a.dx.loc = .queue then
    match xs.1 with
    | b :: t => .ok (s, b, (t, xs.2))
    | [] => do
      let (s1, e) ← s.pop g a.dx.base
      let (s2, bs) := s1.entryBlks g 1 a.dx.base xs.2 a.dx.etype a.dx.coded e
      pure (s2, bs.headD (badBlk a.dx.etype), (bs.drop 1, xs.2 + 1))
  else do
    let (s1, b) ← s.tensorBlk g 1 a.tx a.dx (a.x0 + m) a.kt
    pure (s1, b, xs)

/-- Elements `n`·T onwards of a row of a raw tensor: the offset of the first (R113, R121). -/
def Desc.elemAt (d : Desc) (r e : Nat) : Nat := d.base + r * d.stride + e * d.etype.size

/-- The partial sums of row `m` (R121): zero, TP, or V[VB]. -/
def State.pRow (s : State) (g : Nat) (a : MatArgs) (m : Nat) : Res (State × List W32 × Bool) :=
  let T := tileSize a.dw.etype
  match a.psrc, a.dp with
  | 1, some d => do
    d.bounds (a.y0 + m) (a.nt * T / d.etype.perBlock)
    let (s1, b, p) ← s.memRead g .pocket (d.elemAt (a.y0 + m) (a.nt * T)) (T * 4)
    pure (s1, (elemsOf 4 T b).map (BitVec.ofNat 32), p)
  | 2, _ => let v := s.vreg g a.vb; .ok (s, v.lanes.take T, v.poison)
  | _, _ => .ok (s, List.replicate T 0, false)

/-- The lanes of a row before conversion (R121, R142, R144). -/
def rowLanes (a : MatArgs) (x : Blk) (tile : Tile) (p v : List W32) : List W32 :=
  (List.range (tileSize a.dw.etype)).map fun j =>
    let col := tile.cols.getD j []
    let pj := p.getD j 0
    if a.dw.etype = .int8 then
      let y := matElemInt x.elems col pj
      if a.epi = 2 then intRelu y else y
    else epilogue a.epi (v.getD j 0) (matElem a.dx.etype a.dw.etype x.elems col x.ex pj)

/-- Write the elements of Y row `m` to the Pocket (R121). -/
def State.yPocket (s : State) (g : Nat) (a : MatArgs) (m : Nat) (ys : List Nat) (poison : Bool) : Res State := do
  let T := tileSize a.dw.etype
  let d := a.dy
  d.bounds (a.y0 + m) ((a.nt * T + T - 1) / d.etype.perBlock)
  let p ← s.pocketAt g (d.elemAt (a.y0 + m) (a.nt * T)) (T * d.etype.size)
  pure (s.pocketWrite g p (elemBytes d.etype ys) poison)

/-- A row that has entered the array: its sums, whether an operand was poisoned, and the array cycle of its entry. -/
structure YRow where
  m : Nat
  lanes : List W32
  bad : Bool
  cycle : Nat
  deriving DecidableEq, Repr

/-- What a MATMUL carries from row to row: the X entry being taken, the array's cycle, rows whose Y is still to come, and the
first of the two rows of a 16-bit entry. -/
structure MatSt where
  xs : XState := ([], 0)
  cycle : Nat := 0
  rows : List YRow := []
  half : Option (List Nat × Bool) := none
  deriving DecidableEq, Repr

/-- Deliver one row of Y (R121): a Vein fault found in it is reported (R82; its numbers are then free), the lanes are converted,
and they are written or pushed. -/
def State.deliverY (s : State) (g : Nat) (a : MatArgs) (vein : Option Nat) (half : Option (List Nat × Bool)) (r : YRow) :
    Res (State × Option (List Nat × Bool)) :=
  let s0 := if vein = some r.m then s.faultyVeins g 1 else s
  let broken := ((s0.firing g).map fun f => f.veinPoison).getD false
  let T := tileSize a.dw.etype
  let (s1, lanes) :=
    if broken then ({ s0 with free := s0.free + 1 }, (List.range T).map fun j => Config.veinValue s0.free j) else (s0, r.lanes)
  let bad := r.bad || broken
  let (s2, ys) :=
    if a.dw.etype = .int8 then
      (if a.dy.trkEn && !bad then s1.withFsl g fun sl =>
          sl.observe a.dy.trk (if sl.cls = .background then sl.micro else s1.curOrigin g) (lanes.map fun y => decodeNum .int32 y.toNat)
        else s1, lanes.map BitVec.toNat)
    else s1.convert g a.dy.etype a.rnd (if a.dy.trkEn then some a.dy.trk else none) bad lanes
  held s2 do
    if a.dy.loc ≠ .queue then (do
      let s3 ← s2.yPocket g a r.m ys bad
      pure (s3, none))
    else if T = 64 then (do
      let s3 ← s2.push g a.dy.base (s2.newBlock g a.dy.base (entryPayload a.dy.etype a.dy.coded [ys]) bad)
      pure (s3, none))
    else match half with
      | none => pure (s2, some (ys, bad))
      | some h => do
        let s3 ← s2.push g a.dy.base (s2.newBlock g a.dy.base (entryPayload a.dy.etype a.dy.coded [h.1, ys]) (h.2 || bad))
        pure (s3, none)

/-- Deliver rows in order. -/
def State.deliverRows (g : Nat) (a : MatArgs) (vein : Option Nat) : List YRow → State → Option (List Nat × Bool) → Res (State × Option (List Nat × Bool))
  | [], s, half => .ok (s, half)
  | r :: t, s, half => do
    let (s1, h) ← s.deliverY g a vein half r
    held s1 (State.deliverRows g a vein t s1 h)

/-- Rows `m` to the end (R121, R122): `k` counts the rows left. Before the array reads X and P of a row, it has delivered the
rows that entered 16 array cycles earlier or more; a row skipped for a ZERO block takes no cycle (R154). -/
def State.matRows (g : Nat) (a : MatArgs) (tile : Tile) (vein : Option Nat) : Nat → State → Nat → MatSt → Res State
  | 0, s, _, c => (State.deliverRows g a vein c.rows s c.half).map fun x => x.1
  | k + 1, s, m, c => do
    let due (r : YRow) : Bool := decide (r.cycle + 16 ≤ c.cycle)
    let (s0, half) ← State.deliverRows g a vein (c.rows.filter due) s c.half
    held s0 do
      let (s1, x, xs) ← s0.xBlk g a m c.xs
      held s1 do
        let (s2, p, pp) ← s1.pRow g a m
        let v := s2.vreg g a.vs
        let usesV := a.epi == 1 || a.epi == 3 || a.epi == 4 || a.epi == 5
        let row : YRow := ⟨m, rowLanes a x tile p v.lanes, x.poison || pp || tile.poison || (usesV && v.poison), c.cycle⟩
        held s2 (State.matRows g a tile vein k s2 (m + 1)
          { xs := xs, cycle := if x.zero then c.cycle else c.cycle + 1, rows := (c.rows.filter fun r => !due r) ++ [row], half := half })

/-- The body of MATMUL and MATMUL.T. -/
def State.matmul (s : State) (g w : Nat) (vein : Option Nat) : Res (State × Flow) := do
  let a ← s.matArgs g w
  let (s1, tile) ← s.tile g a
  held s1 do
    let s2 ← State.matRows g a tile vein a.m s1 0 {}
    pure (s2, .next)

/-- MATMUL; `vein` is the row in which the check of R80 fails, if it does. -/
def execMatmul (g t : Nat) (vein : Option Nat) (s : State) : Out := .next (s.issue g t (· == 0x10) fun w s => s.matmul g w vein)

/-- MATMUL.T: the weight tile transposed. -/
def execMatmulT (g t : Nat) (vein : Option Nat) (s : State) : Out := .next (s.issue g t (· == 0x11) fun w s => s.matmul g w vein)

end Sys2Proof.Machine
end

