-- ==== Sys2Proof/Machine/Move.lean ====
section
/-!
DEFINITION. MOVE, MOVE.ZERO and the completion of a MOVE's Gallery write (R125 to R128, R133, R169 to R175).
-/
namespace Sys2Proof.Machine

/-- The fields of a MOVE with its descriptors (R125). -/
structure MoveArgs where
  ts : Nat
  src : Option Desc
  dst : Desc
  sr : Nat
  dr : Nat
  sb : Nat
  db : Nat
  nr : Nat
  nb : Nat
  conv : Nat
  deriving DecidableEq, Repr

/-- The span of a descriptor's tensor or region. -/
def Desc.span (d : Desc) : Nat := if d.coded then calSpan d.stride (d.rows * d.cols) else (d.rows - 1) * d.stride + d.cols * d.etype.blockBytes

/-- Whether a Gallery operand meets a write of the slot that is still in flight; such MOVEs complete in issue order, so
the later one waits (R114). -/
def State.moveWaits (s : State) (g : Nat) (d : Desc) : Bool :=
  d.loc == .gallery && (!s.gal.initDone || (s.fsl g).writes.any fun w => !w.done && spansMeet d.base d.span w.addr w.bytes.length)

/-- Whether the whole of both tensors is named from the start (R126). -/
def MoveArgs.whole (a : MoveArgs) (d : Desc) : Bool := a.nr == d.rows && a.nb == d.cols

/-- The combinations of CONV and operands of R126. -/
def moveOk (a : MoveArgs) (s : Desc) : Bool :=
  let d := a.dst
  s.etype == d.etype && match a.conv with
  | 0 => (!s.coded && !d.coded) ||
      (s.coded && d.coded && s.loc != .queue && d.loc != .queue && a.whole s && a.whole d && a.sr == 0 && a.sb == 0 && a.dr == 0 && a.db == 0)
  | 1 => !s.coded && d.coded && (d.loc == .queue || (a.whole d && a.dr == 0 && a.db == 0))
  | 2 => s.coded && !d.coded
  | _ => false

/-- The pairs of row and block that a region names, row by row. -/
def MoveArgs.from (a : MoveArgs) : List (Nat × Nat) := region a.sr a.sb a.nr a.nb
def MoveArgs.into (a : MoveArgs) : List (Nat × Nat) := region a.dr a.db a.nr a.nb

/-- Whether raw blocks of a Gallery tensor lie in a protected slab. -/
def State.rawProt (s : State) (g : Nat) (d : Desc) (l : List (Nat × Nat)) : Bool :=
  d.loc == .gallery && !d.coded && l.any fun x => (s.ctx (s.fsl g).ctx).anyProt (d.rawAt x.1 x.2) d.etype.blockBytes

/-- Decode and check a MOVE (R125 to R127, R186); `zero` for MOVE.ZERO, whose coded destination gets cause 0x0A: it cannot be
written as zero blocks with CONV 0 (the model's reading, log entry 13). -/
def State.moveArgs (s : State) (g w : Nat) (zero : Bool) : Res MoveArgs := do
  let conv := fld w 10 2
  let nr := fld w 20 16
  let nb := fld w 12 8
  if conv = 3 then stop 0x02
  else if nr = 0 ∨ nb = 0 then stop 0x0C
  else
    let src ← if zero then pure none else (s.desc g (fld w 51 5)).map some
    let dst ← s.desc g (fld w 46 5)
    let sr := (s.sreg g (fld w 41 5)).toNat
    let sb := (s.sreg g (fld w 36 5)).toNat
    let a : MoveArgs := ⟨fld w 51 5, src, dst, fld sr 0 16, fld sr 16 16, fld sb 0 16, fld sb 16 16, nr, nb, conv⟩
    if zero && (conv != 0 || dst.coded) then stop 0x0A
    else if !((src.map fun d => moveOk a d).getD true) then stop 0x0A
    else if conv != 0 && (s.rawProt g dst a.into || (src.map fun d => s.rawProt g d a.from).getD false) then stop 0x0B
    else do
      (match src with
        | some d => (do
          if d.loc = .queue then s.queueCheck g d true true
          else if d.coded then s.codedCheck g d false)
        | none => pure ())
      if dst.loc = .queue then s.queueCheck g dst false true
      else if dst.coded then (do
        if conv = 1 then (do
          let n := dst.rows * dst.cols
          if dst.loc = .gallery ∧ (s.ctx (s.fsl g).ctx).anyProt dst.base (calSpan dst.stride n) then stop 0x0B
          if dst.stride < 1072 * calGroups n then stop 0x09
          match s.memCheck g dst.loc dst.base (calSpan dst.stride n) true with
          | .error _ => stop 0x09
          | .ok () => pure ())
        else s.codedCheck g dst true)
      pure a

/-- Add a Gallery write of the firing (R128). -/
def State.galQueue (s : State) (g : Nat) (w : GalWrite) : State :=
  s.withFsl g fun sl => { sl with writes := sl.writes ++ [{ w with origin := s.curOrigin g % 2 ^ 32 }] }

/-- Write bytes at an offset of a tensor's memory. -/
def State.memWrite (s : State) (g : Nat) (l : Loc) (a : Nat) (bytes : List Byte) (poison fold : Bool) : Res State := do
  s.memCheck g l a bytes.length true
  match l with
  | .pocket => pure (s.pocketWrite g ((s.fsl g).base * 2 ^ 16 + a) bytes poison)
  | _ => pure (s.galQueue g { addr := a, bytes := bytes, poison := poison, origin := 0, fold := fold })

/-- Bytes with a poison flag each, cut into runs of 8-byte words from address `a` on: a word is poisoned when a byte of it is.
The first argument counts words. -/
def wordRuns : Nat → Nat → List (Byte × Bool) → List (List Byte × Bool)
  | 0, _, _ => []
  | k + 1, a, b =>
    if b.isEmpty then [] else
      let n := 8 - a % 8
      let w := b.take n
      let p := w.any fun x => x.2
      match wordRuns k (a + n) (b.drop n) with
      | (c, q) :: t => if p = q then (w.map (·.1) ++ c, p) :: t else (w.map (·.1), p) :: (c, q) :: t
      | [] => [(w.map (·.1), p)]

/-- Write runs one behind another. -/
def State.putRuns (g : Nat) (l : Loc) : List (List Byte × Bool) → State → Nat → Res State
  | [], s, _ => .ok s
  | (b, p) :: t, s, a => do
    let s1 ← s.memWrite g l a b p false
    held s1 (State.putRuns g l t s1 (a + b.length))

/-- Write bytes with a poison flag each as one piece, so that only a word it covers in part keeps what it held. -/
def State.putBytes (s : State) (g : Nat) (l : Loc) (a : Nat) (b : List (Byte × Bool)) : Res State := State.putRuns g l (wordRuns (b.length / 8 + 2) a b) s a

/-- The fold of a coded block that a MOVE writes to the Gallery (R133); other writes of the MOVE store its bytes. -/
def State.foldBlk (s : State) (g : Nat) (l : Loc) (a : Nat) (b : List Byte) (p : Bool) : State :=
  if l = .gallery then s.galQueue g { addr := a, bytes := b, poison := p, origin := 0, fold := true, store := false } else s

/-- The source blocks of a region in order: from a tensor, or from the queue's entries (R127). The list counts blocks,
`q` holds the blocks left of the last popped entry and the position of the next. -/
def State.srcBlks (s : State) (g : Nat) (a : MoveArgs) (d : Desc) (q : XState) : List (Nat × Nat) → Res (State × List Blk)
  | [] => .ok (s, [])
  | rc :: t => do
    let (s1, b, q1) ← (
      if d.loc = .queue then
        match q.1 with
        | b :: r => pure (s, b, (r, q.2))
        | [] => do
          let (s1, e) ← s.pop g d.base
          let (s2, bs) := s1.entryBlks g 2 d.base q.2 d.etype d.coded e
          pure (s2, bs.headD (badBlk d.etype), (bs.drop 1, q.2 + 1))
      else do
        let (s1, b) ← s.tensorBlk g 2 a.ts d rc.1 rc.2
        pure (s1, b, q) : Res (State × Blk × XState))
    held s1 do
      let (s2, bs) ← State.srcBlks s1 g a d q1 t
      pure (s2, b :: bs)

/-- Push blocks as queue entries, `per` blocks an entry (R127); the first argument counts entries. -/
def State.pushBlks (g : Nat) (d : Desc) : Nat → State → List Blk → Res State
  | 0, s, _ => .ok s
  | k + 1, s, bs =>
    if bs.isEmpty then .ok s else do
      let grp := bs.take d.etype.perEntry
      let s1 ← s.push g d.base (s.newBlock g d.base (entryPayload d.etype d.coded (grp.map fun b => b.elems)) (grp.any fun b => b.poison))
      held s1 (State.pushBlks g d k s1 (bs.drop d.etype.perEntry))

/-- Write raw blocks to a region of a raw tensor (R113). -/
def State.putBlks (s : State) (g : Nat) (d : Desc) : List ((Nat × Nat) × Blk) → Res State
  | [] => .ok s
  | ((r, c), b) :: t => do
    d.bounds r c
    let s1 ← s.memWrite g d.loc (d.rawAt r c) (elemBytes d.etype b.elems) b.poison true
    held s1 (State.putBlks s1 g d t)

/-- Bytes that all carry one flag. -/
def flagged (p : Bool) (b : List Byte) : List (Byte × Bool) := b.map fun x => (x, p)

/-- Fold the coded blocks of a group, which lie one behind another from address `a` on. -/
def State.foldGroup (g : Nat) (l : Loc) : List (List Byte × Bool) → State → Nat → State
  | [], s, _ => s
  | (b, p) :: t, s, a => State.foldGroup g l t (s.foldBlk g l a b p) (a + b.length)

/-- Write the groups of a coded tensor, each with its header as one piece (R169, R173): blocks left, the first argument counting
groups; `off` is the offset of the group from BASE. The result's numbers are the groups' offsets and the offset after the last. -/
def State.putGroups (g : Nat) (d : Desc) : Nat → State → Nat → List (List Byte × Bool) → Res (State × List Nat × Nat)
  | 0, s, off, _ => .ok (s, [], off)
  | k + 1, s, off, bs => do
    let grp := bs.take 16
    let hdr := padTo 16 (grp.map fun b => BitVec.ofNat 8 b.1.length)
    let body := flagged false hdr ++ grp.flatMap fun b => flagged b.2 b.1
    let next := if k = 0 then off + body.length else alignUp (off + body.length) 16
    let s1 ← s.putBytes g d.loc (d.base + off) (body ++ flagged false (List.replicate (next - off - body.length) 0))
    held s1 do
      let (s2, offs, last) ← State.putGroups g d k (State.foldGroup g d.loc grp s1 (d.base + off + 16)) next (bs.drop 16)
      pure (s2, off :: offs, last)

/-- The Gallery writes after the first `n` belong to one encoding MOVE that writes `total` bytes, and become visible together
(R174). -/
def State.asOne (s : State) (g n total : Nat) : State :=
  s.withFsl g fun sl =>
    let k := 1 + ((sl.writes.filterMap fun w => w.enc).foldl (fun m e => max m e.1) 0)
    { sl with writes := sl.writes.take n ++ (sl.writes.drop n).map fun w => { w with enc := some (k, total) } }

/-- Write a coded tensor: groups, then index (R169, R173). RDSPEC 11 shows its bytes when the last of them is written (R119). -/
def State.putCoded (s : State) (g : Nat) (d : Desc) (blocks : List (List Byte × Bool)) : Res State := do
  let n := calGroups (d.rows * d.cols)
  let old := (s.fsl g).writes.length
  let (s1, offs, used) ← State.putGroups g d n s 0 blocks
  held s1 do
    let s2 ← s1.putBytes g d.loc (d.base + d.stride) (flagged false (offs.flatMap (leBytes 4)))
    let total := used + 4 * n
    pure (if d.loc = .gallery then s2.asOne g old total else s2.withFsl g fun sl => { sl with lastEnc := total })

/-- Read a range 4 bytes at a time with the poison of each word; the first argument counts the pieces. -/
def State.readFlagged (g : Nat) (l : Loc) : Nat → State → Nat → Res (State × List (Byte × Bool))
  | 0, s, _ => .ok (s, [])
  | k + 1, s, a => do
    let (s1, b, p) ← s.memRead g l a 4
    held s1 do
      let (s2, t) ← State.readFlagged g l k s1 (a + 4)
      pure (s2, flagged p b ++ t)

/-- Copy a coded tensor unchanged (R126, R175): its data area, as far as the destination's reaches (log entry 13), and its
index, each with the poison of its words. -/
def State.copyCoded (s : State) (g : Nat) (x d : Desc) : Res State := do
  let (s1, data) ← State.readFlagged g x.loc (min x.stride d.stride / 4) s x.base
  held s1 do
    let (s2, idx) ← State.readFlagged g x.loc (calGroups (x.rows * x.cols)) s1 (x.base + x.stride)
    held s2 do
      let s3 ← s2.putBytes g d.loc d.base data
      held s3 (s3.putBytes g d.loc (d.base + d.stride) idx)

/-- Fold the blocks of a copied coded tensor (R133), found as R171 gives; what the index or a header places outside the data
area is no block and is not folded. The first argument counts down over `n` blocks. -/
def State.foldCopied (g : Nat) (x d : Desc) (n : Nat) : Nat → State → Res State
  | 0, s => .ok s
  | k + 1, s => do
    let i := n - k - 1
    let area := min x.stride d.stride
    let (s1, e, _) ← s.memRead g x.loc (x.base + x.stride + 4 * (i / 16)) 4
    held s1 do
      let off := leNat e
      if area < off + 16 then held s1 (State.foldCopied g x d n k s1)
      else do
        let (s2, h, _) ← s1.memRead g x.loc (x.base + off) (i % 16 + 1)
        held s2 do
          let at_ := off + 16 + ((h.take (i % 16)).map BitVec.toNat).sum
          let len := ((h.getD (i % 16) 0)).toNat
          if area < at_ + len then held s2 (State.foldCopied g x d n k s2)
          else do
            let (s3, b, p) ← s2.memRead g x.loc (x.base + at_) len
            held s3 (State.foldCopied g x d n k (s3.foldBlk g d.loc (d.base + at_) b p))

/-- The body of MOVE and MOVE.ZERO. -/
def State.move (s : State) (g w : Nat) (zero : Bool) : Res (State × Flow) := do
  let a ← s.moveArgs g w zero
  let d := a.dst
  if s.moveWaits g d || ((a.src.map fun x => s.moveWaits g x).getD false) then pure (s, .done)
  else
    match a.src with
    | some x =>
      if x.coded && d.coded then do
        let n := x.rows * x.cols
        let s1 ← s.copyCoded g x d
        held s1 do
          let s2 ← if d.loc = .gallery then State.foldCopied g x d n n s1 else pure s1
          pure (s2, .next)
      else do
        let (s1, bs) ← s.srcBlks g a x ([], 0) a.from
        held s1 do
          if d.loc = .queue then do
            let s2 ← State.pushBlks g d (a.nr * a.nb) s1 bs
            let n := if d.coded then (bs.map fun b => (calEncode d.etype.isBf b.elems).length).sum else 0
            pure (if d.coded then s2.withFsl g fun sl => { sl with lastEnc := n } else s2, .next)
          else if d.coded then do
            let s2 ← s1.putCoded g d (bs.map fun b => (calEncode d.etype.isBf b.elems, b.poison))
            pure (s2, .next)
          else do
            let s2 ← s1.putBlks g d (a.into.zip bs)
            pure (s2, .next)
    | none => do
      let z : Blk := ⟨List.replicate d.etype.perBlock 0, false, none, false⟩
      let s2 ← if d.loc = .queue then State.pushBlks g d (a.nr * a.nb) s (a.into.map fun _ => z) else s.putBlks g d (a.into.map fun x => (x, z))
      pure (s2, .next)

/-- MOVE. -/
def execMoveI (g t : Nat) (s : State) : Out := .next (s.issue g t (· == 0x30) fun w s => s.move g w false)

/-- MOVE.ZERO. -/
def execMoveZero (g t : Nat) (s : State) : Out := .next (s.issue g t (· == 0x31) fun w s => s.move g w true)

/-- How many writes, the oldest first, other readers may see: the completed ones before any that is in flight, an encoding
MOVE's only together (R128, R174). -/
def readyWrites (l : List GalWrite) : Nat :=
  let pre := l.takeWhile fun w => w.done
  match (l.drop pre.length).head? with
  | some w => if w.enc.isSome then (pre.filter fun x => x.enc != w.enc).length else pre.length
  | none => pre.length

/-- The completed writes of a REALTIME or ELASTIC slot become visible; a BACKGROUND slot's do at its next COMMIT (R128). -/
def State.publish (s : State) (g i : Nat) : State :=
  let sl := s.slot g i
  if sl.cls = .background then s
  else
    let n := readyWrites sl.writes
    (s.storeWrites sl.ctx (sl.writes.take n)).withSlot g i fun sl => { sl with writes := sl.writes.drop n }

/-- Write `k` of a slot, `w`, completes: it is folded into the accumulator of interval `n` (R133), and with the last write of an
encoding MOVE RDSPEC 11 shows that MOVE's bytes (R119). -/
def Slot.complete (sl : Slot) (k n : Nat) (w : GalWrite) : Slot :=
  let ws := sl.writes.set k { w with done := true }
  let sl1 := { sl with
    writes := ws
    lastEnc := match w.enc with
      | some e => if (ws.filter fun x => x.enc == w.enc).all (·.done) then e.2 else sl.lastEnc
      | none => sl.lastEnc }
  if w.fold then sl1.fold n w.bytes (galTrailer w.origin w.bytes.length w.poison) else sl1

/-- The `k`-th Gallery write of slot `slot` completes (R128, R133); an earlier one in flight that meets it goes first (R114).
The write's context is the slot's. -/
def execMoveGalleryWriteDone (g slot k : Nat) (s : State) : Out :=
  let sl := s.slot g slot
  match sl.writes[k]? with
  | none => .next s
  | some w =>
    if !s.galOpen || w.done || (sl.writes.take k).any fun x => !x.done && spansMeet x.addr x.bytes.length w.addr w.bytes.length then .next s
    else
      let n := if sl.cls = .background then sl.micro else near64 s.drip.count w.origin
      .next ((s.withSlot g slot fun sl => sl.complete k n w).publish g slot)

/-! ### Queue instructions (R129 to R131) -/

def qQ (w : Nat) : Nat := fld w 51 5
def qAJ (w : Nat) : Nat := fld w 47 4
def qN (w : Nat) : Nat := fld w 40 6
def qVD (w : Nat) : Nat := fld w 35 4
def qSD (w : Nat) : Nat := fld w 30 5

/-- The Pocket stride of an entry by `FMT` (R130). -/
def fmtStride (fmt : Nat) : Nat := if fmt = 2 then 128 else if fmt = 3 then 256 else 64

/-- Check the queue and N of a queue instruction (R129). -/
def State.qCheck (s : State) (g w : Nat) (input : Bool) : Res Unit :=
  let q := qQ w
  let sl := s.fsl g
  let named : Bool := if input then decide (q < 16) && bitAt sl.qin q else decide (16 ≤ q) && decide (q < 24) && bitAt sl.qout (q - 16)
  if !named then stop 0x07 else if qN w = 0 ∨ 32 < qN w then stop 0x0C else .ok ()

/-- The ETYPE of a queue instruction with SIDE 1: its size must match `FMT`, else cause 0x0A; 7 is reserved (R129). -/
def qType (w fmt : Nat) : Res EType :=
  match EType.ofCode (fld w 23 3) with
  | none => stop 0x02
  | some t => if fmtFits t false fmt then .ok t else stop 0x0A

/-- The status word of R131. -/
def qStatus (es : List Entry) : W32 :=
  let m := firstIdx (fun e : Entry => e.marker) es
  BitVec.ofNat 32 (bit (es.any fun e => e.poison) + 2 * bit m.isSome + 4 * m.getD 0 + ((es.getLast?.map fun e => e.origin).getD 0) % 2 ^ 24 * 2 ^ 8)

/-- Copy popped payloads to the Pocket at the entry stride; a marker's place is left unwritten (R130, R131). -/
def State.storeEntries (s : State) (g a st : Nat) : List Entry → Res State
  | [] => .ok s
  | e :: t => do
    let s1 ← if e.marker then pure s else (do
      let p ← s.pocketAt g a st
      pure (s.pocketWrite g p (padTo st e.payload) e.poison))
    held s1 (State.storeEntries s1 g (a + st) st t)

/-- Popped entries into V registers as FP32; a marker gives +0.0 (R130, R131). -/
def State.loadEntries (s : State) (g v : Nat) (t : EType) : List Entry → State
  | [] => s
  | e :: r =>
    let x : VReg := if e.marker then {} else ⟨(elemsOf t.size 64 (padTo (64 * t.size) e.payload)).map (elemF32 t), e.poison⟩
    State.loadEntries (s.setV g v x) g (v + 1) t r

/-- Advance the A register of a queue instruction's POST form. -/
def State.qPost (s : State) (g w st : Nat) : State := if bitAt w 46 then s.setA g (qAJ w) (s.areg g (qAJ w) + qN w * st) else s

/-- QPOP. -/
def execQpop (g t : Nat) (s : State) : Out :=
  .next (s.issue g t (· == 0x40) fun w s => do
    s.qCheck g w true
    let q := qQ w
    let fmt := (s.queue g q).fmt
    if fmt = 4 ∨ fmt = 5 then stop 0x14
    else if bitAt w 39 then
      let ty ← qType w fmt
      if 16 < qVD w + qN w then stop 0x0C
      let (s1, es) ← State.popN (qN w) s g q
      pure ((((s1.loadEntries g (qVD w) ty es).qPost g w (fmtStride fmt))).setS g (qSD w) (qStatus es), .next)
    else
      let _ ← s.pocketAt g (s.areg g (qAJ w)) (qN w * fmtStride fmt)
      let (s1, es) ← State.popN (qN w) s g q
      held s1 do
        let s2 ← s1.storeEntries g (s.areg g (qAJ w)) (fmtStride fmt) es
        pure ((s2.qPost g w (fmtStride fmt)).setS g (qSD w) (qStatus es), .next))

/-- QSKIP; POST of a coded queue advances by the 64 bytes of an entry stride that R130 gives no coded entry (log entry 13). -/
def execQskip (g t : Nat) (s : State) : Out :=
  .next (s.issue g t (· == 0x42) fun w s => do
    s.qCheck g w true
    let (s1, es) ← State.popN (qN w) s g (qQ w)
    pure ((s1.qPost g w (fmtStride (s.queue g (qQ w)).fmt)).setS g (qSD w) (qStatus es), .next))

/-- Push entries read from the Pocket at the entry stride. -/
def State.pushPocket (g q st : Nat) : Nat → State → Nat → Res State
  | 0, s, _ => .ok s
  | k + 1, s, a => do
    let p ← s.pocketAt g a st
    let (s1, b, bad) := s.pocketRead g p st
    held s1 do
      let s2 ← s1.push g q (s1.newBlock g q b bad)
      held s2 (State.pushPocket g q st k s2 (a + st))

/-- Push V registers converted to `t`. -/
def State.pushV (g q w : Nat) (t : EType) : Nat → State → Nat → Res State
  | 0, s, _ => .ok s
  | k + 1, s, v => do
    let x := s.vreg g v
    let (s1, ys) := s.convert g t (bitAt w 29) (if bitAt w 28 then some (fld w 26 2) else none) x.poison x.lanes
    held s1 do
      let s2 ← s1.push g q (s1.newBlock g q (elemBytes t ys) x.poison)
      held s2 (State.pushV g q w t k s2 (v + 1))

/-- QPUSH: a coded queue is cause 0x0A; from V registers, VD + N above 16 is 0x0C as for QPOP (log entry 13). -/
def execQpush (g t : Nat) (s : State) : Out :=
  .next (s.issue g t (· == 0x41) fun w s => do
    s.qCheck g w false
    let q := qQ w
    let fmt := (s.queue g q).fmt
    if fmt = 4 ∨ fmt = 5 then stop 0x0A
    else if bitAt w 39 then
      let ty ← qType w fmt
      if 16 < qVD w + qN w then stop 0x0C
      let s1 ← State.pushV g q w ty (qN w) s (qVD w)
      pure (s1.qPost g w (fmtStride fmt), .next)
    else
      let s1 ← State.pushPocket g q (fmtStride fmt) (qN w) s (s.areg g (qAJ w))
      pure (s1.qPost g w (fmtStride fmt), .next))

/-- QFWD: pushes the most recent marker this firing popped with a new timestamp, its class and count unchanged and so, by the
model's choice, its `FMT` byte (log entry 13); cause 0x12 without one. -/
def execQfwd (g t : Nat) (s : State) : Out :=
  .next (s.issue g t (· == 0x43) fun w s => do
    let q := qQ w
    let sl := s.fsl g
    if !(decide (16 ≤ q) && decide (q < 24) && bitAt sl.qout (q - 16)) then stop 0x07
    else if qN w ≠ 1 then stop 0x0C
    else match (s.firing g).bind fun f => f.lastMarker with
      | none => stop 0x12
      | some m => do
        let s1 ← s.push g q { m with ts := s.stamp, released := false, slot := s.fslot g }
        pure (s1.qPost g w (fmtStride (s.queue g q).fmt), .next))

end Sys2Proof.Machine
end

