-- ==== Sys2Proof/Machine/Seq.lean ====
section
/-!
DEFINITION. The sequencer's own events and the MP's writes to a Geode: firing start, markers, block and credit transfer,
the firing limit, program fault handling, repair, slot states, queue discard, self-test, retirement, scrub.
-/
namespace Sys2Proof.Machine

/-! ### The fire rule (R97, R98) -/

/-- Released blocks a slot counts in an input queue: for a BACKGROUND slot a marker counts as a block (R100). -/
def Queue.ready (q : Queue) (bg : Bool) : Nat := (q.entries.filter fun e => e.released && (bg || !e.marker)).length

/-- Whether a marker is at the head of a queue. -/
def Queue.markerHead (q : Queue) : Bool := match q.entries with
  | e :: _ => e.marker && e.released
  | [] => false

/-- The conditions of R97 for slot `i` of Geode `g`; `mayFire` is what the rest of the device allows. Besides those of its table
no marker may still wait for a marker entry of an output queue, whose producer waits (R95; log entry 13). -/
def State.canFire (s : State) (g i : Nat) : Bool :=
  let d := s.geode g
  let sl := d.slot i
  let bg : Bool := sl.cls = .background
  s.mayFire && d.firing.isNone && !d.retired && !d.halted && d.veinPending == 0 && !d.kat.busy && !d.kat.pending &&
    sl.state == .run && s.running && decide (sl.first ≤ s.drip.drop) && decide (s.drip.drop ≤ sl.last) && decide (sl.used < sl.budget) &&
    (sl.ins.all fun q => decide ((d.queue q).quota ≤ (d.queue q).ready bg) && (bg || !(d.queue q).markerHead)) &&
    (sl.outs.all fun q => decide ((d.queue q).quota ≤ (d.queue q).credit) && (d.queue q).waiting.isEmpty) &&
    (!bg || decide ((s.ctx sl.ctx).bg.length < 16))

/-- The slots in the order of the rotation (R98). -/
def Geode.rotation (d : Geode) : List Nat := if d.fired then (List.range 4).map fun k => (d.lastSlot + 1 + k) % 4 else List.range 4

/-- Whether slot `a` comes before slot `b` by class and priority (R98). -/
def Slot.before (a b : Slot) : Bool := decide (a.cls.code < b.cls.code) || (a.cls == b.cls && decide (b.prio < a.prio))

/-- The choice of R98 among the slots that meet R97. -/
def State.choice (s : State) (g : Nat) : Option Nat :=
  (((s.geode g).rotation.filter fun i => s.canFire g i).foldl (fun (best : Option Nat) i =>
    match best with
    | none => some i
    | some b => if (s.slot g i).before (s.slot g b) then some i else some b) none)

/-- The higher of two RUN slots that name one input queue (R102). -/
def Geode.conflict (d : Geode) : Option Nat :=
  (List.range 4).find? fun j => (d.slot j).state == .run && (List.range j).any fun i =>
    (d.slot i).state == .run && ((d.slot i).qin &&& (d.slot j).qin) != 0

/-- The program fault 0x11 at a slot's first evaluation under R97 (R102). -/
def State.conflictFault (s : State) (g : Nat) : State :=
  if (s.geode g).firing.isSome then s
  else match (s.geode g).conflict with
    | some j => s.progFault g j 0x11 (s.slot g j).pc
    | none => s

/-- A firing begins (R97 to R99): the sequencer's choice is `slot`; the switch costs 6 cycles, or 2 for the slot that fired
last. Two RUN slots that name one input queue fault the higher one instead. -/
def execFiringStart (g slot : Nat) (s : State) : Out :=
  let d := s.geode g
  if d.firing.isNone && d.conflict.isSome then .next (s.conflictFault g)
  else if s.choice g = some slot then
    let c := if d.fired && d.lastSlot == slot then 2 else 6
    .next ((s.withGeode g fun d =>
      { d with firing := some { slot := slot, drip := s.drip.count, limit := (d.slot slot).limit }, lastSlot := slot, fired := true }).charge g c)
  else .next s

/-- The sequencer handles a marker at the head of input queue `q` of a REALTIME or ELASTIC slot between firings (R100): it
is popped, the slot's queued blocks of its drip are discarded on every input queue, and one marker of the slot's own
class goes to every output queue. -/
def execMarkerHandling (g slot q : Nat) (s : State) : Out :=
  let d := s.geode g
  let sl := d.slot slot
  let w := d.queue q
  if !s.arithRuns || d.firing.isSome || d.retired || d.halted || sl.state != .run || sl.cls == .background || !(decide (q < 16) && bitAt sl.qin q) || !w.markerHead then .next s
  else
    let n := near64 s.drip.count ((w.entries.head?.map fun e => e.origin).getD 0)
    let s1 := s.withQueue g q fun w => Queue.settle 4 { w with entries := w.entries.drop 1 }
    let s2 := sl.ins.foldl (fun s p =>
      let gone (e : Entry) : Bool := !e.marker && e.released && e.origin == n % 2 ^ 32
      let k := ((s.queue g p).entries.filter gone).length
      (s.withQueue g p fun w => { w with entries := w.entries.filter fun e => !gone e }).creditBack g p k) s1
    .next ((s2.missing g slot n).abandon g slot n)

/-! ### Transfer between queues (R94, R95, R105, R106) -/

/-- Deliver an entry into an input queue: a block of a retired Geode is discarded with its credit (R83). -/
def State.deliver (s : State) (g q : Nat) (e : Entry) : State :=
  if (s.geode g).retired then (if e.marker then s else s.creditBack g q 1)
  else s.withQueue g q fun w => if e.marker then w.pushMarker e else w.join e

/-- The oldest released entry of output queue `q` becomes visible in its peer queue (R106); a marker waits while the
peer's 4 marker entries are full. `parity` is a parity error of the switch (R105). -/
def execBlockArrival (g q : Nat) (parity : Bool) (s : State) : Out :=
  let d := s.geode g
  let w := d.queue q
  let pg := if w.bind = 2 then w.peer else g
  match w.entries with
  | [] => .next s
  | e :: rest =>
    if !s.arithRuns || q < 16 || !(w.bind == 2 || w.bind == 3) || !e.released || (e.marker && decide (4 ≤ (s.queue pg w.peerQ).markers)) || d.retired then .next s
    else
      let bad := parity && w.bind == 2
      let s1 := (s.withQueue g q fun w => Queue.settle 4 { w with entries := rest }).entryUe g q 0xFF e
      let s2 := s1.deliver pg w.peerQ (if bad then { e.leave with poison := true, bad := true } else e.leave)
      .next (if bad then (s2.geodeFault pg 0x40).addRec 0x0106 0xFF pg w.peerQ 0xFF e.origin [] else s2)

/-- One credit returns to the producer that holds output queue `q` (R95, R106). -/
def execCreditReturn (g q : Nat) (s : State) : Out :=
  if 1 ≤ (s.queue g q).creditDue ∧ s.arithRuns = true then .next (s.withQueue g q fun w => { w with creditDue := w.creditDue - 1, credit := min 32 (w.credit + 1) })
  else .next s

/-- The firing reaches `GD_SLOTs_LIMIT` cycles and ends with a program fault (R99). -/
def execFiringLimit (g : Nat) (s : State) : Out :=
  match s.firing g with
  | none => .next s
  | some f =>
    if f.limit = 0 || !s.arithRuns || s.commitFull g then .next s
    else .next ((s.charge g (f.limit + f.stalled - f.cycles)).progFault g f.slot 0x0E (s.fsl g).pc)

/-! ### Faults, repair and retirement -/

/-- What the transition to EMPTY clears (R103, R134): program memory, registers, fault register, trackers; the budget in force
with them, so that a slot bound again fires from the boundary after CTX_START (R222). -/
def Slot.clear (sl : Slot) : Slot :=
  { sl with
    state := .empty, budget := 0, budgetNext := 0, cause := 0, faultPc := 0, stopping := false, prog := [], image := none, progUe := []
    s := List.replicate 32 0, a := List.replicate 16 0, t := List.replicate 32 0, v := List.replicate 16 {}
    pc := 0, saved := {}, micro := 0, interval := none, eCount := 0, trk := List.replicate 4 {}, obs := [], acc := [], lastEnc := 0, writes := [] }

/-- Whether another slot that is not EMPTY shares the Pocket window of slot `i` (R220). -/
def Geode.windowShared (d : Geode) (i : Nat) : Bool :=
  let a := d.slot i
  decide (a.size ≠ 0) && (List.range 4).any fun j => j != i && (d.slot j).state != .empty && (d.slot j).base == a.base && (d.slot j).size == a.size &&
    (d.slot j).ctx == a.ctx

/-- Set a slot EMPTY and free its window unless it is shared (R220, R225); Gallery writes it has made are not undone (R35). -/
def State.emptySlot (s : State) (g i : Nat) : State :=
  let shared := (s.geode g).windowShared i
  (s.publishAll g i).withSlot g i fun sl => let c := sl.clear; if shared then c else { c with base := 0, size := 0 }

/-- The MP handles a program fault (R225): the record, the slot EMPTY, budgets 0, and the context on its way to HALTED. -/
def execProgramFaultHandling (g slot : Nat) (s : State) : Out :=
  let sl := s.slot g slot
  if sl.state ≠ .halted then .next s
  else
    .next (((s.faultRec g slot).emptySlot g slot).haltCtx sl.ctx g slot false)

/-- 16 cycles after the firing that found a first faulty Vein (R82 step 4a): the spare takes its place. A second one has retired
the Geode at the end of its firing. -/
def execVeinRepairDone (g : Nat) (s : State) : Out :=
  let d := s.geode g
  if d.veinPending = 0 || d.firing.isSome || !s.arithRuns then .next s
  else .next ((s.addRec 0x0101 0xFF g 0xFF 0xFF 0 []).withGeode g fun d => { d with veinPending := 0, spareUsed := true, tiles := [] })

/-- A self-test is ordered: it begins at once, or at the end of the firing in progress (R402). -/
def State.katStart (s : State) (g : Nat) : State :=
  let d := s.geode g
  if d.kat.busy || d.retired then s
  else s.withGeode g fun d => { d with kat := if d.firing.isSome then { d.kat with pending := true }
    else { d.kat with busy := true, done := false, fail := false, unit := 0 } }

/-- An MP write to `GD_KAT_CTRL.START` (R402). -/
def execKatStart (g : Nat) (s : State) : Out := .next (s.katStart g)

/-- The self-test ends (R402); `unit` is the unit that failed first, if one did. -/
def execKatDone (g : Nat) (unit : Option Nat) (s : State) : Out :=
  let k := (s.geode g).kat
  if !k.busy || !s.arithRuns then .next s
  else
    let u := match unit with
      | some x => some (min x 4)
      | none => k.latent
    .next (s.withGeode g fun d => { d with kat := { d.kat with busy := false, done := true, fail := u.isSome, unit := u.getD 0, latent := none } })

/-- A retirement is ordered: at the end of the firing in progress, or at once (R402). -/
def State.retireReq (s : State) (g : Nat) : State :=
  if (s.geode g).retired then s
  else if (s.geode g).firing.isSome then s.withGeode g fun d => { d with retirePending := true }
  else s.retire g

/-- An MP write to `GD_KAT_CTRL.RETIRE` (R402). -/
def execGeodeRetire (g : Nat) (s : State) : Out := .next (s.retireReq g)

/-! ### Slot states, queue discard, scrub -/

/-- Whether every queue a slot names is bound and has a legal quota (R103). -/
def Geode.queuesReady (d : Geode) (sl : Slot) : Bool :=
  (sl.ins ++ sl.outs).all fun q => (d.queue q).bind != 0 && decide (1 ≤ (d.queue q).quota) && decide ((d.queue q).quota ≤ 32)

/-- A write of `GD_SLOTs_CTRL.STATE` (R103): EMPTY, LOADED and RUN where the rule allows, ignored otherwise; a slot set RUN is
evaluated at once when no firing is in progress (R102). -/
def State.setSlotState (s : State) (g i v : Nat) : State :=
  let d := s.geode g
  let sl := d.slot i
  match sl.state, v with
  | .loaded, 2 => if d.queuesReady sl then (s.withSlot g i fun sl => { sl with state := .run }).conflictFault g else s
  | .run, 1 =>
    if (d.firing.map fun f => f.slot) = some i then s.withSlot g i fun sl => { sl with stopping := true }
    else s.withSlot g i fun sl => { sl with state := .loaded }
  | .loaded, 0 => (s.publishAll g i).withSlot g i Slot.clear
  | .halted, 0 => (s.publishAll g i).withSlot g i Slot.clear
  | _, _ => s

/-- An MP write of `GD_SLOTs_CTRL.STATE`. -/
def execSlotStateWrite (g slot v : Nat) (s : State) : Out := .next (s.setSlotState g slot v)

/-- Whether a RUN slot names queue `q`. -/
def Geode.runNames (d : Geode) (q : Nat) : Bool := d.slots.any fun sl => sl.state == .run && (sl.ins ++ sl.outs).contains q

/-- A write of 1 to `GD_Qq_CTRL.DISCARD` (R224), ignored while a RUN slot names the queue. -/
def execQueueDiscard (g q : Nat) (s : State) : Out := if (s.geode g).runNames q then .next s else .next (s.discardQueue g q)

/-- The scrub reads the next Pocket line (R87); `err` says what the read finds in `word` of the line: 1 a correctable and 2
an uncorrectable error. With the last line of a pass it has also read the program memories and the queues (R402). -/
def execPocketScrub (g err word : Nat) (s : State) : Out :=
  let d := s.geode g
  if !s.arithRuns then .next s else
  let w := d.scrub * 8 + word % 8
  let s1 := s.withGeode g fun d =>
    { d with
      ce := if err = 1 then insNat w d.ce else d.ce
      ue := if err = 2 then insNat w d.ue else d.ue
      scrub := (d.scrub + 1) % 32768 }
  let s2 := s1.pocketEcc g (d.scrub * 64) 64
  if d.scrub + 1 < 32768 then .next s2
  else
    let s3 := (List.range 24).foldl (fun s q =>
      if (s.queue g q).entries.any fun e => e.ue then
        ((s.withQueue g q fun w => { w with entries := w.entries.map fun e => e.leave }).geodeFault g 0x10).addRec 0x0104 0xFF g q 0xFF 0 []
      else s) s2
    .next ((List.range 4).foldl (fun s i =>
      let sl := s.slot g i
      if sl.progUe.isEmpty || !(sl.state == .run || sl.state == .loaded) then s
      else ((s.geodeFault g 0x20).addRec 0x0105 sl.ctx g i 0xFF 0 []).progFault g i 0x10 sl.pc) s3)

end Sys2Proof.Machine
end

