-- ==== Sys2Proof/Machine/Mailbox.lean ====
section
/-!
DEFINITION. The register window's FIFOs, the MP's acceptance of commands (R54 to R73), the table of R272, and the order in
which accepted commands start (R274).
-/
namespace Sys2Proof.Machine

/-! ### Status codes (R271) -/

def sOk : Nat := 0x00
def eBusy : Nat := 0x01
def eLen : Nat := 0x02
def eOpcode : Nat := 0x03
def eParam : Nat := 0x04
def eState : Nat := 0x05
def ePoison : Nat := 0x06
def eAuth : Nat := 0x07
def eSealed : Nat := 0x08
def eNoSpace : Nat := 0x09
def eTimeout : Nat := 0x0A
def eTwin : Nat := 0x0B
def eRoute : Nat := 0x0C
def eFull : Nat := 0x0D

/-! ### The opcode table (R272) -/

/-- The legal payload lengths of an opcode; `none` for an unassigned one. -/
def opLen (op len : Nat) : Option Bool :=
  match op with
  | 0x01 | 0x20 | 0x2A | 0x2B | 0x2C | 0x2D | 0x2F | 0x30 | 0x4A | 0x4B | 0x52 | 0x53 | 0x54 | 0x55 | 0x59 => some (len == 1)
  | 0x03 | 0x12 | 0x49 | 0x50 | 0x51 => some (len == 0)
  | 0x02 | 0x13 | 0x19 | 0x1A | 0x3D | 0x48 | 0x56 => some (len == 3)
  | 0x04 | 0x1D | 0x1E | 0x38 | 0x3A | 0x3B => some (len == 7)
  | 0x10 | 0x1F | 0x58 | 0x5B => some (len == 4)
  | 0x11 | 0x18 | 0x1B | 0x1C => some (len == 5)
  | 0x28 => some (len == 8)
  | 0x29 => some (decide (4 ≤ len) && decide (len ≤ 28))
  | 0x2E => some (decide (8 ≤ len) && decide (len ≤ 15))
  | 0x39 => some (decide (7 ≤ len) && decide (len ≤ 14))
  | 0x3C => some (len == 6)
  | 0x3E => some (decide (5 ≤ len) && decide (len ≤ 61) && len % 4 == 1)
  | 0x5A => some (len == 25)
  | _ => none

def isMet (op : Nat) : Bool := decide (0x38 ≤ op) && decide (op ≤ 0x3C)
/-- The opcodes of context clients (R67). -/
def isClientOp (op : Nat) : Bool := [0x1B, 0x1C, 0x2A, 0x2B, 0x2C, 0x2E, 0x2F, 0x30].contains op
/-- The journalled opcodes (R397). -/
def isJournalled (op : Nat) : Bool := op == 0x04 || (decide (0x18 ≤ op) && decide (op ≤ 0x2F) && op != 0x1C && op != 0x1E)

/-- The role of a mailbox (R67). -/
def roleOk (m op : Nat) : Bool :=
  op == 0x01 || op == 0x03 ||
    (match m with
      | 0 => true
      | 1 => isMet op
      | 2 => decide (0x10 ≤ op) && decide (op ≤ 0x13)
      | 3 => [0x54, 0x56, 0x59, 0x5A].contains op
      | _ => isClientOp op)

/-- The lifecycle state the checks use (R423, R445): RETIRED until Flint has reported one. -/
def State.lifecycle (s : State) : Nat := if s.sec.lcValid && !s.dev.stateLost then s.sec.lifecycle else 4

/-- The lifecycle states of R272: 0 BLANK to 4 RETIRED. -/
def lifeOk (op lc : Nat) : Bool :=
  if [0x01, 0x03, 0x54, 0x55].contains op then true
  else if decide (0x38 ≤ op) && decide (op ≤ 0x3E) then decide (1 ≤ lc) && decide (lc ≤ 3)
  else if op = 0x56 then lc == 1
  else decide (lc < 4)

/-- The commands of check 11 of R66, accepted before a board record. -/
def preBoard (op : Nat) : Bool := [0x01, 0x03, 0x02, 0x54, 0x55, 0x5B, 0x58, 0x59, 0x5A].contains op
/-- The eight commands of phase BOOT (R273 item 2). -/
def bootOp (op : Nat) : Bool := op != 0x02 && preBoard op

/-- Whether the MP runs and reads its FIFOs (R277, R409, R431). -/
def State.mpRuns (s : State) : Bool :=
  s.dev.die == .serving && s.dev.refclk && !s.fcu.mpHalt && !s.sec.dbgHalt && s.pw.state == 0

/-! ### Client mailboxes (R68) -/

/-- The context assigned to a client mailbox. -/
def State.clientCtx (s : State) (m : Nat) : Option Nat :=
  firstIdx (fun c : Ctx => c.state != .free && c.client == some m) s.ctxs

/-- Payload word `i` of a command. -/
def Cmd.word (c : Cmd) (i : Nat) : Nat := (c.words.getD i 0).toNat

/-- Whether a client's command names another context or a stream that belongs to another; one without a word 0 names nothing. No client
command names a slab by its number. -/
def State.foreign (s : State) (own : Nat) (c : Cmd) : Bool :=
  let x := s.stream (fld (c.word 0) 0 6)
  let theirs := x.state != 0 && x.ctx != own
  !c.words.isEmpty &&
    (if c.op = 0x2E then fld (c.word 0) 11 5 != own || theirs
      else if c.op = 0x2F ∨ c.op = 0x30 then theirs
      else fld (c.word 0) 0 5 != own)

/-! ### Host accesses (R55 to R61, R65) -/

/-- Tags of the commands accepted on a mailbox and not yet answered (R63). -/
def Mbx.tags (b : Mbx) : List Nat := b.out.map fun c => c.tag

/-- A write to `MBXm_CMD_DATA`; `bad` is a later parity error of the stored word (R57, R59). -/
def Mbx.putCmd (b : Mbx) (w : W32) (bad : Bool) : Mbx :=
  if b.cmdHeld then b else if 64 ≤ b.cmd.length then { b with cmdOvf := true } else { b with cmd := b.cmd ++ [⟨w, bad⟩] }

/-- Take the oldest response word. -/
def Mbx.popRsp (b : Mbx) : Option (W32 × Mbx) :=
  match b.rsp with
  | [] => none
  | msg :: t => match msg.words with
    | [] => none
    | w :: ws => some (w, { b with rsp := if ws.isEmpty then t else { msg with words := ws } :: t })

/-- A read of `MBXm_RSP_DATA` takes the word; `upset` is a parity error of the word read (R58, R59). -/
def Mbx.readRsp (b : Mbx) (upset : Bool) : Mbx := match b.popRsp with
  | none => { b with rspUndf := true }
  | some (_, b') => { b' with rspPoison := b'.rspPoison || upset }

/-- An event of the MP: one that does not run writes it once it runs again, if it is one of the 4 events a mailbox can hold. -/
def State.mpEvent (s : State) (m : Nat) (msg : OutMsg) : State := s.withMbx m fun b => if s.mpRuns then b.send msg else b.hold msg

/-- CMD_FLUSHED (R61, R63): the FIFO's words and the words of the message being read, its tag, and the tags outstanding. -/
def Mbx.cmdFlushed (b : Mbx) (m : Nat) : OutMsg :=
  let tag := (b.part.map fun p => fld p.header.toNat 16 8).getD 0
  let n := b.cmd.length + (b.part.map fun p => 1 + p.words.length).getD 0
  eventMsg (eventWord0 0x01 tag m n :: tagWords 16 b.tags)

/-- RSP_FLUSHED (R61, R63). The manual does not say whether the words of a discarded event count among the response words discarded: the model
counts every word of the FIFO (DESIGN CHOICE, log entry 48). -/
def Mbx.rspFlushed (b : Mbx) (m : Nat) : OutMsg :=
  eventMsg (eventWord0 0x02 0 m b.rspCount :: tagWords 16 ((b.rsp.filter fun x => !x.event).map fun x => x.tag))

/-- Empty the command FIFO, with any part of a message already read (R61). -/
def Mbx.dropCmd (b : Mbx) : Mbx := { b with cmd := [], part := none }
/-- Empty the response FIFO (R61). -/
def Mbx.dropRsp (b : Mbx) : Mbx := { b with rsp := [], evtLost := b.evtLost || b.rsp.any fun x => x.event }

/-- A write of flush bits: the FIFOs are emptied, the command FIFO first, and the MP then writes its events (R61). -/
def State.flush (s : State) (m : Nat) (cmd rsp : Bool) : State :=
  let b := s.mb m
  let s1 := s.withMbx m fun b =>
    let b1 := if cmd then b.dropCmd else b
    if rsp then b1.dropRsp else b1
  let s2 := if cmd then s1.mpEvent m (b.cmdFlushed m) else s1
  if rsp then s2.mpEvent m (b.rspFlushed m) else s2

/-! ### Acceptance (R65, R66, R72, R73) -/

/-- The MP's rejection of a command that is not outstanding: a response of length 0 (R62, R66). -/
def State.reject (s : State) (m : Nat) (h : W32) (status : Nat) : State :=
  s.send m ⟨false, fld h.toNat 16 8, [headerWord (fld h.toNat 24 8) (fld h.toNat 16 8) 0 false false status]⟩

/-- Flush the command FIFO, set the hold and write the event (R65 steps 2 to 4); `n` words of the failing command are
lost with the FIFO's. -/
def State.resync (s : State) (m code tag n : Nat) : State :=
  let b := s.mb m
  (s.withMbx m fun b => { b with cmd := [], part := none, cmdHeld := true }).event m code tag (b.cmd.length + n) (tagWords 16 b.tags)

/-- The message being read waits for its E_LEN response to fit (R65). -/
def Mbx.late (b : Mbx) : Bool := (b.part.map fun p => p.late).getD false

/-- Whether a mailbox is skipped by the rotation (R73): empty, held under R72, or waiting for a response to fit. -/
def Mbx.skipped (b : Mbx) : Bool :=
  b.cmd.isEmpty || decide (16 ≤ b.out.length) || (b.out.any fun c => c.fence) || (b.held.any fun x => !x.event) || b.late

/-- A message has lost the framing of its FIFO (R65, R66 checks 2 and 3): the E_LEN response is written, and the resynchronisation follows; while
the response has no room, the message waits, and a flush still discards it (R61). -/
def State.loseFraming (s : State) (m : Nat) (h : W32) (words : List InWord) : State :=
  let b := s.mb m
  let msg : OutMsg := ⟨false, fld h.toNat 16 8, [headerWord (fld h.toNat 24 8) (fld h.toNat 16 8) 0 false false eLen]⟩
  if b.room b.held msg then (s.send m msg).resync m 0x03 (fld h.toNat 16 8) (1 + words.length)
  else s.withMbx m fun b => { b with part := some ⟨h, words, true⟩ }

/-- The checks 4 to 14 of R66 on a complete message: the status of the first that fails, `none` when all pass. Check 5
is the caller's. -/
def State.checks (s : State) (m : Nat) (h : W32) (words : List InWord) : Option Nat :=
  let v := h.toNat
  let op := fld v 24 8
  let len := fld v 10 6
  let auth := bitAt v 8
  let c : Cmd := { tag := fld v 16 8, op := op, header := h, words := words.map fun x => x.w, seq := 0 }
  if words.any fun x => x.bad then some ePoison
  else if fld v 0 8 ≠ 0 then some eParam
  else if (opLen op 0).isNone || (op == 0x56 && s.lifecycle != 1) then some eOpcode
  else if !roleOk m op then some eRoute
  else if 4 ≤ m ∧ isClientOp op ∧ ((s.clientCtx m).map fun own => s.foreign own c) = some true then some eRoute
  else if s.dev.proto = 0 ∧ op ≠ 0x01 then some eState
  else if 4 ≤ m ∧ isClientOp op ∧ (s.clientCtx m).isNone then some eState
  else if s.dev.board.isNone && !preBoard op then some eState
  else if isMet op && (!auth || decide (len < 5)) then some eAuth
  else if auth && !isMet op then some eParam
  else if opLen op len ≠ some true then some eLen
  else none

/-- Decide on a complete message (R66 checks 4 to 14): reject it, report its duplicate tag, or accept it. -/
def State.admitMsg (s : State) (m : Nat) (h : W32) (words : List InWord) : State :=
  let v := h.toNat
  let tag := fld v 16 8
  if tag = 0 then s.reject m h eParam
  else if (s.mb m).tags.contains tag then s.event m 0x05 tag (1 + words.length) []
  else match s.checks m h words with
    | some e => s.reject m h e
    | none =>
      let j := s.tw.mode == .paired && s.tw.leader && isJournalled (fld v 24 8)
      let s1 := s.withMbx m fun b => { b with out := b.out ++
        [{ tag := tag, op := fld v 24 8, header := h, words := words.map fun x => x.w, fence := bitAt v 9, seq := s.dev.seq + 1,
           jseq := if j then s.tw.journalSeq + 1 else 0 }] }
      (s1.withDev fun d => { d with seq := d.seq + 1 }).withTw fun t => if j then { t with journalSeq := t.journalSeq + 1 } else t

/-- Read a message's remaining payload from the FIFO and decide once all of it has arrived (R66 checks 1 to 3). -/
def State.readMsg (s : State) (m : Nat) (h : W32) (have' : List InWord) : State :=
  let len := fld h.toNat 10 6
  let b := s.mb m
  let more := b.cmd.take (len - have'.length)
  let got := have' ++ more
  let s1 := s.withMbx m fun b => { b with cmd := b.cmd.drop more.length, part := if got.length < len then some ⟨h, got, false⟩ else none }
  if got.length < len then s1 else s1.admitMsg m h got

/-- One visit of the MP to mailbox `m` (R66, R73). -/
def State.visit (s : State) (m : Nat) : State :=
  let b := s.mb m
  let s0 := s.withDev fun d => { d with rot := (m + 1) % 8 }
  match b.part with
  | some p => if p.late then s0 else s0.readMsg m p.header p.words
  | none => match b.cmd with
    | [] => s0
    | h :: t =>
      let s1 := s0.withMbx m fun b => { b with cmd := t }
      if h.bad then s1.resync m 0x04 0 1
      else if fld h.w.toNat 10 6 = 63 then s1.loseFraming m h.w []
      else s1.readMsg m h.w []

/-- The MP's next visit: the first mailbox of the rotation that is not skipped (R73); none while boundary work runs
(R265) or the MP has agreed to an entry (R277). -/
def execMpAcceptCommand (s : State) : Out :=
  if !s.mpRuns || !s.dev.workDue.isEmpty || s.pw.agreed.contains 3 then .next s
  else match ((List.range 8).map fun k => (s.dev.rot + k) % 8).find? fun m => !(s.mb m).skipped with
    | none => .next s
    | some m => .next (s.visit m)

/-- Payload words are still missing 1 ms after the header read (R66 check 3): E_LEN, then the resynchronisation. -/
def execCmdPayloadTimeout (m : Nat) (s : State) : Out :=
  match (s.mb m).part with
  | none => .next s
  | some p =>
    if p.late || !s.mpRuns then .next s else .next (s.loseFraming m p.header p.words)

/-- The oldest held message that can be written, and its place. -/
def Mbx.ready (b : Mbx) : Option (OutMsg × Nat) := b.held.zipIdx.find? fun x => b.room (b.held.take x.2) x.1

/-- A held message is written once it fits, and its command is then answered (R64); so is an E_LEN response that waits (R65). -/
def execHeldMessageWrite (m : Nat) (s : State) : Out :=
  let b := s.mb m
  if !s.mpRuns then .next s
  else match b.ready with
  | some (msg, k) => .next (s.withMbx m fun b =>
    { b with
      rsp := b.rsp ++ [msg], held := b.held.eraseIdx k
      out := if msg.event then b.out else b.out.filter fun c => !(c.tag == msg.tag && c.phase == answered) })
  | none => match b.part with
    | some p => if p.late then .next (s.loseFraming m p.header p.words) else .next s
    | none => .next s

/-! ### Objects and the order of commands (R72, R274) -/

/-- The objects of R274. -/
inductive Obj where
  | ctx (c : Nat)
  /-- A memory command of context `c`, which shares an object with every context command of it. -/
  | mem (c : Nat)
  | strm (i : Nat)
  | index (c i : Nat)
  | slab (sl : Nat)
  | drip | qtz | flint | power | twin | faults
  deriving DecidableEq, Repr

/-- Whether two objects are one object. -/
def Obj.meets : Obj → Obj → Bool
  | .ctx a, .mem b => a == b
  | .mem a, .ctx b => a == b
  | .mem _, .mem _ => false
  | a, b => a == b

/-- The indices of context `c` from `i` on, as objects: the index itself, and the slab it maps. -/
def State.indexObjs (s : State) (c i n : Nat) : List Obj :=
  (range' i (min n 512)).flatMap fun j => match (s.ctx c).ent j with
    | some e => [.index c j, .slab e.slab]
    | none => [.index c j]

/-- The objects a command names. -/
def State.objects (s : State) (c : Cmd) : List Obj :=
  let w := c.word
  let x := fld (w 0) 0 5
  let rng (a n : Nat) : List Obj := .mem x :: s.indexObjs x (a / 2 ^ 20) ((a + max n 1 - 1) / 2 ^ 20 + 1 - a / 2 ^ 20)
  match c.op with
  | 0x02 | 0x3D | 0x3E | 0x58 | 0x59 | 0x5A => [.flint]
  | 0x5B => if fld (w 0) 0 2 = 1 then [.flint] else []
  | 0x04 => [.drip, .qtz]
  | 0x10 | 0x11 | 0x12 | 0x13 => [.qtz]
  | 0x18 =>
    .mem x :: (s.indexObjs x (fld (w 1) 0 9) (fld (w 2) 0 10) ++
      (if bitAt (w 0) 8 then s.indexObjs (fld (w 3) 0 5) (fld (w 4) 0 9) (fld (w 2) 0 10) else []))
  | 0x19 | 0x1A => .mem x :: s.indexObjs x (fld (w 1) 0 9) (fld (w 2) 0 10)
  | 0x1B | 0x1C | 0x1D => rng (w 3) (w 4)
  | 0x1E => if fld (w 0) 8 2 = 1 then rng (w 1) (calSpan (w 4) (w 5)) else rng (w 1) (w 2)
  | 0x1F => rng (w 1) (calSpan (w 2) (w 3))
  | 0x28 | 0x29 | 0x2A | 0x2B | 0x2C | 0x2D => [.ctx x]
  | 0x2E => [.ctx (fld (w 0) 11 5), .strm (fld (w 0) 0 6)]
  | 0x2F | 0x30 => [.ctx (s.stream (fld (w 0) 0 6)).ctx, .strm (fld (w 0) 0 6)]
  | 0x38 | 0x39 | 0x3A | 0x3B | 0x3C => [.flint]
  | 0x48 | 0x49 | 0x4A | 0x4B => [.power]
  | 0x50 | 0x51 | 0x52 | 0x53 => [.twin]
  | 0x54 | 0x55 | 0x56 => [.faults]
  | _ => []

/-- DMA_OUT and IMAGE_VERIFY only read their ranges. -/
def readsOnly (op : Nat) : Bool := op == 0x1C || op == 0x1E
/-- Commands that take a DMA queue (R274). -/
def usesDma (op : Nat) : Bool := [0x1B, 0x1C, 0x1D, 0x2C].contains op

/-- Every outstanding command. -/
def State.outstanding (s : State) : List Cmd := s.mbx.flatMap fun b => b.out

/-- Commands that transfer now on a DMA queue. -/
def State.transfers (s : State) : Nat :=
  (s.outstanding.filter fun c => usesDma c.op && decide (1 ≤ c.phase) && decide (c.phase < answered)).length

/-- Whether nothing keeps an accepted command waiting: its FENCE holds, no earlier command that names a common object is still
outstanding, and a DMA queue is free (R72, R274). -/
def State.free1 (s : State) (m : Nat) (c : Cmd) : Bool :=
  let mine := s.objects c
  (!c.fence || !((s.mb m).out.any fun x => decide (x.seq < c.seq))) &&
    !(s.outstanding.any fun x => decide (x.seq < c.seq) && !(readsOnly x.op && readsOnly c.op) && ((s.objects x).any fun a => mine.any fun b => a.meets b)) &&
    (!usesDma c.op || decide (s.transfers < 4))

/-- The follower of a PAIRED pair (R397). -/
def State.follows (s : State) : Bool := s.tw.mode == .paired && !s.tw.leader

/-- Whether an accepted command may start: nothing keeps it waiting, and no earlier one of its mailbox is still to start that could (R72). A
command that waits under R274, or on the follower for its journal entry, is passed by later ones, as the worked example of R274 has it. -/
def State.mayStart (s : State) (m : Nat) (c : Cmd) : Bool :=
  s.free1 m c && !((s.mb m).out.any fun x => decide (x.seq < c.seq) && x.phase == 0 && !(s.follows && isJournalled x.op) && s.free1 m x)

/-! ### Running a command -/

/-- The accepted command of a mailbox with this tag and opcode, in this phase. -/
def State.cmdIn (s : State) (m tag op phase : Nat) : Option Cmd := (s.mb m).out.find? fun c => c.tag == tag && c.op == op && c.phase == phase

/-- Items 1 and 2 of R273, and R68's end of an assignment: the status of the first that fails. -/
def State.grant (s : State) (m : Nat) (c : Cmd) : Option Nat :=
  if !lifeOk c.op s.lifecycle then some eState
  else if s.dev.phase = 0 ∧ !bootOp c.op then some eState
  else if 4 ≤ m ∧ isClientOp c.op ∧ (s.clientCtx m).isNone then some eState
  else none

/-- Answer a command; a journalled one that the leader of a PAIRED pair accepted leaves an entry with the choices made (R397). -/
def State.finish (s : State) (m : Nat) (c : Cmd) (status : Nat) (words : List W32) (choices : List Nat) : State :=
  let s1 := s.respond m c status words
  if c.jseq = 0 then s1
  else s1.withTw fun t => { t with journalOut := t.journalOut ++ [⟨c.jseq, m, c.op, crc32c (wordsBytes c.words), status, choices⟩] }

/-- A command's outcome: the status with its payload, or a new state with an `OK` payload and the choices made. -/
abbrev Answer := Except (Nat × List W32) (State × List W32 × List Nat)

/-- Reject with a status and no payload (R275). -/
def bad (status : Nat) : Answer := .error (status, [])

/-- Run the checks of R273 items 1 and 2, then the command's own body, and respond. -/
def State.runBody (s : State) (m : Nat) (c : Cmd) (body : State → Answer) : State :=
  match s.grant m c with
  | some e => s.finish m c e [] []
  | none => match body s with
    | .error (e, ws) => s.finish m c e ws []
    | .ok (s', ws, ch) => s'.finish m c sOk ws ch

/-- Run a command that responds in one step, when it may start; a journalled one waits on the follower (R397). -/
def State.run (s : State) (m tag op : Nat) (body : Cmd → State → Answer) : Out :=
  match s.cmdIn m tag op 0 with
  | none => .next s
  | some c =>
    if !s.mpRuns || !s.mayStart m c || (s.follows && isJournalled op) then .next s
    else .next (s.runBody m c (body c))

/-- Change a command's phase and notes: it has started and responds later. -/
def State.setPhase (s : State) (m : Nat) (c : Cmd) (phase : Nat) (note : List Nat) : State :=
  s.withMbx m fun b => { b with out := b.out.map fun x => if x.tag == c.tag then { x with phase := phase, note := note } else x }

/-- A body that rejects, or starts a longer command: the new state holds its phase. -/
abbrev Begun := Except (Nat × List W32) State

/-- Run the start of a command that responds in a later step. -/
def State.beginBody (s : State) (m : Nat) (c : Cmd) (body : State → Begun) : State :=
  match s.grant m c with
  | some e => s.finish m c e [] []
  | none => match body s with
    | .error (e, ws) => s.finish m c e ws []
    | .ok s' => s'

def State.begin (s : State) (m tag op : Nat) (body : Cmd → State → Begun) : Out :=
  match s.cmdIn m tag op 0 with
  | none => .next s
  | some c =>
    if !s.mpRuns || !s.mayStart m c || (s.follows && isJournalled op) then .next s
    else .next (s.beginBody m c (body c))

/-- Fail with a status when a condition does not hold. -/
def need (b : Bool) (status : Nat) : Except (Nat × List W32) Unit := if b then .ok () else .error (status, [])

/-- 32-bit word of a number. -/
def w32 (n : Nat) : W32 := BitVec.ofNat 32 n
/-- Low and high words of a 64-bit number. -/
def w64 (n : Nat) : List W32 := [w32 n, w32 (n / 2 ^ 32)]

end Sys2Proof.Machine
end

