-- ==== Sys2Proof/Machine/Time.lean ====
section
/-!
DEFINITION. Quartz, the drip schedule's commands and the time servo (R26 to R53, R279, R282, R453).
-/
namespace Sys2Proof.Machine

/-! ### The counter (R42, R43) -/

/-- Units of the counter in one nanosecond. -/
def nsU : Nat := 2 ^ 32
/-- The counter's modulus: 48-bit seconds. -/
def timeMod : Nat := 2 ^ 48 * giga * nsU

/-- Add a signed amount of 2^-32 ns to Quartz. -/
def addTime (now : Nat) (d : Int) : Nat := (((now : Int) + d) % (timeMod : Int)).toNat

/-- The limit of `QTZ_RATE` (R42). -/
def rateMax : Int := 3435973
def clampRate (r : Int) : Int := max (-rateMax) (min rateMax r)

/-- Move Quartz, and with it every future boundary, by a step (R47); the instants of past edges move too (R45). -/
def State.jump (s : State) (d : Int) : State :=
  (s.withTime fun t =>
    { t with
      now := addTime t.now d, ppsMark := t.ppsMark.map fun x => x + d, lastE := t.lastE.map fun x => x + d
      edges := t.edges.map fun e => { e with mark := e.mark + d } }).withDrip fun g => if g.phase = .stopped then g else { g with start := g.start + d }

/-- A written step is applied in the first QTZ cycle after it (R43, R47). -/
def State.takeStep (s : State) : State := if s.time.step = 0 then s else (s.jump (s.time.step * nsU)).withTime fun t => { t with step := 0 }

/-- `k` QTZ cycles: 4 ns and the rate correction each (R42), and a waiting step; MTIME counts them (R313). -/
def State.cycles (s : State) (k : Nat) : State :=
  if k = 0 then s
  else { s.takeStep.withTime (fun t => { t with now := addTime t.now (k * (4 * nsU + t.rate)) }) with mtime := (s.mtime + k) % 2 ^ 64 }

/-- Whether QTZ runs: the compute die is powered and out of reset, not in HIBERNATE or OFF, and REFCLK25 runs (R20, R23, R367). -/
def State.qtzRuns (s : State) : Bool := s.dev.die != .inReset && s.dev.refclk && decide (s.pw.state ≤ 2)

/-- Least number of QTZ cycles after which Quartz is at or past `t`, in units of 2^-32 ns. -/
def State.cyclesTo (s : State) (t : Int) : Nat :=
  let d := t - (s.time.now + s.time.step * nsU)
  let c := 4 * nsU + s.time.rate
  if d ≤ 0 then 0 else ((d + c - 1) / c).toNat

/-- Let QTZ run until the first cycle at or past `t`. -/
def State.advanceTo (s : State) (t : Int) : State := s.cycles (s.cyclesTo t)

/-- Before the start `t` of a drip or a drop that is still ahead, a waiting step is applied: it moves that start too (R47). -/
def State.stepBefore (s : State) (t : Int) : State := if (s.time.now : Int) < t then s.takeStep else s

/-- What a step does with no command waiting: one QTZ cycle while QTZ runs (log entry 2). -/
def State.idle (s : State) : State := if s.qtzRuns then s.cycles 1 else s

/-! ### Register reads and writes of Quartz (R43, R44): requesters 0 to 7 are the cores, 8 the MP -/

/-- A read of `QTZ_NOW_FRAC` latches the time for its requester. -/
def execQtzNowFracRead (req : Nat) (s : State) : Out :=
  .next { s.withTime (fun t => { t with latches := upd t.latches req fun l => { l with ns := s.ns % giga, sec := s.ns / giga } }) with
    readData := s.time.now % nsU }

/-- A read of `DRIP_COUNT_LO` latches `DRIP_COUNT_HI` for its requester. -/
def execDripCountLoRead (req : Nat) (s : State) : Out :=
  .next { s.withTime (fun t => { t with latches := upd t.latches req fun l => { l with dripHi := s.drip.count / 2 ^ 32 } }) with
    readData := s.drip.count % 2 ^ 32 }

/-- A read of `QTZ_STATUS`: only the MP's clears `PPS_NEW`. -/
def execQtzStatusRead (req : Nat) (s : State) : Out :=
  let v := s.time.quality.code + 4 * bit s.time.ppsNew
  .next { s.withTime (fun t => if req = 8 then { t with ppsNew := false } else t) with readData := v }

/-- A write of `QTZ_STEP`: only the MP's has effect (R43); the step is applied in the next QTZ cycle. -/
def execQtzStepWrite (req : Nat) (v : W32) (s : State) : Out :=
  if req ≠ 8 then .next s
  else .next ((s.withTime fun t => { t with step := v.toInt }).cycles (bit s.qtzRuns))

/-! ### SET_DRIP (R26 to R28, R279, R453) -/

/-- The limits of R26. -/
def dripLegal (len n : Int) : Bool :=
  decide (250000 ≤ len) && decide (len ≤ 50000000) && decide (1 ≤ n) && decide (n ≤ 256) && decide (200000 * n ≤ len)

/-- W of R265 in nanoseconds: open streams and RUNNING contexts. -/
def State.work (s : State) (streams ctxs : Nat) : Nat :=
  let n := (s.streams.filter fun x => x.state != 0).length + streams
  let c := (s.ctxs.filter fun x => x.state == .running).length + ctxs
  12000 + 3000 * n + 2000 * c

/-- Whether W stays within 0.6 × L (R266). -/
def workFits (w len : Nat) : Bool := decide (10 * w ≤ 6 * len)

/-- The shortest L in force or pending, for the check of R266. -/
def State.shortL (s : State) : Nat := match s.drip.pend with
  | some p => min p.len s.drip.base
  | none => s.drip.base

/-- The nominal end of the current drip, or T while scheduled. -/
def State.nextBoundary (s : State) : Int :=
  if s.drip.phase = .running then s.drip.start + s.drip.len * nsU else s.drip.start

/-! ### Budgets (R216, R387) -/

/-- C of R216: ARITH cycles that a drip of L ns gives to budgets, L being that of the drip the next boundary opens. -/
def State.budgetCycles (s : State) : Nat :=
  if s.drip.phase = .stopped then 0
  else 3 * (match s.drip.pend with
    | some p => if p.skip then s.drip.base else p.len
    | none => s.drip.base) / 4

/-- `BUDGET` of each slot of context `c` on Geode `g`, with the halvings in force. -/
def State.budgetOf (s : State) (c g : Nat) : Nat :=
  let n := ((s.slotsOf c).filter fun x => x.1 == g).length
  (s.ctx c).share * s.budgetCycles / (256 * max n 1) / 2 ^ (s.pw.halved.getD c 0)

/-- The MP writes the budgets of a context's slots. -/
def State.writeBudgets (s : State) (c : Nat) : State :=
  (s.slotsOf c).foldl (fun s x => s.withSlot x.1 x.2 fun sl => { sl with budgetNext := s.budgetOf c x.1 }) s

/-- The budgets of every RUNNING context that is not stopping. -/
def State.rebudget (s : State) : State :=
  (List.range 24).foldl (fun s c => if (s.ctx c).state = .running ∧ !(s.ctx c).stopping ∧ !(s.ctx c).halting then s.writeBudgets c else s) s

/-! ### SET_DRIP (R28, R279, R453) -/

/-- SET_DRIP with START: checks in the order of R273, then the schedule of R28. -/
def setDripStart (c : Cmd) (ch : List Nat) (s : State) : Answer := do
  let v := c.word 0
  let len : Nat := fld (c.word 1) 0 26
  let n : Nat := fld (c.word 2) 0 9
  let trim : Int := if bitAt v 1 then signed 32 (c.word 3) else 0
  let t : Nat := (c.word 4) + giga * (c.word 5 + fld (c.word 6) 0 16 * 2 ^ 32)
  let now : Nat := s.time.now
  need (s.drip.phase = .stopped ∧ bitAt v 0) eParam
  need (dripLegal len n) eParam
  need (dripLegal ((len : Int) + trim) n) eParam
  need (s.time.quality != .unset) eState
  need (ch ≠ [] ∨ (c.word 4 < giga ∧ now + 100000 * nsU ≤ t * nsU ∧ t * nsU ≤ now + giga * nsU)) eParam
  need (workFits (s.work 0 0) len) eNoSpace
  let start : Nat := ch.getD 1 t
  pure (((s.withDrip fun d =>
      { d with phase := .scheduled, count := 0, base := len, len := ((len : Int) + trim).toNat, drops := n, drop := 0, start := (start * nsU : Nat), pend := none }).withDev
      fun d => { d with dripSet := true }).rebudget, w64 0, [0, start])

/-- SET_DRIP with START. -/
def execSetDripStart (m tag : Nat) (s : State) : Out :=
  match s.cmdIn m tag 0x04 0 with
  | none => .next s
  | some c => if bitAt (c.word 0) 2 then s.run m tag 0x04 fun c => setDripStart c [] else .next s

/-- SET_DRIP without START: the change waits for the first boundary 10 µs or more after acceptance. -/
def setDrip (c : Cmd) (ch : List Nat) (s : State) : Answer := do
  let v := c.word 0
  let newLN := bitAt v 0
  let trim : Int := if bitAt v 1 then signed 32 (c.word 3) else 0
  let d := s.drip
  let len := if newLN then fld (c.word 1) 0 26 else d.base
  let n := if newLN then fld (c.word 2) 0 9 else d.drops
  need (fld v 0 3 ≠ 0) eParam
  need (d.phase != .stopped) eParam
  need (dripLegal len n) eParam
  need (dripLegal ((len : Int) + trim) n) eParam
  need (!newLN || workFits (s.work 0 0) len) eNoSpace
  let soon := decide (s.nextBoundary < s.time.now + 10000 * nsU)
  let first := if d.phase = .running then d.count + 1 else 0
  let at' := ch.getD 0 (if soon then first + 1 else first)
  pure (((s.withDrip fun d => { d with pend := some ⟨len, n, trim, decide (at' ≠ first)⟩ }).withDev fun d => { d with dripSet := true }).rebudget, w64 at', [at'])

/-- SET_DRIP. -/
def execSetDrip (m tag : Nat) (s : State) : Out :=
  match s.cmdIn m tag 0x04 0 with
  | none => .next s
  | some c => if bitAt (c.word 0) 2 then .next s else s.run m tag 0x04 fun c => setDrip c []

/-! ### TIME_SET, TIME_READ, PPS_CONFIG (R282) -/

/-- TIME_SET: the counter takes the given value, the quality becomes HOLDOVER, and boundaries move with it (R46, R47). -/
def execTimeSet (m tag : Nat) (s : State) : Out :=
  s.run m tag 0x10 fun c s => do
    need (c.word 1 < giga) eParam
    let t : Nat := c.word 0 + nsU * (c.word 1 + giga * (c.word 2 + fld (c.word 3) 0 16 * 2 ^ 32))
    pure (((s.jump ((t : Int) - s.time.now)).withTime fun x => { x with quality := .holdover, good := 0 }), [], [])

/-- TIME_READ. -/
def execTimeRead (m tag : Nat) (s : State) : Out :=
  s.run m tag 0x12 fun _ s =>
    let cap := s.time.ppsCap
    .ok (s, leWords 4 (leBytes 16 s.stamp) ++ w64 s.drip.count ++ [w32 (cap % giga), w32 (cap / giga), w32 (cap / giga / 2 ^ 32)], [])

/-- PPS_CONFIG. -/
def execPpsConfig (m tag : Nat) (s : State) : Out :=
  s.run m tag 0x13 fun c s => do
    let off := signed 32 (c.word 1)
    need (-500000000 ≤ off ∧ off ≤ 500000000) eParam
    need (1000 ≤ c.word 2 ∧ c.word 2 ≤ 500000000) eParam
    let en := bitAt (c.word 0) 0
    pure (s.withTime fun t => { t with ppsOutEn := en, ppsOutOffset := off, ppsOutWidth := c.word 2, ppsOut := t.ppsOut && en }, [], [])

/-! ### PPS_IN and the servo (R45, R46) -/

/-- A rising edge on PPS_IN, `phase` ns into the QTZ cycle (four-phase sampling, R45); ignored within 500 ms of the
previous accepted one. -/
def execPpsInEdge (phase : Nat) (s : State) : Out :=
  if !s.qtzRuns then .next s
  else
    let t := s.ns + phase % 4
    let mark : Int := (t * nsU : Nat)
    if (s.time.ppsMark.map fun m => decide (mark < m + (500000000 * nsU : Nat))).getD false then .next s
    else .next (s.withTime fun x =>
      { x with
        ppsNew := true, ppsCap := t, ppsMark := some mark
        edges := x.edges.filter (fun e => decide (mark ≤ e.mark + (4 * giga * nsU : Nat))) ++ [{ ns := t, mark := mark }] })

/-- Whether an edge was captured in the last 4 s (R46). -/
def State.recentEdge (s : State) (e : Edge) : Bool := decide ((s.time.now : Int) ≤ e.mark + (4 * giga * nsU : Nat))

/-- The nearest whole second of a time in nanoseconds. At exactly half a second the manual names neither: the model takes the later
(DESIGN CHOICE, log entry 10). -/
def nearSec (ns : Nat) : Nat := (ns + giga / 2) / giga

/-- The count of consecutive seconds with |e| below 1 µs after one more in second `sec`. -/
def TimeSt.goodAfter (t : TimeSt) (sec : Nat) : Nat := if t.good = 0 then 1 else if sec = t.goodSec then t.good else if sec = t.goodSec + 1 then t.good + 1 else 1

/-- The servo acts on e of an edge, in units of 2^-16 ns (the table of R46). Its gains are open: the rate it writes is an open value
within the slew limit (log entry 6). A disciplined clock stays so while |e| is below 1 µs, also after a second without an e (log entry 10). -/
def State.servo (s : State) (edge : Edge) (e : Int) : State :=
  let us : Int := 1000 * 2 ^ 16
  if 100 * us < |e| then
    s.withTime fun t => { t with step := -((e + 2 ^ 15) / 2 ^ 16), good := 0, lastE := some edge.mark, quality := .holdover }
  else
    let (s1, v) := s.draw
    let small := decide (|e| < us)
    let good := if small then s.time.goodAfter (nearSec edge.ns) else 0
    s1.withTime fun t =>
      { t with
        rate := clampRate ((v % 6871947 : Nat) - rateMax), good := good, goodSec := nearSec edge.ns, lastE := some edge.mark
        quality := if 4 ≤ good ∨ (small ∧ t.quality = .disciplined) then .disciplined else .holdover }

/-- e of a captured edge with an offset (R46), in units of 2^-16 ns. -/
def edgeErr (ns : Nat) (offset : Int) : Int := ((ns : Int) - nearSec ns * giga) * 2 ^ 16 - offset

/-- TIME_ADJUST: pair with the named edge, once, within 4 s (R46, R282). -/
def execTimeAdjust (m tag : Nat) (s : State) : Out :=
  s.run m tag 0x11 fun c s => do
    let off := signed 64 (c.word 0 + c.word 1 * 2 ^ 32)
    let rate := signed 32 (c.word 2)
    let rv := bitAt (c.word 3) 0
    need (-(giga * 2 ^ 16 : Nat) ≤ off ∧ off ≤ (giga * 2 ^ 16 : Nat)) eParam
    need (!rv || (decide (-200000000 ≤ rate) && decide (rate ≤ 200000000))) eParam
    let hit (e : Edge) : Bool := !e.used && nearSec e.ns % 2 ^ 32 == c.word 4 && s.recentEdge e
    match s.time.edges.find? hit with
    | none => pure (s, [w32 (2 * s.time.quality.code)], [])
    | some e =>
      let s1 := s.withTime fun t =>
        { t with
          edges := t.edges.map fun x => if x = e then { x with used := true, done := true } else x
          adj := some ⟨nearSec e.ns, off, rate, rv⟩ }
      let s2 := s1.servo e (edgeErr e.ns off)
      pure (s2, [w32 (1 + 2 * s2.time.quality.code)], [])

/-- The extrapolated offset of an edge, in units of 2^-16 ns (R46); the manual leaves its rounding open, and the model rounds it down
(DESIGN CHOICE, log entry 10). -/
def TimeAdj.extrapolate (a : TimeAdj) (sec : Nat) : Option Int :=
  if a.rateValid ∧ a.sec ≤ sec ∧ sec ≤ a.sec + 4 then some (a.offset + a.rate * (sec - a.sec : Nat) * giga * 2 ^ 16 / 1000000000000) else none

/-- The MP's work of a second (R46): the oldest edge without an e takes its extrapolated offset, if it has one; 2.5 s after the last
edge that yielded an e, a disciplined clock falls to HOLDOVER. -/
def execTimeServoSecond (s : State) : Out :=
  if !s.mpRuns then .next s
  else
    let fall (s : State) : State := s.withTime fun t =>
      if t.quality = .disciplined ∧ (t.lastE.map fun x => decide (x + (2500000000 * nsU : Nat) ≤ (t.now : Int))).getD true then { t with quality := .holdover, good := 0 } else t
    match s.time.edges.find? fun e => !e.done && s.recentEdge e with
    | none => .next (fall s)
    | some e =>
      match s.time.adj.bind fun a => a.extrapolate (nearSec e.ns) with
      | some off =>
        .next ((s.withTime fun t => { t with edges := t.edges.map fun x => if x = e then { x with done := true } else x }).servo e (edgeErr e.ns off))
      | none => .next (fall s)

/-! ### PPS_OUT (R48) -/

/-- `QTZ_STATUS.QUALITY` by its code (R43). -/
def Quality.ofCode : Nat → Quality
  | 0 => .unset | 1 => .holdover | 2 => .disciplined | _ => .carried

/-- A quality is set: PPS_OUT is low while it is UNSET (R48). -/
def TimeSt.setQuality (t : TimeSt) (q : Quality) : TimeSt := { t with quality := q, ppsOut := t.ppsOut && q != .unset }

/-- The first rise at or after `now`, in ns: a whole second plus the offset. -/
def nextRise (now : Nat) (off : Int) : Int :=
  let k := ((now : Int) - off + giga - 1) / giga
  k * giga + off
/-- The latest rise at or before `now`. -/
def lastRise (now : Nat) (off : Int) : Int := ((now : Int) - off) / giga * giga + off

/-- The next edge of PPS_OUT, at its nominal time: a rise while the output is enabled and the quality is not UNSET, then
the fall after the width; the pin stays low otherwise, and emits no pulse while its pad group is held (R382). -/
def execPpsOutEdge (s : State) : Out :=
  let t := s.time
  if !s.qtzRuns then .next s
  else if t.ppsOut then
    .next ((s.advanceTo ((lastRise s.ns t.ppsOutOffset + t.ppsOutWidth) * nsU)).withTime fun t => { t with ppsOut := false })
  else if t.ppsOutEn && t.quality != .unset && !bitAt s.pw.held 0 then
    .next ((s.advanceTo (nextRise s.ns t.ppsOutOffset * nsU)).withTime fun t => { t with ppsOut := true })
  else .next s

end Sys2Proof.Machine
end

