-- ==== Sys2Proof/Machine/Shelf.lean ====
section
/-!
DEFINITION. The Shelf cache (R299 to R310): lookup, replacement, eviction buffer, sector writes, and what the DMA queues
see of it. A place is a space bit (false the Gallery's store, true host memory) with a byte address.
-/
namespace Sys2Proof.Machine

abbrev Place := Bool × Nat

/-- The base of the sector, and of the line, that holds a place. -/
def secOf (a : Nat) : Nat := a / 64 * 64
def lineOf (a : Nat) : Nat := a / 256 * 256
/-- The set of a line address (R303). -/
def setOf (a : Nat) : Nat := fld a 8 10

/-- The line that holds a place. -/
def Shelf.line (h : Shelf) (p : Place) : Option Line := h.lines.find? fun l => l.host == p.1 && l.addr == lineOf p.2
/-- The sector that holds a place, when it is valid. -/
def Shelf.sector (h : Shelf) (p : Place) : Option Sector :=
  (h.line p).bind fun l => (l.sectors[p.2 % 256 / 64]?).bind fun x => if x.valid then some x else none
/-- Change the sector of a place. -/
def Shelf.updSector (h : Shelf) (p : Place) (f : Sector → Sector) : Shelf :=
  { h with lines := h.lines.map fun l =>
    if l.host == p.1 && l.addr == lineOf p.2 then { l with sectors := upd l.sectors (p.2 % 256 / 64) f } else l }
/-- The eviction-buffer entry of a place. -/
def Shelf.evicted (h : Shelf) (p : Place) : Option EvEntry := h.evict.find? fun e => e.host == p.1 && e.addr == lineOf p.2
def Shelf.updEvict (h : Shelf) (p : Place) (f : EvEntry → EvEntry) : Shelf :=
  { h with evict := h.evict.map fun e => if e.host == p.1 && e.addr == lineOf p.2 then f e else e }
/-- A sector held by an eviction-buffer entry. -/
def EvEntry.sector (e : EvEntry) (a : Nat) : Option Sector := (e.sectors[a % 256 / 64]?).bind fun x => if x.valid then some x else none
/-- The sector of a place, in its line or in the eviction buffer: a line that waits there has not left (R307). -/
def Shelf.heldSector (h : Shelf) (p : Place) : Option Sector := match h.sector p with
  | some x => some x
  | none => (h.evicted p).bind fun e => e.sector p.2
def Shelf.updHeld (h : Shelf) (p : Place) (f : Sector → Sector) : Shelf :=
  if (h.sector p).isSome then h.updSector p f else h.updEvict p fun e => { e with sectors := upd e.sectors (p.2 % 256 / 64) f }
/-- Dirty sectors (`SHELF_STATUS.DIRTY`). -/
def Shelf.dirty (h : Shelf) : Nat := (h.lines.flatMap fun l => l.sectors.filter fun x => x.valid && x.dirty).length

/-! ### Tree pseudo-LRU (R303): node 1 is the root, node k has the children 2k and 2k + 1; a clear bit points left -/

def Shelf.tree (h : Shelf) (set : Nat) : Nat := ((h.plru.find? fun x => x.1 == set).map fun x => x.2).getD 0
/-- The way the tree points at; the first argument counts the levels left. -/
def plruWay : Nat → Nat → Nat → Nat
  | 0, _, node => node - 16
  | k + 1, t, node => plruWay k t (2 * node + bit (bitAt t node))
/-- The tree after a use of the way at leaf `node`: every node above points away from it. -/
def plruTouch : Nat → Nat → Nat → Nat
  | 0, t, _ => t
  | k + 1, t, node =>
    let parent := node / 2
    let t' := if node % 2 = 0 then t ||| 2 ^ parent else t - bit (bitAt t parent) * 2 ^ parent
    plruTouch k t' parent
/-- Note a use of a way. -/
def Shelf.touch (h : Shelf) (set way : Nat) : Shelf :=
  { h with plru := (set, plruTouch 4 (h.tree set) (16 + way)) :: h.plru.filter fun x => x.1 != set }

/-! ### Bytes of a sector -/

/-- Replace bytes from offset `o`. -/
def splice (l : List Byte) (o : Nat) (b : List Byte) : List Byte := l.take o ++ b ++ l.drop (o + b.length)
/-- Write into a sector: its bytes, its poison, and the dirty bit. -/
def Sector.put (x : Sector) (o : Nat) (b : List Byte) (dirty : Bool) : Sector :=
  { x with
    valid := true
    dirty := x.dirty || dirty
    data := splice x.data o b
    poison := x.poison.filter fun w => !(decide (o ≤ 8 * w) && decide (8 * w + 8 ≤ o + b.length))
    err := if b.length = 64 then 0 else x.err }

/-- A sector of an entry with the writes laid over it that wait for the write-back in flight (R307). -/
def EvEntry.view (e : EvEntry) (a : Nat) (x : Sector) : Sector :=
  e.held.foldl (fun x w => if secOf w.1 = secOf a then x.put (w.1 % 64) w.2 true else x) x

/-! ### Memory behind the Shelf -/

/-- Read `n` bytes of the Gallery's store, or take them from the host's answer `ext`. -/
def State.backRead (s : State) (p : Place) (n : Nat) (ext : List Byte) : State × List Byte × Bool :=
  if p.1 then (s, padTo n ext, false) else s.galReadP p.2 n
/-- Write behind the Shelf: the Gallery's store, or host memory (recorded). -/
def State.backWrite (s : State) (p : Place) (b : List Byte) : State :=
  if p.1 then { s with host := s.host.writeN p.2 b } else s.galWriteP p.2 b false
/-- Write a sector back: an uncorrectable word writes the poison check pattern (R308). -/
def State.writeBack (s : State) (host : Bool) (a : Nat) (x : Sector) : State :=
  let s1 := s.backWrite (host, a) x.data
  let ws := if x.err = 2 then List.range 8 else x.poison
  if host || ws.isEmpty then s1 else s1.withGal fun g => { g with poison := ws.foldl (fun l w => insNat (a / 8 + w) l) g.poison }

/-- Write back the dirty sectors of a line's list from `a` on. -/
def State.writeBackAll (s : State) (host : Bool) (a : Nat) (l : List Sector) : State :=
  (l.zipIdx).foldl (fun s x => if x.1.valid && x.1.dirty then s.writeBack host (a + 64 * x.2) x.1 else s) s

/-! ### Allocation and eviction (R304, R307) -/

/-- A free way of a set, or the tree's choice. -/
def Shelf.victim (h : Shelf) (set : Nat) : Nat :=
  let used := (h.lines.filter fun l => l.set == set).map fun l => l.way
  match (List.range 16).find? fun w => !used.contains w with
  | some w => w
  | none => plruWay 4 (h.tree set) 1

/-- Whether a line for a place can be allocated: it is there, its set has room, or the eviction buffer has. -/
def Shelf.canAlloc (h : Shelf) (p : Place) : Bool := (h.line p).isSome || decide (h.evict.length < 8)

/-- Allocate the line of a place, moving the victim to the eviction buffer. -/
def Shelf.alloc (h : Shelf) (p : Place) : Shelf :=
  match h.line p with
  | some _ => h
  | none =>
    let set := setOf p.2
    let way := h.victim set
    let out := h.lines.filter fun l => l.set == set && l.way == way
    { h with
      lines := h.lines.filter (fun l => !(l.set == set && l.way == way)) ++ [{ set := set, way := way, host := p.1, addr := lineOf p.2 }]
      evict := h.evict ++ (out.filter fun l => l.sectors.any fun x => x.valid && x.dirty).map fun l => { host := l.host, addr := l.addr, sectors := l.sectors } }

/-- Note a use of the line of a place. -/
def Shelf.use (h : Shelf) (p : Place) : Shelf := match h.line p with
  | some l => h.touch l.set l.way
  | none => h

/-- Put bytes into the sector of a place, allocating its line. -/
def Shelf.store (h : Shelf) (p : Place) (b : List Byte) (dirty : Bool) : Shelf :=
  ((h.alloc p).updSector p fun x => x.put (p.2 % 64) b dirty).use p

/-- Fill the sector of a place with fetched bytes and their poisoned words. -/
def Shelf.fill (h : Shelf) (p : Place) (b : List Byte) (poison : List Nat) : Shelf :=
  (h.alloc p).updSector p fun x => if x.valid then x else { valid := true, dirty := false, data := b, poison := poison, err := 0 }

/-! ### Errors (R308, R310) -/

/-- Raise SHELF_ERR at the eight cores' blocks, log the place while `UE` is clear, and make the MP's record. -/
def State.shelfUe (s : State) (p : Place) : State :=
  let l := (s.shelf.line p).getD { set := setOf p.2, way := 0, host := p.1, addr := lineOf p.2 }
  let loc := l.set + l.way * 2 ^ 10 + p.2 % 256 / 64 * 2 ^ 14
  let s1 := s.withShelf fun h => { h with loc := if h.ue then h.loc else loc, ue := true }
  let s2 := (List.range 8).foldl (fun s k => s.withCic k fun c => { c with pending := c.pending ||| 16 }) s1
  s2.addRec 0x0204 0xFF 0xFF 0xFF 0xFF 0 [w32 s2.shelf.loc]

/-- Check the sector of a place as a read does, in its line or in the eviction buffer: a corrected error is counted, an uncorrectable one
in a clean sector invalidates it, in a dirty one it is reported. The result says whether the sector gives poison. -/
def State.shelfEcc (s : State) (p : Place) : State × Bool :=
  match s.shelf.heldSector p with
  | none => (s, false)
  | some x =>
    if x.err = 1 then
      (s.withShelf fun h => { (h.updHeld p fun x => { x with err := 0 }) with ce := true, ceCount := min 65535 (h.ceCount + 1) }, false)
    else if x.err = 2 then
      if x.dirty then (s.shelfUe p, true)
      else (s.withShelf fun h => h.updHeld p fun x => { x with valid := false, err := 0 }, false)
    else (s, false)

/-- Write the sector of a place back if it is dirty, as its ECC gives; it stays valid. -/
def State.cleanSector (s : State) (p : Place) : State :=
  match s.shelf.heldSector p with
  | some x =>
    if !x.dirty then s
    else
      let (s1, _) := s.shelfEcc p
      let x1 := (s1.shelf.heldSector p).getD x
      (s1.writeBack p.1 (secOf p.2) x1).withShelf fun h => h.updHeld p fun x => { x with dirty := false }
  | none => s
/-- Invalidate the sector of a place. -/
def State.dropSector (s : State) (p : Place) : State := s.withShelf fun h => h.updHeld p fun _ => {}

/-! ### Gathered streaming stores (R305) -/

/-- The runs of bytes present in a gather, from offset `o`. -/
def someRuns : Nat → List (Option Byte) → List (Nat × List Byte)
  | _, [] => []
  | o, none :: t => someRuns (o + 1) t
  | o, some b :: t => match someRuns (o + 1) t with
    | (q, l) :: r => if q = o + 1 then (o, b :: l) :: r else (o, [b]) :: (q, l) :: r
    | [] => [(o, [b])]

/-- Write requester `k`'s gathered sector out, as one full-sector write or as partial ones. -/
def State.flushGather (s : State) (k : Nat) : State :=
  match (s.shelf.dets.getD k {}).gather with
  | none => s
  | some (sp, base, bs) =>
    (someRuns 0 bs).foldl (fun s r => s.backWrite (sp, base + r.1) r.2) (s.withShelf fun h => { h with dets := upd h.dets k fun d => { d with gather := none } })

/-- Write out every gather that meets `n` bytes at a place, before another request meets them (log entry 26). -/
def State.flushAt (s : State) (p : Place) (n : Nat) : State :=
  (List.range 9).foldl (fun s k => match (s.shelf.dets.getD k {}).gather with
    | some (sp, base, _) => if sp = p.1 ∧ base < p.2 + n ∧ p.2 < base + 64 then s.flushGather k else s
    | none => s) s

/-- A write to `n` bytes at a place ends the reservations that other requesters than `who` hold on its sectors. -/
def State.killRes (s : State) (who : Nat) (p : Place) (n : Nat) : State :=
  let hit (r : Bool × Nat) : Bool := r.1 == p.1 && decide (secOf p.2 ≤ r.2) && decide (r.2 < p.2 + n)
  { s with cores := (s.cores.zipIdx).map fun c => if c.2 ≠ who ∧ (c.1.res.map hit) = some true then { c.1 with res := none } else c.1 }

/-! ### Stride detectors (R306) -/

/-- Host window `w` (R297). -/
def State.window (s : State) (w : Nat) : HostWin := ((s.dev.board.map fun b => b.windows).getD []).getD w {}

/-- Whether a prefetch from `a` to `b` stays in one slab, outside a tag area, or in one cacheable host window. -/
def State.prefetchIn (s : State) (host : Bool) (a b : Nat) : Bool :=
  if host then (List.range 4).any fun w =>
    let x := s.window w
    x.cacheable && decide (x.base ≤ a) && decide (a < x.base + x.units * 4096) && decide (x.base ≤ b) && decide (b + 64 ≤ x.base + x.units * 4096)
  else a / 2 ^ 20 == b / 2 ^ 20 && ((s.gal.slab (b / 2 ^ 20)).state != .prot || decide (b % 2 ^ 20 < 0xF8000))

/-- Note a demand read in a stride detector: two equal steps in a row lock it. -/
def Stride.read (d : Stride) (p : Place) : Stride :=
  match d.last with
  | none => { last := some p, step := 0, run := 0 }
  | some q =>
    let r : Int := (p.2 : Int) - q.2
    let st : Int := if r.natAbs < 64 then (if r < 0 then -64 else 64) else r
    if q.1 ≠ p.1 ∨ 32768 < st.natAbs then { last := some p, step := 0, run := 0 }
    else { last := some p, step := st, run := if d.step = st then min 2 (d.run + 1) else 1 }

/-- The four sectors ahead of the latest read. -/
def Stride.ahead (d : Stride) : List Nat :=
  match d.last with
  | none => []
  | some p => (List.range 4).filterMap fun i =>
    let t : Int := (p.2 : Int) + d.step * (i + 1 : Nat)
    if t < 0 then none else some (secOf t.toNat)

/-! ### DMA, MP invalidation (R299, R302) -/

/-- The sectors that `n` bytes at `p` touch. -/
def sectorsOf (p n : Nat) : List Nat := (range' (p / 64) ((p + n + 63) / 64 - p / 64)).map fun k => 64 * k

/-- What the Shelf holds of Gallery sector `a` that the Gallery may lack: a dirty sector, and writes that wait for a write-back. -/
def Shelf.dirtyPart (h : Shelf) (a : Nat) : Option Sector × List (Nat × List Byte) :=
  let ifDirty (x : Sector) : Option Sector := if x.dirty then some x else none
  match h.sector (false, a), h.evicted (false, a) with
  | some x, _ => (ifDirty x, [])
  | none, some e => ((e.sector a).bind ifDirty, e.held.filter fun w => secOf w.1 == secOf a)
  | none, none => (none, [])

/-- Lay bytes at address `q` over bytes at address `p`, as far as they overlap. -/
def overlay (p : Nat) (b : List Byte) (q : Nat) (d : List Byte) : List Byte :=
  let lo := max p q
  let hi := min (p + b.length) (q + d.length)
  if lo < hi then splice b (lo - p) ((d.drop (lo - q)).take (hi - lo)) else b

/-- The bytes at `p` as a DMA read sees them: over the Gallery's, what the Shelf holds of sector `a`. -/
def Shelf.overlayPart (h : Shelf) (p a : Nat) (b : List Byte) : List Byte :=
  let (x, held) := h.dirtyPart a
  held.foldl (fun b w => overlay p b w.1 w.2) (match x with
    | some x => overlay p b a x.data
    | none => b)

/-- The poisoned words a DMA read sees once sector `a` is taken from the Shelf. -/
def Shelf.badPart (h : Shelf) (ws : List Nat) (a : Nat) : List Nat :=
  let (x, held) := h.dirtyPart a
  let ws1 := match x with
    | some x => ws.filter (fun w => w / 8 != a / 64) ++ (if x.err = 2 then List.range 8 else x.poison).map fun w => a / 8 + w
    | none => ws
  ws1.filter fun w => !held.any fun d => decide (d.1 ≤ 8 * w) && decide (8 * w + 8 ≤ d.1 + d.2.length)

/-- The words of `n` Gallery bytes at `p` that a DMA read gets with poison. -/
def State.dmaBad (s : State) (p n : Nat) : List Nat :=
  ((sectorsOf p n).foldl s.shelf.badPart (s.gal.badWords p n)).filter fun w => decide (p < 8 * w + 8) && decide (8 * w < p + n)

/-- A DMA read of the Gallery: dirty sectors come from the Shelf, the rest from the Gallery. -/
def State.dmaReadP (s : State) (p n : Nat) : State × List Byte × Bool :=
  let (s1, b, _) := (s.flushAt (false, p) n).galReadP p n
  let s2 := (sectorsOf p n).foldl (fun s a => if (s.shelf.dirtyPart a).1.isSome then (s.shelfEcc (false, a)).1 else s) s1
  (s2, (sectorsOf p n).foldl (fun b a => s2.shelf.overlayPart p a b) b, !(s2.dmaBad p n).isEmpty)

/-- A DMA write of the Gallery: a hit updates the sector and is written through. A line in the eviction buffer takes the bytes too; where its
write-back is in flight, that ends first, and the write is applied once more to the reallocated line (R307). -/
def State.dmaWriteP (s : State) (p : Nat) (b : List Byte) : State :=
  let n := b.length
  let part (a : Nat) : List Byte := (b.drop (max a p - p)).take (min (a + 64) (p + n) - max a p)
  let issued (s : State) (a : Nat) : Bool := ((s.shelf.evicted (false, a)).map fun e => e.issued).getD false
  let s1 := (sectorsOf p n).foldl (fun s a => if issued s a then s.cleanSector (false, a) else s) (s.flushAt (false, p) n)
  (sectorsOf p n).foldl (fun s a =>
    let q : Place := (false, max a p)
    if (s.shelf.heldSector q).isNone then s
    else
      let s' := s.withShelf fun h => h.updHeld q fun x => x.put (q.2 % 64) (part a) false
      if (s.shelf.sector q).isSome then s'
      else s'.withShelf fun h => h.updEvict q fun e => if e.issued then { e with held := e.held ++ [(q.2, part a)] } else { e with merged := true })
    ((s1.galWriteP p b false).killRes 9 (false, p) n)

/-- DMA over a context range, slab by slab. -/
def State.dmaRead (s : State) (c a n : Nat) : State × List Byte × Bool :=
  (((s.ctx c).pieces (n / 2 ^ 20 + 2) a n).foldl (fun (r : State × List Byte × Bool) x =>
    let (s', b, p) := r.1.dmaReadP x.1 x.2
    (s', r.2.1 ++ b, r.2.2 || p)) (s, [], false))
def State.dmaWrite (s : State) (c a : Nat) (bytes : List Byte) : State :=
  (((s.ctx c).pieces (bytes.length / 2 ^ 20 + 2) a bytes.length).foldl (fun (r : State × List Byte) x =>
    (r.1.dmaWriteP x.1 (r.2.take x.2), r.2.drop x.2)) (s, bytes)).1

/-- Invalidate every Shelf and L1 sector of a slab without write-back (R302). -/
def Shelf.dropSlab (h : Shelf) (sl : Nat) : Shelf :=
  { h with
    lines := h.lines.filter fun l => l.host || l.addr / 2 ^ 20 != sl
    evict := h.evict.filter fun e => e.host || e.addr / 2 ^ 20 != sl
    misses := h.misses.filter fun x => x.host || x.addr / 2 ^ 20 != sl
    ahead := h.ahead.map fun l => l.filter fun a => a / 2 ^ 20 != sl
    dets := h.dets.map fun d => if (d.gather.map fun g => !g.1 && g.2.1 / 2 ^ 20 == sl) = some true then { d with gather := none } else d }

end Sys2Proof.Machine
end

