-- ==== Sys2Proof/Machine/Memory.lean ====
section
/-!
DEFINITION. The memory commands and the Gallery's own events (R177, R186 to R213, R283, R284).
-/
namespace Sys2Proof.Machine

/-! ### Slabs -/

/-- Contexts that map a slab. -/
def State.mappers (s : State) (sl : Nat) : List Nat := (List.range 24).filter fun c => (s.ctx c).map.any fun e => e.2.slab == sl
/-- Whether a context has a slot in RUN. -/
def State.ctxRuns (s : State) (c : Nat) : Bool := (s.slotsOf c).any fun x => (s.slot x.1 x.2).state == .run
/-- Whether a context that maps the slab has a slot in RUN (R192, R205). -/
def State.slabBusy (s : State) (sl : Nat) : Bool := (s.mappers sl).any fun c => s.ctxRuns c
/-- The slabs a context range touches. -/
def Ctx.slabs (c : Ctx) (a n : Nat) : List Nat :=
  (range' (a / 2 ^ 20) ((a + max n 1 - 1) / 2 ^ 20 + 1 - a / 2 ^ 20)).filterMap fun i => (c.ent i).map fun e => e.slab
/-- Put a map entry in index order. -/
def insEnt (i : Nat) (e : MapEnt) : List (Nat × MapEnt) → List (Nat × MapEnt)
  | [] => [(i, e)]
  | x :: t => if i < x.1 then (i, e) :: x :: t else x :: insEnt i e t

/-- The free slabs of a Chamber, the lowest first. -/
def State.freeIn (s : State) (ch : Nat) : List Nat := (range' (128 * ch) 128).filter fun sl => (s.gal.slab sl).state == .free

/-- How many slabs each Chamber of the mask gives (R284): its even part, then the shortfall from the lowest-numbered on;
`avail` and `want` run in step. -/
def spreadSlabs (avail want : List Nat) (count : Nat) : List Nat :=
  let give := (avail.zip want).map fun x => min x.1 x.2
  let short := count - give.sum
  ((avail.zip give).foldl (fun (r : List Nat × Nat) x =>
    let more := min (x.1 - x.2) r.2
    (r.1 ++ [x.2 + more], r.2 - more)) ([], short)).1

/-- The slabs SLAB_ALLOC takes, in the order of their indices, or none when too few are free. -/
def State.pickSlabs (s : State) (mask count : Nat) : Option (List Nat) :=
  let chs := (List.range 4).filter fun k => bitAt mask k
  let k := chs.length
  let avail := chs.map fun c => (s.freeIn c).length
  if avail.sum < count then none
  else
    let want := (List.range k).map fun i => count / k + bit (decide (i < count % k))
    some ((chs.zip (spreadSlabs avail want count)).flatMap fun x => (s.freeIn x.1).take x.2)

/-- Slabs taken from each Chamber, one byte each. -/
def chamberCounts (l : List Nat) : Nat := ((List.range 4).map fun k => (l.filter fun sl => sl / 128 == k).length * 2 ^ (8 * k)).sum

/-- The context field, a context out of range, and a FREE one (R283, R285). -/
def ctxField (c : Cmd) : Nat := fld (c.word 0) 0 5
def State.notFree (s : State) (c : Nat) : Bool := (s.ctx c).state != .free

/-- The index and count fields (R278). -/
def countOk (first count : Nat) : Bool := decide (1 ≤ count) && decide (count ≤ 512) && decide (first + count ≤ 512)

/-- SLAB_ALLOC, owned; `ch` is the leader's choice of slabs. -/
def slabAlloc (c : Cmd) (ch : List Nat) (s : State) : Answer := do
  let x := ctxField c
  let scratch := bitAt (c.word 0) 9
  let mask := fld (c.word 0) 12 4
  let first := fld (c.word 1) 0 9
  let count := fld (c.word 2) 0 10
  need (x < 24) eParam
  need (mask ≠ 0) eParam
  need (countOk first count) eParam
  need (s.notFree x) eState
  need ((range' first count).all fun i => ((s.ctx x).ent i).isNone) eState
  need s.gal.initDone eState
  match (if ch = [] then s.pickSlabs mask count else some ch) with
  | none => bad eNoSpace
  | some l =>
    let s1 := s.withGal fun g => l.foldl (fun g sl => g.withSlab sl fun y => { y with state := .owned, owner := x, scratch := scratch, coded := false, image := 0, epoch := 0 }) g
    let s2 := s1.withCtx x fun y => { y with map := ((range' first count).zip l).foldl (fun m e => insEnt e.1 ⟨e.2, true, false⟩ m) y.map }
    pure (s2, [w32 (chamberCounts l)], l)

/-- SLAB_ALLOC in share mode. -/
def slabShare (c : Cmd) (s : State) : Answer := do
  let x := ctxField c
  let first := fld (c.word 1) 0 9
  let count := fld (c.word 2) 0 10
  let owner := fld (c.word 3) 0 5
  let oFirst := fld (c.word 4) 0 9
  need (x < 24) eParam
  need (!bitAt (c.word 0) 9) eParam
  need (countOk first count) eParam
  need (owner < 24 ∧ owner ≠ x) eParam
  need (s.notFree x) eState
  need ((range' first count).all fun i => ((s.ctx x).ent i).isNone) eState
  let ents := (range' oFirst count).map fun i => (s.ctx owner).ent i
  need (ents.all fun e => (e.map fun e => e.write).getD false) eState
  let add (l : List (Nat × MapEnt)) (e : Nat × Option MapEnt) : List (Nat × MapEnt) := match e.2 with
    | some z => insEnt e.1 ⟨z.slab, false, z.prot⟩ l
    | none => l
  pure (s.withCtx x fun y => { y with map := ((range' first count).zip ents).foldl add y.map }, [0], [0])

/-- SLAB_ALLOC without SHARE. -/
def execSlabAlloc (m tag : Nat) (s : State) : Out :=
  match s.cmdIn m tag 0x18 0 with
  | none => .next s
  | some c => if bitAt (c.word 0) 8 then .next s else s.run m tag 0x18 fun c => slabAlloc c []

/-- SLAB_ALLOC with SHARE. -/
def execSlabAllocShare (m tag : Nat) (s : State) : Out :=
  match s.cmdIn m tag 0x18 0 with
  | none => .next s
  | some c => if bitAt (c.word 0) 8 then s.run m tag 0x18 slabShare else .next s

/-! ### SLAB_FREE, SLAB_ZEROED (R192, R193, R284, R302) -/

/-- Zeros with valid ECC over a whole slab, tag area included. -/
def Gallery.wipe (g : Gallery) (sl : Nat) : Gallery :=
  let out (w : Nat) : Bool := w / 2 ^ 17 != sl
  { g with
    mem := g.mem.clear (galAt sl 0) (2 ^ 20)
    poison := g.poison.filter out, ce := g.ce.filter out, ue := g.ue.filter out
    badTag := g.badTag.filter fun j => j / 2 ^ 12 != sl }

/-- Start zeroing a slab: a protected slab's keys go with its epoch, the Shelf drops its sectors, and the channels begin to write zeros; nothing
of the content is read again (log entry 49). -/
def State.startZero (s : State) (sl : Nat) : State :=
  (s.withGal fun g => (g.wipe sl).withSlab sl fun y => { y with state := .zeroing, epoch := 0, converting := false }).withShelf fun h => h.dropSlab sl

/-- Start SLAB_FREE: shares go at once, owned slabs when they are zeroed. -/
def slabFree (m : Nat) (c : Cmd) (s : State) : Begun := do
  let x := ctxField c
  let first := fld (c.word 1) 0 9
  let count := fld (c.word 2) 0 10
  need (x < 24) eParam
  need (countOk first count) eParam
  need (s.notFree x) eState
  let ix := range' first count
  let ents := ix.filterMap fun i => ((s.ctx x).ent i).map fun e => (i, e)
  need (ents.length = count) eState
  need (ents.all fun e => if e.2.write then (s.mappers e.2.slab).length == 1 && !s.slabBusy e.2.slab else !s.ctxRuns x) eState
  let shares := (ents.filter fun e => !e.2.write).map fun e => e.1
  let owned := (ents.filter fun e => e.2.write).map fun e => e.2.slab
  let s1 := s.withCtx x fun y => { y with map := y.map.filter fun e => !shares.contains e.1 }
  if owned = [] then pure (s1.finish m c sOk [] [0])
  else pure ((owned.foldl (fun s sl => s.startZero sl) s1).setPhase m c 1 owned)

/-- SLAB_FREE. -/
def execSlabFree (m tag : Nat) (s : State) : Out := s.begin m tag 0x19 fun c => slabFree m c

/-- Zero a slab's bytes and make it FREE; entries that map it go. -/
def State.zeroSlab (s : State) (sl : Nat) : State :=
  let s2 := (s.withGal fun g => (g.wipe sl).withSlab sl fun _ => {}).withShelf fun h => h.dropSlab sl
  { s2 with ctxs := s2.ctxs.map fun c => { c with map := c.map.filter fun e => e.2.slab != sl } }

/-- A command in phase 1 that waits for slab `sl`. -/
def waitsFor (ops : List Nat) (sl : Nat) (c : Cmd) : Bool := ops.contains c.op && c.phase == 1 && c.note.contains sl

/-- The mailbox and command that waits for slab `sl`. -/
def State.waiter (s : State) (ops : List Nat) (sl : Nat) : Option (Nat × Cmd) :=
  (List.range 8).findSome? fun m => ((s.mb m).out.find? (waitsFor ops sl)).map fun c => (m, c)

/-- Take one slab off a waiting command's list; with none left it responds `OK`. -/
def State.oneDone (s : State) (ops : List Nat) (sl : Nat) : State :=
  match s.waiter ops sl with
  | none => s
  | some (m, c) =>
    let rest := c.note.filter (· != sl)
    if rest ≠ [] then s.setPhase m c 1 rest
    else if c.op = 0x2D then (s.withCtx (ctxField c) fun _ => {}).finish m c sOk [] [0]
    else s.finish m c sOk [] [0]

/-- The channels finish zeroing a slab. -/
def execSlabZeroed (sl : Nat) (s : State) : Out :=
  if (s.gal.slab sl).state ≠ .zeroing then .next s else .next ((s.zeroSlab sl).oneDone [0x19, 0x2D] sl)

/-! ### SLAB_PROTECT (R205) -/

/-- Start SLAB_PROTECT: the Shelf drops the slabs' sectors, an epoch is drawn for every slab, and the conversions begin. -/
def slabProtect (m : Nat) (c : Cmd) (s : State) : Begun := do
  let x := ctxField c
  let first := fld (c.word 1) 0 9
  let count := fld (c.word 2) 0 10
  need (x < 24) eParam
  need (countOk first count) eParam
  need (s.notFree x) eState
  let ents := (range' first count).filterMap fun i => (s.ctx x).ent i
  need (ents.length = count) eState
  need (s.sec.galSet.length = 8) eState
  need (ents.all fun e => e.write && !e.prot && !(s.gal.slab e.slab).coded && !s.slabBusy e.slab) eState
  let s1 := ents.foldl (fun s e =>
    let (s', v) := s.draw
    (s'.withGal fun g => g.withSlab e.slab fun y => { y with converting := true, epoch := v % 2 ^ 64 }).withShelf fun h => h.dropSlab e.slab) s
  pure (s1.setPhase m c 1 (ents.map fun e => e.slab))

/-- SLAB_PROTECT. -/
def execSlabProtect (m tag : Nat) (s : State) : Out := s.begin m tag 0x1A fun c => slabProtect m c

/-- A conversion ends: every granule is an encrypted zero with a valid tag, and `PROT` is set in every entry. -/
def execProtectionConversionDone (sl : Nat) (s : State) : Out :=
  let y := s.gal.slab sl
  if !y.converting then .next s
  else
    let s1 := s.zeroSlab sl
    let y' : Slab := { y with state := .prot, converting := false }
    let s2 := s1.withGal fun g => g.withSlab sl fun _ => y'
    let s3 := { s2 with ctxs := s.ctxs.map fun (c : Ctx) => { c with map := c.map.map fun (e : Nat × MapEnt) => if e.2.slab = sl then (e.1, ⟨sl, e.2.write, true⟩) else e } }
    .next (s3.oneDone [0x1A] sl)

/-! ### Transfers (R284, R275, R276) -/

/-- The address, length and host range of a transfer (R278, R283). -/
def xferFields (c : Cmd) : Except (Nat × List W32) (Nat × Nat × Nat) := do
  let h := c.word 1 + c.word 2 * 2 ^ 32
  let a := c.word 3
  let n := c.word 4
  need (1 ≤ n ∧ n ≤ 536870912 ∧ h + n ≤ 2 ^ 64) eParam
  pure (h, a, n)

/-- Start a transfer: its fields, the context, the slab set. -/
def startXfer (m : Nat) (write : Bool) (extra : State → Nat → Except (Nat × List W32) Unit) (c : Cmd) (s : State) : Begun := do
  let x := ctxField c
  need (x < 24) eParam
  let (_, a, n) ← xferFields c
  need (c.op ≠ 0x1D ∨ c.word 5 ≠ 0) eParam
  need (s.notFree x) eState
  need ((s.ctx x).inSet a n write) eParam
  extra s x
  pure (s.setPhase m c 1 [])

/-- DMA_IN. -/
def execDmaIn (m tag : Nat) (s : State) : Out := s.begin m tag 0x1B (startXfer m true fun _ _ => .ok ())
/-- DMA_OUT. -/
def execDmaOut (m tag : Nat) (s : State) : Out := s.begin m tag 0x1C (startXfer m false fun _ _ => .ok ())
/-- The start of IMAGE_LOAD: a coded image goes to unprotected slabs. -/
def imageLoad (m : Nat) (c : Cmd) (s : State) : Begun :=
  startXfer m true (fun s x => need (!(bitAt (c.word 6) 0 && (s.ctx x).anyProt (c.word 3) (c.word 4))) eParam) c s
/-- IMAGE_LOAD. -/
def execImageLoad (m tag : Nat) (s : State) : Out := s.begin m tag 0x1D fun c => imageLoad m c

/-- Offset of the first byte of a context range that is read with poison, if one is. -/
def State.firstBad (s : State) (c a n : Nat) : Option Nat :=
  let pcs := (s.ctx c).pieces (n / 2 ^ 20 + 2) a n
  let bads := (pcs.foldl (fun (r : List Nat × Nat) x =>
    (r.1 ++ (s.dmaBad x.1 x.2).map fun w => r.2 + (max (8 * w) x.1 - x.1), r.2 + x.2)) ([], 0)).1
  bads.foldl (fun (b : Option Nat) x => some (match b with | some y => min x y | none => x)) none

/-- A DMA queue's stride detector sees the sector reads of its transfer, and its read-ahead buffer then holds the next sectors (R306). The
buffer is filled by reads of the Gallery; what it holds never differs from what the Gallery then gives (R299), so State keeps its addresses. -/
def State.dmaStride (s : State) (k : Nat) (pieces : List (Nat × Nat)) : State :=
  if !s.shelf.pfEn || s.shelf.state != .enabled then s
  else
    let reads := pieces.flatMap fun x => sectorsOf x.1 x.2
    let d := reads.foldl (fun d a => d.read (false, a)) (s.shelf.strides.getD (9 + k) {})
    let next := if d.run < 2 then [] else d.ahead.filter fun a => s.prefetchIn false ((d.last.map fun q => q.2).getD 0) a
    let s1 := (next.filter fun a => !(s.shelf.ahead.getD k []).contains a).foldl (fun s a => (s.galReadP a 64).1) s
    s1.withShelf fun h => { h with strides := upd h.strides (9 + k) fun _ => d, ahead := upd h.ahead k fun _ => next }

/-- The end of DMA_IN or IMAGE_LOAD: all bytes, or the `k` moved before the failure. -/
def State.endIn (s : State) (m : Nat) (c : Cmd) (data : List Byte) (failed : Option Nat) : State :=
  let x := ctxField c
  let a := c.word 3
  let n := c.word 4
  match failed with
  | some k =>
    let k' := min k (n - 1)
    (s.dmaWrite x a (padTo k' data)).finish m c eTimeout [w32 k'] [0]
  | none =>
    let s1 := s.dmaWrite x a (padTo n data)
    let s2 := if c.op = 0x1D then s1.withGal fun g => ((s1.ctx x).slabs a n).foldl (fun g sl => g.withSlab sl fun y =>
      { y with image := c.word 5, coded := y.coded || bitAt (c.word 6) 0 }) g else s1
    s2.finish m c sOk [w32 n] [0]

/-- The end of DMA_OUT: the whole range reaches the host even when bytes are poisoned. -/
def State.endOut (s : State) (m : Nat) (c : Cmd) (failed : Option Nat) : State :=
  let x := ctxField c
  let h := c.word 1 + c.word 2 * 2 ^ 32
  let a := c.word 3
  let n := match failed with
    | some k => min k (c.word 4 - 1)
    | none => c.word 4
  let (s1, b, poison) := s.dmaRead x a n
  let s2 := ({ s1 with host := s1.host.writeN h b }).dmaStride (c.tag % 4) ((s1.ctx x).pieces (n / 2 ^ 20 + 2) a n)
  match failed with
  | some _ => s2.finish m c eTimeout [w32 n] [0]
  | none => if poison then s2.finish m c ePoison [w32 ((s1.firstBad x a n).getD 0)] [0] else s2.finish m c sOk [w32 n] [0]

/-! ### IMAGE_VERIFY and INDEX_BUILD (R109, R177, R284) -/

/-- How a walk of a coded tensor ends. -/
inductive Walk where
  | poison
  | err (block cause : Nat)
  /-- The index entries, and the offset of the end of the last group. -/
  | done (index : List Nat) (last : Nat)
  deriving DecidableEq, Repr

/-- The blocks of a group, from block number `k` at offset `o`: the declared lengths remain in `lens`. -/
def State.walkBlocks (bf full : Bool) (c base stride : Nat) : State → Nat → Nat → List Nat → State × Except Walk Nat
  | s, _, o, [] => (s, .ok o)
  | s, k, o, len :: t =>
    if 66 < len then (s, .error (.err k 1))
    else if stride < o + len then (s, .error (.err k 3))
    else
      let (s1, b, p) := s.dmaRead c (base + o) len
      if p then (s1, .error .poison)
      else match calDecode bf len b with
        | .error e => if e = 5 ∧ !full then State.walkBlocks bf full c base stride s1 (k + 1) (o + len) t else (s1, .error (.err k e))
        | .ok _ => State.walkBlocks bf full c base stride s1 (k + 1) (o + len) t

/-- The groups of a tensor of `n` blocks, from group `k` at offset `o`; the first argument counts groups left. -/
def State.walkGroups (bf full : Bool) (c base stride n : Nat) : Nat → State → Nat → Nat → List Nat → State × Walk
  | 0, s, _, o, idx => (s, .done idx o)
  | g + 1, s, k, o, idx =>
    let o1 := alignUp o 16
    if stride < o1 + 16 then (s, .err (16 * k) 3)
    else
      let (s1, h, p) := s.dmaRead c (base + o1) 16
      if p then (s1, .poison)
      else match State.walkBlocks bf full c base stride s1 (16 * k) (o1 + 16) ((h.map fun b => b.toNat).take (n - 16 * k)) with
        | (s2, .error w) => (s2, w)
        | (s2, .ok o2) => State.walkGroups bf full c base stride n g s2 (k + 1) o2 (idx ++ [o1])

/-- Walk a coded tensor; `full` expands every block, otherwise only its header is held against its length. -/
def State.walk (s : State) (bf full : Bool) (c base stride n : Nat) : State × Walk := s.walkGroups bf full c base stride n (calGroups n) 0 0 []

/-- Fields of a stage program image (R108). -/
def imgField (b : List Byte) (o n : Nat) : Nat := leNat ((b.drop o).take n)
def imgCount (b : List Byte) : Nat := imgField b 6 2
def imgLength (b : List Byte) : Nat := imgField b 64 4

/-- An image with its Check field zero. -/
def zero68 (x : List Byte) : List Byte := x.take 68 ++ List.replicate 4 0 ++ x.drop 72

/-- Check 1 of R109 on an image in `len` bytes. -/
def imgCheck1 (b : List Byte) (len : Nat) : Bool :=
  let n := imgLength b
  imgField b 0 4 == 0x47445047 && imgField b 4 2 == 1 && decide (1 ≤ imgCount b) && decide (imgCount b ≤ 1024) && n == 832 + 8 * imgCount b &&
    decide (n ≤ len) && imgField b 68 4 == (crc32c (zero68 (b.take n))).toNat

/-- Whether the image names queue `q`. -/
def imgNames (b : List Byte) (q : Nat) : Bool := if q < 16 then bitAt (imgField b 10 2) q else bitAt (imgField b 12 1) (q - 16)
def imgFmt (b : List Byte) (q : Nat) : Nat := fld (imgField b (16 + 2 * q) 2) 0 3
def imgQuota (b : List Byte) (q : Nat) : Nat := fld (imgField b (16 + 2 * q) 2) 3 6
/-- Check 2 of R109: quotas agree with the masks, and every `FMT` is one of R90's. -/
def imgCheck2 (b : List Byte) : Bool :=
  (List.range 24).all fun q => (imgNames b q == decide (imgQuota b q ≠ 0)) && decide (imgQuota b q ≤ 32) && decide (imgFmt b q ≤ 5)

/-- Start IMAGE_VERIFY. -/
def imageVerify (m : Nat) (c : Cmd) (s : State) : Begun := do
  let x := ctxField c
  let mode := fld (c.word 0) 8 2
  let a := c.word 1
  need (x < 24) eParam
  need (mode ≠ 3) eParam
  need (mode ≠ 1 ∨ a % 16 = 0) eParam
  need (mode ≠ 0 ∨ (1 ≤ c.word 2 ∧ c.word 2 ≤ 536870912)) eParam
  need (mode ≠ 2 ∨ (840 ≤ c.word 2 ∧ c.word 2 ≤ 9024)) eParam
  need (mode ≠ 1 ∨ (c.word 4 % 4 = 0 ∧ 1 ≤ c.word 5 ∧ c.word 5 ≤ 16777215)) eParam
  need (s.notFree x) eState
  need ((s.ctx x).inSet a (if mode = 1 then calSpan (c.word 4) (c.word 5) else c.word 2) false) eParam
  pure (s.setPhase m c 1 [])

/-- IMAGE_VERIFY. -/
def execImageVerify (m tag : Nat) (s : State) : Out := s.begin m tag 0x1E fun c => imageVerify m c

/-- The payload of an error in the data read (R275). -/
def dataErr (block cause : Nat) : List W32 := [w32 block, w32 cause]

/-- The read and check of IMAGE_VERIFY ends. -/
def execImageVerifyDone (m tag : Nat) (s : State) : Out :=
  match s.cmdIn m tag 0x1E 1 with
  | none => .next s
  | some c =>
    if !s.galOpen then .next s else
    let x := ctxField c
    let a := c.word 1
    let fin (s : State) (status : Nat) (ws : List W32) : Out := .next (s.finish m c status ws [])
    if fld (c.word 0) 8 2 = 1 then
      match s.walk (bitAt (c.word 6) 0) true x a (c.word 4) (c.word 5) with
      | (s1, .poison) => fin s1 ePoison []
      | (s1, .err b e) => fin s1 eParam (dataErr b e)
      | (s1, .done _ _) => fin s1 sOk [0, 0]
    else
      let (s1, b, p) := s.dmaRead x a (c.word 2)
      if p then fin s1 ePoison []
      else if fld (c.word 0) 8 2 = 0 then
        (if (crc32c b).toNat = c.word 3 then fin s1 sOk [0, 0] else fin s1 eParam (dataErr 0xFFFFFFFF 0))
      else if !imgCheck1 b (c.word 2) then fin s1 eParam (dataErr 0xFFFFFFFF 0x81)
      else if !imgCheck2 b then fin s1 eParam (dataErr 0xFFFFFFFF 0x82)
      else fin s1 sOk [0, 0]

/-- Start INDEX_BUILD. -/
def indexBuild (m : Nat) (c : Cmd) (s : State) : Begun := do
  let x := ctxField c
  let a := c.word 1
  let span := calSpan (c.word 2) (c.word 3)
  need (x < 24) eParam
  need (a % 16 = 0) eParam
  need (c.word 2 % 4 = 0) eParam
  need (1 ≤ c.word 3 ∧ c.word 3 ≤ 16777215) eParam
  need (s.notFree x) eState
  need ((s.ctx x).inSet a span true && !(s.ctx x).anyProt a span) eParam
  need (((s.ctx x).slabs a span).all fun sl => !s.slabBusy sl) eState
  pure (s.setPhase m c 1 [])

/-- INDEX_BUILD. -/
def execIndexBuild (m tag : Nat) (s : State) : Out := s.begin m tag 0x1F fun c => indexBuild m c

/-- The walk of INDEX_BUILD ends: the index is written, or nothing is. -/
def execIndexBuildDone (m tag : Nat) (s : State) : Out :=
  match s.cmdIn m tag 0x1F 1 with
  | none => .next s
  | some c =>
    if !s.galOpen then .next s else
    let x := ctxField c
    match s.walk (bitAt (c.word 0) 8) false x (c.word 1) (c.word 2) (c.word 3) with
    | (s1, .poison) => .next (s1.finish m c ePoison [] [0])
    | (s1, .err b e) => .next (s1.finish m c eParam (dataErr b e) [0])
    | (s1, .done idx last) => .next ((s1.dmaWrite x (c.word 1 + c.word 2) (idx.flatMap fun o => leBytes 4 o)).finish m c sOk [w32 idx.length, w32 last] [0])

/-! ### Scrub and fill (R201, R211, R212) -/

/-- SCRUB_CONFIG: the response gives what was in force. -/
def scrubConfig (c : Cmd) (s : State) : Answer := do
  let p := fld (c.word 0) 1 7
  need (1 ≤ p ∧ p ≤ 64) eParam
  pure (s.withGal fun g => { g with scrubEn := bitAt (c.word 0) 0, period := p }, [w32 (bit s.gal.scrubEn + 2 * s.gal.period)], [])

def execScrubConfig (m tag : Nat) (s : State) : Out := s.run m tag 0x20 scrubConfig

/-- An MP write of 1 to `GAL_CTRL.INIT`; ignored while a fill runs. -/
def execGalleryInit (s : State) : Out :=
  if s.gal.initBusy then .next s else .next (s.withGal fun g => { g with initBusy := true, initDone := false })

/-- The fill ends: zeros and valid ECC everywhere, which are no ciphertext with a tag that matches. -/
def execGalleryInitDone (s : State) : Out :=
  if !s.gal.initBusy then .next s
  else .next (s.withGal fun g =>
    { g with
      initBusy := false, initDone := true, mem := [], poison := [], ce := [], ue := []
      badTag := (List.range 512).flatMap fun sl => if (g.slab sl).state = .prot then range' (4096 * sl) 3968 else [] })

/-- The stored place of a line of a channel (the inverse of R194). -/
def linePlace (ch line : Nat) : Nat :=
  let b := line * 128
  let sl := b / 2 ^ 17
  galAt (128 * (ch / 8) + sl) (b % 2 ^ 17 / 256 * 2 ^ 11 + ((ch % 8) ^^^ (sl % 8)) * 2 ^ 8 + b % 256)

/-- Channel `ch` reads its next scrub line; `err` is what the read finds in `word`: 1 a correctable, 2 an uncorrectable
error. The position moves on after the last channel's read. -/
def execPatrolScrub (ch err word : Nat) (s : State) : Out :=
  if !s.gal.scrubEn || !s.galOpen || s.pw.agreed.contains 8 then .next s
  else
    let p := linePlace ch s.gal.scrubPos
    let w := p / 8 + word % 16
    let s1 := s.withGal fun g => { g with ce := if err = 1 then insNat w g.ce else g.ce, ue := if err = 2 then insNat w g.ue else g.ue }
    let s2 := s1.galEcc p 128 1
    if ch ≠ 31 then .next s2
    else .next (s2.withGal fun g =>
      if g.scrubPos + 1 < 131072 then { g with scrubPos := g.scrubPos + 1 } else { g with scrubPos := 0, passes := (g.passes + 1) % 8192 })

end Sys2Proof.Machine
end

