-- ==== Sys2Proof/Machine/Streams.lean ====
section
/-!
DEFINITION. Streams, camera ingest, the conduit receiver and the host rings (R237 to R262).
-/
namespace Sys2Proof.Machine

/-! ### Counters and events (R259, R260) -/

/-- Add to a 32-bit counter that saturates. -/
def sat32 (a b : Nat) : Nat := min (2 ^ 32 - 1) (a + b)

def State.count (s : State) (i : Nat) (f : Counters → Counters) : State := s.withStream i fun x => { x with cnt := f x.cnt }

/-- The first occurrence of a cause on a stream in a drip sends STREAM_ERROR (R259). -/
def State.streamEvent (s : State) (i cause : Nat) : State :=
  let x := s.stream i
  if x.sent.contains cause then s
  else
    let w := [w32 (i + cause * 2 ^ 8)]
    let s1 := (s.withStream i fun x => { x with sent := x.sent ++ [cause] }).event 0 0x20 0 0 w
    match (s.ctx x.ctx).client with
    | some m => s1.event m 0x20 0 0 w
    | none => s1

/-- Count blocks discarded in drip `d` for the marker that will carry them (R37, R256). -/
def insGone (d k : Nat) : List (Nat × Nat) → List (Nat × Nat)
  | [] => [(d, k)]
  | x :: t => if x.1 = d then (d, x.2 + k) :: t else if d < x.1 then (d, k) :: x :: t else x :: insGone d k t

def State.discard (s : State) (i d k : Nat) : State :=
  if k = 0 then s
  else s.withStream i fun x => { x with gone := insGone d k x.gone, cnt := { x.cnt with discarded := sat32 x.cnt.discarded k } }

/-- Whether the FCU makes the device fail silent (R409). -/
def State.failSilent (s : State) : Bool := s.fcu.mpHalt || s.fcu.clock

/-! ### Kinds (R237, R249) -/

def isOut (kind : Nat) : Bool := kind == 4 || kind == 5
def isConduit (kind : Nat) : Bool := kind == 1 || kind == 2 || kind == 3
/-- Most open at once. -/
def kindLimit (kind : Nat) : Nat := [8, 4, 64, 1, 64, 8].getD kind 0
/-- E: 32 bytes and the largest payload, rounded up to a multiple of 32. -/
def entrySize (fmt : Nat) : Nat := alignUp (32 + [64, 64, 128, 256, 66, 132].getD fmt 256) 32
/-- C and W of a ring. -/
def Stream.cap (x : Stream) : Nat := (x.size - 64) / x.entry
def Stream.wrap (x : Stream) : Nat := x.cap * (2 ^ 32 / x.cap)
/-- Free entries, by the cached read index. -/
def Stream.room (x : Stream) : Nat := x.cap - (x.wIdx + x.wrap - x.rIdx) % x.wrap

/-! ### STREAM_OPEN (R238, R285, R286) -/

/-- Whether a Geode counts as retired (R405). -/
def State.retiredG (s : State) (g : Nat) : Bool := (s.geode g).retired || (s.tw.mode == .paired && bitAt s.tw.twinRetired g)

/-- Whether a slot of context `c` names queue `q` of Geode `g`. -/
def State.ctxNames (s : State) (c g q : Nat) : Bool :=
  (List.range 4).any fun i => (s.slot g i).state != .empty && (s.slot g i).ctx == c && ((s.slot g i).ins ++ (s.slot g i).outs).contains q

/-- STREAM_OPEN: the checks in R238's order, then the bindings and the ring header. -/
def streamOpen (c : Cmd) (s : State) : Answer := do
  let v := c.word 0
  let i := fld v 0 6
  let kind := fld v 6 3
  let x := fld v 11 5
  let cam := fld v 17 3
  let fp := bitAt v 20
  let out := isOut kind
  need ((s.stream i).state = 0) eState
  need (kind ≤ 5) eParam
  match OClass.ofCode (fld v 9 2) with
  | none => bad eParam
  | some cls =>
    need (!isConduit kind || cls == .realtime) eParam
    need (x < 24) eParam
    need ((s.ctx x).state = .created ∨ (s.ctx x).state = .stopped) eState
    let n := fld (c.word 6) 0 4
    need (n + 7 = c.words.length ∧ 1 ≤ n ∧ n ≤ (if out then 1 else 8)) eParam
    let qs := (range' 7 n).map fun k => (fld (c.word k) 0 5, fld (c.word k) 5 5)
    need (qs.all fun q => decide (q.2 < 24) && decide (16 ≤ q.2) == out && bitAt (s.ctx x).mask q.1) eParam
    need (qs.all fun q =>
      let w := s.queue q.1 q.2
      !s.retiredG q.1 && w.quota != 0 && s.ctxNames x q.1 q.2 && w.bind == 0 && w.left == 0 && !(s.geode q.1).runNames q.2) eState
    need (kind = 4 ∨ qs.all fun q => (s.queue q.1 q.2).fmt == (if kind == 0 && fp then 2 else 0)) eParam
    need (kind ≠ 0 ∨ bitAt ((s.dev.board.map fun b => b.cameras).getD 0) cam) eParam
    need (kind ≠ 0 ∨ !(s.streams.any fun y => y.state != 0 && y.kind == 0 && y.camera == cam)) eState
    let src := fld (c.word 1) 0 8
    let k := fld (c.word 1) 8 9
    need (kind ≠ 1 ∨ (src = 0 ∧ (s.dev.board.map fun b => b.loadCell) = some true)) eParam
    need (kind ≠ 2 ∨ ((s.dev.board.map fun b => b.sensors.any fun y => y.number == src).getD false)) eParam
    need (!(kind == 1 || kind == 2) || (decide (1 ≤ k) && decide (k ≤ 256))) eParam
    let ring := c.word 3 + c.word 4 * 2 ^ 32
    let size := c.word 5
    let e := entrySize ((qs.map fun q => (s.queue q.1 q.2).fmt).headD 0)
    need (!out || (ring % 4096 == 0 && size % 4096 == 0 && decide (4096 ≤ size) && decide (ring + size ≤ 2 ^ 64) && decide (3 ≤ (size - 64) / e))) eParam
    let w := fld (c.word 2) 0 9
    let h := fld (c.word 2) 16 9
    need (kind ≠ 5 ∨ (1 ≤ w ∧ w ≤ 256 ∧ 1 ≤ h ∧ h ≤ 256)) eParam
    need ((s.streams.filter fun y => y.state != 0 && y.kind == kind).length < kindLimit kind) eNoSpace
    need (!s.dev.dripSet || workFits (s.work 1 0) s.shortL) eNoSpace
    let y : Stream :=
      { state := 1, kind := kind, cls := cls, ctx := x, queues := qs, copy := bitAt v 16, camera := cam, mode := bit fp, source := if kind = 3 then 0 else src,
        decim := if kind = 3 then 1 else k, width := w, height := h, ring := ring, size := size, entry := e }
    let s1 := qs.foldl (fun s q => s.withQueue q.1 q.2 fun z => { z with bind := 1, peer := i, peerQ := 0, credit := 32, creditDue := 0 }) s
    let s2 := s1.withStream i fun _ => y
    let s3 := if out then { s2 with host := (s2.host.writeN ring (leBytes 4 0)).writeN (ring + 8) (leBytes 4 e ++ leBytes 4 y.cap ++ leBytes 4 y.wrap ++ List.replicate 44 0) } else s2
    pure (if kind = 3 then s3.sendFlint 0xF2 [4] else s3, [], [])

/-- STREAM_OPEN. -/
def execStreamOpen (m tag : Nat) (s : State) : Out := s.run m tag 0x2E streamOpen

/-- The 14 words of R260. -/
def Counters.words (k : Counters) : List W32 :=
  [k.delivered, k.discarded, k.markers, k.markersLost, k.poisoned, k.unsupported, k.decodeErr, k.lost, k.twinLate, k.ovlRange, k.ovlOrder, k.indexErr].map w32

/-- STREAM_STAT. -/
def streamStat (c : Cmd) (s : State) : Answer := do
  let i := fld (c.word 0) 0 6
  let x := s.stream i
  need (x.state ≠ 0) eState
  let s1 := if bitAt (c.word 0) 8 then s.withStream i fun x => { x with cnt := {} } else s
  pure (s1, x.cnt.words ++ [w32 (if isConduit x.kind then min (2 ^ 32 - 1) s.conduit.crcErr else 0), w32 x.state], [])

def execStreamStat (m tag : Nat) (s : State) : Out := s.run m tag 0x30 streamStat

/-! ### Delivery into queues (R247, R255, R256) -/

/-- Whether the system stop moves blocks: MEM runs and no Pocket phase of a TWIN_SYNC is under way (R20, R262, R406). -/
def State.stopRuns (s : State) : Bool := s.active && !((s.tw.sync.map fun y => y.phase == 2).getD false)
/-- Whether blocks of a stream may move: its context is RUNNING and the system stop runs (R238). -/
def State.moves (s : State) (x : Stream) : Bool := (s.ctx x.ctx).state == .running && s.stopRuns

/-- Credit for a queue of a stream: a free block place; a retired Geode takes and discards (R83). -/
def State.hasRoom (s : State) (p : Nat × Nat) : Bool := (s.geode p.1).retired || decide ((s.queue p.1 p.2).blocks < 32)
/-- Room for a marker. -/
def State.markRoom (s : State) (p : Nat × Nat) : Bool := (s.geode p.1).retired || decide ((s.queue p.1 p.2).markers < 4)

/-- The queues that listed queue `d` stands for. -/
def Stream.targets (x : Stream) (d : Nat) : List (Nat × Nat) := if x.copy then x.queues else (x.queues[d]?).toList

/-- Deliver one block of stream `i` to its queues, stamped with the current drip (R31) and counted once. -/
def State.put (s : State) (i : Nat) (d : Nat) (e : Entry) : State :=
  let x := s.stream i
  let e1 := { e with origin := s.drip.count % 2 ^ 32 }
  let s1 := (x.targets d).foldl (fun s p => s.deliver p.1 p.2 e1) s
  s1.count i fun k => { k with delivered := sat32 k.delivered 1, poisoned := sat32 k.poisoned (bit e.poison) }

/-! ### The coded-tile buffer (R239, R241, R242) -/

/-- Bytes in a unit of tile credit, and the units of a stream's buffer (R241). -/
def tileUnit : Nat := 4096
def tileRoom : Nat := 16
/-- Units of the buffer in use. -/
def Stream.used (x : Stream) : Nat := (x.tilesIn.map fun t => t.got - t.freed).sum

/-- The next unit of tile `j` of stream `i` arrives, for which it has been granted credit. With the first unit comes the header: a tile that it
makes inacceptable is counted (R239), and one that delivers nothing is gone. -/
def State.unitIn (s : State) (i j : Nat) : State :=
  let bad := (((s.stream i).tilesIn[j]?).map fun t => if t.got = 0 then t.bad else 0).getD 0
  let s1 := if bad = 0 then s else (s.count i fun k => { k with unsupported := sat32 k.unsupported bad }).streamEvent i 1
  let now := s.drip.count
  s1.withStream i fun x =>
    { x with tilesIn := (x.tilesIn.modify j fun t => { t with got := t.got + 1, drip := some (t.drip.getD now) }).filter fun t => t.got == 0 || !t.blocks.isEmpty }

/-- Credit goes out, and units arrive, in order while the buffer has room (R241); the first argument bounds their number. -/
def State.fill : Nat → State → Nat → State
  | 0, s, _ => s
  | k + 1, s, i =>
    let x := s.stream i
    if tileRoom ≤ x.used then s
    else match firstIdx (fun t : TileIn => decide (t.got < t.units)) x.tilesIn with
      | some j => State.fill k (s.unitIn i j) i
      | none => s

/-- As many units as can arrive. -/
def State.credit (s : State) (i : Nat) : State := s.fill (tileRoom + (s.stream i).tilesIn.length) i

/-- The next Mica block of stream `i` that can be decoded, with its tile's drip: its coded bytes have arrived, or fill the buffer. -/
def Stream.mica (x : Stream) : Option (Mica × Nat) := match x.tilesIn with
  | [] => none
  | t :: _ => match t.blocks with
    | b :: _ => if b.endAt ≤ t.got * tileUnit ∨ tileRoom ≤ x.used then some (b, t.drip.getD 0) else none
    | [] => none
/-- Change the Mica block at the head of a stream. -/
def Stream.withMica (x : Stream) (f : Mica → Mica) : Stream := match x.tilesIn with
  | t :: ts => match t.blocks with
    | b :: bs => { x with tilesIn := { t with blocks := f b :: bs } :: ts }
    | [] => x
  | [] => x
/-- The Mica block at the head is done with: its coded bytes leave the buffer in whole units, the last block's with its tile. -/
def Stream.nextMica (x : Stream) : Stream := match x.tilesIn with
  | t :: ts => match t.blocks with
    | b :: c :: bs => { x with tilesIn := { t with blocks := c :: bs, freed := max t.freed (b.endAt / tileUnit), got := max t.got (b.endAt / tileUnit) } :: ts }
    | _ => { x with tilesIn := ts }
  | [] => x

/-- A Mica block is decoded: an error in it is counted once (R242). -/
def State.decode (s : State) (i : Nat) (b : Mica) : State :=
  if b.err then ((s.count i fun k => { k with decodeErr := sat32 k.decodeErr 1 }).streamEvent i 2).withStream i fun x => x.withMica fun b => { b with err := false }
  else s

/-- Deliver the oldest marker or block that waits on input stream `i`; none when it must wait. -/
def State.pump (s : State) (i : Nat) : Option State :=
  let x := s.stream i
  if !s.moves x then none
  else match x.marks with
  | m :: t =>
    if x.queues.all s.markRoom then
      some ((x.queues.foldl (fun s p => s.deliver p.1 p.2 m) s).withStream i fun x => { x with marks := t, cnt := { x.cnt with markers := sat32 x.cnt.markers 1 } })
    else none
  | [] => match x.waiting with
    | (d, _, e) :: t => if (x.targets d).all s.hasRoom then some ((s.put i d e).withStream i fun x => { x with waiting := t }) else none
    | [] => match x.mica with
      | none => none
      | some (b, _) => match b.rows with
        | [] => some ((s.withStream i Stream.nextMica).credit i)
        | r :: rs =>
          if (x.targets b.dest).all s.hasRoom then
            let s1 := (s.decode i b).put i b.dest { payload := r, ts := s.stamp, poison := b.poison, cls := x.cls, fmt := 2 * x.mode }
            some (if rs.isEmpty then (s1.withStream i Stream.nextMica).credit i else s1.withStream i fun x => x.withMica fun b => { b with rows := rs })
          else none

/-- Up to `k` deliveries. -/
def State.pumps : Nat → State → Nat → State
  | 0, s, _ => s
  | k + 1, s, i => match s.pump i with
    | some s1 => State.pumps k s1 i
    | none => s

/-- Decode the Mica block at the head of stream `i` and discard it, while credit to the render die keeps flowing (R255). -/
def State.dropMica (s : State) (i : Nat) : State := match (s.stream i).mica with
  | none => s
  | some (b, d) => ((((s.decode i b).discard i d b.rows.length).withStream i fun x => { x with dropping := true }).withStream i Stream.nextMica).credit i

/-! ### Camera ingest (R239 to R242) -/

/-- A sample as the stream's mode delivers it (R240): its bytes. -/
def sampleBytes (fp : Bool) (depth v : Nat) : List Byte :=
  if fp then leBytes 2 (encodeNum .fp16 none (.fin false v (-(depth : Int))))
  else leBytes 1 (if depth = 8 then v else min 255 (roundAt none 0 v (8 - (depth : Int))))

/-- The four queue blocks of a decoded Mica block, or four of zeros. -/
def micaRows (fp : Bool) (depth : Nat) (b : Option (List Nat)) : List (List Byte) :=
  (List.range 4).map fun r => match b with
    | some l => (List.range 64).flatMap fun k => sampleBytes fp depth (l.getD (64 * r + k) 0 % 2 ^ depth)
    | none => List.replicate (if fp then 128 else 64) 0

/-- Whether the ingest unit accepts a tile's coding mode (0 uncompressed, 1 lossless), depth and chroma format (420, 444). -/
def tileOk (depth chroma mode : Nat) : Bool :=
  (chroma == 420 || chroma == 444) && (match mode with
    | 1 => depth == 8 || depth == 10
    | 0 => depth == 8 || depth == 10 || depth == 12
    | _ => false)

/-- The tile of a stream's mode that a header of `count` blocks and `bytes` coded bytes brings: `blocks` gives each block's declared coded length
and its decoded samples, none where it breaks a Mica rule. -/
def tileOf (fp : Bool) (dest depth count bytes : Nat) (ok : Bool) (blocks : List (Nat × Option (List Nat))) : TileIn :=
  let units := max 1 ((bytes + tileUnit - 1) / tileUnit)
  if count = 0 ∨ 1024 < count then { units := units, bad := 1 }
  else
    let rest (k : Nat) : Nat := ((blocks.take count).drop (k + 1)).map (fun b => b.1) |>.sum
    let mica (k : Nat) : Mica :=
      let b := if ok then (blocks.getD k (0, none)).2 else none
      { rows := micaRows fp depth b, poison := b.isNone, dest := dest, endAt := bytes - rest k, err := ok && b.isNone }
    { units := units, bad := if ok then 0 else count, blocks := (List.range count).map mica }

/-- A camera tile of the host link joins its stream: its units arrive as the buffer has room (R241). -/
def State.cameraTile (s : State) (camera depth chroma mode count bytes : Nat) (blocks : List (Nat × Option (List Nat))) : State :=
  if s.dev.die != .serving then s
  else match firstIdx (fun x : Stream => x.state != 0 && x.kind == 0 && x.camera == camera) s.streams with
    | none => s.withDev fun d => { d with unknownCam := sat32 d.unknownCam 1 }
    | some i =>
      (s.withStream i fun x =>
        { x with tiles := x.tiles + 1, tilesIn := x.tilesIn ++ [tileOf (x.mode == 1) (x.tiles % x.queues.length) depth count bytes (tileOk depth chroma mode) blocks] }).credit i

/-- Poison what waits at the head of an input stream: an uncorrectable error of the ingest or receiver buffer (R257). -/
def Stream.spoil (x : Stream) : Stream := match x.waiting with
  | (d, n, e) :: t => { x with waiting := (d, n, { e with poison := true }) :: t }
  | [] => x.withMica fun b => { b with rows := b.rows.map fun r => List.replicate r.length 0, poison := true }

/-- The oldest waiting Mica block, or conduit block, of stream `i` goes to its queues as far as they have credit; a REALTIME
camera stream that is blocked discards it, and what follows until the drip ends (R255). -/
def execIngestBlockDeliver (i : Nat) (upset : Bool) (s : State) : Out :=
  let x := s.stream i
  if x.state != 1 || isOut x.kind || !s.stopRuns then .next s
  else
    let s0 := if upset then s.withStream i Stream.spoil else s
    let isRt := x.kind == 0 && x.cls == .realtime
    if isRt && x.dropping then .next (s0.dropMica i)
    else match s0.pump i with
      | some s1 => .next (s1.pumps 3 i)
      | none => if isRt then .next (s0.dropMica i) else .next s0

/-! ### The conduit receiver (R243 to R245, R248) -/

/-- The frame of some received bytes, when its length byte describes it and its CRC is right (R243, R244). -/
def parseFrame (raw : List Byte) : Option Frame :=
  let n := (raw.getD 2 0).toNat
  if n ≤ 248 ∧ raw.length = n + 22 ∧ crc16 (raw.take (n + 20)) = leNat (raw.drop (n + 20)) then
    some { kind := (raw.getD 0 0).toNat, source := (raw.getD 1 0).toNat, seq := (raw.getD 3 0).toNat, ts := leNat ((raw.drop 4).take 16), payload := (raw.drop 20).take n }
  else none

/-- A frame as it travels (R243). -/
def Frame.bytes (f : Frame) : List Byte :=
  let b := leBytes 1 f.kind ++ leBytes 1 f.source ++ leBytes 1 f.payload.length ++ leBytes 1 f.seq ++ leBytes 16 f.ts ++ f.payload
  b ++ leBytes 2 (crc16 b)

/-- The frame Flint sends next (R243): of the first kind in its priority order that has one, the oldest. -/
def nextFrame (l : List Frame) : Option Frame := [3, 5, 4, 2, 1].findSome? fun k => l.find? fun f => f.kind == k

/-- Flint's buffer after `n` bytes have been taken from what it sends; the first argument counts frames. -/
def sentFrames : Nat → List Frame → Nat → List Frame
  | 0, l, _ => l
  | k + 1, l, n =>
    if n = 0 then l
    else match nextFrame l with
      | some f => sentFrames k (l.erase f) (n - f.bytes.length)
      | none => l

/-- A frame of a kind arrives at the receiver: Flint's next one (R243). One whose CRC fails is counted and lost, with the frames whose bytes a wrong
length byte consumed (R244). -/
def State.receive (s : State) (kind : Nat) (raw : List Byte) : State × Option Frame :=
  let next := nextFrame s.fl.frames
  match parseFrame raw with
  | none =>
    if (next.map fun f => f.kind == kind).getD true then
      ({ s.withFl (fun d => { d with frames := sentFrames d.frames.length d.frames ((raw.getD 2 0).toNat + 22) }) with
        conduit := { s.conduit with crcErr := s.conduit.crcErr + 1 } }, none)
    else (s, none)
  | some f => if f.kind = kind ∧ next = some f then (s.withFl fun d => { d with frames := d.frames.erase f }, some f) else (s, none)

/-- Sequence numbers missing before `seq` after `last` (R244). -/
def seqGap (last : Option Nat) (seq : Nat) : Nat := match last with
  | none => 0
  | some l => (seq + 255 - l % 256) % 256

/-- The instant of a timestamp in units of 2^-32 ns (R52). -/
def stampUnits (ts : Nat) : Nat := (fld ts 64 48 * giga + fld ts 32 32) * 2 ^ 32 + fld ts 0 32

/-- Whether an instant falls in a drip. -/
def PastDrip.covers (p : PastDrip) (u : Nat) : Bool := decide (p.start ≤ (u : Int)) && decide ((u : Int) < p.start + (p.len * 2 ^ 32 : Nat))
/-- The drips from the one a timestamp falls in backwards, the latest first (R256); a timestamp in none falls in the latest that began before it,
one that precedes them all in the earliest. -/
def DripSt.upTo (d : DripSt) (ts : Nat) : List PastDrip :=
  let u := stampUnits ts
  let first (p : PastDrip → Bool) : List PastDrip := d.past.dropWhile fun x => !p x
  match first (fun p => p.covers u), first fun p => decide (p.start ≤ (u : Int)) with
  | [], [] => d.past.drop (d.past.length - 1)
  | [], l => l
  | l, _ => l
/-- The drip a timestamp falls in. -/
def State.dripAt (s : State) (ts : Nat) : Nat := ((s.drip.upTo ts).head?.map fun p => p.count).getD s.drip.count
/-- The index of the drop of a drip that an instant begins or falls in (R27, R245). -/
def PastDrip.dropOf (p : PastDrip) (u : Nat) : Nat :=
  if p.len = 0 then 0 else min (p.drops - 1) (((((u : Int) - p.start) / 2 ^ 32).toNat + 1) * p.drops - 1) / p.len
/-- The index of the drop that a timestamp begins or falls in. -/
def State.dropAt (s : State) (ts : Nat) : Nat := ((s.drip.upTo ts).head?.map fun p => p.dropOf (stampUnits ts)).getD 0
/-- The drop that begins `n` drops before the end of the first of some drips, the latest first. -/
def dropBack : List PastDrip → Nat → Option (PastDrip × Nat)
  | [], _ => none
  | p :: t, n => if n < p.drops then some (p, p.drops - 1 - n) else dropBack t (n - p.drops)
/-- The nominal start of a drop, in units of 2^-32 ns (R27). -/
def PastDrip.dropStart (p : PastDrip) (k : Nat) : Nat := (p.start + (k * p.len / p.drops * 2 ^ 32 : Nat)).toNat
/-- The timestamp, with the quality of `ts`, and the index of the drop `n` drops before the one that `ts` begins; of drops no longer known, those
of `ts`. -/
def State.dropBefore (s : State) (ts n : Nat) : Nat × Nat :=
  let l := s.drip.upTo ts
  match l.head?.bind fun p => dropBack l (p.drops - 1 - p.dropOf (stampUnits ts) + n) with
  | some (p, k) => (stampOf (p.dropStart k % 2 ^ 32) (p.dropStart k / 2 ^ 32) (fld ts 112 2), k)
  | none => (ts, s.dropAt ts)

/-- One conduit block of drop `k` for stream `i`: it joins the blocks that wait at the receiver and moves on while there is credit; with
32 waiting, or while the stream discards, it is discarded (R245, R255). -/
def State.feed (s : State) (i ts k : Nat) (payload : List Byte) (poison : Bool) : State :=
  let x := s.stream i
  let d := s.dripAt ts
  if 1 < x.decim ∧ k % x.decim ≠ 0 then s
  else if x.dropping || decide (32 ≤ x.waiting.length) then (s.discard i d 1).withStream i fun x => { x with dropping := true }
  else
    let e : Entry := { payload := padTo 64 payload, ts := ts, poison := poison, cls := x.cls, fmt := 0 }
    (s.withStream i fun x => { x with waiting := x.waiting ++ [(x.blocks % x.queues.length, d, e)], blocks := x.blocks + 1 }).pumps 40 i

/-- The streams that a frame of a kind and source feeds. -/
def State.fedBy (s : State) (kind source : Nat) : List Nat :=
  (List.range 64).filter fun i =>
    let x := s.stream i
    x.state != 0 && (if kind = 2 then x.kind == 3 else (x.kind == 1 || x.kind == 2) && x.source == source && (x.kind == 1) == (source == 0))

/-- Count a gap on every stream of a source (R244). -/
def State.lose (s : State) (kind source n : Nat) : State :=
  if n = 0 then s
  else (s.fedBy kind source).foldl (fun s i => (s.count i fun k => { k with lost := sat32 k.lost n }).streamEvent i 3) s

/-- The drop of a frame (R245): a weight sample names it. -/
def State.dropOf (s : State) (kind source ts : Nat) (payload : List Byte) : Nat :=
  if kind = 1 ∧ source = 0 then (payload.getD 24 0).toNat else if kind = 1 then s.dropAt ts else 0

/-- An accepted block goes to every stream of its source (R244, R248). -/
def State.feedAll (s : State) (kind source ts : Nat) (payload : List Byte) (poison : Bool) : State :=
  (s.fedBy kind source).foldl (fun s i => s.feed i ts (s.dropOf kind source ts payload) payload poison) s

/-- A stand-in for a missing leader copy of drop `k`: zeros with poison, counted (R248). -/
def State.standIn (s : State) (kind source ts k : Nat) : State :=
  (s.fedBy kind source).foldl (fun s i =>
    if 1 < (s.stream i).decim ∧ k % (s.stream i).decim ≠ 0 then s
    else ((s.count i fun k => { k with twinLate := sat32 k.twinLate 1 }).streamEvent i 4).feed i ts k (List.replicate 64 0) true) s

/-- A SAMPLE or LANTERN_EVENT frame accepted by this device's receiver (R244, R248). -/
def State.acceptFrame (s : State) (f : Frame) (poison : Bool) : State :=
  let key := (f.kind, f.source)
  let gap := seqGap (getKey s.conduit.last key) f.seq
  let s1 := { s with conduit := { s.conduit with last := setKey s.conduit.last key f.seq } }
  if s.follows then
    (if f.kind = 1 then { s1 with conduit := { s1.conduit with due := setKey s1.conduit.due f.source f.ts } } else s1)
  else
    let s2 := (s1.lose f.kind f.source gap).feedAll f.kind f.source f.ts f.payload poison
    if s.tw.mode = .paired ∧ s.twinLink then { s2 with conduit := { s2.conduit with copies := s2.conduit.copies ++ [⟨f.kind, f.source, f.seq, gap, f.ts, f.payload, poison⟩] } } else s2

/-- Whether the receiver is there: the compute die is powered and out of reset, and REFCLK25 runs. -/
def State.receives (s : State) : Bool := s.dev.die != .inReset && s.dev.refclk && decide (s.pw.state ≤ 2)

/-- The drops of which the MP has carried both G values, with the index and the difference; the one with the largest difference. -/
def Conduit.apart (c : Conduit) : Option (Nat × Int) :=
  (c.ownG.filterMap fun (x : Nat × Nat × Int) =>
    (c.twinG.find? fun (y : Nat × Nat × Int) => y.1 == x.1 && y.2.1 == x.2.1).map fun y => (x.2.1, x.2.2 - y.2.2)).foldl (fun (best : Option (Nat × Int)) x =>
      match best with
      | none => some x
      | some b => if b.2.natAbs < x.2.natAbs then some x else some b) none

/-- The MP's FLINT_DISAGREE record for a weight sample whose TWIN_DISAGREE flag is set (R326, R415): the compared drop and the difference, from the
notices the MP has carried for this Flint and for the twin's. Of the last three drops the one with the largest difference has disagreed; a
difference of which the MP carried no notices is an open value (DESIGN CHOICE, log entry 36). -/
def State.disagree (s : State) (f : Frame) : State :=
  if f.source ≠ 0 || !bitAt (f.payload.getD 25 0).toNat 7 || !s.mpRuns then s
  else match s.conduit.apart with
    | some (k, diff) => s.addRec 0x0308 0xFF 0xFF 0xFF 0xFF 0 [w32 k, w32 (unsigned 32 diff)]
    | none =>
      let (s1, v) := s.draw
      s1.addRec 0x0308 0xFF 0xFF 0xFF 0xFF 0 [w32 (f.payload.getD 24 0).toNat, w32 v]

/-- A SAMPLE frame; `upset` is an ECC error of the receiver's buffer (R257). -/
def execSampleFrame (raw : List Byte) (upset : Bool) (s : State) : Out :=
  if !s.receives then .next s
  else match s.receive 1 raw with
    | (s1, some f) => .next ((s1.acceptFrame f upset).disagree f)
    | (s1, none) => .next s1

/-- A LANTERN_EVENT frame. -/
def execLanternEvent (raw : List Byte) (upset : Bool) (s : State) : Out :=
  if !s.receives then .next s
  else match s.receive 2 raw with
    | (s1, some f) => .next (s1.acceptFrame f upset)
    | (s1, none) => .next s1

/-- The MP sends the WEIGHT_RECORD event of a RECORD frame (R330). -/
def execRecordFrame (raw : List Byte) (s : State) : Out :=
  if !s.receives then .next s
  else match s.receive 4 raw with
    | (s1, some f) =>
      let w := [w32 (leNat ((f.payload.drop 4).take 4))]
      .next ((s1.event 0 0x30 0 0 w).event 1 0x30 0 0 w)
    | (s1, none) => .next s1

/-- The missing copies before one with a gap of `gap` sequence numbers, of which the `lost` nearest to it were lost at the leader (R248): how many
drops before the arriving copy's each lies, the earliest first. -/
def missingBack (gap lost : Nat) : List Nat := (List.range (gap - lost)).map fun k => gap - k

/-- A leader's copy arrives at the follower (R248). A sample's stand-in carries the nominal start of its own drop, and none follows one that has been
delivered when it was late (log entry 36). -/
def execConduitCopy (kind source seq lost ts : Nat) (payload : List Byte) (poison : Bool) (s : State) : Out :=
  if !s.follows || !s.receives || !s.twinLink || !(kind == 1 || kind == 2) then .next s
  else
    let key := (kind, source)
    let same (t : Nat) (x : Nat × Nat) : Bool := kind == 1 && x.1 == source && stampUnits x.2 == stampUnits t
    let older (x : Nat × Nat) : Bool := kind == 1 && x.1 == source && decide (stampUnits x.2 < stampUnits ts)
    let stood := s.conduit.stood
    let late := stood.any (same ts)
    let gap := seqGap (getKey s.conduit.lead key) seq
    let s1 := { s with conduit :=
      { s.conduit with
        lead := setKey s.conduit.lead key seq
        stood := stood.filter fun x => !older x && !same ts x
        copyTs := if kind = 1 then setKey s.conduit.copyTs source ts else s.conduit.copyTs } }
    let s2 := (missingBack gap lost).foldl (fun (s : State) n =>
      let (t, k) := if kind = 1 then s.dropBefore ts n else (ts, 0)
      if stood.any (same t) then s else s.standIn kind source t k) (s1.lose kind source lost)
    if late then .next s2 else .next (s2.feedAll kind source ts payload poison)

/-- The copy of the sample whose drop starts at `ts` is due and has not arrived after 100 µs (R248). -/
def execTwinLate (source ts : Nat) (s : State) : Out :=
  let due := ((getKey s.conduit.due source).map fun t => decide (stampUnits ts ≤ stampUnits t)).getD false
  let newer := ((getKey s.conduit.copyTs source).map fun t => decide (stampUnits t < stampUnits ts)).getD true
  if !s.follows || !due || !newer then .next s
  else
    let s1 := { s with conduit := { s.conduit with stood := s.conduit.stood ++ [(source, ts)], copyTs := setKey s.conduit.copyTs source ts } }
    .next (s1.standIn 1 source ts (s.dropAt ts))

/-! ### Host rings (R249 to R253) -/

/-- The 32 bytes of a sideband (R91). -/
def Entry.sideband (e : Entry) : List Byte := leBytes 16 e.ts ++ e.trailer ++ List.replicate 4 0

/-- Write an entry at the write index (R249). -/
def State.ringPut (s : State) (i : Nat) (e : Entry) : State :=
  let x := s.stream i
  ({ s with host := s.host.writeN (x.ring + 64 + x.entry * (x.wIdx % x.cap)) (padTo x.entry (e.sideband ++ e.payload)) }).withStream i fun x =>
    { x with wIdx := (x.wIdx + 1) % x.wrap, idxDue := true }

/-- Write the write index, unless the stream is in ERROR (R250, R253). -/
def State.ringIndex (s : State) (i : Nat) : State :=
  let x := s.stream i
  if x.state ≠ 1 ∨ !x.idxDue then s
  else ({ s with host := s.host.writeN x.ring (leBytes 4 x.wIdx) }).withStream i fun x => { x with idxDue := false }

/-- Count a marker that reached the ring; a drip-close entry is no marker. -/
def State.putMark (s : State) (i : Nat) (e : Entry) : State :=
  (s.ringPut i e).count i fun k => { k with markers := sat32 k.markers (bit e.marker) }

/-- Write the pending marker or drip-close entry when an entry is free (R251). -/
def State.flushHeld (s : State) (i : Nat) : State := match (s.stream i).held with
  | some e => if 1 ≤ (s.stream i).room then (s.putMark i e).withStream i fun x => { x with held := none } else s
  | none => s

/-- A marker or drip-close entry for the ring: written, held, or lost (R251, R252). -/
def State.mark (s : State) (i : Nat) (e : Entry) : State :=
  let s1 := s.flushHeld i
  let x := s1.stream i
  if x.held.isNone && decide (1 ≤ x.room) then s1.putMark i e
  else if x.held.isNone then s1.withStream i fun x => { x with held := some e }
  else s1.count i fun k => { k with markersLost := sat32 k.markersLost 1 }

/-- A marker of drip `d` with a count, of the stream's class (R37, R256). -/
def State.streamMarker (s : State) (i d k : Nat) : Entry :=
  { ts := s.stamp, origin := d % 2 ^ 32, marker := true, cls := (s.stream i).cls, fmt := ((s.stream i).queues.head?.map fun p => (s.queue p.1 p.2).fmt).getD 0, count := k }

/-- The drip-close entry of an origin drip (R252). -/
def State.closeEntry (s : State) (d : Nat) : Entry := { payload := [0xFF, 0xFF, 0xFF, 0xFF], ts := s.stamp, origin := d % 2 ^ 32 }

/-- Put an origin into a rising list. -/
def insOrigin (d place : Nat) (l : List (Nat × Nat)) : List (Nat × Nat) :=
  l.filter (fun x => decide (x.1 < d)) ++ (d, place) :: l.filter fun x => decide (d < x.1)

/-- Close every origin with data entries up to `d` (R252). -/
def State.closeTo (s : State) (i d : Nat) : State :=
  let l := (s.stream i).origins.filter fun x => decide (x.1 ≤ d)
  l.foldl (fun s x => (s.mark i (s.closeEntry x.1)).withStream i fun y =>
    { y with origins := y.origins.filter (fun z => z.1 != x.1), closedTo := some (max x.1 (y.closedTo.getD 0)) }) s

/-- The fields of a bin record (R252): column, row, primitives, and the largest coordinate. -/
def binCol (p : List Byte) : Nat := leNat (p.take 2)
def binRow (p : List Byte) : Nat := leNat ((p.drop 2).take 2)
def binN (p : List Byte) : Nat := (p.getD 4 0).toNat
def binMax (p : List Byte) : Nat :=
  ((List.range (min 4 (binN p))).flatMap fun k => (List.range 4).map fun j => leNat ((p.drop (8 + 12 * k + 2 * j)).take 2)).foldl max 0
/-- Whether a record's coordinates and count are in range. -/
def Stream.binOk (x : Stream) (p : List Byte) : Bool :=
  decide (binCol p < x.width) && decide (binRow p < x.height) && decide (binN p ≤ 4) && decide (binMax p ≤ 31)
/-- A record with n forced to 0. -/
def binZero (p : List Byte) : List Byte := p.take 4 ++ [0] ++ p.drop 5

/-- Take the entry at the head of output stream `i`'s queue out, with its credit (R95); an uncorrectable error in it is found (R90). -/
def State.takeOut (s : State) (i : Nat) : State := match (s.stream i).queues with
  | p :: _ => match (s.queue p.1 p.2).entries with
    | e :: t => (s.withQueue p.1 p.2 fun w => Queue.settle 4 { w with entries := t, credit := min 32 (w.credit + bit (!e.marker)) }).entryUe p.1 p.2 (s.stream i).ctx e
    | [] => s
  | [] => s
/-- The released entry at the head of output stream `i`'s queue, as it leaves; a retired Geode gives none (R83). -/
def State.headOut (s : State) (i : Nat) : Option Entry := match (s.stream i).queues with
  | p :: _ => if (s.geode p.1).retired then none else match (s.queue p.1 p.2).entries with
    | e :: _ => if e.released then some e.leave else none
    | [] => none
  | [] => none
/-- Before an OVERLAY entry of origin `o`, every earlier origin with data entries is closed (R252). -/
def State.closeBefore (s : State) (i o : Nat) : State := if (s.stream i).kind = 5 ∧ o ≠ 0 then s.closeTo i (o - 1) else s
/-- Whether an OVERLAY record is discarded: its origin is closed, or it is out of range (R252). -/
def Stream.refuses (x : Stream) (o : Nat) (e : Entry) : Bool :=
  x.kind == 5 && !e.marker && ((x.closedTo.map fun d => decide (o ≤ d)).getD false || !x.binOk e.payload)
/-- Discard such a record. -/
def State.refuse (s : State) (i o : Nat) : State :=
  let open' := !((s.stream i).closedTo.map fun d => decide (o ≤ d)).getD false
  let s1 := s.count i fun k => { k with discarded := sat32 k.discarded 1, ovlRange := sat32 k.ovlRange (bit open') }
  if open' then s1.streamEvent i 6 else s1

/-- Write a data entry that has room, with an OVERLAY record's order and poison rules (R252, R257). -/
def State.putData (s : State) (i : Nat) (e : Entry) : State :=
  let x := s.stream i
  let o := near64 s.drip.count e.origin
  let place := binRow e.payload * x.width + binCol e.payload
  let wrong := x.kind == 5 && ((getKey x.origins o).map fun q => decide (place < q)).getD false
  let zero := x.kind == 5 && (wrong || e.poison)
  let s1 := s.ringPut i (if zero then { e with payload := binZero e.payload } else e)
  let s2 := s1.count i fun k => { k with delivered := sat32 k.delivered 1, poisoned := sat32 k.poisoned (bit e.poison), ovlOrder := sat32 k.ovlOrder (bit wrong) }
  let s3 := if x.kind = 5 ∧ !wrong then s2.withStream i fun y => { y with origins := insOrigin o place y.origins } else s2
  if wrong then s3.streamEvent i 7 else s3

/-- The head of output stream `i`'s queue goes to the ring: written, held or lost, discarded, or left where it is. -/
def State.drain1 (s : State) (i : Nat) : State :=
  match s.headOut i with
  | none => s
  | some e =>
    let o := near64 s.drip.count e.origin
    if (s.stream i).state = 2 then s.takeOut i
    else
      let s1 := s.closeBefore i o
      let y := s1.stream i
      if e.marker then (s1.takeOut i).mark i e
      else if y.refuses o e then (s1.takeOut i).refuse i o
      else if !y.dropping && y.held.isNone && decide (2 ≤ y.room) then (s1.takeOut i).putData i e
      else if y.cls = .realtime then ((s1.takeOut i).discard i s.drip.count 1).withStream i fun y => { y with dropping := true }
      else s1

/-- The ring's next entry (R249 to R257): the pending marker first, else the head of the queue. A stream in ERROR only
discards; a context that does not run, and a fail-silent device, write nothing (R261, R409). -/
def execRingEntryWrite (i : Nat) (s : State) : Out :=
  let x := s.stream i
  if x.state = 0 || !isOut x.kind || s.failSilent || !s.moves x || !s.hostLink then .next s
  else if x.state == 1 && x.held.isSome && decide (1 ≤ x.room) then .next (s.flushHeld i)
  else .next (s.drain1 i)

/-- The write index follows its entries (R250). -/
def execRingWriteIndexUpdate (i : Nat) (s : State) : Out := if s.failSilent || !s.active || !s.hostLink then .next s else .next (s.ringIndex i)

/-- The device reads the read index `r`: valid, or taken as the last one read and counted (R250). -/
def State.readIdx (s : State) (i r : Nat) : State :=
  let x := s.stream i
  let now := s.mtime
  if x.state ≠ 1 ∨ !isOut x.kind then s
  else
    let s1 := s.withStream i fun x => { x with lastRead := some now }
    if r < x.wrap ∧ (x.wIdx + x.wrap - r) % x.wrap ≤ x.cap then s1.withStream i fun x => { x with rIdx := r }
    else (s1.count i fun k => { k with indexErr := sat32 k.indexErr 1 }).streamEvent i 8

/-- QTZ cycles in 2 µs. -/
def readGap : Nat := 500

/-- A read of the read index between boundaries: while the cached copy shows fewer than 2 free entries, at most once every 2 µs (R250). -/
def execRingReadIndexRead (i : Nat) (r : Nat) (s : State) : Out :=
  let x := s.stream i
  if s.failSilent || !s.active || !s.hostLink || decide (2 ≤ x.room) || (x.lastRead.map fun t => decide (s.mtime < t + readGap)).getD false then .next s
  else .next (s.readIdx i r)

/-- The host link rejects a ring access: the stream becomes ERROR (R253). -/
def execHostLinkReject (i : Nat) (s : State) : Out :=
  let x := s.stream i
  if x.state ≠ 1 ∨ !isOut x.kind then .next s
  else .next ((s.withStream i fun x => { x with state := 2, idxDue := false }).streamEvent i 5)

/-! ### The drip boundary (R37, R252, R256) -/

/-- The latest drip whose blocks a class gives up at the boundary that opens drip `n`. -/
def OClass.cut (k : OClass) (n : Nat) : Option Nat := match k with
  | .realtime => if n = 0 then none else some (n - 1)
  | .elastic => if n < 5 then none else some (n - 5)
  | .background => none

/-- An input stream at the boundary that opens drip `n`: undelivered blocks of drips that end are discarded, and a marker
for each such drip goes before the rest. -/
def State.inBoundary (s : State) (i n : Nat) : State :=
  let s0 := s.withStream i fun x => { x with dropping := false }
  match (s.stream i).cls.cut n with
  | none => s0
  | some cut =>
    let x := s.stream i
    let oldW := x.waiting.filter fun e => decide (e.2.1 ≤ cut)
    let gone (t : TileIn) : Bool := (t.drip.map fun d => decide (d ≤ cut)).getD false
    let s1 := oldW.foldl (fun s e => s.discard i e.2.1 1) s0
    let s2 := (x.tilesIn.filter gone).foldl (fun s t => s.discard i (t.drip.getD 0) (t.blocks.map fun b => b.rows.length).sum) s1
    let due := (s2.stream i).gone.filter fun d => decide (d.1 ≤ cut)
    let ms := due.map fun d => s2.streamMarker i d.1 d.2
    ((s2.withStream i fun x =>
      { x with
        waiting := x.waiting.filter fun e => decide (cut < e.2.1)
        tilesIn := x.tilesIn.filter fun t => !gone t
        gone := x.gone.filter fun d => decide (cut < d.1)
        marks := x.marks ++ ms }).credit i).pumps (x.marks.length + ms.length) i

/-- An output stream at the boundary that opens drip `n`, with the read index `r` the device reads there. -/
def State.outBoundary (s : State) (i n r : Nat) : State :=
  let s0 := s.readIdx i r
  if (s0.stream i).state ≠ 1 ∨ s.failSilent ∨ !s.moves (s.stream i) then s0.withStream i fun x => { x with dropping := false }
  else
    let s1 := s0.flushHeld i
    let x := s1.stream i
    let s2 : State := match x.cls.cut n, x.queues with
      | some cut, p :: _ =>
        let old (e : Entry) : Bool := e.released && !e.marker && decide (near64 n e.origin ≤ cut)
        let gone := (s1.queue p.1 p.2).entries.filter old
        let s2 := (s1.withQueue p.1 p.2 fun w => { w with entries := w.entries.filter (fun e => !old e), credit := min 32 (w.credit + gone.length) })
        let s3 := gone.foldl (fun (s : State) (e : Entry) => s.discard i (near64 n e.origin) 1) s2
        let due := (s3.stream i).gone.filter fun d => decide (d.1 ≤ cut)
        let s4 := due.foldl (fun (s : State) (d : Nat × Nat) => (s.closeBefore i d.1).mark i (s.streamMarker i d.1 d.2)) s3
        let s5 := s4.withStream i fun x => { x with gone := x.gone.filter fun d => decide (cut < d.1) }
        if x.kind = 5 then s5.closeTo i cut else s5
      | _, _ => s1
    (s2.ringIndex i).withStream i fun x => { x with dropping := false }

/-- Every open stream at the boundary that opens drip `n`; `reads` are the read indices found, that of a stream not listed the one read last. -/
def State.streamsBoundary (s : State) (n : Nat) (reads : List (Nat × Nat)) : State :=
  (List.range 64).foldl (fun s i =>
    let x := s.stream i
    if x.state = 0 then s
    else
      let s1 := s.withStream i fun x => { x with sent := [] }
      if isOut x.kind then s1.outBoundary i n ((getKey reads i).getD x.rIdx) else s1.inBoundary i n) s

/-! ### STREAM_CLOSE (R261) -/

/-- Whether a queue of a stream is named by a RUN slot. -/
def State.streamRuns (s : State) (i : Nat) : Bool := (s.stream i).queues.any fun p => (s.geode p.1).runNames p.2

/-- Write the released entries of a closing output stream in order; after the first that finds too little room the rest is
discarded. Counts: entries written, blocks discarded. The first argument counts entries. -/
def State.closeOut : Nat → State → Nat → Bool → Nat → Nat → State × Nat × Nat
  | 0, s, _, _, w, d => (s, w, d)
  | k + 1, s, i, ok, w, d => match s.headOut i with
    | none => (s, w, d)
    | some e =>
      let x := s.stream i
      let o := near64 s.drip.count e.origin
      let s1 := if ok then (s.takeOut i).closeBefore i o else s.takeOut i
      let more := ((s1.stream i).wIdx + (s1.stream i).wrap - x.wIdx) % (s1.stream i).wrap
      if ok && (s1.stream i).refuses o e then State.closeOut k (s1.refuse i o) i ok (w + more) (d + 1)
      else
        let fits := ok && decide ((if e.marker then 1 else 2) ≤ (s1.stream i).room) && (s1.stream i).held.isNone
        if fits then
          State.closeOut k (if e.marker then s1.putMark i e else s1.putData i e) i true (w + more + 1) d
        else State.closeOut k s1 i false (w + more) (d + bit (!e.marker))

/-- Steps 1 to 4 of R261 with the host's read index; the response word. -/
def State.closeStream (s : State) (i r : Nat) : State × Nat :=
  let x := s.stream i
  let free (s : State) : State :=
    (x.queues.foldl (fun s p => (s.discardQueue p.1 p.2).withQueue p.1 p.2 fun w => { w with bind := 0, peer := 0, peerQ := 0 }) s).withStream i fun _ => {}
  if isOut x.kind then
    let n := (x.queues.map fun p => (s.queue p.1 p.2).entries.length).sum
    let s1 := if x.state = 1 then (s.readIdx i r) else s
    let w0 := bit ((s1.stream i).held.isSome && decide (1 ≤ (s1.stream i).room) && x.state == 1)
    let s2 := if x.state = 1 then s1.flushHeld i else s1
    let (s3, w, d) := State.closeOut (n + 4) s2 i (x.state == 1) w0 0
    let before := (s3.stream i).wIdx
    let s4 := if x.state = 1 ∧ x.kind = 5 then s3.closeTo i (((s3.stream i).origins.map fun y => y.1).foldl max 0) else s3
    let more := ((s4.stream i).wIdx + (s4.stream i).wrap - before) % (s4.stream i).wrap
    (free (s4.ringIndex i), (w + more) % 2 ^ 16 + d % 2 ^ 16 * 2 ^ 16)
  else
    let inside := (x.queues.map fun p => (s.queue p.1 p.2).left).sum
    let (here, away) := x.tilesIn.partition fun t => t.got != 0
    ((free s).withDev fun d => { d with unknownCam := sat32 d.unknownCam away.length },
      inside + x.waiting.length + (here.flatMap fun t => t.blocks.map fun b => b.rows.length).sum)

/-- STREAM_CLOSE, with the read index `r` of an output stream's ring. -/
def streamClose (c : Cmd) (r : Nat) (s : State) : Answer := do
  let i := fld (c.word 0) 0 6
  need ((s.stream i).state ≠ 0) eState
  need (!s.streamRuns i) eState
  let (s1, n) := s.closeStream i r
  pure (s1, [w32 n], [])

def execStreamClose (m tag r : Nat) (s : State) : Out := s.run m tag 0x2F fun c => streamClose c r

end Sys2Proof.Machine
end

