-- ==== Sys2Proof/Machine/FlintOps.lean ====
section
/-!
DEFINITION. What every part of Flint shares: its lifecycle state, time, conduit frames and authenticated messages (R15 to
R17, R50, R243, R345, R346, R423).
-/
namespace Sys2Proof.Machine

/-! ### State Flint keeps -/

def State.drawWords : Nat → State → State × List W32
  | 0, s => (s, [])
  | k + 1, s =>
    let (s1, v) := s.draw
    let (s2, ws) := State.drawWords k s1
    (s2, w32 v :: ws)

/-- The lifecycle state two valid copies agree on; RETIRED otherwise (R423). -/
def Flint.lifecycle (f : Flint) : Nat :=
  let valid := (f.life.filter fun v => decide (fld v 0 3 ≤ 4) && fld v 8 3 == 7 - fld v 0 3).map fun v => fld v 0 3
  (((List.range 5).find? fun k => decide (2 ≤ (valid.filter (· == k)).length)).getD 4)

/-- Flint is powered, past its start, and not halted by a debugger. -/
def Flint.runs (f : Flint) : Bool := f.up && !f.halted
/-- A Flint INVASIVE session is open (R431). -/
def Flint.invasive (f : Flint) : Bool := f.level == 2
/-- Configured (R333), and with a committed curve (R319), as the drop in progress sees it. -/
def Use.conf (x : Use) : Bool := x.p.max != 0 && x.p.d != 0
def Use.cal (x : Use) : Bool := x.conf && !x.curve.isEmpty
/-- Comparison is active (R326, R350). -/
def Flint.active (f : Flint) : Bool := (f.mode == .paired || f.mode == .split) && f.kp && f.timed && !f.hiber

/-- The time carried by the RTC, in ns (R50). -/
def Flint.carried (f : Flint) : Nat := (f.carry.map fun c => c.1 + (f.rtc - c.2) * giga / 32768).getD 0

/-- The time that the RTC carries as a timestamp: quality CARRIED, UNSET where Flint has latched none. -/
def Flint.carriedStamp (f : Flint) : Nat := stampOf 0 f.carried (if f.carry.isSome then 3 else 0)

/-- Nominal start of the drop in progress, in units of 2^-32 ns (R27, R40). -/
def Flint.nominal (f : Flint) : Nat := (f.start + (f.next * f.len / max f.drops 1) * (2 ^ 32 : Nat)).toNat

/-- The quality of what Flint stamps by its drop schedule (R41). -/
def Flint.dropQuality (f : Flint) : Nat := if f.holdover || f.late then 1 else f.qual

/-- Flint's Quartz timestamp of this instant (R52, R53). Flint is told the time by the timing messages alone and counts its own oscillator between
them (R22, R40); the manual does not say how it dates what it makes within a drop. The model takes the nominal start of the drop in progress and an
open part of its length (DESIGN CHOICE, log entry 36). -/
def State.flintStamp (s : State) : Nat :=
  let f := s.fl
  if f.timed && !f.hiber then
    let t := f.nominal + Config.flintClock f.pos f.auditNext % max 1 (f.len * 2 ^ 32 / max f.drops 1)
    stampOf (t % 2 ^ 32) (t / 2 ^ 32) f.dropQuality
  else f.carriedStamp

/-- The RTC stands at `t` ticks; it never runs back. -/
def State.rtcAt (s : State) (t : Nat) : State := s.withFl fun f => { f with rtc := max f.rtc t }

/-! ### Conduit frames (R243) -/

/-- Queue a frame; a SAMPLE or LANTERN_EVENT that finds 16 frames is dropped and leaves a gap. -/
def Flint.frame (f : Flint) (kind source ts : Nat) (payload : List Byte) : Flint :=
  let seq := (getKey f.seqs (kind, source)).getD 0
  let f1 := { f with seqs := setKey f.seqs (kind, source) ((seq + 1) % 256) }
  let lossy := decide (kind ≤ 2)
  if lossy && decide (16 ≤ f.frames.length) then
    (if kind = 1 then { f1 with dropped := setKey f1.dropped source ((getKey f1.dropped source).getD 0 + 1) } else f1)
  else { f1 with frames := f1.frames ++ [⟨kind, source, seq, ts, payload⟩], dropped := if kind = 1 then setKey f1.dropped source 0 else f1.dropped }

def State.frame (s : State) (kind source ts : Nat) (payload : List Byte) : State := s.withFl fun f => f.frame kind source ts payload

/-- A framing word and its body as a MAILBOX_RESPONSE (R345, R346). -/
def State.flintSay (s : State) (kind tag status : Nat) (body : List W32) : State :=
  s.frame 3 0 s.flintStamp (wordsBytes (w32 (kind * 2 ^ 24 + tag % 256 * 2 ^ 16 + body.length * 2 ^ 8 + status) :: body))

/-! ### Keys and tags (R70, R342 to R345, R421) -/

/-- The CMAC of words as 4 words (R70). -/
def macWords (key : List Byte) (ws : List W32) : List W32 := leWords 4 (cmac key (wordsBytes ws))

/-- ASCII codes as bytes. -/
def ascii (l : List Nat) : List Byte := l.map (BitVec.ofNat 8)
/-- `GX32-`, with which every info string begins. -/
def gx32 : List Nat := [0x47, 0x58, 0x33, 0x32, 0x2D]

/-- The device's private key, from the device secret (R417). -/
def deviceKey : Nat := beVal ((hkdf64 Config.deviceSecret [] (ascii (gx32 ++ [0x44, 0x45, 0x56, 0x4B, 0x45, 0x59]))).take 40) % (p256N - 1) + 1
/-- Its public key: x, then y (R417, R420). -/
def devicePub : List Byte := pointBytes (ecMul deviceKey p256G)
/-- The identifier that belongs to a public key: 8 bytes of its digest (R279, R420). -/
def idOf (key : List Byte) : List Byte := (sha384 key).take 8
/-- The 8 bytes of the device identifier. -/
def deviceId : List Byte := idOf devicePub
/-- Software identification of an image: the first 4 bytes of its digest (R328). -/
def softId (b : List Byte) : W32 := w32 (leNat ((sha384 b).take 4))

/-- KM of the generation in force (R343): none until the metrology owner key is installed, or without the device secret. -/
def Flint.km (f : Flint) : Option (List Byte) :=
  if f.secret then f.metOwner.map fun k => hkdf (ecdhX deviceKey k) deviceId (ascii (gx32 ++ [0x4D, 0x45, 0x54]) ++ leBytes 4 f.kmGen) else none

/-- KC from a salt (R421). -/
def kcOf (salt : List Byte) : List Byte := hkdf Config.deviceSecret salt (ascii (gx32 ++ [0x4B, 0x43]))
/-- KG, the Gallery root key, from KC (R421). -/
def kgOf (kc : List Byte) : List Byte := hkdf kc deviceId (ascii (gx32 ++ [0x47, 0x41, 0x4C, 0x4C, 0x45, 0x52, 0x59]))

/-- Two identifiers in ascending order, byte by byte from byte 0 (R279). -/
def idsAscending (a b : List Byte) : List Byte := if beVal a ≤ beVal b then a ++ b else b ++ a
/-- KP from the twin's certificate (R344, R420): its identifier stands at byte 8, its public key at byte 16. -/
def kpOf (cert : List Byte) : List Byte :=
  hkdf (ecdhX deviceKey ((cert.drop 16).take 64)) (idsAscending deviceId ((cert.drop 8).take 8)) (ascii (gx32 ++ [0x50, 0x41, 0x49, 0x52]))

/-- The framing word of a message on the mailbox path (R345); its tag is its operation (log entry 30). -/
def framing (kind : Nat) (body : List W32) : W32 := w32 (kind * 2 ^ 24 + fld (body.getD 0 0).toNat 0 8 * 2 ^ 16 + body.length * 2 ^ 8)

/-- Whether a message of a KC kind authenticates: its counter exceeds the last, and its tag is the CMAC of its framing word and body (R345). -/
def Flint.kcOk (f : Flint) (kind : Nat) (body : List W32) (ctr : Nat) (tag : List W32) : Bool :=
  f.kc && tag == macWords f.kcKey (framing kind body :: body) && (f.kcCtr.map fun n => decide (n < ctr)).getD true

/-- A message of a KC kind arrives: it acts when it authenticates, or Flint answers E_AUTH (R345). -/
def State.kcMsg (s : State) (kind : Nat) (body : List W32) (ctr : Nat) (tag : List W32) (act : State → State) : Out :=
  if !s.fl.runs then .next s
  else
    let s1 := s.takeFlint kind body
    if s.fl.kcOk kind body ctr tag then .next (act (s1.withFl fun f => { f with kcCtr := some ctr }))
    else .next (s1.flintSay kind (fld (body.getD 0 0).toNat 0 8) eAuth [])

end Sys2Proof.Machine
end

