-- ==== Sys2Proof/Machine/Contexts.lean ====
section
/-!
DEFINITION. Contexts: creation, binding, start, stop, checkpoints and destruction (R214 to R229, R285, R286), and the end of
a host-memory transfer.
-/
namespace Sys2Proof.Machine

/-! ### CTX_CREATE (R215) -/

/-- Shares of REALTIME and ELASTIC contexts on a Geode. -/
def State.sharesOn (s : State) (g : Nat) : Nat :=
  ((s.ctxs.filter fun x => x.state != .free && x.cls != .background && bitAt x.mask g).map fun x => x.share).sum

/-- CTX_CREATE; `ch` is the leader's K. -/
def ctxCreate (c : Cmd) (ch : List Nat) (s : State) : Answer := do
  let v := c.word 0
  let x := fld v 0 5
  let share := fld v 12 9
  let mb := fld v 21 3
  let limit := fld (c.word 1) 0 24
  let mask := c.word 2
  let k := c.word 3 + c.word 4 * 2 ^ 32
  let addr := c.word 5 + c.word 6 * 2 ^ 32
  let size := c.word 7
  need (x < 24) eParam
  match OClass.ofCode (fld v 5 2) with
  | none => bad eParam
  | some cls =>
    need (1 ≤ share ∧ share ≤ 256) eParam
    need (mb = 0 ∨ 4 ≤ mb) eParam
    need (mask ≠ 0) eParam
    need (addr % 4096 = 0) eParam
    need (size % 4096 = 0) eParam
    need (addr + size ≤ 2 ^ 64) eParam
    need ((s.ctx x).state = .free) eState
    need (!(s.ctxs.any fun y => y.state != .free && y.client == some mb)) eState
    need ((List.range 32).all fun g => !(bitAt mask g && s.retiredG g)) eState
    need (cls = .background ∨ (List.range 32).all fun g => !bitAt mask g || decide (s.sharesOn g + share ≤ 256)) eNoSpace
    let (s0, r) := s.draw
    let given : Bool := k != 0 || ch != []
    let k' := if ch ≠ [] then ch.getD 0 0 else if k ≠ 0 then k else r % 2 ^ 64
    let y : Ctx :=
      { state := .created, cls := cls, prio := fld v 8 3, share := share, limit := if limit = 0 ∧ cls = .background then 30000 else limit, mask := mask,
        seedBase := k', client := if mb = 0 then none else some mb, ckAddr := addr, ckSize := if addr = 0 then 0 else size }
    pure ((if given then s else s0).withCtx x fun _ => y, w64 k', [k'])

def execCtxCreate (m tag : Nat) (s : State) : Out := s.run m tag 0x28 fun c => ctxCreate c []

/-! ### Images and Pocket windows (R108 to R110, R220) -/

/-- The bytes of the image at a context address, as the MP reads them, and whether any came with poison; none when it leaves
the slab set. -/
def State.readImage (s : State) (x a : Nat) : State × Option (List Byte × Bool) :=
  if !(s.ctx x).inSet a 128 false then (s, none)
  else
    let (s1, h, p) := s.dmaRead x a 128
    let n := max 128 (min 9024 (imgLength h))
    if !(s.ctx x).inSet a n false then (s1, none)
    else
      let (s2, b, p2) := s1.dmaRead x a n
      (s2, some (b, p || p2))

/-- Granules of the Pocket that windows of other slots use; the window of `slot` counts as free unless it is shared. -/
def Geode.usedGranules (d : Geode) (slot : Nat) : List Nat :=
  (List.range 4).flatMap fun j =>
    let w := d.slot j
    if w.state = .empty ∨ (j = slot ∧ !d.windowShared slot) then [] else range' w.base w.size

/-- The base of the lowest run of `n` free granules (R220). -/
def Geode.findWindow (d : Geode) (slot n : Nat) : Option Nat :=
  let used := d.usedGranules slot
  (List.range (33 - n)).find? fun b => (range' b n).all fun k => !used.contains k

/-- A slot after a load from an image (R110, R220). -/
def loadSlot (x : Nat) (y : Ctx) (b : List Byte) (base size first last : Nat) (img : Nat × Nat × Nat) (sl : Slot) : Slot :=
  let n := imgCount b
  let regs := b.drop (128 + 8 * n)
  let s0 := leWords 32 regs
  let a0 := (leWords 16 (regs.drop 128)).map fun w => BitVec.ofNat 32 (w.toNat % 2 ^ 21)
  { sl.clear with
    state := .loaded, ctx := x, cls := y.cls, prio := y.prio, limit := y.limit, base := base, size := size, firstNext := first, lastNext := last
    budgetNext := 0
    qin := imgField b 10 2, qout := imgField b 12 1
    prog := (List.range n).map fun k => BitVec.ofNat 64 (imgField b (128 + 8 * k) 8)
    image := some img
    s := s0, a := a0
    t := (List.range 32).map fun k => BitVec.ofNat 128 (leNat ((regs.drop (192 + 16 * k)).take 16))
    saved := { s := s0, a := a0, pc := 0, eCount := 0 } }

/-- Set `FMT` and `QUOTA` of every queue an image names (R110). -/
def State.imageQueues (s : State) (g : Nat) (b : List Byte) : State :=
  (List.range 24).foldl (fun s q => if imgNames b q then s.withQueue g q fun w => { w with fmt := imgFmt b q, quota := imgQuota b q, sent := [] } else s) s

/-! ### CTX_BIND (R220, R221, R285, R286) -/

/-- One entry of a binding list. -/
structure BindEnt where
  q : Nat
  kind : Nat
  peer : Nat
  peerQ : Nat
  deriving DecidableEq, Repr

def bindEnt (w : Nat) : BindEnt := ⟨fld w 0 5, fld w 5 2, fld w 7 5, fld w 12 5⟩

/-- The checks of R221 on one binding, in order: the status of the first that fails. -/
def State.bindCheck (s : State) (x g slot : Nat) (b : List Byte) (e : BindEnt) : Option Nat :=
  let mask := (s.ctx x).mask
  if !imgNames b e.q then some eParam
  else if e.kind < 2 then some eParam
  else if (e.kind = 2 ∧ !bitAt mask e.peer) ∨ (e.kind = 3 ∧ e.peer ≠ g) then some eParam
  else if decide (e.peerQ < 16) = decide (e.q < 16) then some eParam
  else if s.retiredG e.peer then some eState
  else
    let d := s.geode g
    let other := (List.range 4).any fun j =>
      let w := d.slot j
      (w.ins ++ w.outs).contains e.q && (w.state == .run || (j != slot && w.state == .loaded))
    if (d.queue e.q).left ≠ 0 || other then some eState else none

/-- Write one binding: this end only. An output queue's producer holds a credit for each free entry of its peer. -/
def State.bindQueue (s : State) (g : Nat) (e : BindEnt) : State :=
  s.withQueue g e.q fun w =>
    { w with bind := e.kind, peer := e.peer, peerQ := e.peerQ, credit := if e.q < 16 then 0 else s.freeEntries g e.kind e.peer e.peerQ, creditDue := 0 }

/-- Whether any queue an image names is not empty (R109 check 5). -/
def State.imageBusy (s : State) (g : Nat) (b : List Byte) : Bool := (List.range 24).any fun q => imgNames b q && (s.queue g q).left != 0

/-- CTX_BIND; `ch` is the leader's window base. -/
def ctxBind (c : Cmd) (ch : List Nat) (s : State) : Answer := do
  let v := c.word 0
  let x := fld v 0 5
  let g := fld v 5 5
  let slot := fld v 10 2
  let shared := bitAt v 12
  let from' := fld v 13 2
  let a := c.word 1
  let n := fld (c.word 3) 0 5
  let ents := (range' 4 n).map fun k => bindEnt (c.word k)
  need (x < 24) eParam
  need (n ≤ 24 ∧ n + 4 = c.words.length) eParam
  need (ents.all fun e => decide (e.q < 24) && decide (e.peerQ < 24)) eParam
  need ((ents.map fun e => e.q).dedup.length = n) eParam
  let y := s.ctx x
  need (y.state = .created ∨ y.state = .stopped ∨ y.state = .halted) eState
  match s.readImage x a with
  | (_, none) => bad eParam
  | (s1, some (b, poison)) =>
    need (bitAt y.mask g) eParam
    need (!s1.retiredG g) eState
    let d := s1.geode g
    let sl := d.slot slot
    need (sl.state = .empty ∨ sl.ctx = x) eState
    let imgs := ((s1.slotsOf x).filter fun z => z != (g, slot)).filterMap fun z => (s1.slot z.1 z.2).image.map fun i => i.1
    need (imgs.contains a ∨ imgs.dedup.length < 16) eNoSpace
    match ents.findSome? fun e => s1.bindCheck x g slot b e with
    | some st => bad st
    | none =>
      need (!poison) ePoison
      need (imgCheck1 b b.length) eParam
      need (imgCheck2 b) eParam
      need (bitAt (imgField b 9 1) y.cls.code) eParam
      let size := imgField b 8 1
      let w := d.slot from'
      need (!shared || (w.state != .empty && w.ctx == x)) eState
      match (if shared then (if w.size < size then none else some w.base) else if ch ≠ [] then ch.head? else d.findWindow slot size) with
      | none => bad eNoSpace
      | some base =>
        need (sl.state ≠ .run ∧ sl.state ≠ .halted ∧ !s1.imageBusy g b) eState
        let size' := if shared then w.size else size
        let ident := (s1.gal.slab (((y.ent (a / 2 ^ 20)).map fun e => e.slab).getD 0)).image
        let s2 := s1.withSlot g slot (loadSlot x y b base size' (fld (c.word 2) 0 8) (fld (c.word 2) 8 8) (a, ident, imgField b 68 4))
        let s3 := ents.foldl (fun s e => s.bindQueue g e) (s2.imageQueues g b)
        pure (s3.withCtx x fun y => { y with vacated := y.vacated.filter fun z => z != (g, slot) }, [w32 (base + size' * 2 ^ 8)], [base])

def execCtxBind (m tag : Nat) (s : State) : Out := s.run m tag 0x29 fun c => ctxBind c []

/-! ### CTX_START (R219, R222, R266) -/

/-- Whether queue `q` of Geode `g` meets conditions 2 and 3 of R222. -/
def State.queueReady (s : State) (x g q : Nat) : Bool :=
  let w := s.queue g q
  let p := s.queue w.peer w.peerQ
  w.bind != 0 && (w.bind != 2 || (p.bind == 2 && p.peer == g && p.peerQ == q && p.fmt == w.fmt && s.ctxNames x w.peer w.peerQ))

/-- Whether two slots of a Geode name one input queue. -/
def Geode.doubled (d : Geode) : Bool := (List.range 4).any fun j => (List.range j).any fun i =>
  (d.slot i).state != .empty && (d.slot j).state != .empty && ((d.slot i).qin &&& (d.slot j).qin) != 0

/-- CTX_START; `ch` is the leader's first drip. -/
def ctxStart (c : Cmd) (ch : List Nat) (s : State) : Answer := do
  let x := ctxField c
  need (x < 24) eParam
  let y := s.ctx x
  need (y.state = .created ∨ y.state = .stopped ∨ (y.state = .halted ∧ y.vacated = [])) eState
  let slots := s.slotsOf x
  need (slots ≠ [] ∧ slots.all fun z => (s.slot z.1 z.2).state == .loaded) eState
  need (slots.all fun z => ((s.slot z.1 z.2).ins ++ (s.slot z.1 z.2).outs).all fun q => s.queueReady x z.1 q) eState
  need (slots.all fun z => !(s.geode z.1).doubled) eState
  need (!s.dev.dripSet || workFits (s.work 0 1) s.shortL) eNoSpace
  let drip := ch.headD (if s.running then s.drip.count + 1 else 0)
  let s1 := s.writeBudgets x
  let s2 := slots.foldl (fun s z => s.withSlot z.1 z.2 fun sl => { sl with state := .run }) s1
  pure (s2.withCtx x fun y => { y with state := .running, stopping := false, halting := false, stopArmed := false, retiredSlots := [], done := range' (drip - 6) (min drip 6) }, w64 drip, [drip])

def execCtxStart (m tag : Nat) (s : State) : Out := s.run m tag 0x2A fun c => ctxStart c []

/-! ### CTX_STOP (R223) -/

/-- The queues the slots of a context name, those of its vacated slots with them: Geode and queue. -/
def State.queuesOf (s : State) (x : Nat) : List (Nat × Nat) :=
  let gone := ((s.ctx x).vacated ++ (s.ctx x).retiredSlots).filter fun z => (s.slot z.1 z.2).state == .empty && (s.slot z.1 z.2).ctx == x
  ((s.slotsOf x ++ gone).flatMap fun z => ((s.slot z.1 z.2).ins ++ (s.slot z.1 z.2).outs).map fun q => (z.1, q)).dedup

/-- Blocks, markers and held entries left in a context's queues. -/
def State.leftIn (s : State) (x : Nat) : List W32 :=
  let ws := (s.queuesOf x).map fun p => s.queue p.1 p.2
  [(ws.map fun w => blockCount w.entries).sum, (ws.map fun w => w.markers + w.waiting.length).sum, (ws.map fun w => w.held.length).sum].map w32

/-- Whether a slot of the context is in a firing. -/
def State.ctxFires (s : State) (x : Nat) : Bool :=
  (s.slotsOf x).any fun z => ((s.geode z.1).firing.map fun f => f.slot) == some z.2

/-- Steps 4 to 6 of R223: slots LOADED, queues discarded as the class gives, the context STOPPED, or HALTED after R225. -/
def State.stopNow (s : State) (x : Nat) : State :=
  let y := s.ctx x
  let s1 := (s.slotsOf x).foldl (fun s z => s.withSlot z.1 z.2 fun sl => if sl.state = .run then { sl with state := .loaded, stopping := false } else sl) s
  let s2 := if y.cls = .background then s1 else (s1.queuesOf x).foldl (fun s p => s.discardQueue p.1 p.2) s1
  s2.withCtx x fun y => { y with state := if y.halting then .halted else .stopped, stopping := false, halting := false, stopArmed := false }

/-- Start CTX_STOP. -/
def ctxStop (m : Nat) (c : Cmd) (s : State) : Begun := do
  let x := ctxField c
  need (x < 24) eParam
  let y := s.ctx x
  need (y.state ≠ .free) eState
  if y.state ≠ .running then pure (s.finish m c sOk (s.leftIn x) [0])
  else if s.running then pure (((s.zeroBudgets x).withCtx x fun y => { y with stopping := true }).setPhase m c 1 [x])
  else
    let s1 := (s.zeroBudgets x).stopNow x
    pure (s1.finish m c sOk (s1.leftIn x) [0])

def execCtxStop (m tag : Nat) (s : State) : Out := s.begin m tag 0x2B fun c => ctxStop m c

/-- Every firing of a stopping context has ended: R223 steps 4 to 6, and the response of its CTX_STOP. -/
def execCtxStopComplete (ctx : Nat) (s : State) : Out :=
  let y := s.ctx ctx
  if !(y.stopping || y.halting) || !y.stopArmed || s.ctxFires ctx then .next s
  else
    let s1 := s.stopNow ctx
    match (List.range 8).findSome? fun m => ((s.mb m).out.find? fun c => c.op == 0x2B && c.phase == 1 && c.note == [ctx]).map fun c => (m, c) with
    | some (m, c) => .next (s1.finish m c sOk (s1.leftIn ctx) [0])
    | none => .next s1

/-! ### CTX_DESTROY (R226) -/

/-- Steps 1 to 5 of R226, up to the zeroing of the owned slabs; the client mailbox is released after it. -/
def State.tearDown (s : State) (x : Nat) (reads : List (Nat × Nat)) : State :=
  let qs := s.queuesOf x
  let s1 := (s.slotsOf x).foldl (fun s z => s.emptySlot z.1 z.2) s
  let s2 := qs.foldl (fun s p => (s.discardQueue p.1 p.2).withQueue p.1 p.2 fun w => { w with bind := 0, peer := 0, peerQ := 0 }) s1
  let s3 := (List.range 64).foldl (fun s i => if (s.stream i).state ≠ 0 ∧ (s.stream i).ctx = x then (s.closeStream i ((getKey reads i).getD (s.stream i).rIdx)).1 else s) s2
  let owned := ((s.ctx x).map.filter fun e => e.2.write).map fun e => e.2.slab
  (owned.foldl (fun s sl => s.startZero sl) s3).withCtx x fun y =>
    { y with share := 0, vacated := [], retiredSlots := [], map := y.map.filter fun e => e.2.write, closed := [], bg := [] }

/-- Start CTX_DESTROY; `reads` are the read indices of the output streams it closes. -/
def ctxDestroy (reads : List (Nat × Nat)) (m : Nat) (c : Cmd) (s : State) : Begun := do
  let x := ctxField c
  need (x < 24) eParam
  let y := s.ctx x
  need (y.state ≠ .free ∧ y.state ≠ .running) eState
  let owned := (y.map.filter fun e => e.2.write).map fun e => e.2.slab
  need (owned.all fun sl => (s.mappers sl).length == 1) eState
  let s1 := s.tearDown x reads
  if owned = [] then pure ((s1.withCtx x fun _ => {}).finish m c sOk [] [0])
  else pure (s1.setPhase m c 1 owned)

def execCtxDestroy (m tag : Nat) (reads : List (Nat × Nat)) (s : State) : Out := s.begin m tag 0x2D fun c => ctxDestroy reads m c

/-! ### Checkpoints (R227 to R229) -/

/-- `GD_Qq_CFG` (R104). -/
def Queue.cfg (w : Queue) : Nat := w.fmt + w.quota * 2 ^ 4 + w.bind * 2 ^ 12 + w.peer * 2 ^ 16 + w.peerQ * 2 ^ 24

/-- The 80 bytes of a tracker: entry k is the newest interval's k-th predecessor (log entry 24). -/
def Tracker.bytes (t : Tracker) : List Byte :=
  let newest := (t.entries.map fun e => e.interval).foldl max 0
  let ent (k : Nat) : Option TrEntry := t.entries.find? fun e => e.interval + k == newest && !e.void
  let valid := ((List.range 16).map fun k => bit (ent k).isSome * 2 ^ k).sum
  leBytes 4 t.scale.toNat ++ leBytes 1 (bit t.held) ++ leBytes 1 t.last ++ leBytes 2 valid ++
    ((List.range 16).flatMap fun k => leBytes 4 (((ent k).map fun e => (toF32 (.fin false e.max (-149))).toNat).getD 0)) ++ leBytes 4 newest ++ leBytes 4 0

/-- Read a tracker back; intervals are those nearest to `cur`. -/
def readTracker (cur : Nat) (b : List Byte) : Tracker :=
  let newest := near64 cur (imgField b 72 4)
  let valid := imgField b 6 2
  { scale := BitVec.ofNat 32 (imgField b 0 4), held := imgField b 4 1 != 0, last := imgField b 5 1
    entries := ((List.range 16).filter fun k => bitAt valid k && decide (k ≤ newest)).map fun k =>
      ⟨newest - k, (magUnits (decodeNum .fp32 (imgField b (8 + 4 * k) 4))).getD 0, false⟩ }

/-- The slot whose window this slot shares, the lowest-numbered one (R228 byte 5). -/
def Geode.sharer (d : Geode) (i : Nat) : Nat :=
  let a := d.slot i
  ((List.range i).find? fun j => decide (a.size ≠ 0) && (d.slot j).state != .empty && (d.slot j).ctx == a.ctx && (d.slot j).base == a.base && (d.slot j).size == a.size).getD 0xFF

/-- The images of a context's slots, by context address: address, identifier, Check. -/
def State.imagesOf (s : State) (x : Nat) : List (Nat × Nat × Nat) := ((s.slotsOf x).filterMap fun z => (s.slot z.1 z.2).image).dedup

/-- One slot record. -/
def State.slotRec (s : State) (x g i : Nat) : List Byte :=
  let d := s.geode g
  let sl := d.slot i
  let img := ((s.imagesOf x).findIdx? fun z => some z == sl.image).getD 0
  let sh := d.sharer i
  let pc := if sl.cls = .background then sl.saved.pc else sl.pc
  ([g, i, img, sl.base, sl.size, sh, sl.firstNext, sl.lastNext].flatMap fun v => leBytes 1 v) ++ leBytes 2 pc ++ leBytes 2 0 ++ leBytes 4 sl.micro ++
    ((List.range 24).flatMap fun q => leBytes 4 (d.queue q).cfg) ++ leBytes 4 (sl.micro / 2 ^ 32) ++ List.replicate 76 0 ++
    wordsBytes sl.s ++ wordsBytes sl.a ++ (sl.t.flatMap fun w => leBytes 16 w.toNat) ++ (sl.v.flatMap fun w => wordsBytes w.lanes) ++
    padTo 64 (leBytes 2 (((sl.v.zipIdx).map fun w => bit w.1.poison * 2 ^ w.2).sum)) ++ (sl.trk.flatMap fun t => t.bytes) ++
    (if sh = 0xFF then d.pocket.readN (sl.base * 2 ^ 16) sl.window else [])

/-- One slab record with the content of an owned slab that is not scratch, which a DMA queue reads. -/
def State.slabRec (s : State) (i : Nat) (e : MapEnt) : State × List Byte :=
  let w := s.gal.slab e.slab
  let (s1, data) := if e.write ∧ !w.scratch then (let (s1, b, _) := s.dmaReadP (galAt e.slab 0) (2 ^ 20); (s1, b)) else (s, [])
  (s1, leBytes 2 i ++ leBytes 1 (if e.write then 1 + 4 * bit w.scratch else 2) ++ leBytes 1 0 ++ leBytes 4 (if e.write then 0 else w.image) ++ leBytes 8 0 ++ data)

/-- A checkpoint with its CRC field zero. -/
def State.ckptRaw (s : State) (x : Nat) : State × List Byte :=
  let y := s.ctx x
  let slots := s.slotsOf x
  let recs := slots.flatMap fun z => s.slotRec x z.1 z.2
  let (s1, slabs) := y.map.foldl (fun (r : State × List Byte) e => let (s1, b) := r.1.slabRec e.1 e.2; (s1, r.2 ++ b)) (s, [])
  let imgs := (s.imagesOf x).flatMap fun z => leBytes 4 z.2.1 ++ leBytes 4 z.2.2 ++ leBytes 4 z.1 ++ leBytes 4 0
  let head := leBytes 4 0x4758434B ++ leBytes 2 1 ++ leBytes 2 slots.length ++ leBytes 2 y.map.length ++ leBytes 2 0 ++
    leBytes 4 (384 + recs.length + slabs.length) ++ leBytes 4 0 ++ leBytes 1 y.cls.code ++ leBytes 1 y.prio ++ leBytes 2 y.share ++ leBytes 4 y.limit ++
    leBytes 4 y.mask ++ leBytes 8 y.seedBase ++ leBytes 8 s.drip.count ++ leBytes 16 s.stamp
  (s1, padTo 128 head ++ padTo 256 imgs ++ recs ++ slabs)

/-- Put the CRC-32C of a checkpoint into its field. -/
def ckptSeal (b : List Byte) : List Byte := b.take 16 ++ leBytes 4 (crc32c b).toNat ++ b.drop 20

/-- The length a checkpoint of a context takes. -/
def State.ckptSize (s : State) (x : Nat) : Nat :=
  384 + ((s.slotsOf x).map fun z => 5376 + (if (s.geode z.1).sharer z.2 = 0xFF then (s.slot z.1 z.2).window else 0)).sum +
    ((s.ctx x).map.map fun e => 16 + (if e.2.write ∧ !(s.gal.slab e.2.slab).scratch then 2 ^ 20 else 0)).sum

/-- Start CTX_CHECKPOINT in save mode: the checks of R227. -/
def ckptSave (m : Nat) (c : Cmd) (s : State) : Begun := do
  let x := ctxField c
  need (x < 24) eParam
  let y := s.ctx x
  need (y.state = .stopped) eState
  need (y.ckSize ≠ 0) eState
  need (!(y.map.any fun e => e.2.write && e.2.prot)) eState
  need ((s.queuesOf x).all fun p => (s.queue p.1 p.2).left == 0) eState
  if y.ckSize < s.ckptSize x then .error (eNoSpace, [0, w32 (s.ckptSize x)])
  else pure (s.setPhase m c 1 [])

/-- CTX_CHECKPOINT, save. -/
def execCtxCheckpointSave (m tag : Nat) (s : State) : Out :=
  match s.cmdIn m tag 0x2C 0 with
  | none => .next s
  | some c => if bitAt (c.word 0) 8 then .next s else s.begin m tag 0x2C fun c => ckptSave m c

/-- Start CTX_CHECKPOINT in restore mode: the context is CREATED and has an area; `ch` is the leader's choice of slabs. -/
def ckptRestore (m : Nat) (ch : List Nat) (c : Cmd) (s : State) : Begun := do
  let x := ctxField c
  need (x < 24) eParam
  need ((s.ctx x).state = .created) eState
  need ((s.ctx x).ckSize ≠ 0) eState
  pure (s.setPhase m c 1 ch)

/-- CTX_CHECKPOINT, restore. -/
def execCtxCheckpointRestore (m tag : Nat) (s : State) : Out :=
  match s.cmdIn m tag 0x2C 0 with
  | none => .next s
  | some c => if bitAt (c.word 0) 8 then s.begin m tag 0x2C fun c => ckptRestore m [] c else .next s

/-- A slab record read back: index, flags, image identifier, content. -/
structure SlabIn where
  index : Nat
  owned : Bool
  scratch : Bool
  image : Nat
  data : List Byte
  deriving DecidableEq, Repr

/-- The slot records at the head of some bytes: each record with its window's contents, and what follows; none when the
bytes end early. -/
def readSlots : Nat → List Byte → Option (List (List Byte × List Byte) × List Byte)
  | 0, b => some ([], b)
  | k + 1, b =>
    let n := if imgField b 5 1 = 0xFF then min (imgField b 4 1) (32 - imgField b 3 1) * 2 ^ 16 else 0
    if b.length < 5376 + n then none
    else (readSlots k (b.drop (5376 + n))).map fun r => ((b.take 5376, (b.drop 5376).take n) :: r.1, r.2)

/-- The slab records at the head of some bytes, which must end with them. -/
def readSlabs : Nat → List Byte → Option (List SlabIn)
  | 0, b => if b.isEmpty then some [] else none
  | k + 1, b =>
    let f := imgField b 2 1
    let n := if bitAt f 0 && !bitAt f 2 then 2 ^ 20 else 0
    if b.length < 16 + n then none
    else (readSlabs k (b.drop (16 + n))).map fun r => ⟨imgField b 0 2, bitAt f 0, bitAt f 2, imgField b 4 4, (b.drop 16).take n⟩ :: r

/-- A checkpoint of the right form: image table, slot records, slab records (R229 check 1). -/
def readCkpt (y : Ctx) (b : List Byte) : Option (List (Nat × Nat × Nat) × List (List Byte × List Byte) × List SlabIn) :=
  let len := imgField b 12 4
  let c := b.take len
  if imgField b 0 4 ≠ 0x4758434B ∨ imgField b 4 2 ≠ 1 ∨ b.length < len ∨ len < 384 ∨ y.ckSize < len then none
  else if (crc32c (c.take 16 ++ List.replicate 4 0 ++ c.drop 20)).toNat ≠ imgField b 16 4 then none
  else if imgField b 20 1 ≠ y.cls.code ∨ imgField b 28 4 ≠ y.mask then none
  else
    let imgs := (List.range 16).map fun k => (imgField b (128 + 16 * k + 8) 4, imgField b (128 + 16 * k) 4, imgField b (128 + 16 * k + 4) 4)
    (readSlots (imgField b 6 2) (c.drop 384)).bind fun r => (readSlabs (imgField b 8 2) r.2).map fun l => (imgs, r.1, l)

/-- Bytes of an image at its address: in an owned slab of the checkpoint, or in the Gallery through a share. -/
def State.ckptImage (s : State) (x : Nat) (slabs : List SlabIn) (a n : Nat) : State × List Byte :=
  match slabs.find? fun z => z.owned && z.index == a / 2 ^ 20 with
  | some z => (s, (z.data.drop (a % 2 ^ 20)).take n)
  | none => if (s.ctx x).inSet a n false then (let (s1, b, _) := s.dmaRead x a n; (s1, b)) else (s, [])

/-- Restore one slot from its record and image (R229, R110). -/
def State.restoreSlot (s0 : State) (x : Nat) (imgs : List (Nat × Nat × Nat)) (r : List Byte × List Byte) : State :=
  let b := r.1
  let g := imgField b 0 1 % 32
  let i := imgField b 1 1 % 4
  let img := imgs.getD (imgField b 2 1) (0, 0, 0)
  let y := s0.ctx x
  let (sh, head, _) := s0.dmaRead x img.1 128
  let (s, p, _) := sh.dmaRead x img.1 (max 128 (min 9024 (imgLength head)))
  let micro := imgField b 12 4 + imgField b 112 4 * 2 ^ 32
  let base := imgField b 3 1
  let size := imgField b 4 1
  let pc := imgField b 8 2
  let ss := leWords 32 (b.drop 192)
  let as := leWords 16 (b.drop 320)
  let cur := if y.cls = .background then micro else s.drip.count
  let s1 := (s.withSlot g i (loadSlot x y p base size (imgField b 6 1) (imgField b 7 1) img)).imageQueues g p
  let s2 := s1.withSlot g i fun sl =>
    { sl with
      pc := pc, micro := micro, s := ss, a := as
      t := (List.range 32).map fun k => BitVec.ofNat 128 (imgField b (384 + 16 * k) 16)
      v := (List.range 16).map fun k => { lanes := leWords 64 (b.drop (896 + 256 * k)), poison := bitAt (imgField b 4992 2) k }
      trk := (List.range 4).map fun k => readTracker cur (b.drop (5056 + 80 * k))
      saved := { s := ss, a := as, pc := pc, eCount := 0 } }
  let s3 := (List.range 24).foldl (fun s q =>
    if ((s.slot g i).ins ++ (s.slot g i).outs).contains q then
      let v := imgField b (16 + 4 * q) 4
      let kind := fld v 12 2
      let s' := s.withQueue g q fun w => { w with fmt := fld v 0 3, quota := fld v 4 6, bind := 0, peer := 0, peerQ := 0 }
      if kind < 2 then s' else s'.bindQueue g ⟨q, kind, fld v 16 6 % 32, fld v 24 5⟩
    else s) s2
  if imgField b 5 1 = 0xFF then s3.withGeode g fun d => { d with pocket := (d.pocket.clear (base * 2 ^ 16) r.2.length).writeN (base * 2 ^ 16) r.2, poison := writeMarks d.poison (base * 2 ^ 16) r.2.length false } else s3

/-- The end of a restore (R229): the checks in order, then slabs, slots and K; `ch` is the leader's choice of slabs. -/
def State.endRestore (s : State) (m : Nat) (c : Cmd) (data : List Byte) (ch : List Nat) : State :=
  let x := ctxField c
  let y := s.ctx x
  let fail (s : State) (st : Nat) (ws : List W32) : State := s.finish m c st ws [0]
  match readCkpt y data with
  | none => fail s eParam []
  | some (imgs, slots, slabs) =>
    let owned := slabs.filter fun z => z.owned
    let used := slots.map fun r => imgs.getD (imgField r.1 2 1) (0, 0, 0)
    let (sr, checks) := used.foldl (fun (r : State × List Bool) i =>
      let (s', b) := r.1.ckptImage x slabs (i.1 + 68) 4
      (s', r.2 ++ [imgField b 0 4 == i.2.2])) (s, [])
    if (y.map.any fun e => e.2.write) || !((slabs.filter fun z => !z.owned).all fun z => ((y.ent z.index).map fun e => !e.write).getD false) then fail s eState []
    else if !checks.all id then fail sr eState []
    else
      let free := (List.range 512).filter fun sl => (s.gal.slab sl).state == .free
      let clash (r : List Byte) : Bool :=
        let g := imgField r 0 1 % 32
        let i := imgField r 1 1 % 4
        ((s.slot g i).state != .empty && (s.slot g i).ctx != x) || (List.range 4).any fun j => (s.slot g j).state != .empty &&
          (range' (s.slot g j).base (s.slot g j).size).any fun k => decide (imgField r 3 1 ≤ k) && decide (k < imgField r 3 1 + imgField r 4 1)
      if free.length < owned.length || slots.any fun r => clash r.1 then fail sr eNoSpace [0, w32 (imgField data 12 4)]
      else
        let pick := if ch.length = owned.length ∧ owned ≠ [] then ch else free.take owned.length
        let s1 := (pick.zip owned).foldl (fun s z =>
          let sl := z.1
          let w : Slab := { state := .owned, owner := x, scratch := z.2.scratch }
          let s' := (s.withGal fun g => g.withSlab sl fun _ => w).withCtx x fun y => { y with map := insEnt z.2.index ⟨sl, true, false⟩ y.map }
          s'.dmaWriteP (galAt sl 0) z.2.data) sr
        let s2 := slots.foldl (fun s r => s.restoreSlot x imgs r) s1
        (s2.withCtx x fun y => { y with state := .stopped, seedBase := imgField data 32 8 }).finish m c sOk [w32 (imgField data 12 4), 0] pick

/-- The end of a save. -/
def State.endSave (s : State) (m : Nat) (c : Cmd) (failed : Option Nat) : State :=
  let x := ctxField c
  let (s, raw) := s.ckptRaw x
  let b := ckptSeal raw
  match failed with
  | some k =>
    let k' := min k (b.length - 1)
    ({ s with host := s.host.writeN (s.ctx x).ckAddr (b.take k') }).finish m c eTimeout [w32 k'] [0]
  | none => ({ s with host := s.host.writeN (s.ctx x).ckAddr b }).finish m c sOk [w32 b.length, 0] [0]

/-- A host-memory transfer ends, while the Gallery takes requests: `data` is what the host sent, and `failed` the bytes moved before the host link rejected it. -/
def execDmaTransferDone (m tag : Nat) (data : List Byte) (failed : Option Nat) (s : State) : Out :=
  let find (op : Nat) : Option Cmd := if s.galOpen then s.cmdIn m tag op 1 else none
  match find 0x1B, find 0x1D, find 0x1C, find 0x2C with
  | some c, _, _, _ => .next (s.endIn m c data failed)
  | _, some c, _, _ => .next (s.endIn m c data failed)
  | _, _, some c, _ => .next (s.endOut m c failed)
  | _, _, _, some c =>
    if bitAt (c.word 0) 8 then
      match failed with
      | some k => .next (s.finish m c eTimeout [w32 k] [0])
      | none => .next (s.endRestore m c data c.note)
    else .next (s.endSave m c failed)
  | none, none, none, none => .next s

end Sys2Proof.Machine
end

