-- ==== Sys2Proof/Machine/Regs.lean ====
section
/-!
DEFINITION. Every register of the manual: what a read returns and clears, and what a write stores, clears or ignores, by
requester (R7, R8, R43, R44, R56, R94, R103, R104, R211, R310, R311, R313, R378, R410, R412, R439).
-/
namespace Sys2Proof.Machine

/-! ### Requesters: 0 to 7 the cores, 8 the MP, 9 the host -/

/-- Whether a register belongs to the host's window (R56). -/
def isWindow : Reg → Bool
  | .devVendor | .devPart | .devStepping | .devProto | .devState | .faultStatus | .faultCtrl | .heartbeat | .winStatus => true
  | .mbxCmdData _ | .mbxCmdCount _ | .mbxRspData _ | .mbxRspCount _ | .mbxCtrl _ | .mbxStatus _ => true
  | _ => false

/-- Whether only the MP reaches a register: a core reads zero and its writes are ignored (R104, R211, R378, R410, R439). -/
def mpOnly : Reg → Bool
  | .gd _ _ | .galCtrl | .galStatus | .galCe _ | .galUe _ | .galErr _ | .wakeCause | .fcuCtrl | .fcuTwin | .fcuClk => true
  | .dbgStatus | .dbgCtrl | .secCtrl | .secGalKey _ => true
  | _ => false

def mayRead (who : Nat) (r : Reg) : Bool :=
  if who = 9 then isWindow r else !isWindow r && (who == 8 || !mpOnly r)

/-! ### Offsets -/

/-- The register at an offset of the host's window (R56). -/
def windowReg (o : Nat) : Option Reg :=
  match o with
  | 0x000 => some .devVendor
  | 0x004 => some .devPart
  | 0x008 => some .devStepping
  | 0x00C => some .devProto
  | 0x010 => some .devState
  | 0x040 => some .faultStatus
  | 0x044 => some .faultCtrl
  | 0x048 => some .heartbeat
  | 0x04C => some .winStatus
  | _ =>
    if 0x100 ≤ o ∧ o < 0x200 then
      let m := (o - 0x100) / 0x20
      match (o - 0x100) % 0x20 with
      | 0x00 => some (.mbxCmdData m)
      | 0x04 => some (.mbxCmdCount m)
      | 0x08 => some (.mbxRspData m)
      | 0x0C => some (.mbxRspCount m)
      | 0x10 => some (.mbxCtrl m)
      | 0x14 => some (.mbxStatus m)
      | _ => none
    else none

/-- The register at an offset of the Quartz block (R43). -/
def qtzReg (o : Nat) : Option Reg :=
  match o with
  | 0x000 => some .qtzNowFrac
  | 0x004 => some .qtzNowNs
  | 0x008 => some .qtzNowSecLo
  | 0x00C => some .qtzNowSecHi
  | 0x010 => some .qtzRate
  | 0x014 => some .qtzStep
  | 0x018 => some .qtzStatus
  | 0x020 => some .ppsCapNs
  | 0x024 => some .ppsCapSecLo
  | 0x028 => some .ppsCapSecHi
  | 0x040 => some .dripCountLo
  | 0x044 => some .dripCountHi
  | 0x048 => some .dripLen
  | 0x04C => some .dripCfg
  | _ => none

/-- The register at an offset of a Geode's block (R104, R134, R185, R402). -/
def gdReg (o : Nat) : Option GReg :=
  match o with
  | 0x000 => some .status
  | 0x004 => some .fault
  | 0x008 => some .ceCount
  | 0x010 => some .calLog0
  | 0x014 => some .calLog1
  | 0x018 => some .calCount
  | 0x020 => some .katCtrl
  | 0x024 => some .katStatus
  | _ =>
    if 0x100 ≤ o ∧ o < 0x180 then
      let i := (o - 0x100) / 0x20
      match (o - 0x100) % 0x20 with
      | 0x00 => some (.slotCtrl i)
      | 0x04 => some (.slotBudget i)
      | 0x08 => some (.slotUsed i)
      | 0x0C => some (.slotWindow i)
      | 0x10 => some (.slotLimit i)
      | 0x14 => some (.slotPocket i)
      | 0x18 => some (.slotQmask i)
      | 0x1C => some (.slotFault i)
      | _ => none
    else if 0x400 ≤ o ∧ o < 0x580 then
      let q := (o - 0x400) / 0x10
      match (o - 0x400) % 0x10 with
      | 0x0 => some (.qCfg q)
      | 0x4 => some (.qStatus q)
      | 0x8 => some (.qCtrl q)
      | _ => none
    else none

/-- The register at an offset of the Gallery's block (R211). -/
def galReg (o : Nat) : Option Reg :=
  match o with
  | 0x000 => some .galCtrl
  | 0x004 => some .galStatus
  | _ =>
    if 0x100 ≤ o ∧ o < 0x300 then
      match (o - 0x100) % 0x10 with
      | 0x0 => some (.galCe ((o - 0x100) / 0x10))
      | 0x4 => some (.galUe ((o - 0x100) / 0x10))
      | 0x8 => some (.galErr ((o - 0x100) / 0x10))
      | _ => none
    else none

/-- The register at an offset of the Shelf's block (R310). -/
def shelfReg (o : Nat) : Option Reg :=
  match o with
  | 0x000 => some .shelfCtrl
  | 0x004 => some .shelfStatus
  | 0x008 => some .shelfErr
  | 0x00C => some .shelfErrLoc
  | 0x010 => some .shelfCeCount
  | _ => none

/-- The register at an offset of the FCU's block (R410). -/
def fcuReg (o : Nat) : Option Reg :=
  match o with
  | 0x000 => some .fcuCtrl
  | 0x004 => some .fcuTwin
  | 0x008 => some .fcuClk
  | _ => none

/-- The register at an offset of the security block (R439). -/
def secReg (o : Nat) : Option Reg :=
  match o with
  | 0x000 => some .dbgStatus
  | 0x004 => some .dbgCtrl
  | 0x008 => some .secCtrl
  | _ => if 0x020 ≤ o ∧ o < 0x040 ∧ o % 4 = 0 then some (.secGalKey ((o - 0x020) / 4)) else none

/-- The register that a block at `base` gives for address `a`. -/
def inBlock (base a : Nat) (f : Nat → Option Reg) : Option Reg := if base ≤ a then f (a - base) else none

/-- The register of Geode `g` at an offset of the Geodes' blocks: 0x1000 for each (R104). -/
def gdBlockReg (o : Nat) : Option Reg := if o < 32 * 0x1000 then (gdReg (o % 0x1000)).map fun r => .gd (o / 0x1000) r else none

/-- The register at a byte address of the compute-die system window, from its start: each block at its base (R295). -/
def sysReg (a : Nat) : Option Reg :=
  (inBlock Config.qtzBase a qtzReg).or <| (inBlock Config.gdBase a gdBlockReg).or <| (inBlock Config.galBase a galReg).or <|
    (inBlock Config.shelfBase a shelfReg).or <| (inBlock Config.fcuBase a fcuReg).or <| (inBlock Config.secBase a secReg).or <|
    inBlock Config.pwrBase a fun o => if o = 0 then some .wakeCause else none

/-! ### Values -/

/-- `FAULT_STATUS` (R56, R408). -/
def State.faultStatus (s : State) : Nat :=
  bit s.fcu.faultN + 2 * bit s.fcu.mpHalt + 4 * bit s.fcu.clock + 8 * bit s.fcu.twinSignal + 16 * bit s.fcu.result +
    min 255 s.recCount * 2 ^ 8 + s.tw.mode.code * 2 ^ 16

/-- The cause an FCU sends (R393). -/
def State.alertTx (s : State) : Nat := if s.fcu.mpHalt then 2 else if s.fcu.clock then 3 else if s.fcu.holdTx then 4 else 1

/-- `CIC_PENDING` (R313). -/
def Cic.pendingWord (c : Cic) : Nat := c.pending + 4 * bit (c.doorbell != 0)
/-- The external interrupt: a source other than IPI is set together with its enable bit (R311). -/
def Cic.external (c : Cic) : Bool := c.pendingWord &&& c.enable &&& 0x17 != 0
/-- The machine software interrupt, which IPI drives while it is enabled (R311; the enable is DEDUCED, log entry 26). -/
def Cic.software (c : Cic) : Bool := c.pendingWord &&& c.enable &&& 8 != 0

/-- `GD_STATUS.STATE` (R104). -/
def Geode.stateCode (d : Geode) : Nat :=
  if d.retired then 3 else if d.veinPending ≠ 0 ∧ d.firing.isNone then 2 else if d.slots.any fun x => x.state == .run then 1 else 0

/-- The value of a Geode register. -/
def Geode.reg (d : Geode) : GReg → Nat
  | .status => d.stateCode + 4 * bit d.spareUsed + 8 * bit d.firing.isSome + 16 * d.lastSlot
  | .fault => d.fault.toNat
  | .ceCount => d.ceCount
  | .calLog0 => d.calLog0.toNat
  | .calLog1 => d.calLog1.toNat
  | .calCount => d.calCount
  | .katCtrl => 0
  | .katStatus => bit d.kat.busy + 2 * bit d.kat.done + 4 * bit d.kat.fail + 8 * d.kat.unit
  | .slotCtrl i => let x := d.slot i; x.state.code + 4 * x.ctx + 2 ^ 8 * x.cls.code + 2 ^ 12 * x.prio
  | .slotBudget i => (d.slot i).budgetNext
  | .slotUsed i => let x := d.slot i; min x.used (2 ^ 26 - 1) + 2 ^ 31 * bit (x.state != .empty && decide (x.budget ≤ x.used))
  | .slotWindow i => let x := d.slot i; x.firstNext + 2 ^ 8 * x.lastNext
  | .slotLimit i => (d.slot i).limit
  | .slotPocket i => let x := d.slot i; x.base + 2 ^ 8 * x.size
  | .slotQmask i => let x := d.slot i; x.qin + 2 ^ 16 * x.qout
  | .slotFault i => let x := d.slot i; x.cause + 2 ^ 8 * x.faultPc
  | .qCfg q => (d.queue q).cfg
  | .qStatus q =>
    let w := d.queue q
    w.count + 2 ^ 6 * w.markers + 2 ^ 9 * (if q < 16 then 0 else w.credit) + 2 ^ 15 * blockCount w.held
  | .qCtrl _ => 0

/-- `MBXm_STATUS` (R56). -/
def Mbx.status (b : Mbx) : Nat := bit b.rspPoison + 2 * bit b.cmdOvf + 4 * bit b.rspUndf + 8 * bit b.evtLost + 16 * bit b.cmdHeld

/-- The value a register shows to a requester. -/
def State.regValue (s : State) (who : Nat) : Reg → Nat
  | .devVendor => 0x0B6E
  | .devPart => 0x0320
  | .devStepping => 0x11
  | .devProto => s.dev.proto
  | .devState => s.dev.phase + 16 * s.role
  | .faultStatus => s.faultStatus
  | .faultCtrl => 0
  | .heartbeat => s.dev.heartbeat
  | .winStatus => bit s.dev.accErr
  | .mbxCmdData _ => 0
  | .mbxCmdCount m => (s.mb m).cmd.length
  | .mbxRspData m => (((s.mb m).rsp.head?.bind fun x => x.words.head?).getD 0).toNat
  | .mbxRspCount m => (s.mb m).rspCount
  | .mbxCtrl _ => 0
  | .mbxStatus m => (s.mb m).status
  | .qtzNowFrac => s.time.now % nsU
  | .qtzNowNs => (s.time.latches.getD who {}).ns
  | .qtzNowSecLo => (s.time.latches.getD who {}).sec % 2 ^ 32
  | .qtzNowSecHi => (s.time.latches.getD who {}).sec / 2 ^ 32 % 2 ^ 16
  | .qtzRate => unsigned 32 s.time.rate
  | .qtzStep => 0
  | .qtzStatus => s.time.quality.code + 4 * bit s.time.ppsNew
  | .ppsCapNs => s.time.ppsCap % giga
  | .ppsCapSecLo => s.time.ppsCap / giga % 2 ^ 32
  | .ppsCapSecHi => s.time.ppsCap / giga / 2 ^ 32 % 2 ^ 16
  | .dripCountLo => s.drip.count % 2 ^ 32
  | .dripCountHi => (s.time.latches.getD who {}).dripHi % 2 ^ 32
  | .dripLen => if s.running then s.drip.len else 0
  | .dripCfg => if s.running then s.drip.drops + 2 ^ 9 * s.drip.drop + 2 ^ 31 else 0
  | .gd g r => (s.geode g).reg r
  | .galCtrl => bit s.gal.scrubEn + 2 * s.gal.period
  | .galStatus => bit s.gal.initDone + 2 * bit s.gal.initBusy + 4 * s.gal.scrubPos + 2 ^ 19 * s.gal.passes
  | .galCe k => (s.gal.chans.getD k {}).ceCount
  | .galUe k => (s.gal.chans.getD k {}).ueCount
  | .galErr k => (s.gal.chans.getD k {}).errLog.toNat
  | .shelfCtrl => bit (s.shelf.state == .enabled) + 2 * bit s.shelf.pfEn + 4 * bit s.shelf.streamEn
  | .shelfStatus => s.shelf.state.code + 4 * s.shelf.dirty
  | .shelfErr => bit s.shelf.ce + 2 * bit s.shelf.ue
  | .shelfErrLoc => s.shelf.loc
  | .shelfCeCount => s.shelf.ceCount
  | .cicPending b => (s.cic.getD b {}).pendingWord
  | .cicEnable b => (s.cic.getD b {}).enable
  | .cicDrips b => (s.cic.getD b {}).drips
  | .cicDoorbell b => (s.cic.getD b {}).doorbell
  | .cicIpi _ => 0
  | .cicCfg b => (s.cic.getD b {}).cfg
  | .mtime => s.mtime
  | .mtimecmp b => (s.core b).cmp
  | .wakeCause => s.pw.wakeCause
  | .fcuCtrl => bit s.fcu.holdTx + 2 * bit s.fcu.result
  | .fcuTwin => s.fcu.rx + 16 * if s.dev.die = .inReset then 0 else s.alertTx
  | .fcuClk => s.fcu.failed
  | .dbgStatus =>
    s.sec.cdLevel + 4 * s.sec.flLevel + 16 * s.sec.lifecycle + 2 ^ 7 * bit s.sec.lcValid + 2 ^ 8 * bit s.sec.dbgHalt + 2 ^ 16 * (s.sec.session % 2 ^ 16)
  | .dbgCtrl => 0
  | .secCtrl => bit s.sec.fwLock + 2 * bit (s.sec.galSet.length == 8)
  | .secGalKey _ => 0

/-! ### Reads with an effect -/

/-- What a read of a register clears, latches or takes (R7, R43, R44, R58). -/
def State.readEffect (s : State) (who : Nat) : Reg → State
  | .qtzNowFrac => s.withTime fun t => { t with latches := upd t.latches who fun l => { l with ns := s.ns % giga, sec := s.ns / giga } }
  | .dripCountLo => s.withTime fun t => { t with latches := upd t.latches who fun l => { l with dripHi := s.drip.count / 2 ^ 32 } }
  | .qtzStatus => if who = 8 then s.withTime fun t => { t with ppsNew := false } else s
  | .mbxRspData m => s.withMbx m fun b => b.readRsp false
  | .gd g .ceCount => s.withGeode g fun d => { d with ceCount := 0 }
  | .gd g .calCount => s.withGeode g fun d => { d with calCount := 0 }
  | .galCe k => s.withGal fun d => { d with chans := upd d.chans k fun c => { c with ceCount := 0 } }
  | .galUe k => s.withGal fun d => { d with chans := upd d.chans k fun c => { c with ueCount := 0 } }
  | .shelfCeCount => s.withShelf fun h => { h with ceCount := 0 }
  | .cicDrips b => s.withCic b fun c => { c with drips := 0 }
  | .cicDoorbell b => s.withCic b fun c => { c with doorbell := 0 }
  | _ => s

/-- Read a register: its value, zero where the requester does not reach it. -/
def State.readReg (s : State) (who : Nat) (r : Reg) : State × Nat :=
  if mayRead who r then (s.readEffect who r, s.regValue who r) else (s, 0)

/-! ### Operations that a write starts -/

/-- `SHELF_CTRL.EN` (R309). -/
def Shelf.setEn (h : Shelf) (en : Bool) : Shelf :=
  match h.state, en with
  | .enabled, false => { h with state := .draining }
  | .draining, true => { h with state := .enabled }
  | .disabled, true => { h with state := .enabled, lines := [], plru := [], evict := [] }
  | _, _ => h

/-- Whether R412 allows a hold. -/
def State.mayHold (s : State) : Bool := !s.fcu.mpHalt && !s.fcu.clock && (s.fcu.rx == 2 || s.fcu.rx == 3) && s.tw.attached

/-- Event 0x52 TWIN_STATE (R395). -/
def State.twinEvent (s : State) : State :=
  s.event 0 0x52 0 0 [w32 (s.tw.mode.code + 4 * bit s.tw.attached + 8 * bit s.tw.leader + 16 * s.fcu.rx + 256 * bit s.fcu.holdTx)]

/-- A write of `FCU_CTRL.HOLD` (R410, R412). -/
def State.setHold (s : State) (b : Bool) : State :=
  if b == s.fcu.holdTx || (b && !s.mayHold) then s else (s.withFcu fun f => { f with holdTx := b }).twinEvent

/-- End the compute-die debug session: the level falls, targets run again, and the MP tells Flint (R437, R439). -/
def State.endCdSession (s : State) (reason : Nat) : State :=
  if s.sec.cdLevel = 0 then s
  else
    (({ s with geodes := s.geodes.map fun g => { g with halted := false, step := false } } : State).withSec fun d =>
      { d with cdLevel := 0, dbgHalt := false, halts := [], stepOk := none }).sendFlint 0xF6 [w32 4, w32 (reason * 16)]

/-- Whether the binding of a queue may be written: the queue is empty and no RUN slot names it (R94). -/
def Geode.bindFree (d : Geode) (q : Nat) : Bool := (d.queue q).left == 0 && !d.runNames q

/-- A write to a Geode register by the MP (R103, R104, R224, R402). -/
def State.writeGReg (s : State) (g v : Nat) : GReg → State
  | .fault => s.withGeode g fun d => { d with fault := d.fault &&& ~~~(BitVec.ofNat 32 (v &&& 0xF7F)) }
  | .calLog0 => if bitAt v 31 then s.withGeode g fun d => { d with calLog0 := d.calLog0 &&& 0x7FFFFFFF } else s
  | .katCtrl =>
    let s1 := if bitAt v 0 then s.withGeode g fun d =>
        if d.kat.busy || d.retired then d
        else if d.firing.isSome then { d with kat := { d.kat with pending := true } }
        else { d with kat := { d.kat with busy := true, done := false, fail := false, unit := 0 } } else s
    if !bitAt v 1 || (s1.geode g).retired then s1
    else if (s1.geode g).firing.isSome then s1.withGeode g fun d => { d with retirePending := true }
    else s1.retire g
  | .katStatus => if bitAt v 1 then s.withGeode g fun d => { d with kat := { d.kat with done := false } } else s
  | .slotCtrl i =>
    let open' := (s.slot g i).state == .empty || (s.slot g i).state == .loaded
    let s1 := if open' then s.withSlot g i fun sl =>
      { sl with
        ctx := if fld v 2 5 < 24 then fld v 2 5 else sl.ctx
        cls := (OClass.ofCode (fld v 8 2)).getD sl.cls
        prio := fld v 12 3 } else s
    s1.setSlotState g i (fld v 0 2)
  | .slotBudget i => s.withSlot g i fun sl => { sl with budgetNext := fld v 0 26 }
  | .slotWindow i => s.withSlot g i fun sl => { sl with firstNext := fld v 0 8, lastNext := fld v 8 8 }
  | .slotLimit i => s.withSlot g i fun sl => { sl with limit := fld v 0 24 }
  | .slotPocket i => s.withSlot g i fun sl =>
    if sl.state = .empty ∨ sl.state = .loaded then { sl with base := fld v 0 5, size := if fld v 8 6 ≤ 32 then fld v 8 6 else sl.size } else sl
  | .slotQmask i => s.withSlot g i fun sl => if sl.state = .empty ∨ sl.state = .loaded then { sl with qin := fld v 0 16, qout := fld v 16 8 } else sl
  | .qCfg q =>
    if !(s.geode g).bindFree q then s
    else
      let kind := fld v 12 2
      let peer := if kind = 2 ∧ 32 ≤ fld v 16 6 then (s.queue g q).peer else fld v 16 6
      s.withQueue g q fun w =>
        { w with
          fmt := if fld v 0 3 ≤ 5 then fld v 0 3 else w.fmt
          quota := if fld v 4 6 ≤ 32 then fld v 4 6 else w.quota
          bind := kind
          peer := peer
          peerQ := fld v 24 5
          credit := if q < 16 then w.credit else s.freeEntries g kind peer (fld v 24 5)
          creditDue := 0 }
  | .qCtrl q => if bitAt v 0 && !(s.geode g).runNames q then s.discardQueue g q else s
  | _ => s

/-- A write to a CIC register of block `b` (R311, R313): a core writes only its own block; the MP writes its own, and ORs
into a core's doorbell. -/
def State.writeCic (s : State) (who b v : Nat) : Reg → State
  | .cicPending _ => if who = b then s.withCic b fun c => { c with pending := c.pending &&& (0x1B &&& (2 ^ 32 - 1 - v % 2 ^ 32)) } else s
  | .cicEnable _ => if who = b then s.withCic b fun c => { c with enable := fld v 0 5 } else s
  | .cicIpi _ => if who = b then (List.range 9).foldl (fun s k => if bitAt v k then s.withCic k fun c => { c with pending := c.pending ||| 8 } else s) s else s
  | .cicCfg _ => if who = b then s.withCic b fun c => { c with cfg := fld v 0 1 } else s
  | .cicDoorbell _ => if who = 8 ∧ b < 8 then s.withCic b fun c => { c with doorbell := c.doorbell ||| fld v 0 24 } else s
  | _ => s

/-- Write a register (R7): each field stores, clears or ignores its bits as its access code gives. -/
def State.writeReg (s : State) (who : Nat) (r : Reg) (v : Nat) : State :=
  if !mayRead who r then s
  else match r with
  | .faultCtrl =>
    if bitAt v 0 && !(s.fcu.mpHalt || s.fcu.clock || s.fcu.twinSignal || s.fcu.result) && s.mpRuns then s.withFcu fun f => { f with faultN := false } else s
  | .winStatus => if bitAt v 0 then s.withDev fun d => { d with accErr := false } else s
  | .mbxCmdData m => s.withMbx m fun b => b.putCmd (w32 v) false
  | .mbxCtrl m => s.flush m (bitAt v 0) (bitAt v 1)
  | .mbxStatus m => s.withMbx m fun b =>
    { b with
      rspPoison := b.rspPoison && !bitAt v 0, cmdOvf := b.cmdOvf && !bitAt v 1, rspUndf := b.rspUndf && !bitAt v 2
      evtLost := b.evtLost && !bitAt v 3, cmdHeld := b.cmdHeld && !bitAt v 4 }
  | .qtzRate => if who = 8 then s.withTime fun t => { t with rate := clampRate (signed 32 v) } else s
  | .qtzStep => if who = 8 then (s.withTime fun t => { t with step := signed 32 v }).cycles (bit s.qtzRuns) else s
  | .qtzStatus => if who = 8 then s.withTime fun t => t.setQuality (Quality.ofCode (fld v 0 2)) else s
  | .gd g r => s.writeGReg g v r
  | .galCtrl =>
    let s1 := s.withGal fun d => { d with scrubEn := bitAt v 0, period := if 1 ≤ fld v 1 7 ∧ fld v 1 7 ≤ 64 then fld v 1 7 else d.period }
    if bitAt v 31 && !s1.gal.initBusy then s1.withGal fun d => { d with initBusy := true, initDone := false } else s1
  | .galErr k => if bitAt v 31 then s.withGal fun d => { d with chans := upd d.chans k fun c => { c with errLog := c.errLog &&& 0x7FFFFFFF } } else s
  | .shelfCtrl => s.withShelf fun h => { (h.setEn (bitAt v 0)) with pfEn := bitAt v 1, streamEn := bitAt v 2 }
  | .shelfErr => s.withShelf fun h => { h with ce := h.ce && !bitAt v 0, ue := h.ue && !bitAt v 1 }
  | .cicPending b | .cicEnable b | .cicDoorbell b | .cicIpi b | .cicCfg b => s.writeCic who b v r
  | .mtimecmp b => if who = b ∧ b < 8 then s.withCore b fun c => { c with cmp := v % 2 ^ 64, timer := decide (v % 2 ^ 64 ≤ s.mtime) } else s
  | .fcuCtrl => (s.setHold (bitAt v 0)).withFcu fun f => { f with result := bitAt v 1 }
  | .dbgCtrl => if bitAt v 0 then s.endCdSession 2 else s
  | .secCtrl => if bitAt v 0 then s.withSec fun d => { d with fwLock := true } else s
  | .secGalKey n => s.withSec fun d =>
    if d.galSet.length = 8 ∨ 8 ≤ n then d else { d with galKey := d.galKey.set n (w32 v), galSet := insNat n d.galSet }
  | _ => s

/-! ### The rows -/

/-- A write to `FCU_CTRL.HOLD`. -/
def execFcuHoldWrite (b : Bool) (s : State) : Out := .next (s.setHold b)

/-- A write to `FCU_CTRL.RESULT`. -/
def execFcuResultWrite (b : Bool) (s : State) : Out := .next (s.withFcu fun f => { f with result := b })

/-- A write to `SEC_GAL_KEYn` by the MP. -/
def execSecGalKeyWrite (n : Nat) (w : W32) (s : State) : Out := .next (s.writeReg 8 (.secGalKey n) w.toNat)

/-- A write of 1 to `SEC_CTRL.FW_LOCK`. -/
def execFwLockWrite (s : State) : Out := .next (s.withSec fun d => { d with fwLock := true })

/-- A write to `CIC_IPI` by a requester in its own block. -/
def execCicIpi (req : Nat) (v : Nat) (s : State) : Out := .next (s.writeReg req (.cicIpi req) v)

/-- The MP reports context state changes in the doorbell of core `h`. -/
def execDoorbell (h : Nat) (v : Nat) (s : State) : Out := .next (s.writeReg 8 (.cicDoorbell h) v)

/-- The machine timer of core `h` is compared with `MTIME`. -/
def execMachineTimer (h : Nat) (s : State) : Out := .next (s.withCore h fun c => { c with timer := decide (c.cmp ≤ s.mtime) })

end Sys2Proof.Machine
end

