-- ==== Sys2Proof/Machine/PowerOps.lean ====
section
/-!
DEFINITION. The power controller's entry handshake and the wake sources (R370 to R378, R382).
-/
namespace Sys2Proof.Machine

/-! ### Bits -/

def setBit (n k : Nat) : Nat := if bitAt n k then n else n + 2 ^ k
def clearBit (n k : Nat) : Nat := if bitAt n k then n - 2 ^ k else n
/-- The bits of `n` that are not in `m`, of the 16 lowest. -/
def without (n m : Nat) : Nat := (List.range 16).foldl (fun x k => if bitAt m k then clearBit x k else x) n

/-! ### Outcomes (R289, R372) -/

/-- PWR_STATUS word 0. -/
def State.pwrWord (s : State) : Nat :=
  let p := s.pw
  p.state + p.target.getD 7 * 2 ^ 3 + p.pend.getD 7 * 2 ^ 6 + p.outcome * 2 ^ 9 + p.block * 2 ^ 11 + p.cause * 2 ^ 16

/-- Event 0x40 PWR_OUTCOME. -/
def State.pwrEvent (s : State) : State := s.event 0 0x40 0 0 [w32 s.pwrWord]

/-- Every block that agreed restarts; the outcome is reported. After a first entry of two, the device returns to the state it had
reached, unless a pending target starts then (R372, R374). -/
def State.rollback (s : State) (outcome block cause : Nat) : State :=
  let told := s.pw.asking == some 12 || s.pw.agreed.contains 12
  let s1 := s.withPw fun p =>
    { p with target := none, asking := none, agreed := [], abort := false, ready := false, follower := false, outcome := outcome, block := block, cause := cause }
  let s2 := if told then s1.sendFlint 0xF3 [3] else s1
  let s3 := s2.pwrEvent
  match s.pw.reached, s.pw.pend with
  | some k, none => s3.withPw fun p => { p with state := k, reached := none }
  | _, _ => s3

/-! ### Wake sources (R375 to R378) -/

/-- Sources that act in a state (R375), as bits of `WAKE_CAUSE`. -/
def actsIn (target : Nat) : Nat := if target = 3 then 0x7FF else 0x1FE

/-- The sources raised that act in a state. -/
def State.raised (s : State) (target : Nat) : Nat := ((s.pw.levels ||| s.pw.edges) &&& actsIn target)

/-- Sources acknowledged by an exit or an abort: the levels of pins, TWIN and LOADCELL that stand are masked until they deassert,
the others fall (R363, R375). -/
def State.ackWakes (s : State) (bits : Nat) : State :=
  s.withPw fun p => { p with masked := p.masked ||| (p.levels &&& bits &&& 0x2BC), levels := without p.levels bits, edges := without p.edges bits, seen := 0, seenRule := 0 }

/-- An entry aborts by a wake: `WAKE_CAUSE` with `FROM` 0, and a pending target is discarded (R374, R377); the device stays in
ACTIVE, also where a first entry had completed. -/
def State.abortWake (s : State) (bits : Nat) : State :=
  let cause := bits + if bitAt bits 1 then s.fl.lan.wakeRule * 2 ^ 24 else 0
  ((s.withPw fun p => { p with pend := none, reached := none, wakeCause := cause }).rollback 3 0 0x0F).ackWakes bits

/-- Flint answers COMMIT with the wake bits and the Lantern rule (R373). -/
def State.answerCommit (s : State) : State :=
  let bits := without (s.raised 2) 0x40
  if !s.fl.committed || bits == 0 then s
  else (s.withFl fun f => { f with committed := false }).flintSay 0xF3 2 sOk [w32 bits, w32 (if bitAt bits 1 then s.fl.lan.wakeRule else 0)]

/-- What a raised source does: it aborts an entry before its commit, or starts an exit (R377). -/
def State.wakeActs (s : State) : State :=
  match s.pw.target with
  | some t => if s.pw.state = 0 ∧ s.raised t ≠ 0 then s.abortWake (s.raised t) else s
  | none =>
    if s.pw.state = 1 ∨ s.pw.state = 2 then
      (if bitAt s.pw.levels 6 then s.withPw fun p => { p with seen := setBit p.seen 6 } else s).answerCommit
    else s

/-- Raise a level source; a masked one waits for its release. -/
def State.raiseLevel (s : State) (k : Nat) : State :=
  if bitAt s.pw.masked k then s else (s.withPw fun p => { p with levels := setBit p.levels k }).wakeActs
/-- A level source deasserts. -/
def State.dropLevel (s : State) (k : Nat) : State := s.withPw fun p => { p with levels := clearBit p.levels k, masked := clearBit p.masked k }
/-- An edge: it is latched during an entry and in the low-power states. -/
def State.raiseEdge (s : State) (k : Nat) : State :=
  if s.pw.target.isNone && s.pw.state == 0 then s else (s.withPw fun p => { p with edges := setBit p.edges k }).wakeActs

/-! ### The blocks (R371) -/

inductive Verdict where
  | agree | delay
  | refuse (cause : Nat)
  deriving DecidableEq, Repr

/-- The cause a block gives when its delay runs out. -/
def delayCause (b : Nat) : Nat := [0, 1, 2, 3, 4, 6, 7, 8, 9, 10, 11, 12, 13].getD b 0

/-- A block is asked, or asked again, for `target`. `busy` names the blocks that must delay for work the state does not hold:
5 decoding or ring writes, 6 a core outside WFI, 10 link transactions, 12 an MRAM write. -/
def State.askBlock (s : State) (b target : Nat) (busy : List Nat) (again : Bool) : State × Verdict :=
  let wait (x : Bool) : Verdict := if x then .delay else .agree
  match b with
  | 2 =>
    if s.sec.cdLevel ≠ 2 ∧ s.sec.flLevel ≠ 2 then (s, wait (again && s.sec.kc.isNone))
    else if !s.pw.debugFollows then (s, .refuse 2)
    else if again then (s, .delay)
    else
      let s1 := if s.sec.cdLevel = 2 then s.endCdSession 3 else s
      (if s.sec.flLevel = 2 then s1.sendFlint 0xF6 [w32 4, w32 (1 + 3 * 16)] else s1, .delay)
  | 3 => (s, wait !s.outstanding.isEmpty)
  | 4 => if target = 3 ∧ (s.ctxs.any fun c => c.state == .running) then (s, .refuse 5) else (s, wait (s.geodes.any fun g => g.firing.isSome))
  | 7 => (s, wait (target != 3 && s.shelf.state == .draining))
  | 8 => (s, wait (s.gal.initBusy || s.gal.slabs.any fun x => x.state == .zeroing || x.converting))
  | 9 => (s, wait (s.pw.dvfs.any fun d => d.2.2))
  | 11 => (s, if target = 3 ∧ s.fcu.faultN then .refuse 12 else .agree)
  | 12 =>
    if again then (s, wait (!s.pw.flintAck || (target == 3 && s.conduit.rtc.isNone) || busy.contains 12))
    else
      let stamp := if target = 3 ∧ s.drip.phase = .stopped then leWords 4 (leBytes 16 s.stamp) else []
      (({ s with conduit := { s.conduit with rtc := none } }.withPw fun p => { p with flintAck := false }).sendFlint 0xF3
        ([w32 (1 + target * 2 ^ 8), w32 (if target = 3 then s.pw.ticks else 0)] ++ stamp), .delay)
  | _ => (s, wait (busy.contains b))

/-- A pending target starts as a new request (R374). -/
def State.startPending (s : State) : State :=
  s.withPw fun p => match p.pend with
    | some t => if t = 0 then { p with pend := none, reached := none } else { p with target := some t, pend := none, ticks := p.pendTicks, debugFollows := p.pendFollows }
    | none => p

/-- The block being asked has answered with a refusal. -/
def State.refused (s : State) (b cause : Nat) : State :=
  if s.pw.abort then (s.rollback 3 0 0x0E).startPending
  else (s.withPw fun p => { p with pend := none }).rollback 2 b cause

/-- The controller asks the blocks from `b` on, until one delays or refuses or all have agreed; the first argument counts blocks. A
shallower request aborts the entry once the block being asked has answered. -/
def State.askFrom : Nat → State → Nat → List Nat → Bool → State
  | 0, s, _, _, _ => s
  | k + 1, s, b, busy, again =>
    match s.pw.target with
    | none => s
    | some t =>
      if 12 < b then s.withPw fun p => { p with asking := none, ready := true }
      else if s.raised t ≠ 0 then s.abortWake (s.raised t)
      else if b = 1 ∧ !(s.tw.mode == .paired && s.tw.leader) then State.askFrom k s 2 busy false
      else
        let (s1, v) := if b = 1 then (s, Verdict.delay) else s.askBlock b t busy again
        match v with
        | .delay => s1.withPw fun p => { p with asking := some b }
        | .refuse c => s1.refused b c
        | .agree =>
          let s2 := s1.withPw fun p => { p with asking := none, agreed := b :: p.agreed }
          if s2.pw.abort then (s2.rollback 3 0 0x0E).startPending else State.askFrom k s2 (b + 1) busy false

/-! ### Pads (R382) -/

/-- Latch the groups that are not held. -/
def State.latchPads (s : State) : State :=
  let b := s.dev.board
  s.withPw fun p =>
    { p with
      ppsHeld := if bitAt p.held 0 then p.ppsHeld else s.time.ppsOut && !((b.map fun b => b.ppsLow).getD false)
      faultHeld := if bitAt p.held 1 then p.faultHeld else s.fcu.faultN
      tdoHeld := if bitAt p.held 2 then p.tdoHeld else (b.map fun b => b.tdoHiz).getD false
      held := p.held ||| 7 }

/-- PPS_OUT's level at its ball (R48, R382, R456). -/
def State.ppsPad (s : State) : Bool := if bitAt s.pw.held 0 then s.pw.ppsHeld else s.time.ppsOut && s.dev.die != .inReset
/-- Whether FAULT_N is driven low at its ball: an assertion of the FCU drives it while it is held too (R382, R394, R408). -/
def State.faultPad (s : State) : Bool := s.fcu.faultN || (bitAt s.pw.held 1 && s.pw.faultHeld)
/-- Whether TDO stands at high impedance (R382, R456). -/
def State.tdoFloats (s : State) : Bool := if bitAt s.pw.held 2 then s.pw.tdoHeld else s.dev.die == .inReset

end Sys2Proof.Machine
end

