-- ==== Sys2Proof/Machine/Flint.lean ====
section
/-!
DEFINITION. Flint's own work: the weighing of a drop, twin comparison, weight records, Lantern's samples, timing, keys and
Flint resets (R40, R41, R315 to R330, R337, R344 to R350, R366).
-/
namespace Sys2Proof.Machine

/-! ### Parameters (R328, R332) -/

/-- The legally relevant parameters in identifier order, each as its value words, defaults resolved. -/
def Params.words (p : Params) : List (List Nat) :=
  [[p.max], [p.d], [p.min], [p.zeroInit], [p.zeroSet], [p.track], [p.band.getD p.d, p.time], [p.conv], [p.filter], p.trim, [p.tareLimit], [p.twinTol.getD p.d], [p.policy]]

/-- The stored form of a curve (R336). -/
def curveWords (c : List (Int × Int)) : List W32 := c.flatMap fun x => [BitVec.ofInt 32 x.1, BitVec.ofInt 32 x.2]

/-- The parameter checksum (R328). -/
def Use.checksum (x : Use) : W32 := crc32c (wordsBytes ((x.p.words.flatMap fun l => l.map w32) ++ curveWords x.curve))

def Params.excite (p : Params) : Bool := bitAt p.conv 8
def Params.masked (p : Params) (i : Nat) : Bool := bitAt p.conv (12 + i)
/-- 4 ÷ f in units of 1 ÷ 3.072 ns (R268). -/
def Params.settle (p : Params) : Nat := 4 * 3072000000 / ([4800, 2400, 1200, 600, 300, 150].getD (fld p.conv 0 3) 4800)

/-! ### The weighing of one drop (R316 to R324) -/

/-- The calibration curve at c (R336); the identity before the first commit. -/
def curveAt (pts : List (Int × Int)) (c : Int) : Int :=
  if pts.length < 2 then c
  else
    let i := (((List.range (pts.length - 2)).filter fun i => decide ((pts.getD (i + 1) (0, 0)).1 < c)).map (· + 1)).getLast?.getD 0
    let a := pts.getD i (0, 0)
    let b := pts.getD (i + 1) (0, 0)
    rneDiv (a.2 * (b.1 - a.1) + (c - a.1) * (b.2 - a.2)) (b.1 - a.1).toNat

/-- What the drop in progress gives. -/
structure Weigh where
  c : Int
  u : Int
  g : Int
  G : Int
  net : Int
  stable : Bool
  window : Nat
  flags : Nat
  deriving DecidableEq, Repr

/-- The conversions a drop's code of channel `i` rests on: those that completed within the drop, or else the last one; in HIBERNATE the first settled one
alone (R318). -/
def Flint.convsOf (f : Flint) (new : List (List Int)) (i : Nat) : List Int := match new.getD i [] with
  | [] => [f.convs.getD i 0]
  | v :: t => if f.hiber then [v] else v :: t
/-- The codes of a drop: the mean of its conversions, by channel. -/
def Flint.newCodes (f : Flint) (new : List (List Int)) : List Int := (List.range 4).map fun i => rneDiv (f.convsOf new i).sum (f.convsOf new i).length
/-- A conversion at an end of its range on a masked channel (R316). -/
def Flint.outOfRange (f : Flint) (new : List (List Int)) : Bool :=
  (List.range 4).any fun i => f.use.p.masked i && (f.convsOf new i).any fun v => v == -(2 ^ 23) || v == 2 ^ 23 - 1
/-- Most drops that a stability window holds: 5 s of drops of 200 µs (R26, R332). -/
def mostDrops : Nat := 25000

/-- What `rate` × d each second amounts to in a drop, in units of 2^-32 calibrated units; a drop lasts the wake period in HIBERNATE (R321). -/
def Flint.trackStep (f : Flint) (rate d : Nat) : Nat :=
  if !f.timed then rate * d * f.period * 2 ^ 32 / (100 * 32768) else rate * d * f.len * 2 ^ 32 / (100 * giga * max f.drops 1)
/-- S of R320. -/
def Flint.windowLen (f : Flint) (ms : Nat) : Nat :=
  let num := ms * 1000000
  if !f.timed then (num * 32768 + f.period * giga - 1) / max (f.period * giga) 1 else (num * f.drops + f.len - 1) / max f.len 1

/-- G rounded to the nearest multiple of d, ties to the even multiple (R323). -/
def roundTo (x : Int) (d : Nat) : Int := d * rneDiv x d

/-- Compute a drop in the order of R319; `out` says that a conversion was out of range. -/
def Flint.weigh (f : Flint) (codes : List Int) (out : Bool) (volts : Nat) : Weigh :=
  let x := f.use
  let ch := (List.range 4).filter x.p.masked
  let c := rneDiv ((ch.map fun i => codes.getD i 0 * (x.p.trim.getD i 0 : Nat)).sum) (2 ^ 30)
  let fault := out || decide (4 * volts < f.sense)
  if !x.conf then ⟨c, 0, 0, 0, 0, false, 0, 64 * bit fault⟩
  else
    let u := curveAt x.curve c
    let g := u * 2 ^ 32 - f.z
    let gs := (g :: f.gs).take x.p.filter
    let G := rneDiv gs.sum (gs.length * 2 ^ 32)
    let S := f.windowLen x.p.time
    let win := ((G, c) :: f.win).take S
    let hi := (win.map fun w => w.1).foldl max G
    let lo := (win.map fun w => w.1).foldl min G
    let d := x.p.d
    let stable := decide (S ≤ win.length) && decide (hi - lo ≤ (x.p.band.getD d : Nat))
    let gross := roundTo G d
    let more := 2 * bit (decide (4 * |G| ≤ d) && x.tare == 0) + 4 * bit (x.tare != 0) + 8 * bit (decide (gross - x.tare < x.p.min)) +
      16 * bit (decide (gross > x.p.max + 9 * d)) + 32 * bit (decide (gross < -(20 * d : Nat)))
    ⟨c, u, g, G, G - x.tare, stable, S, bit stable + 64 * bit fault + if x.curve.isEmpty then 0 else more⟩

/-! ### Twin comparison (R326) -/

/-- Compare the twin's G with this Flint's for a completed drop. -/
def Flint.compare (f : Flint) (drip index : Nat) (twin : Int) : Flint :=
  let hit (r : DropRec) : Bool := r.drip == drip && r.index == index
  match f.recent.find? hit with
  | none => f
  | some r =>
    if r.cmp.isSome then f
    else
      let ok := decide (|r.G - twin| ≤ (f.use.p.twinTol.getD f.use.p.d : Nat))
      { f with
        recent := f.recent.map fun x => if hit x then { x with cmp := some (ok, r.G - twin) } else x
        disagree := f.disagree || !ok }

/-- How many drops before the drop in progress a named drop lies; negative for a later one. A drop that Flint has completed is counted from its place,
whatever N its drip had. -/
def Flint.dropsBack (f : Flint) (drip index : Nat) : Int := match f.recent.find? fun r => r.drip == drip && r.index == index with
  | some r => (f.pos : Int) - r.pos
  | none => signed 32 (f.drip + 2 ^ 32 - drip % 2 ^ 32) * f.drops + f.next - index

/-- Accept a notice: a completed drop is compared, another waits for its end. -/
def Flint.notice (f : Flint) (drip index : Nat) (twin : Int) : Flint :=
  if 2 < f.dropsBack drip index then f
  else if f.recent.any fun r => r.drip == drip && r.index == index then f.compare drip index twin
  else { f with notes := f.notes ++ [(drip, index, twin)] }

/-! ### Zero (R321, R325) -/

/-- Zero-setting and tracking at the end of a drop; whether the initial zero-setting took place. -/
def Flint.zeroing (f : Flint) (w : Weigh) : Flint × Bool :=
  let x := f.use
  if !x.cal then (f, false)
  else if !f.zset then
    if w.stable && decide (|w.u| * 1000 ≤ x.p.max * x.p.zeroInit) then ({ f with z := w.u * 2 ^ 32, z0 := w.u * 2 ^ 32, zset := true }, true) else (f, false)
  else if w.stable && x.tare == 0 && decide (2 * |w.G| ≤ x.p.d) && x.p.track != 0 then
    let step : Int := (f.trackStep x.p.track x.p.d : Nat)
    let lim : Int := (x.p.max * x.p.zeroSet * 2 ^ 32 / 1000 : Nat)
    let z := min (max (w.u * 2 ^ 32) (f.z - step)) (f.z + step)
    ({ f with z := min (max z (min f.z (f.z0 - lim))) (max f.z (f.z0 + lim)) }, false)
  else (f, false)

/-- The drop boundary: accepted changes take effect and the windows restart (R325). -/
def Flint.boundary (f : Flint) (initial : Bool) : Flint :=
  if !f.dirty && !initial then f
  else
    let f1 := { f with use := ⟨f.p, f.curve, f.events, f.tare, f.preset⟩, dirty := false, gs := [], win := [], z := f.zPend.getD f.z, zPend := none }
    if f.zClear then { f1 with z := 0, z0 := 0, zset := false, zClear := false } else f1

/-! ### Sensors and features (R352, R353) -/

/-- A sensor of the board record by number. -/
def Flint.listed (f : Flint) (n : Nat) : Bool := n != 0 && ((f.board.map fun b => b.sensors.any fun x => x.number == n).getD false)

/-- The 16 raw features of a sample; `reads` holds the reads that finished: sensor, status, bytes. -/
def State.features (s : State) (codes : List Int) (w : Weigh) (reads : List (Nat × Nat × List Byte)) : List Int :=
  let f := s.fl
  let l := f.lan
  let prev := l.history.headD []
  let role (i : Nat) : Nat := (f.board.map fun b => b.lanRoles.getD i 0).getD 0
  let got (i : Nat) : Option (List Byte) := (reads.find? fun r => r.1 == role i).map fun r => r.2.2
  let sensor (i feat : Nat) (v : List Byte → Int) : Int := if !f.listed (role i) then 0 else match got i with
    | some b => v b
    | none => prev.getD feat 0
  let weighs := f.use.cal && (!f.hiber || f.use.p.excite)
  let G := if weighs then w.G else 0
  let ch := (List.range 4).filter f.use.p.masked
  let trimmed := ch.map fun i => rneDiv (codes.getD i 0 * (f.use.p.trim.getD i 0 : Nat)) (2 ^ 30)
  let f3 := trimmed.foldl max (trimmed.headD 0) - trimmed.foldl min (trimmed.headD 0)
  let lf (k : Nat) (b : List Byte) : Int := signed 32 (unsigned 32 (Config.lanFeature k b))
  let f4 := sensor 0 4 (lf 4)
  let pins : Int := if f.board.isSome then (s.pw.pins % 16 : Nat) else 0
  let aux (i : Nat) : Int := sensor (3 + i) (13 + i) fun b => signed 32 (leNat (b.take 4))
  [if weighs then G - l.gs.headD 0 else 0, if weighs then G - l.gs.getD 7 0 else 0, G, if weighs then f3 else 0,
    f4, sensor 0 5 (fun _ => f4 - prev.getD 4 0), sensor 1 6 (lf 6), sensor 2 7 (lf 7), sensor 2 8 (lf 8), sensor 2 9 (lf 9),
    pins, if f.board.isSome then ((s.pw.pins % 16 ^^^ (prev.getD 10 0).toNat : Nat) : Int) else 0,
    if f.board.isNone then 0 else match l.sinceFire with
      | some n => (min 65535 (n + 1) : Nat)
      | none => Config.lanQuiet l.samples,
    aux 0, aux 1, aux 2]

/-- A firing rule's actions (R363). -/
def State.fire (s : State) (st ts : Nat) (x : Nat × Rule) : State :=
  let ev := bitAt x.2.w3 0
  let wk := bitAt x.2.w3 1
  let code := fld x.2.w3 8 8
  let l := s.fl.lan
  let s1 := if ev && st != 2 then s.frame 2 0 ts (l.decision st x.1 code (bit ev + 2 * bit wk)) else s
  let awake := s.pw.state == 0 && st == 0 && s.fl.entering.isNone
  if !wk || awake then s1
  else if bitAt s.pw.levels 1 then s1
  else
    (s1.withLan fun l => { l with wakeRule := x.1, summary := if st = 2 then some ⟨x.1, code, l.samples, l.scores⟩ else l.summary }).raiseLevel 1

/-- Lantern's sample at `ts`; a skipped one is counted (R352, R365). -/
def State.lantern (s : State) (codes : List Int) (w : Weigh) (reads : List (Nat × Nat × List Byte)) (skip : Bool) (ts : Nat) : State :=
  if skip then s.withLan fun l => { l with skipped := l.skipped + 1 }
  else
    let late := ((s.fl.board.map fun b => b.sensors).getD []).filter fun x => !(reads.any fun r => r.1 == x.number)
    let st := s.fl.pst
    let (l, firing) := s.fl.lan.sample st (s.features codes w reads)
    let s1 := s.withFl fun f => { f with lan := { l with late := l.late + late.length } }
    firing.foldl (fun s x => s.fire st ts x) s1

/-- STATUS frames (R364). -/
def State.lanStatus (s : State) (ts k : Nat) : State := (List.range k).foldl (fun s _ => s.frame 2 0 ts s.fl.lan.status) s

/-! ### The drop (R40, R41, R243, R319, R327) -/

/-- The timestamp of the drop in progress (R40, R41, R53); in HIBERNATE the RTC carries it (R50). -/
def Flint.dropStamp (f : Flint) : Nat :=
  if !f.timed then f.carriedStamp else stampOf (f.nominal % 2 ^ 32) (f.nominal / 2 ^ 32) f.dropQuality

/-- The payload of a FLINT_WEIGHT sample (R245). -/
def Flint.weightPayload (f : Flint) (codes : List Int) (w : Weigh) (flags : Nat) : List Byte :=
  padTo 64 ((codes.flatMap fun c => leBytes 4 (unsigned 32 c)) ++ leBytes 4 (mass32 w.G).toNat ++ leBytes 4 (mass32 w.net).toNat ++ leBytes 1 f.next ++
    leBytes 1 flags ++ leBytes 1 (min 255 ((getKey f.dropped 0).getD 0)) ++ [0] ++ leBytes 4 f.events)

/-- The payload of a FLINT_SENSOR sample (R245). -/
def sensorPayload (n status : Nat) (b : List Byte) : List Byte :=
  padTo 64 (leBytes 1 n ++ leBytes 1 (b.take 60).length ++ leBytes 1 status ++ [0] ++ b.take 60)

/-- The end of the drop in progress: the weighing, the comparison notice, a record that becomes due, the frames, Lantern, and the
boundary's changes. -/
def State.drop (s : State) (new : List (List Int)) (volts : Nat) (reads' : List (Nat × Nat × List Byte)) (skip : Bool) : State :=
  let f := s.fl
  let codes := f.newCodes new
  let reads := reads'.filter fun r => f.listed r.1
  let w := f.weigh codes (f.outOfRange new) volts
  let ts := f.dropStamp
  let key := (f.drip % 2 ^ 32, f.next)
  let x := f.use
  let note := f.notes.find? fun n => n.1 == key.1 && n.2.1 == key.2
  let f1 := { f with
    codes := codes, u := w.u, G := w.G
    convs := (List.range 4).map fun i => (f.convsOf new i).getLastD 0
    gs := if x.conf then (w.g :: f.gs).take x.p.filter else []
    win := if x.conf then ((w.G, w.c) :: f.win).take mostDrops else []
    recent := if x.cal then (DropRec.mk f.pos key.1 key.2 w.G none :: f.recent).take (mostDrops + 8) else []
    notes := f.notes.filter fun n => decide (f.dropsBack n.1 n.2.1 < 0) }
  let f2 : Flint := match note with
    | some (n : Nat × Nat × Int) => f1.compare key.1 key.2 n.2.2
    | none => f1
  let flags := w.flags + 128 * bit (f2.disagree && x.cal)
  let on := f.active && x.cal
  let rises := w.stable && !f.stable
  let makes := rises && bitAt x.p.policy 0 && x.cal && f.zset && fld flags 4 3 == 0 && (!bitAt flags 3 || bitAt x.p.policy 1) && f.secret && !f.invasive &&
    (on || !bitAt x.p.policy 2)
  let gross := roundTo w.G x.p.d
  let item : Ready := ⟨f.pos, ts, flags + 256 * bit x.preset + 512 * bit on + 1024 * bit (!on), gross, x.tare, gross - x.tare, x.p.d, x.events, x.checksum, w.window, on⟩
  let (f3, initial) := f2.zeroing w
  let s1 := s.withFl fun _ => { f3 with stable := w.stable, disagree := false, ready := if makes then f3.ready ++ [item] else f3.ready }
  let s2 := if on then
      let n := [w32 key.1, w32 key.2, w32 flags, mass32 w.G, w32 (f.kpTx + 1)]
      (s1.withFl fun f => { f with kpTx := f.kpTx + 1 }).flintSay 0xFE 0 0 (n ++ macWords f.kpKey n)
    else s1
  let s3 := if f.hiber then (if bitAt flags 6 then s2.raiseLevel 9 else s2.dropLevel 9)
    else
      let wired := (f.board.map fun (b : Board) => b.loadCell).getD true
      let s' := if wired then s2.frame 1 0 ts (f.weightPayload codes w flags) else s2
      reads.foldl (fun (s : State) (r : Nat × Nat × List Byte) => s.frame 1 r.1 ts (sensorPayload r.1 r.2.1 r.2.2)) s'
  let s4 := (s3.withFl fun f => { f with sense' := reads.foldl (fun (l : List (Nat × Nat × List Byte)) (r : Nat × Nat × List Byte) => setKey l r.1 r.2) f.sense' }).lantern codes w reads skip ts
  let (l, k) := s4.fl.lan.boundary
  let s5 := s4.withFl fun f =>
    let f1 := { f.boundary initial with lan := l, pos := f.pos + 1, board := if f.boardNext.isSome then f.boardNext else f.board, boardNext := none }
    if !f.timed then f1
    else if f.next + 1 < f.drops then { f1 with next := f.next + 1, late := false }
    else { f1 with drip := f.drip + 1, start := f.start + (f.len * 2 ^ 32 : Nat), next := 0, late := false }
  if s5.fl.hiber then s5 else s5.lanStatus s5.fl.dropStamp k

/-- Flint weighs while powered and not RETIRED (R424). -/
def Flint.weighs (f : Flint) : Bool := f.runs && f.lifecycle != 4

/-- FLINT_DROP_SAMPLE: the end of the predicted drop, with the conversions that completed in it by channel, the sense voltage, the sensor reads
that finished, and whether Lantern's previous sample still runs. -/
def execFlintDropSample (codes : List (List Int)) (volts : Nat) (reads : List (Nat × Nat × List Byte)) (skip : Bool) (s : State) : Out :=
  if !s.fl.weighs || !s.fl.timed then .next s else .next (s.drop codes volts reads skip)

/-- How long a wake runs, in units of 1 ÷ 3.072 ns, of which 1,024 × 10^6 MACs a second take 3 each (R268, R389). -/
def State.wakeTime (s : State) (made : Bool) : Nat :=
  let l := s.fl.lan
  245760 + s.fl.use.p.settle + (if l.on then 3 * modelMacs l.model else 0) + if made then 12810240 else 0

/-- RTC_WAKE: one wake of HIBERNATE after a wake period; it is skipped while the last one still runs (R268, R366). The first sample
after a brown-out raises BROWNOUT (R375). -/
def execRtcWake (codes : List (List Int)) (volts : Nat) (reads : List (Nat × Nat × List Byte)) (s : State) : Out :=
  let f := s.fl
  if !f.weighs || f.timed || f.period == 0 then .next s
  else
    let s1 := s.withFl fun f => { f with rtc := f.rtc + f.period }
    let left := f.lan.left - f.period * 93750
    if f.hiber && left != 0 then .next (s1.withLan fun l => { l with left := left, skipped := l.skipped + 1 })
    else
      let (l, _) := s1.fl.lan.boundary
      let s2 := s1.withFl fun f => { f with lan := { l with wakes := l.wakes + bit f.hiber }, ldoLow := f.hiber }
      let s3 := s2.drop (if f.use.p.excite || !f.hiber then codes else List.replicate 4 []) volts reads false
      let s4 := if f.brown then (s3.withFl fun f => { f with brown := false }).raiseLevel 10 else s3
      .next (s4.withLan fun l => { l with left := s4.wakeTime (decide (f.ready.length < s4.fl.ready.length)) })

/-! ### Weight records (R327 to R330) -/

/-- The drops of a record's window. -/
def Flint.windowOf (f : Flint) (r : Ready) : List DropRec := f.recent.filter fun x => decide (x.pos ≤ r.at') && decide (r.at' < x.pos + r.window)

/-- WEIGHT_RECORD_DECISION (R327): the oldest record that is due. With comparison active it waits for the comparison of the
completing drop, at most until the end of the second drop after it. -/
def execWeightRecordDecision (s : State) : Out :=
  let f := s.fl
  match f.ready with
  | [] => .next s
  | r :: t =>
    let known := (f.recent.find? fun x => x.pos == r.at').bind fun x => x.cmp
    if r.compared && known.isNone && decide (f.pos < r.at' + 3) then .next s
    else
      let agreed := decide (r.window ≤ (f.windowOf r).length) && (f.windowOf r).all fun x => (x.cmp.map fun c => c.1).getD false
      .next (s.withFl fun f => { f with ready := t, signing := if !r.compared || agreed then f.signing ++ [r] else f.signing })

/-- The running slot's version and digest (R328, R348). -/
def Flint.version (f : Flint) : Nat := (f.slots.getD f.running (0, false, 0)).1
def Flint.digest (f : Flint) : W32 := (f.slots.getD f.running (0, false, 0)).2.2

/-- The 64 signed bytes of a record (R328). -/
def Flint.recordBytes (f : Flint) (r : Ready) : List Byte :=
  let diff := ((f.recent.find? fun x => x.pos == r.at').bind fun x => x.cmp).map fun c => c.2
  [1, 0] ++ leBytes 2 r.flags ++ leBytes 4 f.recNext ++ leBytes 16 r.ts ++ leBytes 4 (mass32 r.gross).toNat ++ leBytes 4 (mass32 r.tare).toNat ++
    leBytes 4 (mass32 r.net).toNat ++ leBytes 4 r.d ++ leBytes 4 r.events ++ leBytes 4 f.version ++ leBytes 4 f.digest.toNat ++ leBytes 4 r.checksum.toNat ++
    leBytes 4 (if r.compared then (diff.map fun x => (mass32 x).toNat).getD 0x80000000 else 0x80000000) ++ [0, 0, 0, 0]

/-- WEIGHT_RECORD_SIGNED (R329, R330): the record is written to MRAM, then sent while the receiver is there. -/
def execWeightRecordSigned (s : State) : Out :=
  match s.fl.signing with
  | [] => .next s
  | r :: t =>
    if s.fl.invasive then .next (s.withFl fun f => { f with signing := t })
    else
      let m := s.fl.recordBytes r
      let b := m ++ ecdsa deviceKey m
      let s2 := s.withFl fun f => { f with signing := t, records := (f.records ++ [(f.recNext, b)]).drop (f.records.length + 1 - 4096), recNext := f.recNext + 1 }
      .next (if s2.receives then s2.frame 4 0 r.ts b else s2)

/-! ### Timing (R40, R41) -/

/-- The body of a TIMING message (R40): drip count, length, N and B as R52 lays a time out (log entry 30). -/
def timingBody (count len drops stamp : Nat) : List W32 := w64 count ++ [w32 len, w32 drops] ++ leWords 4 (leBytes 16 stamp)

/-- Flint's latch of its RTC for HIBERNATE (R50, R380): the RTC_LATCH frame, then the acknowledgement of ENTER. -/
def State.rtcLatch (s : State) (stamp : Nat) : State :=
  let f := s.fl
  let s1 := s.withFl fun f => { f with carry := some (stampUnits stamp / 2 ^ 32, f.rtc) }
  (s1.frame 5 0 stamp (leBytes 16 stamp ++ leBytes 6 f.rtc ++ leBytes 6 f.rtc ++ leBytes 16 (stampOf 0 s1.fl.carried 3))).flintSay 0xF3 1 0 []

/-- TIMING: the drop count re-aligns at once; a drop cut short is skipped (R40, R41). `rtc` is the RTC count at its arrival. -/
def execTiming (body : List W32) (ctr : Nat) (tag : List W32) (rtc : Nat) (s : State) : Out :=
  s.kcMsg 0xF1 body ctr tag fun s =>
    let n (i : Nat) : Nat := (body.getD i 0).toNat
    let stamp := leNat (wordsBytes ((body.drop 4).take 4))
    let count := n 0 + n 1 * 2 ^ 32
    let s1 := (s.rtcAt rtc).withFl fun f =>
      { f with
        timed := true, drip := count, len := n 2, drops := n 3, start := (stampUnits stamp : Nat), qual := fld stamp 112 2
        next := if f.timed && f.drip == count then f.next else 0
        late := f.holdover && f.timed && f.drip == count, holdover := false }
    if s1.fl.entering = some 3 ∧ s1.fl.carry.isNone then s1.rtcLatch stamp else s1

/-- TIMING_HOLDOVER: no timing message 100 µs after its time (R41). -/
def execTimingHoldover (s : State) : Out :=
  if !s.fl.runs || !s.fl.timed || s.fl.next ≠ 0 then .next s else .next (s.withFl fun f => { f with holdover := true })

/-! ### Keys and modes (R344, R345) -/

/-- HELLO: one after each compute-die reset or Flint reset; a fresh KC in clear, derived from the secret and a drawn salt (R344, R421). Without
the secret there is none: what the answer then carries is open, and no message authenticates (log entry 6). -/
def execHello (s : State) : Out :=
  let f := s.fl
  if !f.runs || f.hello || !s.toFlint.contains (0xF0, []) then .next (s.takeFlint 0xF0 [])
  else
    let (s1, salt) := State.drawWords 8 (s.takeFlint 0xF0 [])
    let kc := if f.secret then kcOf (wordsBytes salt) else wordsBytes salt
    .next ((s1.withFl fun f => { f with hello := true, kc := f.secret, kcKey := kc, kcCtr := none }).flintSay 0xF0 0 0 (leWords 8 kc))

def TwinMode.ofCode : Nat → TwinMode
  | 1 => .paired
  | 2 => .split
  | 3 => .solo
  | _ => .none

/-- MODE (R345). -/
def execModeMsg (body : List W32) (ctr : Nat) (tag : List W32) (s : State) : Out :=
  s.kcMsg 0xF7 body ctr tag fun s => s.withFl fun f => { f with mode := .ofCode (fld (body.getD 0 0).toNat 0 2) }

/-- The device identifier that a certificate names (R420). -/
def certId (b : List Byte) : List Byte := (b.drop 8).take 8

/-- PAIR with a certificate: `certOk` says that it chains to the Krysyn root; one that names another device gives KP (R344, R420). -/
def execPairCertificate (body : List W32) (ctr : Nat) (tag : List W32) (certOk : Bool) (s : State) : Out :=
  s.kcMsg 0xF4 body ctr tag fun s => s.withFl fun f =>
    if certOk && certId (wordsBytes body) != deviceId && f.secret then { f with kp := true, kpKey := kpOf (wordsBytes body), kpTx := 0, kpRx := 0 }
    else { f with kp := false }

/-- PAIR with a twin's TWIN_CMP notice (R326, R346): 4 words, a counter and the CMAC of these five under KP. -/
def execPairTwinCmp (body : List W32) (ctr : Nat) (tag : List W32) (s : State) : Out :=
  s.kcMsg 0xF4 body ctr tag fun s =>
    let n (i : Nat) : Nat := (body.getD i 0).toNat
    let f := s.fl
    if !f.active || !f.use.cal || !f.timed || body.drop 5 != macWords f.kpKey (body.take 5) || decide (n 4 ≤ f.kpRx) || decide (2 < f.dropsBack (n 0) (n 1)) then s
    else s.withFl fun f => { f with kpRx := n 4 }.notice (n 0) (n 1) (signed 32 (n 3))

/-- Drip, drop index and G of a notice. -/
def noticeG (body : List W32) : Nat × Nat × Int := ((body.getD 0 0).toNat, (body.getD 1 0).toNat, (body.getD 3 0).toInt)

/-- TWIN_CMP_RELAY: the twin's notice arrives over the twin link and the MP hands it to its Flint, in ACTIVE (R326, R390). -/
def execTwinCmpRelay (body : List W32) (s : State) : Out :=
  if !s.mpRuns || !s.tw.attached || !s.twinLink then .next s
  else .next ({ s with conduit := { s.conduit with twinG := (noticeG body :: s.conduit.twinG).take 3 } }.sendFlint 0xF4 body)

/-! ### CAL_EN_N (R335, R337) -/

def execCalEnNAsserted (s : State) : Out := .next (s.withFl fun f => { f with calEn := true })
def execCalEnNDeasserted (s : State) : Out := .next (s.withFl fun f => { f with calEn := false, cal := none })

/-! ### Audit entries (R338 to R341) -/

/-- Entries unacknowledged, the reserved ends of open sessions among them (R436). -/
def Flint.unacked (f : Flint) : Nat := f.auditNext - 1 - f.acked + f.sessions.length
def Flint.trailFull (f : Flint) : Bool := decide (4096 ≤ f.unacked)
/-- A change that counts an event finds no room (R338, R340). -/
def Flint.full (f : Flint) : Bool := f.trailFull || decide (2 ^ 32 - 1 ≤ f.events)

/-- Append an audit entry. -/
def Flint.audits (f : Flint) (ts kind v ident value : Nat) : Flint :=
  { f with
    audit := (f.audit ++ [Audit.mk f.auditNext ts f.events kind v ident value]).drop (f.audit.length + 1 - 4096)
    auditNext := f.auditNext + 1 }

/-- Count an event and append its entry in one transaction. -/
def State.change (s : State) (kind v ident value : Nat) : State :=
  let ts := s.flintStamp
  s.withFl fun f => ({ f with events := f.events + 1 }).audits ts kind v ident value

/-- The end of a debug session of a die, with its reserved entry (R437). -/
def State.endSession (s : State) (die reason : Nat) : State :=
  match s.fl.sessions.find? fun x => x.1 == die with
  | none => s
  | some x =>
    let ts := s.flintStamp
    let key := bit (s.fl.lifecycle != 0)
    let v := x.2.1 + die * 4 + reason * 16 + key * 256 + x.2.2 % 2 ^ 16 * 2 ^ 16
    s.withFl fun f => { f with sessions := f.sessions.filter (fun y => y.1 != die), level := if die = 1 then 0 else f.level, resetDue := f.resetDue || (die == 1 && x.2.1 == 2 && reason != 5) }.audits ts 4 0 0 v

/-! ### Flint resets (R348, R350, R351) -/

/-- What MRAM keeps (R349), with the CAL_EN_N pin; everything else as it powers up. -/
def Flint.mram (f : Flint) : Flint :=
  { secret := f.secret, p := f.p, curve := f.curve, sense := f.sense, events := f.events, kmGen := f.kmGen, kmCtr := f.kmCtr, audit := f.audit
    auditNext := f.auditNext, acked := f.acked, readSeqs := f.readSeqs, records := f.records, recNext := f.recNext, life := f.life, owner := f.owner
    metOwner := f.metOwner, cert := f.cert, helper := f.helper, session := f.session, sessions := f.sessions, floor := f.floor, slots := f.slots
    running := f.running, newest := f.newest, calEn := f.calEn }

/-- The firmware slot a reset runs: the newer one, or the other where it is not valid (R348). -/
def Flint.pickSlot (f : Flint) : Nat := if (f.slots.getD f.newest (0, false, 0)).2.1 then f.newest else 1 - f.newest

/-- A Flint reset: MRAM stays; the rest is lost, the newer valid firmware slot runs, and a FLINT_RESET notice goes out while the
receiver is there. The secret stays as the PUF gives it, or is enrolled (R418); the RTC, the power state and the wire counters run on. -/
def State.flintReset (s : State) : State :=
  let s1 := s.endSession 1 5
  let f := s1.fl
  let enrol := !f.helper && f.lifecycle == 0
  let s2 := s1.withFl fun _ =>
    { f.mram with
      up := true, helper := f.helper || enrol, secret := enrol || (f.secret && f.helper), rtc := f.rtc, carry := f.carry, hiber := f.hiber, period := f.period, committed := f.committed, pst := f.pst
      wakeBits := f.wakeBits, running := f.pickSlot, codes := f.codes, convs := f.convs, use := ⟨f.p, f.curve, f.events, 0, false⟩, seqs := f.seqs }
  if s2.receives then s2.flintSay 0xFD 0 0 [] else s2

/-- FLINT_RESET: the reset that the end of a Flint INVASIVE session causes (R350, R437). -/
def execFlintReset (s : State) : Out := if !s.fl.up || !s.fl.resetDue then .next s else .next s.flintReset

/-- BROWNOUT: the brown-out flag survives the reset, and in HIBERNATE the next sample raises BROWNOUT (R388). -/
def execBrownout (s : State) : Out :=
  if !s.fl.up then .next s else .next (s.flintReset.withFl fun f => { f with brown := f.hiber, ldoLow := false })

end Sys2Proof.Machine
end

