-- ==== Sys2Proof/Machine/Met.lean ====
section
/-!
DEFINITION. The metrology commands as the MP relays them and Flint executes them (R69 to R71, R287, R331 to R343).
-/
namespace Sys2Proof.Machine

/-! ### Relay and answer (R69, R70, R341, R343) -/

/-- The counter of an authenticated message, the word before its tag (R70). -/
def Cmd.counter (c : Cmd) : Nat := c.word (c.words.length - 5)
def answerCounter (ws : List W32) : Nat := (ws.getD (ws.length - 5) 0).toNat

/-- What Flint answers: a status, or the new state with the body of an `OK`. -/
abbrev MetAns := Except Nat (State × List W32)

def metNeed (b : Bool) (status : Nat) : Except Nat Unit := if b then .ok () else .error status

/-- Flint's response in the conduit buffer: header, body, the command's counter, and the tag over all of these under the key of the command (R70); what
stands for the tag of a Flint without that key is open (log entry 6). -/
def State.metAnswer (s : State) (key : Option (List Byte)) (c : Cmd) (status : Nat) (body : List W32) (ctr : W32) : State :=
  let ws := headerWord c.op c.tag (body.length + 5) true false status :: (body ++ [ctr])
  match key with
  | some k => s.frame 3 0 s.flintStamp (wordsBytes (ws ++ macWords k ws))
  | none =>
    let (s1, tag) := State.drawWords 4 s
    s1.frame 3 0 s1.flintStamp (wordsBytes (ws ++ tag))

/-- Whether the trailer of a metrology command authenticates it (R70): its last four words are the tag over everything before them, and its counter
exceeds the last; counter 2^32 − 1 is for KEY_GENERATION alone (R343). -/
def Flint.metOk (f : Flint) (c : Cmd) : Bool :=
  let n := c.words.length
  let ctr := (c.words.getD (n - 5) 0).toNat
  let keyGen := c.op == 0x39 && fld (c.word 0) 0 16 == 0x0102
  match f.km with
  | some k => c.words.drop (n - 4) == macWords k (c.header :: c.words.take (n - 4)) && decide (f.kmCtr < ctr) && !(ctr == 2 ^ 32 - 1 && !keyGen)
  | none => false

/-- A command that passed the MP's checks is relayed; Flint checks the tag and the counter, which it consumes, and executes it. -/
def State.metRun (s : State) (m tag op : Nat) (sel : Cmd → Bool) (body : List Nat → State → MetAns) : Out :=
  match s.cmdIn m tag op 0 with
  | none => .next s
  | some c =>
    if !sel c || !s.mpRuns || !s.mayStart m c then .next s
    else match s.grant m c with
      | some e => .next (s.finish m c e [] [])
      | none =>
        let s1 := s.setPhase m c 1 []
        if !s.fl.runs then .next s1
        else
          let k := c.words.length - 5
          let ctr := c.words.getD k 0
          let key := s.fl.km
          if !s.fl.metOk c then .next (s1.metAnswer key c eAuth [] ctr)
          else
            let s2 := s1.withFl fun f => { f with kmCtr := ctr.toNat }
            match body ((c.words.take k).map fun w => w.toNat) s2 with
            | .error e => .next (s2.metAnswer key c e [] ctr)
            | .ok (s3, ws) => .next (s3.metAnswer key c sOk ws ctr)

/-- The answer that the relayed command with this tag waits for: of its opcode, with its tag and its counter. -/
def State.metAnswered (s : State) (m tag : Nat) : Option (List W32) := s.conduit.answers.find? fun ws => match ws with
  | [] => false
  | h :: _ => isMet (fld h.toNat 24 8) && fld h.toNat 16 8 == tag &&
      ((s.cmdIn m tag (fld h.toNat 24 8) 1).map fun c => c.counter == answerCounter ws).getD false

/-- FLINT_RESPONSE_RELAY: Flint's answer to a relayed command reaches the mailbox as Flint sent it (R69). -/
def execFlintResponseRelay (m tag : Nat) (s : State) : Out :=
  if !s.mpRuns then .next s
  else match s.metAnswered m tag with
    | none => .next s
    | some ws =>
      let s1 := { s with conduit := { s.conduit with answers := s.conduit.answers.erase ws } }
      .next (s1.withMbx m fun b =>
        let msg : OutMsg := ⟨false, tag, ws⟩
        let b' := b.send msg
        if b.room b.held msg then { b' with out := b.out.filter fun x => x.tag != tag }
        else { b' with out := b.out.map fun x => if x.tag == tag then { x with phase := answered } else x })

/-- METROLOGY_TIMEOUT: no answer 50 ms after the relay; a later answer that carries the command's counter is discarded (R71). -/
def execMetrologyTimeout (m tag : Nat) (s : State) : Out :=
  match (s.mb m).out.find? fun c => c.tag == tag && isMet c.op && c.phase == 1 with
  | none => .next s
  | some c =>
    if !s.mpRuns || (s.metAnswered m tag).isSome then .next s
    else
      let s1 := { s with conduit := { s.conduit with stale := insNat c.counter s.conduit.stale } }
      .next (s1.finish m c eTimeout [] [])

/-! ### MET_READ (R331) -/

def metRead (b : List Nat) (s : State) : MetAns := do
  let sel := fld (b.getD 0 0) 0 2
  metNeed (decide (sel ≤ 1)) eParam
  match (if sel = 0 then s.fl.records.getLast? else s.fl.records.find? fun r => r.1 == b.getD 1 0) with
  | none => .error (if sel = 0 then eState else eParam)
  | some r => pure (s, leWords 32 r.2)

def execMetRead (m tag : Nat) (s : State) : Out := s.metRun m tag 0x38 (fun _ => true) metRead

/-! ### MET_PARAM_SET (R332 to R334) -/

/-- Whether every parameter is legal against the others on a configured Flint (R332). -/
def Params.legal (p : Params) : Bool :=
  let multiple (x : Nat) : Bool := decide (x ≤ p.max) && x % p.d == 0
  let within (x : Nat) : Bool := decide (1 ≤ x) && decide (x ≤ 10 * p.d)
  p.max % p.d == 0 && decide (100 * p.d ≤ p.max) && decide (p.max ≤ 100000 * p.d) && decide (p.max + 9 * p.d ≤ 2000000000) && multiple p.min &&
    within (p.band.getD p.d) && multiple p.tareLimit && within (p.twinTol.getD p.d)

/-- The ranges that refer to neither d nor Max (R332). -/
def paramAlone (id : Nat) (v : List Nat) : Bool :=
  let x := v.getD 0 0
  match id with
  | 0x0002 => decide (1 ≤ x) && decide (x ≤ 20000000)
  | 0x0004 => decide (x ≤ 200)
  | 0x0005 => decide (x ≤ 40)
  | 0x0006 => decide (x ≤ 50)
  | 0x0007 => decide (100 ≤ v.getD 1 0) && decide (v.getD 1 0 ≤ 5000)
  | 0x0008 => decide (fld x 0 3 ≤ 5) && fld x 3 1 == 0 && fld x 7 1 == 0 && fld x 9 3 == 0 && fld x 12 4 != 0 && fld x 16 16 == 0
  | 0x0009 => decide (1 ≤ x) && decide (x ≤ 64)
  | 0x000A => v.all fun t => decide (0x20000000 ≤ t) && decide (t ≤ 0x60000000)
  | 0x000D => decide (x ≤ 7)
  | _ => true

/-- Value words of a legally relevant parameter (R332). -/
def paramWords : Nat → Option Nat
  | 0x0007 => some 2
  | 0x000A => some 4
  | id => if 1 ≤ id ∧ id ≤ 0x000D then some 1 else none

/-- Store a parameter. -/
def Params.put (p : Params) (id : Nat) (v : List Nat) : Params :=
  let x := v.getD 0 0
  match id with
  | 0x0001 => { p with max := x }
  | 0x0002 => { p with d := x }
  | 0x0003 => { p with min := x }
  | 0x0004 => { p with zeroInit := x }
  | 0x0005 => { p with zeroSet := x }
  | 0x0006 => { p with track := x }
  | 0x0007 => { p with band := some x, time := v.getD 1 0 }
  | 0x0008 => { p with conv := x }
  | 0x0009 => { p with filter := x }
  | 0x000A => { p with trim := v }
  | 0x000B => { p with tareLimit := x }
  | 0x000C => { p with twinTol := some x }
  | _ => { p with policy := x }

def Params.conf (p : Params) : Bool := p.max != 0 && p.d != 0
/-- Parameters whose ranges refer to d or Max, which an unconfigured Flint refuses (R333). -/
def needsConf (id : Nat) : Bool := [0x0003, 0x0007, 0x000B, 0x000C].contains id

/-- MET_PARAM_SET of a legally relevant parameter, in the order of R334. -/
def metParamSet (b : List Nat) (s : State) : MetAns := do
  let f := s.fl
  let id := fld (b.getD 0 0) 0 16
  let v := fld (b.getD 0 0) 16 4
  let vals := b.drop 1
  let early := !f.p.conf && (needsConf id || (id == 1 && f.p.d == 0))
  let p := f.p.put id vals
  metNeed (paramWords id == some v && vals.length == v && paramAlone id vals) eParam
  metNeed (early || !p.conf || p.legal) eParam
  metNeed f.calEn eSealed
  metNeed (!early && !f.invasive) eState
  metNeed (!f.full) eFull
  let s1 := (s.withFl fun f => { f with p := p, dirty := true }).change 1 v id (if v = 1 then vals.getD 0 0 else (crc32c (wordsBytes (vals.map w32))).toNat)
  pure (s1, [w32 s1.fl.events])

/-- Which identifiers the other rows of MET_PARAM_SET take. -/
def paramId (c : Cmd) : Nat := fld (c.word 0) 0 16

def execMetParamSet (m tag : Nat) (s : State) : Out :=
  s.metRun m tag 0x39 (fun c => !([0x0100, 0x0101, 0x0102].contains (paramId c))) metParamSet

/-- The last drop was stable, and no boundary has restarted the windows since (R325). -/
def Flint.steady (f : Flint) : Bool := f.stable && !f.win.isEmpty

/-- Weighing is configured and calibrated, so TARE and ZERO have a meaning (R334). -/
def Flint.calibrated (f : Flint) : Bool := f.p.conf && !f.curve.isEmpty

/-- TARE (R322): it takes effect at the next drop boundary. -/
def metTare (b : List Nat) (s : State) : MetAns := do
  let f := s.fl
  let op := b.getD 1 0
  let x := b.getD 2 0
  metNeed f.calibrated eState
  metNeed (fld (b.getD 0 0) 16 4 == 2 && (b.drop 1).length == 2) eParam
  metNeed (decide (op ≤ 2) && f.p.tareLimit != 0) eParam
  metNeed (op != 2 || (x % f.p.d == 0 && x != 0 && decide (x ≤ f.p.tareLimit))) eParam
  metNeed (op != 1 || f.steady) eState
  metNeed (op != 1 || (decide (0 < f.G) && decide (f.G ≤ f.p.tareLimit))) eParam
  let t : Int := if op = 0 then 0 else if op = 2 then (x : Nat) else roundTo f.G f.p.d
  pure (s.withFl fun f => { f with tare := t, preset := op == 2, dirty := true }, [w32 f.events])

def execTare (m tag : Nat) (s : State) : Out := s.metRun m tag 0x39 (fun c => paramId c == 0x0100) metTare

/-- ZERO (R321): z becomes u at the next drop boundary. -/
def metZero (b : List Nat) (s : State) : MetAns := do
  let f := s.fl
  metNeed f.calibrated eState
  metNeed (fld (b.getD 0 0) 16 4 == 1 && b.drop 1 == [1]) eParam
  metNeed f.steady eState
  let far : Int := |f.u * 2 ^ 32 - f.z0| * 1000
  metNeed (decide (far ≤ (f.p.max * f.p.zeroSet * 2 ^ 32 : Nat))) eParam
  pure (s.withFl fun f => { f with zPend := some (f.u * 2 ^ 32), dirty := true }, [w32 f.events])

def execZero (m tag : Nat) (s : State) : Out := s.metRun m tag 0x39 (fun c => paramId c == 0x0101) metZero

/-- KEY_GENERATION (R343): the next generation, with its own counter. -/
def metKeyGeneration (b : List Nat) (s : State) : MetAns := do
  let f := s.fl
  metNeed (fld (b.getD 0 0) 16 4 == 1 && b.drop 1 == [(f.kmGen + 1) % 2 ^ 32]) eParam
  metNeed (!f.invasive) eState
  pure (s.withFl fun f => { f with kmGen := f.kmGen + 1, kmCtr := 0 }, [w32 f.events])

def execKeyGeneration (m tag : Nat) (s : State) : Out := s.metRun m tag 0x39 (fun c => paramId c == 0x0102) metKeyGeneration

/-! ### MET_CAL (R335, R336) -/

def calStep (c : Cmd) : Nat := fld (c.word 0) 0 2

/-- The checks every step makes first: its fields, then CAL_EN_N. -/
def calFields (b : List Nat) (s : State) : Except Nat Unit := do
  let step := fld (b.getD 0 0) 0 2
  let load := signed 32 (b.getD 1 0)
  metNeed (decide (fld (b.getD 0 0) 2 3 ≤ 4) && (step != 1 || (decide (-2000000000 ≤ load) && decide (load ≤ 2000000000)))) eParam
  metNeed s.fl.calEn eSealed

def calWords (k : Nat) (c : Int) (s : State) : List W32 := [w32 k, BitVec.ofInt 32 c, w32 s.fl.events]

def metCalStart (b : List Nat) (s : State) : MetAns := do
  calFields b s
  metNeed (s.fl.p.conf && s.fl.cal.isNone) eState
  pure (s.withFl fun f => { f with cal := some [] }, calWords 0 0 s)

def execMetCalStart (m tag : Nat) (s : State) : Out := s.metRun m tag 0x3A (fun c => calStep c == 0) metCalStart

def metCalCapture (b : List Nat) (s : State) : MetAns := do
  calFields b s
  let f := s.fl
  match f.cal with
  | none => .error eState
  | some pts =>
    metNeed f.steady eState
    let win := f.win.take (f.windowLen f.use.p.time)
    let c := rneDiv ((win.map fun w => w.2).sum) (max win.length 1)
    let pts' := setKey pts (fld (b.getD 0 0) 2 3) (c, signed 32 (b.getD 1 0))
    pure (s.withFl fun f => { f with cal := some pts' }, calWords pts'.length c s)

def execMetCalCapture (m tag : Nat) (s : State) : Out := s.metRun m tag 0x3A (fun c => calStep c == 1) metCalCapture

/-- Put a point in ascending order of c. -/
def insPoint (p : Int × Int) : List (Int × Int) → List (Int × Int)
  | [] => [p]
  | x :: t => if p.1 ≤ x.1 then p :: x :: t else x :: insPoint p t

/-- Loads strictly increase with c. -/
def rising : List (Int × Int) → Bool
  | a :: b :: t => decide (a.1 < b.1) && decide (a.2 < b.2) && rising (b :: t)
  | _ => true

/-- The commit; `volts` is the sense voltage it stores (R317, R335). -/
def metCalCommit (volts : Nat) (b : List Nat) (s : State) : MetAns := do
  calFields b s
  let f := s.fl
  match f.cal with
  | none => .error eState
  | some pts =>
    metNeed (decide (2 ≤ pts.length) && !f.invasive) eState
    let curve := pts.foldl (fun l x => insPoint x.2 l) []
    metNeed (rising curve) eParam
    metNeed (!f.full) eFull
    let s1 := (s.withFl fun f => { f with curve := curve, sense := volts, cal := none, dirty := true, zClear := true, zPend := none }).change 2 0 curve.length
      (crc32c (wordsBytes (curveWords curve))).toNat
    pure (s1, calWords curve.length 0 s1)

def execMetCalCommit (m tag : Nat) (volts : Nat) (s : State) : Out :=
  s.metRun m tag 0x3A (fun c => calStep c == 2) (metCalCommit volts)

def metCalAbort (b : List Nat) (s : State) : MetAns := do
  calFields b s
  match s.fl.cal with
  | none => .error eState
  | some pts => pure (s.withFl fun f => { f with cal := none }, calWords pts.length 0 s)

def execMetCalAbort (m tag : Nat) (s : State) : Out := s.metRun m tag 0x3A (fun c => calStep c == 3) metCalAbort

/-! ### The audit trail (R339, R340) -/

/-- The 32 bytes of an entry (R339). -/
def Audit.bytes (a : Audit) : List Byte :=
  leBytes 4 a.seq ++ leBytes 16 a.ts ++ leBytes 4 a.events ++ leBytes 1 a.kind ++ leBytes 1 a.v ++ leBytes 2 a.ident ++ leBytes 4 a.value

def metLogRead (b : List Nat) (s : State) : MetAns := do
  let f := s.fl
  let seq := b.getD 0 0
  let k := b.getD 1 0
  metNeed (decide (1 ≤ seq) && decide (f.auditNext ≤ seq + 4096)) eParam
  metNeed (decide (1 ≤ k) && decide (k ≤ 6)) eParam
  let got := (range' seq k).map fun i => f.audit.find? fun a => a.seq == i
  let real := (got.filter fun x => x.isSome).length
  let slots := got.flatMap fun x => match x with
    | some a => leWords 8 a.bytes
    | none => List.replicate 8 0
  pure (s.withFl fun f => { f with readSeqs := (got.filterMap fun x => x.map fun a => a.seq).foldl (fun l i => insNat i l) f.readSeqs }, w32 real :: slots)

def execMetLogRead (m tag : Nat) (s : State) : Out := s.metRun m tag 0x3B (fun _ => true) metLogRead

def metLogAck (b : List Nat) (s : State) : MetAns := do
  let f := s.fl
  let seq := b.getD 0 0
  metNeed (decide (seq ≤ f.acked) || f.readSeqs.contains seq) eParam
  metNeed (decide (seq ≤ f.acked) || !f.invasive) eState
  let s1 := s.withFl fun f => { f with acked := max f.acked seq, readSeqs := f.readSeqs.filter fun i => decide (seq < i) }
  pure (s1, [w32 (s1.fl.auditNext - 1 - s1.fl.acked)])

def execMetLogAck (m tag : Nat) (s : State) : Out := s.metRun m tag 0x3C (fun _ => true) metLogAck

end Sys2Proof.Machine
end

