-- ==== Sys2Proof/Machine/Device.lean ====
section
/-!
DEFINITION. The device commands IDENTIFY, BOARD_RECORD and GET_STATUS, the Lantern commands, and the LANTERN messages
that carry their data to Flint (R74, R279 to R281, R288, R345, R358, R447 to R451).
-/
namespace Sys2Proof.Machine

/-! ### Fields of commands that read host memory (R278, R279) -/

/-- The device identifier as IDENTIFY reports it (R279, R417). -/
def State.devId (s : State) : Nat := if s.fl.secret then leNat deviceId % 2 ^ 64 else 0

/-- A length field, a multiple of 4 in its range, and the range of host memory below 2^64 (R278). -/
def hostRange (addr len lo hi : Nat) : Bool := decide (lo ≤ len) && decide (len ≤ hi) && len % 4 == 0 && decide (addr + len ≤ 2 ^ 64)
/-- The same where the address too is a multiple of 4 (R279, R288). -/
def hostField (addr len lo hi : Nat) : Bool := addr % 4 == 0 && hostRange addr len lo hi

/-- The fetch from host memory; a failure carries the bytes moved (R275). -/
def fetched (failed : Option Nat) : Except (Nat × List W32) Unit := match failed with
  | none => .ok ()
  | some n => .error (eTimeout, [w32 n])

/-- The messages that carry some bytes to Flint: op in [7:0] and the byte offset above it, then up to `k` data words. -/
def chunkMsgs (op k : Nat) (data : List Byte) : List (List W32) :=
  (List.range ((data.length + 4 * k - 1) / (4 * k))).map fun i =>
    let part := (data.drop (4 * k * i)).take (4 * k)
    w32 (op + 4 * k * i * 2 ^ 8) :: leWords ((part.length + 3) / 4) part

def State.sendChunks (s : State) (kind op k : Nat) (data : List Byte) : State := (chunkMsgs op k data).foldl (fun s b => s.sendFlint kind b) s

/-! ### IDENTIFY (R74, R279) -/

def execIdentify (m tag : Nat) (s : State) : Out :=
  s.run m tag 0x01 fun c s => do
    let lo := fld (c.word 0) 0 8
    let hi := fld (c.word 0) 8 8
    let fits := decide (lo ≤ 3) && decide (3 ≤ hi)
    need (m ≠ 0 || fits) (if s.dev.proto = 0 then eParam else eState)
    let s1 := if m = 0 then s.withDev fun d => { d with proto := 3 } else s
    pure (s1, [w32 s1.dev.proto, 0x00110320] ++ w64 s.devId ++
      [w32 (if s.dev.phase = 0 then 0 else s.dev.fwVer), w32 s.dev.flVer, w32 (s.dev.phase + s.role * 2 ^ 4 + s.lifecycle * 2 ^ 8), 0], [])

/-! ### The board record (R280, R447, R448) -/

/-- A sensor entry, when legal. -/
def parseSensor (b : List Byte) : Option Sensor :=
  let port := byteFld b 1 1
  let proto := byteFld b 2 1
  let i3c := decide (port < 2)
  let clock := byteFld b 4 2
  if decide (1 ≤ byteFld b 0 1) && decide (byteFld b 0 1 ≤ 64) && decide (port ≤ 3) && decide (proto ≤ (if i3c then 1 else 3)) &&
      decide (byteFld b 3 1 ≤ (if i3c then 127 else 3)) && decide (clock ≤ (if !i3c then 20000 else if proto = 0 then 1000 else 12500)) &&
      decide (1 ≤ byteFld b 7 1) && decide (byteFld b 7 1 ≤ 60) && zeros b 8 8 then
    some { number := byteFld b 0 1, port := port, protocol := proto, address := byteFld b 3 1, clock := clock, register := byteFld b 6 1, length := byteFld b 7 1 }
  else none

/-- A host window entry, when legal. -/
def parseWindow (b : List Byte) : Option HostWin :=
  if byteFld b 0 8 % 4096 == 0 && decide (byteFld b 8 4 ≤ 1048576) && decide (byteFld b 12 1 ≤ 1) && zeros b 13 19 then
    some ⟨byteFld b 0 8, byteFld b 8 4, byteFld b 12 1 == 1⟩
  else none

/-- All entries of a table, when each is legal. -/
def allSome {α : Type} : List (Option α) → Option (List α)
  | [] => some []
  | none :: _ => none
  | some a :: t => (allSome t).map fun l => a :: l

/-- The record that some bytes of the given length spell, for the device with identifier `id`; none where R448 fails. -/
def parseBoard (id : Nat) (b : List Byte) (len : Nat) : Option Board :=
  let n := byteFld b 6 2
  let slice (o k : Nat) : List Byte := (b.drop o).take k
  match allSome ((List.range 4).map fun w => parseWindow (slice (80 + 32 * w) 32)), allSome ((List.range (min n 64)).map fun i => parseSensor (slice (224 + 16 * i) 16)) with
  | some wins, some sens =>
    let flags := byteFld b 34 1
    let modes := (List.range 4).map fun i => fld (byteFld b 46 2) (4 * i) 3
    let limits := (List.range 3).map fun i => byteFld b (48 + 2 * i) 2
    let roles := (List.range 6).map fun i => byteFld b (64 + i) 1
    let entry := byteFld b 60 4
    let w0 := (wins.headD {}).units
    let between (x lo hi : Nat) : Bool := decide (lo ≤ x) && decide (x ≤ hi)
    let ok := byteFld b 0 4 == 0x47584252 && byteFld b 4 2 == 1 && decide (n ≤ 64) && byteFld b 8 4 == len && decide (320 + 16 * n ≤ len) &&
      byteFld b 16 8 == id && (byteFld b 24 8 == 0 || byteFld b 24 8 != id) && between (byteFld b 32 1) 1 2 && decide (flags < 4) &&
      decide (byteFld b 35 1 < 4) && between (byteFld b 36 2) 1 20 && between (byteFld b 38 2) 1 500 && between (byteFld b 40 4) 1000 100000000 &&
      between (byteFld b 44 2) 200 2000 && (modes.all fun x => decide (x ≤ 5)) && fld (byteFld b 46 2) 3 1 == 0 && fld (byteFld b 46 2) 7 1 == 0 &&
      fld (byteFld b 46 2) 11 1 == 0 && fld (byteFld b 46 2) 15 1 == 0 && between (limits.getD 0 0) 600 1000 && between (limits.getD 1 0) 650 1000 &&
      between (limits.getD 2 0) 600 1000 && zeros b 54 2 && decide (byteFld b 56 4 ≤ 604800) && entry % 4 == 0 && (w0 == 0 || decide (entry < w0 * 4096)) &&
      zeros b 70 10 && zeros b 208 16 && zeros b (224 + 16 * n) (len - 96 - (224 + 16 * n)) && (sens.map fun x => x.number).Nodup &&
      (roles.all fun r => r == 0 || sens.any fun x => x.number == r) && (!bitAt flags 1 || w0 != 0)
    if ok then
      some
        { serial := byteFld b 12 4, twinId := byteFld b 24 8, role := byteFld b 32 1, cameras := byteFld b 33 1, loadCell := bitAt flags 0
          coresStart := bitAt flags 1, ppsLow := bitAt (byteFld b 35 1) 0, tdoHiz := bitAt (byteFld b 35 1) 1, refPpm := byteFld b 36 2
          rtcPpm := byteFld b 38 2, timeBound := byteFld b 40 4, allowance := byteFld b 44 2, wakeModes := modes, limits := limits
          alarm := byteFld b 56 4, entry := entry, lanRoles := roles, windows := wins, sensors := sens }
    else none
  | _, _ => none

/-- BOARD_RECORD: the checks of R280 on the fetched record, then the relay to Flint (R449). -/
def boardRecord (data : List Byte) (failed : Option Nat) (sigOk : Bool) (m : Nat) (c : Cmd) (s : State) : Begun := do
  let addr := c.word 0 + c.word 1 * 2 ^ 32
  let len := c.word 2
  need (hostField addr len 512 16384) eParam
  need s.dev.board.isNone eState
  fetched failed
  need sigOk eAuth
  let b := padTo len data
  match parseBoard s.devId b len with
  | none => .error (eParam, [])
  | some r => pure (((s.withDev fun d => { d with boardPend := some r }).setPhase m c 1 []).sendChunks 0xF2 5 254 b)

/-- BOARD_RECORD; in phase FIRMWARE it waits for CALIBRATED (R442). -/
def execBoardRecord (m tag : Nat) (data : List Byte) (failed : Option Nat) (sigOk : Bool) (s : State) : Out :=
  if s.dev.phase = 1 then .next s else s.begin m tag 0x02 fun c => boardRecord data failed sigOk m c

/-- Voltage in mV of an operating point (R383): domain 0 ARITH, 1 MEM, 2 CORE. -/
def pointMv (domain point : Nat) : Nat :=
  ([[600, 650, 720, 800], [650, 700, 750, 800], [600, 700, 800, 900]].getD domain []).getD point 0

/-- The highest point at or below `p` within a limit. -/
def pointWithin (domain limit : Nat) : Nat → Nat
  | 0 => 0
  | p + 1 => if pointMv domain (p + 1) ≤ limit then p + 1 else pointWithin domain limit p

/-- Acceptance of the board record (R450, R451). -/
def State.acceptBoard (s : State) (b : Board) : State :=
  let s1 := { (s.withDev fun d => { d with board := some b, boardPend := none, phase := max 3 d.phase }) with role := b.role }
  let s2 := s1.withPw fun p => { p with points := p.points.zipIdx.map fun x => pointWithin x.2 (b.limits.getD x.2 0) x.1 }
  if b.coresStart then { s2 with cores := s2.cores.zipIdx.map fun x => if x.2 < 8 then { x.1 with reset := false, mode := 3, start := 0x4000000000 + b.entry } else x.1 } else s2

/-- Flint's status of a relayed record (R449). -/
def State.boardAnswer (s : State) (status : Nat) : State :=
  match s.outstanding.find? (fun c => c.op == 0x02 && c.phase == 1), s.dev.boardPend with
  | some c, some b =>
    if status = sOk then (s.acceptBoard b).respond 0 c sOk [w32 b.role, w32 b.serial]
    else (s.withDev fun d => { d with boardPend := none }).respond 0 c status []
  | _, _ => s

/-! ### GET_STATUS (R281) -/

/-- The words of GET_STATUS; word 10 counts the commands outstanding beside it. -/
def statusWords (s : State) (m : Nat) : List W32 :=
  let bits (l : List Bool) : Nat := (l.zipIdx.map fun x => bit x.1 * 2 ^ x.2).sum
  let ctx (k : Nat) : Nat := ((List.range 8).map fun c => (s.ctx (8 * k + c)).state.code * 2 ^ (3 * c)).sum
  let opens := s.streams.map fun x => x.state != 0
  [w32 (s.dev.phase + s.role * 2 ^ 4 + s.tw.mode.code * 2 ^ 9 + s.lifecycle * 2 ^ 12 + s.sec.cdLevel * 2 ^ 16 + s.sec.flLevel * 2 ^ 18 +
      bit s.running * 2 ^ 20 + s.time.quality.code * 2 ^ 22),
    w32 (bits (s.geodes.map fun g => g.retired)), w32 (s.gal.slabs.filter fun x => x.state == .free).length, w32 (ctx 0), w32 (ctx 1), w32 (ctx 2),
    w32 (bits (opens.take 32)), w32 (bits (opens.drop 32)), w32 s.dev.heartbeat, w32 s.drip.count, w32 ((s.mb m).out.length - 1), w32 s.faultStatus,
    w32 (min s.dev.unknownCam (2 ^ 32 - 1))]

def execGetStatus (m tag : Nat) (s : State) : Out := s.run m tag 0x03 fun _ s => .ok (s, statusWords s m, [])

/-! ### LAN_MODEL_LOAD and LAN_RULES (R288, R357, R358) -/

def lanModelLoad (data : List Byte) (failed : Option Nat) (m : Nat) (c : Cmd) (s : State) : Begun := do
  let addr := c.word 0 + c.word 1 * 2 ^ 32
  let len := c.word 2
  need (hostField addr len 64 73728) eParam
  fetched failed
  let b := padTo len data
  need (modelOk b len) eParam
  pure (((s.setPhase m c 1 []).sendChunks 0xF2 1 254 b).sendFlint 0xF2 [2, w32 len, crc32c b])

def execLanModelLoad (m tag : Nat) (data : List Byte) (failed : Option Nat) (s : State) : Out :=
  s.begin m tag 0x3D fun c => lanModelLoad data failed m c

/-- Flint's answer to COMMIT (R358). -/
def State.modelAnswer (s : State) (status : Nat) (body : List W32) : State :=
  match s.outstanding.find? fun c => c.op == 0x3D && c.phase == 1 with
  | some c => s.respond 0 c status (if status = sOk then [body.getD 0 0] else [])
  | none => s

def execLanRules (m tag : Nat) (s : State) : Out :=
  s.run m tag 0x3E fun c s => do
    let first := fld (c.word 0) 0 5
    let n := fld (c.word 0) 5 4
    need (decide (1 ≤ n) && decide (first + n ≤ 32) && c.words.length == 1 + 4 * n) eParam
    need ((List.range n).all fun i => ruleOk (c.word (1 + 4 * i)) (c.word (2 + 4 * i)) (c.word (3 + 4 * i)) (c.word (4 + 4 * i))) eParam
    pure (s.sendFlint 0xF2 (w32 (3 + first * 2 ^ 8 + n * 2 ^ 13) :: c.words.drop 1), [], [])

/-! ### LANTERN messages at Flint (R358, R449) -/

/-- The byte offset and the bytes of a chunk's body. -/
def chunkOf (body : List W32) : Nat × List Byte := (fld (body.getD 0 0).toNat 8 24, wordsBytes (body.drop 1))

/-- CHUNK: data for the buffer that is not active, which a model that still waits for it leaves (R359); a chunk past the buffer's 72 KiB has no effect. -/
def execLanternChunk (body : List W32) (ctr : Nat) (tag : List W32) (s : State) : Out :=
  s.kcMsg 0xF2 body ctr tag fun s =>
    let (o, b) := chunkOf body
    if o + b.length ≤ 73728 then s.withLan fun l => { l with pending := false, bufs := upd l.bufs (1 - l.active) fun m => m.writeN o b } else s

/-- COMMIT: the written bytes must have the CRC. -/
def execLanternCommit (body : List W32) (ctr : Nat) (tag : List W32) (s : State) : Out :=
  s.kcMsg 0xF2 body ctr tag fun s =>
    let l := s.fl.lan
    let len := (body.getD 1 0).toNat
    if len ≤ 73728 ∧ crc32c ((l.bufs.getD (1 - l.active) []).readN 0 len) = body.getD 2 0 then
      (s.withLan fun l => { l with pending := true }).flintSay 0xF2 2 sOk [w32 (1 - l.active)]
    else s.flintSay 0xF2 2 eParam []

/-- RULES: into the pending rule set. -/
def execLanternRules (body : List W32) (ctr : Nat) (tag : List W32) (s : State) : Out :=
  s.kcMsg 0xF2 body ctr tag fun s =>
    let w (i : Nat) : Nat := (body.getD i 0).toNat
    let rules := (List.range (fld (w 0) 13 4)).map fun i =>
      (fld (w 0) 8 5 + i, ({ w0 := w (1 + 4 * i), w1 := w (2 + 4 * i), w2 := w (3 + 4 * i), w3 := w (4 + 4 * i) } : Rule))
    s.withLan fun l => { l with next := l.next ++ rules }

/-- REPORT: a STATUS frame. -/
def execLanternReport (body : List W32) (ctr : Nat) (tag : List W32) (s : State) : Out :=
  s.kcMsg 0xF2 body ctr tag fun s => s.lanStatus s.fl.dropStamp 1

/-- BOARD: record data; once its last byte has come, Flint verifies the record itself and applies it at its next drop, or at
once without timing messages. `sigOk` is the signature's verdict. -/
def execLanternBoard (body : List W32) (ctr : Nat) (tag : List W32) (sigOk : Bool) (s : State) : Out :=
  s.kcMsg 0xF2 body ctr tag fun s =>
    let (o, b) := chunkOf body
    let s1 := if o + b.length ≤ 16384 then s.withFl fun f => { f with boardBuf := f.boardBuf.writeN o b } else s
    let len := byteFld (s1.fl.boardBuf.readN 0 12) 8 4
    if o + b.length < len then s1
    else if !sigOk then s1.flintSay 0xF2 5 eAuth []
    else match parseBoard s1.devId (s1.fl.boardBuf.readN 0 len) len with
      | none => s1.flintSay 0xF2 5 eParam []
      | some r => (s1.withFl fun f => if f.timed then { f with boardNext := some r } else { f with board := some r }).flintSay 0xF2 5 sOk []

end Sys2Proof.Machine
end

