-- ==== Sys2Proof/Machine/Reset.lean ====
section
/-!
DEFINITION. What a compute-die reset leaves (R75, R369, R437, R443, R454), shared by RST_N, the rail monitors, holds, HIBERNATE and
power loss.
-/
namespace Sys2Proof.Machine

/-- Flint observes a compute-die reset on the die-to-die reset line: the compute-die session ends with `reason`, one more HELLO is
accepted, and comparison is inactive until a MODE message (R344, R394, R437). -/
def State.flintSees (s : State) (reason : Nat) : State := (s.endSession 0 reason).withFl fun f => { f with hello := false, mode := .none }

/-- The power controller after a reset: what Flint's wake unit and the pad latches hold outlives it (R375, R382). -/
def Pw.afterReset (p : Pw) : Pw :=
  { levels := p.levels, edges := p.edges, masked := p.masked, pins := p.pins, held := p.held, ppsHeld := p.ppsHeld, faultHeld := p.faultHeld, tdoHeld := p.tdoHeld }

/-- The FCU after a reset: that of a hold leaves out the alert receiver, and FAULT_N is driven while the hold lasts (R394). -/
def Fcu.afterReset (f : Fcu) : Fcu := if f.held then { rx := f.rx, runCause := f.runCause, runLen := f.runLen, held := true, faultN := true } else {}

/-- The debug port after a reset: Flint's TAP is not touched. -/
def Sec.afterReset (d : Sec) : Sec := { tap := [2, d.tap.getD 1 2], ack := [0, d.ack.getD 1 0], data := [0, d.data.getD 1 0] }

/-- The compute die and the Gallery lose their state; Flint, the FCU store, host memory, the rails and the alert receiver keep
theirs. -/
def State.clearCompute (s : State) : State :=
  { State.reset with
    fcuRecs := s.fcuRecs, recSeq := s.recSeq, fl := s.fl, host := s.host, readData := s.readData, free := s.free, pending := s.pending
    pw := s.pw.afterReset, fcu := s.fcu.afterReset, sec := s.sec.afterReset
    dev := { rails := s.dev.rails, rstN := s.dev.rstN, aon := s.dev.aon, refclk := s.dev.refclk } }

/-- A compute-die reset, as Flint and the compute die see it. -/
def State.computeReset (s : State) : State := (s.flintSees 4).clearCompute

/-- HIBERNATE and OFF lose the FCU store too, and the record numbers start again (R414, R416). -/
def State.dropRecords (s : State) : State := { s with fcuRecs := [], recSeq := 0 }

end Sys2Proof.Machine
end

