-- ==== Sys2Proof/Machine/Power.lean ====
section
/-!
DEFINITION. Power states, wakes, pads, operating points and the thermal allowance (R289, R367 to R390), but for the exit from ROOST and
TORPOR, which stands with the drip boundaries.
-/
namespace Sys2Proof.Machine

/-! ### PWR_REQUEST, PWR_STATUS, PAD_RELEASE (R289, R374, R382) -/

/-- The wake period in ticks of 2^-15 s, from µs, to the nearest. -/
def wakeTicks (us : Nat) : Nat := (us * 32768 + 500000) / 1000000

/-- PWR_REQUEST; word 0 of the response is 1 when the target is held as pending. -/
def pwrRequest (c : Cmd) (s : State) : Answer := do
  let t := fld (c.word 0) 0 3
  let us := fld (c.word 1) 0 20
  let follows := bitAt (c.word 2) 0
  let p := s.pw
  need (t ≤ 3) eParam
  need (t ≠ 3 ∨ (1000 ≤ us ∧ us ≤ 1000000)) eParam
  need (!s.follows) eState
  match p.target with
  | none =>
    if t = p.state then pure (s, [w32 0], [])
    else pure (s.withPw fun p => { p with target := some t, ticks := wakeTicks us, debugFollows := follows }, [w32 0], [])
  | some cur =>
    need p.pend.isNone eBusy
    if t = cur then pure (s, [w32 0], [])
    else pure (s.withPw fun p => { p with pend := some t, pendTicks := wakeTicks us, pendFollows := follows, abort := decide (t < cur) }, [w32 1], [])

/-- A request reversed while no block is being asked aborts at once (R374). -/
def State.reverseNow (s : State) : State := if s.pw.abort && s.pw.asking.isNone then (s.rollback 3 0 0x0E).startPending else s

def execPwrRequest (m tag : Nat) (s : State) : Out := match s.run m tag 0x48 pwrRequest with
  | .next t => .next t.reverseNow
  | o => o

/-- The operating points as word 3 of PWR_STATUS has them. -/
def Pw.pointWord (p : Pw) : Nat := p.points.getD 0 0 + 4 * p.points.getD 1 0 + 16 * p.points.getD 2 0

/-- PWR_STATUS. -/
def execPwrStatus (m tag : Nat) (s : State) : Out :=
  s.run m tag 0x49 fun _ s => .ok (s, [w32 s.pwrWord, w32 s.pw.wakeCause, w32 s.pw.held, w32 s.pw.pointWord], [])

/-- PAD_RELEASE. -/
def execPadRelease (m tag : Nat) (s : State) : Out :=
  s.run m tag 0x4A fun c s => do
    let g := fld (c.word 0) 0 8
    need (g < 8) eParam
    let s1 := s.withPw fun p => { p with held := without p.held g }
    pure (s1, [w32 s1.pw.held], [])

/-! ### Operating points (R383 to R385) -/

/-- DVFS_SET; word 0 of the response is 1 when another change is ahead of it. -/
def dvfsSet (c : Cmd) (s : State) : Answer := do
  let d := fld (c.word 0) 0 2
  let p := fld (c.word 0) 2 2
  need (d < 3) eParam
  need (pointMv d p ≤ ((s.dev.board.map fun b => b.limits.getD d 0).getD 0)) eParam
  need (!(s.follows && d == 0)) eState
  need (s.pw.dvfs.length < 2) eBusy
  pure (s.withPw fun x => { x with dvfs := x.dvfs ++ [(d, p, false)] }, [w32 (bit (!s.pw.dvfs.isEmpty))], [])

def execDvfsSet (m tag : Nat) (s : State) : Out := s.run m tag 0x4B dvfsSet

/-- DVFS_CHANGE_START: the oldest accepted change begins, while no other runs and block 9 is not stopped; `lead` is the ARITH point
that the leader of a PAIRED pair dictates at this boundary (R385). -/
def execDvfsChangeStart (lead : Option Nat) (s : State) : Out :=
  if s.dev.die != .serving || s.pw.state ≠ 0 || s.pw.agreed.contains 9 || (s.pw.dvfs.any fun d => d.2.2) then .next s
  else match lead with
    | some p => if s.follows then .next (s.withPw fun x => { x with dvfs := (0, p % 4, true) :: x.dvfs }) else .next s
    | none => .next (s.withPw fun x => match x.dvfs with
      | [] => x
      | (d, p, _) :: t => { x with dvfs := (d, p, true) :: t })

/-- Exempt a domain of `FCU_CLK` from the monitors for some windows. -/
def State.quietClk (s : State) (d k : Nat) : State := s.withFcu fun f => { f with quiet := upd f.quiet d fun n => max n k }

/-- DVFS_CHANGE_DONE: the point has taken effect; the domain's monitor stays suspended for 20 µs, two windows (R407). -/
def execDvfsChangeDone (s : State) : Out := match s.pw.dvfs with
  | (d, p, true) :: t => .next ((s.withPw fun x => { x with points := x.points.set d p, dvfs := t }).quietClk (d + 1) 2)
  | _ => .next s

/-! ### The entry handshake (R370 to R374) -/

/-- POWER_HANDSHAKE_START. -/
def execPowerHandshakeStart (busy : List Nat) (s : State) : Out :=
  if s.dev.die != .serving || s.pw.state ≠ 0 || s.pw.target.isNone || s.pw.asking.isSome || s.pw.ready || !s.pw.agreed.isEmpty then .next s
  else .next (s.askFrom 13 1 busy false)

/-- Block 1 agrees: the follower holds at its commit. -/
def State.twinAgrees (s : State) (busy : List Nat) : State :=
  let s1 := (s.withPw fun p => { p with asking := none, agreed := 1 :: p.agreed }).withTw fun t => { t with announced := true }
  if s1.pw.abort then (s1.rollback 3 0 0x0E).startPending else s1.askFrom 13 2 busy false

/-- BLOCK_ANSWER: the block that delays is asked again; `busy` names the blocks still at work that the state does not hold, `twin` is
the follower's cause, 0 where it agrees. -/
def execBlockAnswer (busy : List Nat) (twin : Nat) (s : State) : Out := match s.pw.target, s.pw.asking with
  | some _, some b =>
    if b = 1 then .next (if twin = 0 then s.twinAgrees busy else s.refused 1 twin)
    else .next (s.askFrom 13 b busy true)
  | _, _ => .next s

/-- BLOCK_DELAY_TIMEOUT: a block that still cannot agree refuses with its cause; the twin block's is TWIN_NO_ANSWER. -/
def execBlockDelayTimeout (busy : List Nat) (s : State) : Out := match s.pw.target, s.pw.asking with
  | some t, some b =>
    if b = 1 then .next (s.refused 1 1)
    else
      let (s1, v) := s.askBlock b t busy true
      match v with
      | .delay => .next (s1.refused b (delayCause b))
      | _ => .next (s.askFrom 13 b busy true)
  | _, _ => .next s

/-- FOLLOWER_HANDSHAKE: the follower runs its own handshake from block 2 and holds at its commit; target 0 is the leader's rollback of
it (R372, R390). -/
def execFollowerHandshake (target ticks : Nat) (follows : Bool) (busy : List Nat) (s : State) : Out :=
  if !s.follows || s.dev.die != .serving || s.pw.state ≠ 0 || 4 ≤ target then .next s
  else if target = 0 then (if s.pw.follower then .next ((s.withTw fun t => { t with announced := false }).rollback 3 0 0x0E) else .next s)
  else if s.pw.target.isSome then .next s
  else .next (((s.withPw fun p => { p with target := some target, ticks := ticks, debugFollows := follows, follower := true }).withTw fun t =>
    { t with announced := true }).askFrom 13 2 busy false)

/-! ### The commit (R373, R374, R380) -/

/-- Flint takes COMMIT: it watches its wake sources for ROOST or TORPOR, or duty-cycles in HIBERNATE (R366, R373, R388), where the samples and
Lantern events it has not sent are discarded (R17) and a debug challenge is lost (R272). -/
def Flint.commit (f : Flint) (t : Nat) : Flint :=
  if t = 3 then
    { f with
      hiber := true, ldoLow := true, timed := false, holdover := false, late := false, entering := none, committed := false, pst := 2, wakeBits := 0, chal := none
      lan := { f.lan with left := 0 }, frames := f.frames.filter fun x => decide (3 ≤ x.kind) }
  else { f with entering := none, committed := true, pst := t - 1 }

/-- The commit of ROOST or TORPOR; a deeper pending target starts at once from the state reached. -/
def State.commitShallow (s : State) (t : Nat) : State :=
  let s1 := (if t = 2 then s.latchPads else s).sendFlint 0xF3 [2]
  let s2 := s1.withPw fun p =>
    { p with state := t, target := none, asking := none, agreed := [], ready := false, follower := false, reached := none, outcome := 1, block := 0, cause := 0 }
  if s.pw.pend.isSome then (s2.withPw fun p => { p with state := 0, reached := some t }).startPending else s2

/-- The commit of HIBERNATE: pads, debug sessions, COMMIT, and the power of the compute die and the Gallery (R369, R380, R437). -/
def State.commitDeep (s : State) : State :=
  let s1 := ((s.latchPads.endSession 0 3).endSession 1 3).withFl fun f => { f.commit 3 with resetDue := false, hello := false, mode := .none }
  (s1.clearCompute.dropRecords).withPw fun p => { p with state := 3 }

/-- The controller commits to `t`; a word in a command FIFO raises HOST, so the entry aborts (R373). -/
def State.commitTo (s : State) (t : Nat) : State :=
  let s1 := if s.mbx.any fun b => !b.cmd.isEmpty then s.withPw fun p => { p with levels := setBit p.levels 6 } else s
  if s1.raised t ≠ 0 then s1.abortWake (s1.raised t)
  else if t = 3 then s1.commitDeep
  else s1.commitShallow t

/-- ENTRY_COMMIT: to ROOST or TORPOR. -/
def execEntryCommit (s : State) : Out := match s.pw.target with
  | some t => if s.pw.ready && !s.pw.follower && (t == 1 || t == 2) then .next (s.commitTo t) else .next s
  | none => .next s

/-- HIBERNATE_ENTRY. -/
def execHibernateEntry (s : State) : Out := match s.pw.target with
  | some t => if s.pw.ready && !s.pw.follower && t == 3 then .next (s.commitTo 3) else .next s
  | none => .next s

/-- SB_SYNC: the leader's strobe commits the follower. -/
def execSbSync (s : State) : Out := match s.pw.target with
  | some t => if s.pw.ready && s.pw.follower then .next (s.commitTo t) else .next s
  | none => .next s

/-! ### Wakes (R375 to R377, R381, R441) -/

/-- The mode of a wake pin by Flint's board record: disabled while it holds none (R449). -/
def State.pinMode (s : State) (n : Nat) : Nat := (s.fl.board.map fun b => b.wakeModes.getD n 0).getD 0

/-- A wake pin stands at `level` (R376). -/
def State.setPin (s : State) (n : Nat) (level : Bool) : State :=
  let was := bitAt s.pw.pins n
  let s1 := s.withPw fun p => { p with pins := if level then setBit p.pins n else clearBit p.pins n }
  let m := s.pinMode n
  if m = 4 ∨ m = 5 then (if level == (m == 4) then s1.raiseLevel (2 + n) else s1.dropLevel (2 + n))
  else if (m = 1 ∧ !was ∧ level) ∨ (m = 2 ∧ was ∧ !level) ∨ (m = 3 ∧ was ≠ level) then s1.raiseEdge (2 + n)
  else s1

def execWakePin (pin : Nat) (level : Bool) (s : State) : Out := if !s.fl.up then .next s else .next (s.setPin pin level)

/-- WAKE: a source by its bit of `WAKE_CAUSE`; a pin as its mode has it, the RTC alarm where the record sets one. -/
def execWake (src : Nat) (s : State) : Out :=
  if !s.fl.up || 10 < src then .next s
  else if src = 0 then (if s.fl.hiber && (s.fl.board.map fun b => b.alarm != 0).getD false then .next (s.raiseLevel 0) else .next s)
  else if 2 ≤ src ∧ src ≤ 5 then
    (let m := s.pinMode (src - 2)
     if m = 0 then .next s else if m ≤ 3 then .next (s.raiseEdge src) else .next (s.raiseLevel src))
  else if src = 8 then .next (s.raiseEdge 8)
  else .next (s.raiseLevel src)

/-- HOST_ACCESS_WAKE: an access held in ROOST or TORPOR, or the host wake line in HIBERNATE (R76, R375). -/
def execHostAccessWake (s : State) : Out := if s.pw.state = 0 ∨ 4 ≤ s.pw.state then .next s else .next (s.raiseLevel 6)

/-- TCK_WAKE: only in DEVELOP, and only out of ACTIVE. -/
def execTckWake (s : State) : Out :=
  if s.pw.state = 0 ∨ 4 ≤ s.pw.state ∨ s.fl.lifecycle ≠ 1 then .next s else .next (s.raiseEdge 8)

/-- SB_WAKE: the twin wake wire. -/
def execSbWake (level : Bool) (s : State) : Out := if !s.fl.up then .next s else .next (if level then s.raiseLevel 7 else s.dropLevel 7)

/-- Pad group 2 is released by an exit that DEBUG caused (R441). -/
def State.tdoFree (s : State) (bits : Nat) : State := if bitAt bits 8 then s.withPw fun p => { p with held := clearBit p.held 2 } else s

/-- HIBERNATE_EXIT: the wake unit records the sources, and the compute die is powered; its start follows (R381). -/
def execHibernateExit (s : State) : Out :=
  let bits := s.raised 3
  if s.pw.state ≠ 3 ∨ bits = 0 then .next s
  else .next ((((s.tdoFree bits).withFl fun f => { f with wakeBits := bits, ldoLow := false }).withPw fun p => { p with state := 0 }).withDev fun d => { d with fromHib := true })

/-! ### POWER messages at Flint (R373, R380, R381) -/

/-- POWER_ENTER: an acknowledgement, after RTC_LATCH for HIBERNATE; the latch waits for the next timing message while the drip generator
runs. -/
def execPowerEnter (body : List W32) (ctr : Nat) (tag : List W32) (rtc : Nat) (s : State) : Out :=
  s.kcMsg 0xF3 body ctr tag fun s =>
    let t := fld (body.getD 0 0).toNat 8 2
    let s1 := (s.rtcAt rtc).withFl fun f => { f with entering := some t, period := if t = 3 then (body.getD 1 0).toNat else f.period, carry := if t = 3 then none else f.carry }
    if t ≠ 3 then s1.flintSay 0xF3 1 sOk []
    else if body.length = 6 then s1.rtcLatch (leNat (wordsBytes (body.drop 2)))
    else s1

/-- POWER_COMMIT: the answer waits for a wake that Flint raises; one that stands is answered at once. -/
def execPowerCommit (body : List W32) (ctr : Nat) (tag : List W32) (s : State) : Out :=
  s.kcMsg 0xF3 body ctr tag fun s => match s.fl.entering with
    | some t => (s.withFl fun f => f.commit t).answerCommit
    | none => s

/-- POWER_ABORT. -/
def execPowerAbort (body : List W32) (ctr : Nat) (tag : List W32) (s : State) : Out :=
  s.kcMsg 0xF3 body ctr tag fun s => (s.withFl fun f => { f with entering := none, committed := false }).flintSay 0xF3 3 sOk []

/-- POWER_RUNNING: after HIBERNATE Flint gives the carried time and the wake bits, leaves duty-cycling, and the sources it recorded are
acknowledged. -/
def execPowerRunning (body : List W32) (ctr : Nat) (tag : List W32) (rtc : Nat) (s : State) : Out :=
  s.kcMsg 0xF3 body ctr tag fun s =>
    if !s.fl.hiber then (s.withFl fun f => { f with committed := false, entering := none, pst := 0 }).flintSay 0xF3 4 sOk []
    else
      let s1 := s.rtcAt rtc
      let f := s1.fl
      let bits := f.wakeBits
      let last := match f.carry with
        | some c => stampOf 0 c.1 3
        | none => 0
      let at' := (f.carry.map fun c => c.2).getD 0
      let s2 := s1.frame 5 0 s1.flintStamp (leBytes 16 last ++ leBytes 6 at' ++ leBytes 6 f.rtc ++ leBytes 16 (stampOf 0 f.carried 3))
      ((s2.withFl fun f => { f with hiber := false, ldoLow := false, committed := false, entering := none, pst := 0 }).flintSay 0xF3 4 sOk
        [w32 bits, w32 (if bitAt bits 1 then f.lan.wakeRule else 0)]).ackWakes bits

/-- RTC_LATCH: the receiver keeps the carried time; after HIBERNATE the MP sets Quartz from it with quality CARRIED (R50). -/
def execRtcLatch (raw : List Byte) (s : State) : Out :=
  if !s.receives then .next s
  else match s.receive 5 raw with
    | (s1, some f) =>
      let t := leNat ((f.payload.drop 28).take 16)
      let s2 := { s1 with conduit := { s1.conduit with rtc := some t } }
      if s2.dev.fromHib ∧ s2.dev.phase ≠ 0 then
        .next ((s2.withTime fun x => { x with now := stampUnits t % timeMod, quality := .carried }).withDev fun d => { d with fromHib := false })
      else .next s2
    | (s1, none) => .next s1

/-! ### Measured power (R386, R387) -/

/-- The thermal allowance in 10 mW; none before a board record. -/
def State.allowance (s : State) : Option Nat := s.dev.board.map fun b => b.allowance

/-- Event 0x41 THROTTLE. -/
def State.throttleEvent (s : State) (mean : Nat) : State :=
  s.event 0 0x41 0 0 [w32 (mean % 2 ^ 16 + min 255 s.pw.steps.length * 2 ^ 16 + s.pw.temps.foldl max 0 % 256 * 2 ^ 24)]

/-- The halvings of a context change: its budgets are written again for the next boundary. -/
def State.setHalved (s : State) (c n : Nat) : State :=
  let s1 := s.withPw fun p => { p with halved := p.halved.set c n }
  if (s.ctx c).state = .running ∧ !(s.ctx c).stopping ∧ !(s.ctx c).halting then s1.writeBudgets c else s1

/-- Whether context `a` is reduced before context `b`: lower priority, then the lower class, then the higher number. -/
def State.reducedFirst (s : State) (a b : Nat) : Bool :=
  let x := s.ctx a
  let y := s.ctx b
  decide (x.prio < y.prio) || (x.prio == y.prio && (decide (y.cls.code < x.cls.code) || (x.cls == y.cls && decide (b < a))))

/-- The context whose turn it is. -/
def State.nextReduced (s : State) : Option Nat :=
  ((List.range 24).filter fun c => (s.ctx c).state == .running && decide (s.pw.halved.getD c 0 < 4)).foldl (fun (r : Option Nat) c => match r with
    | none => some c
    | some k => if s.reducedFirst c k then some c else some k) none

/-- POWER_SAMPLE: the mean over the last second; the limit of 105 °C is undone after 1 s below 95 °C, and the trip once every junction is
below 115 °C. -/
def execPowerSample (p : Nat) (temps : List Nat) (s : State) : Out :=
  if !s.mpRuns then .next s
  else
    let l := (p :: s.pw.samples).take 1000
    let mean := l.sum / l.length
    let below := (s.allowance.map fun a => decide (10 * l.sum < 9 * a * l.length)).getD false
    let cool := if temps.all fun t => decide (t < 95) then s.pw.cool + 1 else 0
    let s1 := (s.withPw fun x => { x with samples := l, mean := mean, temps := temps, low := if below then x.low + 1 else 0, cool := cool }).withFcu fun f =>
      { f with trip := f.trip && !(temps.all fun t => decide (t < 115)) }
    if s1.pw.limit ∧ 1000 ≤ cool then
      let s2 := s1.withPw fun x => { x with limit := false, points := x.saved, halved := x.savedHalved, saved := [], savedHalved := [] }
      .next (s2.rebudget.throttleEvent mean)
    else .next s1

/-- The most recent step is undone. -/
def State.undoStep (s : State) : Option State := match s.pw.steps with
  | [] => none
  | k :: t =>
    let s1 := s.withPw fun p => { p with steps := t }
    some (if k < 24 then s1.setHalved k (s1.pw.halved.getD k 0 - 1) else s1.withPw fun p => { p with points := upd p.points 0 fun x => min 3 (x + 1) })

/-- The next reduction. -/
def State.reduceStep (s : State) : Option State := match s.nextReduced with
  | some c => some ((s.withPw fun p => { p with steps := c :: p.steps }).setHalved c (s.pw.halved.getD c 0 + 1))
  | none => if s.pw.points.getD 0 0 = 0 then none else some (s.withPw fun p => { p with steps := 24 :: p.steps, points := upd p.points 0 fun x => x - 1 })

/-- THROTTLE: the once-per-second decision; in PAIRED the larger of the twins' means decides (`twin`, 0 elsewhere). -/
def execThrottle (twin : Nat) (s : State) : Out :=
  match s.allowance with
  | none => .next s
  | some a =>
    let mean := max s.pw.mean (if s.tw.mode = .paired then twin else 0)
    let r := if !s.mpRuns || s.pw.limit then none
      else if a < mean then s.reduceStep
      else if 1000 ≤ s.pw.low ∧ 10 * mean < 9 * a then s.undoStep
      else none
    match r with
    | some s1 => .next (s1.throttleEvent mean)
    | none => .next s

/-- THERMAL_LIMIT: a junction at 105 °C. -/
def execThermalLimit (sensor temp : Nat) (s : State) : Out :=
  if !s.mpRuns || decide (temp < 105) || s.pw.limit then .next s
  else
    let s1 := s.withPw fun p =>
      { p with
        limit := true, cool := 0, saved := p.points, savedHalved := p.halved, temps := p.temps.set sensor temp
        points := [0, p.points.getD 1 0, 0], halved := List.replicate 24 4 }
    .next ((s1.rebudget.throttleEvent s1.pw.mean).addRec 0x0504 0xFF 0xFF 0xFF 0xFF 0 [w32 (sensor % 256 + temp % 256 * 2 ^ 8)])

/-- THERMAL_TRIP: a junction at 115 °C; the FCU gates ARITH, reports a clock fault of it and drives FAULT_N. -/
def execThermalTrip (sensor temp : Nat) (s : State) : Out :=
  if s.dev.die = .inReset || decide (temp < 115) || s.fcu.trip then .next s
  else .next ((s.withFcu fun f => { f with trip := true, clock := true, failed := setBit f.failed 1, faultN := true }).addFcuRec 0x0503 1
    [w32 (sensor % 256 + temp % 256 * 2 ^ 8)])

end Sys2Proof.Machine
end

