-- ==== Sys2Proof/Machine/Cores.lean ====
section
/-!
DEFINITION. Accesses of the application cores and the MP through the memory map and the Shelf (R293 to R310). Requesters 0
to 7 are the cores, 8 the MP. An access that crosses a sector is two commands (log entry 26).
-/
namespace Sys2Proof.Machine

/-! ### The memory map (R295 to R297) -/

/-- What an address names. -/
inductive Tgt where
  /-- A device register with the bit its value starts at, and whether the access has its width. -/
  | dev (r : Option Reg) (shift : Nat) (ok : Bool)
  | mem (p : Place) (cached : Bool)
  /-- No region, or outside the slab set or the window: an access fault. -/
  | fault
  deriving DecidableEq, Repr

/-- The register at an offset of the CIC region (R313). -/
def cicReg (o : Nat) : Option Reg :=
  if 0xF00 ≤ o ∧ o < 0xF08 then some .mtime
  else if 0xF08 ≤ o ∧ o < 0xF48 then some (.mtimecmp ((o - 0xF08) / 8))
  else if 9 ≤ o / 0x100 then none
  else match o % 0x100 / 4 with
    | 0 => some (.cicPending (o / 0x100))
    | 1 => some (.cicEnable (o / 0x100))
    | 2 => some (.cicDrips (o / 0x100))
    | 3 => some (.cicDoorbell (o / 0x100))
    | 4 => some (.cicIpi (o / 0x100))
    | 5 => some (.cicCfg (o / 0x100))
    | _ => none

/-- The registers of 64 bits. -/
def isWide : Option Reg → Bool
  | some .mtime | some (.mtimecmp _) => true
  | _ => false

/-- What `n` bytes at a core's physical address name. -/
def State.target (s : State) (a n : Nat) (write : Bool) : Tgt :=
  let ctx (base : Nat) (cached : Bool) : Tgt :=
    let c := (a - base) / 0x20000000
    let o := (a - base) % 0x20000000
    if (s.ctx c).inSet o n write then .mem (false, (s.ctx c).phys o) cached else .fault
  if 0x01000000 ≤ a ∧ a < 0x02000000 then .dev (sysReg (a - 0x01000000)) 0 (n == 4 && a % 4 == 0)
  else if 0x02000000 ≤ a ∧ a < 0x02010000 then
    let r := cicReg (a - 0x02000000)
    .dev r (if isWide r then a % 8 * 8 else 0) ((n == 4 && a % 4 == 0) || (n == 8 && a % 8 == 0 && isWide r))
  else if 0x1000000000 ≤ a ∧ a < 0x1000000000 + 24 * 0x20000000 then ctx 0x1000000000 true
  else if 0x2000000000 ≤ a ∧ a < 0x2000000000 + 24 * 0x20000000 then ctx 0x2000000000 false
  else if 0x4000000000 ≤ a ∧ a < 0x4400000000 then
    let w := s.window ((a - 0x4000000000) / 2 ^ 32)
    let o := (a - 0x4000000000) % 2 ^ 32
    if o + n ≤ w.units * 4096 then .mem (true, w.base + o) w.cacheable else .fault
  else .fault

/-! ### The cores' protection (R293, R296) -/

/-- The addresses a PMP entry covers, from the one and up to the other, `prev` being the address register before it (log entry 50). -/
def pmpRange (prev cfg addr : Nat) : Nat × Nat :=
  match fld cfg 3 2 with
  | 1 => (4 * prev, 4 * addr)
  | 2 => (4 * addr, 4 * addr + 4)
  | 3 =>
    let ones := ((List.range 54).takeWhile fun i => bitAt addr i).length
    (4 * (addr / 2 ^ (ones + 1) * 2 ^ (ones + 1)), 4 * (addr / 2 ^ (ones + 1) * 2 ^ (ones + 1)) + 2 ^ (ones + 3))
  | _ => (0, 0)

/-- Whether a core's PMP lets `n` bytes at `a` be read or written in its mode: the lowest-numbered entry that meets them decides. -/
def Core.pmpOk (c : Core) (a n : Nat) (write : Bool) : Bool :=
  let ents := (c.pmp.zip (0 :: c.pmp.map fun e => e.2)).map fun e => (e.1.1, pmpRange e.2 e.1.1 e.1.2)
  match ents.find? fun e => decide (e.2.1 < a + n) && decide (a < e.2.2) && decide (e.2.1 < e.2.2) with
  | none => c.mode == 3
  | some (cfg, lo, hi) => decide (lo ≤ a) && decide (a + n ≤ hi) && ((c.mode == 3 && !bitAt cfg 7) || bitAt cfg (bit write))

/-- What an access of a requester names, at the address its MMU gives. -/
def State.coreTarget (s : State) (h a n : Nat) (write : Bool) : Tgt := if (s.core h).pmpOk a n write || decide (8 ≤ h) then s.target a n write else .fault

/-- Whether an access waits for the Gallery's first fill (R212). -/
def State.galShut (s : State) (a n : Nat) : Bool := match s.target a n false with
  | .mem p _ => !p.1 && !s.gal.initDone
  | _ => false

/-- Whether a requester executes: out of reset, not halted by the debugger, in ACTIVE, and for a core no CORE change under way
(R314, R368, R434). -/
def State.coreRuns (s : State) (h : Nat) : Bool :=
  if h = 8 then s.mpRuns
  else s.dev.die == .serving && s.pw.state == 0 && !(s.core h).reset && (!s.sec.halts.contains (h + 1) || s.sec.stepOk == some (h + 1)) && !(s.pw.dvfs.any fun d => d.1 == 2 && d.2.2)

/-- A halted core performs its single step (R434). -/
def State.stepped (s : State) (h : Nat) : State := s.withSec fun d => if d.stepOk = some (h + 1) then { d with stepOk := none } else d

/-- Hand a value to a requester. -/
def State.give (s : State) (h v : Nat) : State := { s.withCore h (fun c => { c with result := v, faulted := false }) with readData := v }
/-- Raise an access fault at a requester. -/
def State.accessFault (s : State) (h : Nat) : State := s.withCore h fun c => { c with faulted := true }
/-- End a load with its bytes, or with a fault when one of them came with poison. -/
def State.loaded (s : State) (h : Nat) (b : List Byte) (poison : Bool) : State := if poison then s.accessFault h else s.give h (leNat b)

/-! ### Gathered streaming stores (R305) -/

/-- Note a store in the requester's detector; one to a device register follows no sector. -/
def StreamDet.store (d : StreamDet) (at' : Option Place) : StreamDet :=
  match at' with
  | none => { d with last := none, count := 1 }
  | some p =>
    let sec := (p.1, secOf p.2)
    if d.last = some sec then d
    else { d with last := some sec, count := if d.last = some (p.1, secOf p.2 - 64) ∧ 64 ≤ secOf p.2 then d.count + 1 else 1 }

/-- Requester `k` stores: what it gathered in another sector goes out first. -/
def State.noteStore (s : State) (k : Nat) (at' : Option Place) : State :=
  let other : Bool := match (s.shelf.dets.getD k {}).gather, at' with
    | some (sp, base, _), some p => !(sp == p.1 && base == secOf p.2)
    | _, _ => true
  (if other then s.flushGather k else s).withShelf fun h => { h with dets := upd h.dets k fun d => d.store at' }

/-- Put bytes into a gather. -/
def gatherPut (bs : List (Option Byte)) (o : Nat) (b : List Byte) : List (Option Byte) := bs.take o ++ b.map some ++ bs.drop (o + b.length)

/-! ### Misses and prefetch (R303, R304, R306) -/

/-- Whether a miss on the sector of a place is outstanding. -/
def Shelf.waits (h : Shelf) (p : Place) : Bool := h.misses.any fun x => x.host == p.1 && secOf x.addr == secOf p.2
/-- Whether requester `k` may have another miss: 48 in all, 8 from each core. -/
def Shelf.mayMiss (h : Shelf) (k : Nat) : Bool := decide (h.misses.length < 48) && (decide (8 ≤ k) || decide ((h.misses.filter fun x => x.req == k).length < 8))

/-- Train on a demand read and issue its prefetches. -/
def State.train (s : State) (k : Nat) (p : Place) : State :=
  if !s.shelf.pfEn || s.shelf.state != .enabled then s
  else
    let d := (s.shelf.strides.getD k {}).read p
    let s1 := s.withShelf fun h => { h with strides := upd h.strides k fun _ => d }
    if d.run < 2 then s1
    else d.ahead.foldl (fun s a =>
      let q : Place := (p.1, a)
      let h := s.shelf
      if !s.prefetchIn p.1 p.2 a || (h.sector q).isSome || h.waits q || (h.evicted q).isSome || decide (40 ≤ h.misses.length) || !h.mayMiss k then s
      else s.withShelf fun h => { h with misses := h.misses ++ [{ req := k, host := q.1, addr := q.2 }] }) s1

/-- The poisoned words of a sector fetched from the Gallery's store. -/
def State.secPoison (s : State) (p : Place) (bad : Bool) : List Nat :=
  if !bad then []
  else if (s.gal.slab (p.2 / 2 ^ 20)).state = .prot then List.range 8
  else (List.range 8).filter fun w => s.gal.poison.contains (secOf p.2 / 8 + w)

/-- Fetch the sector of a place into the Shelf. -/
def State.fetch (s : State) (p : Place) (ext : List Byte) : State :=
  let q : Place := (p.1, secOf p.2)
  let (s1, b, bad) := s.backRead q 64 ext
  let ws := s1.secPoison q bad
  s1.withShelf fun h => h.fill q b ws

/-- Bytes and poison of `n` bytes of a sector from offset `o`. -/
def Sector.get (x : Sector) (o n : Nat) : List Byte × Bool :=
  ((x.data.drop o).take n, x.poison.any fun w => decide (o / 8 ≤ w) && decide (w ≤ (o + n - 1) / 8))

/-! ### Loads -/

/-- Serve a load past the Shelf. -/
def State.loadBack (s : State) (h : Nat) (p : Place) (n : Nat) (ext : List Byte) : State :=
  let (s1, b, bad) := s.backRead p n ext
  s1.loaded h b bad

/-- Serve a load from the sector it hits. -/
def State.loadHit (s : State) (h : Nat) (p : Place) (n : Nat) (x : Sector) (ue : Bool) : State :=
  let (b, bad) := x.get (p.2 % 64) n
  (s.withShelf fun d => d.use p).loaded h b (bad || ue)

/-- Serve a load of a line that waits in the eviction buffer: from the sector it holds, or from memory, with the writes that wait (R307); `ext`
are the sector's bytes in host memory. -/
def State.loadEvicted (s : State) (h : Nat) (p : Place) (n : Nat) (ext : List Byte) : State :=
  let (s1, ue) := s.shelfEcc p
  match s1.shelf.evicted p with
  | none => s1
  | some e =>
    let (s2, x) := match e.sector p.2 with
      | some x => (s1, x)
      | none =>
        let q : Place := (p.1, secOf p.2)
        let (s2, b, bad) := s1.backRead q 64 ext
        (s2, { valid := true, data := b, poison := s2.secPoison q bad })
    let (b, bad) := (e.view p.2 x).get (p.2 % 64) n
    s2.loaded h b (bad || ue)

/-- A cached load that does not hit: the eviction buffer, or a miss, or past a Shelf that allocates nothing; none when it must
wait. -/
def State.loadMiss (s : State) (h : Nat) (p : Place) (n : Nat) (ext : List Byte) : Option State :=
  match s.shelf.evicted p with
  | some _ => some (s.loadEvicted h p n ext)
  | none =>
    if s.shelf.state ≠ .enabled then some (s.loadBack h p n ext)
    else if s.shelf.waits p || !s.shelf.mayMiss h then none
    else some (s.withShelf fun d => { d with misses := d.misses ++ [{ req := h, host := p.1, addr := p.2, load := some n }] })

/-- A cached load; `err` is what ECC finds in the sector. -/
def State.loadCached (s : State) (h : Nat) (p : Place) (n err : Nat) (ext : List Byte) : Option State :=
  if s.shelf.state = .disabled then some (s.loadBack h p n ext)
  else
    let s0 := (s.flushAt p n).withShelf fun d => if err = 0 then d else d.updHeld p fun x => if x.valid then { x with err := err } else x
    let r := match s0.shelf.sector p with
      | none => s0.loadMiss h p n ext
      | some _ =>
        let (s1, ue) := s0.shelfEcc p
        match s1.shelf.sector p with
        | some x => some (s1.loadHit h p n x ue)
        | none => s1.loadMiss h p n ext
    r.map fun s1 => s1.train h p

/-- A load of `n` bytes by requester `req`: it faults, reads a device register, or reads memory (R295, R296, R303, R304). `ext`
are the bytes of host memory, `err` the error ECC finds in a sector that is hit: 1 correctable, 2 uncorrectable. -/
def execCoreLoad (req addr n err : Nat) (ext : List Byte) (s : State) : Out :=
  if !s.coreRuns req || n = 0 || decide (64 < addr % 64 + n) || s.galShut addr n then .next s
  else let s := s.stepped req
    match s.coreTarget req addr n false with
    | .fault => .next (s.accessFault req)
    | .dev r sh ok =>
      if !ok then .next (s.accessFault req)
      else match r with
        | none => .next (s.give req 0)
        | some r => let (s1, v) := s.readReg req r; .next (s1.give req (v / 2 ^ sh % 2 ^ (8 * n)))
    | .mem p cached => if cached then .next ((s.loadCached req p n err ext).getD s) else .next (s.loadBack req p n ext)

/-! ### Stores -/

/-- Store into a sector that is present: dirty, or written through while the Shelf drains (R309). -/
def State.storeHit (s : State) (p : Place) (b : List Byte) : State :=
  let s1 := s.withShelf fun h => h.store p b true
  if s.shelf.state = .draining then
    match s1.shelf.sector p with
    | some x => (s1.writeBack p.1 (secOf p.2) x).withShelf fun h => h.updSector p fun x => { x with dirty := false }
    | none => s1
  else s1

/-- Store into a line that waits in the eviction buffer (R307); a sector the entry does not hold is read first. -/
def State.storeEvicted (s : State) (p : Place) (b : List Byte) (e : EvEntry) (ext : List Byte) : State :=
  if e.issued then s.withShelf fun h => h.updEvict p fun e => { e with held := e.held ++ [(p.2, b)] }
  else
    let k := p.2 % 256 / 64
    let q : Place := (p.1, secOf p.2)
    let (s1, old, bad) := if (e.sector p.2).isSome || b.length == 64 then (s, [], false) else s.backRead q 64 ext
    let fresh : Sector := { data := padTo 64 old, poison := s1.secPoison q bad }
    s1.withShelf fun h => h.updEvict p fun e =>
      { e with merged := true, sectors := upd e.sectors k fun x => (if x.valid then x else fresh).put (p.2 % 64) b true }

/-- A cached store: a hit, the eviction buffer, a gather, an allocation without a fetch, or a miss; none when it must wait. -/
def State.storeCached (s : State) (h : Nat) (p : Place) (b : List Byte) (stream : Bool) (ext : List Byte) : Option State :=
  let s1 := (s.noteStore h (some p)).killRes h p b.length
  let det := s1.shelf.dets.getD h {}
  if s.shelf.state = .disabled then some (s1.backWrite p b)
  else match s1.shelf.sector p with
  | some _ => some (s1.storeHit p b)
  | none => match s1.shelf.evicted p with
    | some e => some (s1.storeEvicted p b e ext)
    | none =>
      if s.shelf.waits p then none
      else if s.shelf.state = .draining then some ((s1.flushAt p b.length).backWrite p b)
      else if stream && s.shelf.streamEn && decide (16 < det.count) then
        let old := match det.gather with
          | some (_, _, bs) => bs
          | none => List.replicate 64 none
        let bs := gatherPut old (p.2 % 64) b
        let s2 := s1.withShelf fun d => { d with dets := upd d.dets h fun x => { x with gather := some (p.1, secOf p.2, bs) } }
        some (if bs.all fun b => b.isSome then s2.flushGather h else s2)
      else if b.length = 64 then (if s1.shelf.canAlloc p then some ((s1.flushAt p 64).withShelf fun d => d.store p b true) else none)
      else if !s.shelf.mayMiss h then none
      else some ((s1.flushAt p b.length).withShelf fun d => { d with misses := d.misses ++ [{ req := h, host := p.1, addr := p.2, store := some b }] })

/-- A store by requester `req` (R295 to R299, R304, R305). -/
def execCoreStore (req addr : Nat) (data : List Byte) (ext : List Byte) (s : State) : Out :=
  let n := data.length
  if !s.coreRuns req || n = 0 || decide (64 < addr % 64 + n) || s.galShut addr n then .next s
  else let s := s.stepped req
    match s.coreTarget req addr n true with
    | .fault => .next (s.accessFault req)
    | .dev r sh ok =>
      if !ok then .next (s.accessFault req)
      else match r with
        | none => .next (s.noteStore req none)
        | some r =>
          let s := s.noteStore req none
          let old := s.regValue req r
          let v := if isWide (some r) ∧ n = 4 then old - old / 2 ^ sh % 2 ^ 32 * 2 ^ sh + leNat data * 2 ^ sh else leNat data
          .next (s.writeReg req r v)
    | .mem p cached => if cached then .next ((s.storeCached req p data true ext).getD s) else .next (((s.noteStore req (some p)).killRes req p n).backWrite p data)

/-! ### LR, SC and AMO (R298) -/

/-- The result an AMO writes; 2 SWAP, 3 ADD, 4 XOR, 5 AND, 6 OR, 7 MIN, 8 MAX, 9 MINU, 10 MAXU. -/
def amoOp (op w old v : Nat) : Nat :=
  match op with
  | 3 => (old + v) % 2 ^ w
  | 4 => old ^^^ v
  | 5 => old &&& v
  | 6 => old ||| v
  | 7 => if signed w old ≤ signed w v then old else v
  | 8 => if signed w old ≤ signed w v then v else old
  | 9 => min old v
  | 10 => max old v
  | _ => v

/-- Read `n` bytes for an atomic access and hold what is needed to write them: through the Shelf, or past one that does not
allocate; none when it must wait. -/
def State.atomicRead (s : State) (p : Place) (n : Nat) (ext : List Byte) : Option (State × List Byte × Bool) :=
  let s0 := s.flushAt p n
  if s.shelf.state = .disabled then some (s0.backRead p n ext)
  else if s.shelf.waits p || (s.shelf.evicted p).isSome then none
  else
    let (s1, ue) := s0.shelfEcc p
    match s1.shelf.sector p with
    | some x => let (b, bad) := x.get (p.2 % 64) n; some (s1.withShelf fun h => h.use p, b, bad || ue)
    | none =>
      if s.shelf.state = .draining then some (s1.backRead p n (ext.drop (p.2 % 64)))
      else if !s1.shelf.canAlloc p then none
      else
        let s2 := s1.fetch p ext
        match s2.shelf.sector p with
        | some x => let (b, bad) := x.get (p.2 % 64) n; some (s2.withShelf fun h => h.use p, b, bad)
        | none => none

/-- Write the bytes of an atomic access. -/
def State.atomicWrite (s : State) (h : Nat) (p : Place) (b : List Byte) : State :=
  let s1 := (s.noteStore h (some p)).killRes h p b.length
  match s1.shelf.state, s1.shelf.sector p with
  | .disabled, _ => s1.backWrite p b
  | _, some _ => s1.storeHit p b
  | _, none => s1.backWrite p b

/-- LR (0), SC (1) or an AMO of `n` bytes by requester `req`; a region that is not cacheable faults. -/
def execCoreAmo (req addr n op v : Nat) (ext : List Byte) (s : State) : Out :=
  if !s.coreRuns req || !(n == 4 || n == 8) || s.galShut addr n then .next s
  else let s := s.stepped req
    match s.coreTarget req addr n (op != 0) with
    | .mem p true =>
      if addr % n ≠ 0 then .next (s.accessFault req)
      else
        let here := (p.1, secOf p.2)
        if op = 1 ∧ (s.core req).res ≠ some here then .next ((s.withCore req fun c => { c with res := none }).give req 1)
        else match s.atomicRead p n ext with
          | none => .next s
          | some (s1, b, bad) =>
            if bad then .next (s1.accessFault req)
            else if op = 0 then .next ((s1.withCore req fun c => { c with res := some here }).give req (leNat b))
            else if op = 1 then .next (((s1.atomicWrite req p (leBytes n v)).withCore req fun c => { c with res := none }).give req 0)
            else .next ((s1.atomicWrite req p (leBytes n (amoOp op (8 * n) (leNat b) (v % 2 ^ (8 * n))))).give req (leNat b))
    | _ => .next (s.accessFault req)

/-! ### FENCE and the cache-block operations (R298, R300) -/

/-- A FENCE completes once the requester's misses have; its gathered stores are written first. -/
def execFence (req : Nat) (s : State) : Out :=
  if !s.coreRuns req || (s.shelf.misses.any fun x => x.req == req && (x.load.isSome || x.store.isSome)) then .next s
  else let s := s.stepped req
    .next (s.flushGather req)

/-- The block a cache-block operation acts on: a fault, no effect, or a place. -/
def State.cboTarget (s : State) (req addr : Nat) (write : Bool) : Except Bool Place :=
  match s.coreTarget req (secOf addr) 64 write with
  | .fault => .error true
  | .dev _ _ _ => .error false
  | .mem p cached => if cached then .ok p else .error false

/-- A cache-block operation with its effect on a cacheable sector; it waits for a miss on the sector, and for a write-back of its line in flight. -/
def State.cbo (s : State) (req addr : Nat) (write : Bool) (f : Place → State → Option State) : Out :=
  if !s.coreRuns req || s.galShut (secOf addr) 64 then .next s
  else let s := s.stepped req
    match s.cboTarget req addr write with
    | .error true => .next (s.accessFault req)
    | .error false => .next s
    | .ok p =>
      let busy := s.shelf.waits p || ((s.shelf.evicted p).map fun e => e.issued).getD false
      if busy then .next s else .next ((f p (s.flushAt p 64)).getD s)

/-- CBO.CLEAN. -/
def execCboClean (req addr : Nat) (s : State) : Out := s.cbo req addr false fun p s => some (s.cleanSector p)
/-- CBO.FLUSH. -/
def execCboFlush (req addr : Nat) (s : State) : Out := s.cbo req addr false fun p s => some ((s.cleanSector p).dropSector p)
/-- CBO.INVAL writes dirty data back as CBO.FLUSH does. -/
def execCboInval (req addr : Nat) (s : State) : Out := s.cbo req addr false fun p s => some ((s.cleanSector p).dropSector p)
/-- CBO.ZERO: a full-sector store of zeros that allocates. -/
def execCboZero (req addr : Nat) (s : State) : Out :=
  s.cbo req addr true fun p s => s.storeCached req p (List.replicate 64 0) false []

/-! ### Fills and evictions (R304, R307) -/

/-- Whether memory behind the Shelf answers: the Gallery, or host memory over its link. -/
def State.backOpen (s : State) (host : Bool) : Bool := if host then s.winUp else s.galOpen

/-- Miss number `k` is filled, `ext` being host memory's bytes of the sector: the sector, then the load or the store that waited. A prefetch is
dropped where its line is present, waits in the eviction buffer, or cannot be allocated. -/
def execShelfMissFill (k : Nat) (ext : List Byte) (s : State) : Out :=
  match s.shelf.misses[k]? with
  | none => .next s
  | some x =>
    if !s.backOpen x.host then .next s else
    let p : Place := (x.host, x.addr)
    let (s0, ue) := (s.withShelf fun h => { h with misses := h.misses.eraseIdx k }).shelfEcc p
    let here := (s0.shelf.sector p).isSome
    let ev := s0.shelf.evicted p
    let on := s0.shelf.state == .enabled
    let s1 := if here || ev.isSome || !on then s0 else s0.fetch p ext
    if !here && ev.isNone && on && !s0.shelf.canAlloc p then (if x.load.isSome || x.store.isSome then .next s else .next s0)
    else match x.load, x.store with
      | some n, _ => match s1.shelf.sector p, ev with
        | some y, _ => .next (s1.loadHit x.req p n y ue)
        | none, some _ => .next (s1.loadEvicted x.req p n ext)
        | none, none => .next (s1.loadBack x.req p n (ext.drop (x.addr % 64)))
      | none, some b => match s1.shelf.sector p, ev with
        | some _, _ => .next (s1.storeHit p b)
        | none, some e => .next (s1.storeEvicted p b e ext)
        | none, none => .next (s1.backWrite p b)
      | none, none => .next s1

/-- Write back the dirty sectors of a line. -/
def State.cleanLine (s : State) (host : Bool) (a : Nat) : State := (List.range 4).foldl (fun s i => s.cleanSector (host, a + 64 * i)) s

/-- The write-back of eviction-buffer entry `k` is issued, or completes: its dirty sectors are written; a merged line is
reallocated clean, and held writes are applied and leave their sectors dirty. `ext` is the line in host memory. -/
def execEvictionWritebackDone (k : Nat) (issue : Bool) (ext : List Byte) (s : State) : Out :=
  match s.shelf.evict[k]? with
  | none => .next s
  | some e =>
    if issue then .next (s.withShelf fun h => { h with evict := upd h.evict k fun e => { e with issued := true } })
    else if !e.issued || !s.backOpen e.host then .next s
    else
      let s0 := s.cleanLine e.host e.addr
      let left := (s0.shelf.evict.getD k e).sectors.map fun x => if x.err = 2 then {} else x
      let s1 := s0.withShelf fun h => { h with evict := h.evict.eraseIdx k }
      if !(e.merged || !e.held.isEmpty) || s.shelf.state == .disabled then .next s1
      else
        let s2 := s1.withShelf fun h =>
          let h1 := h.alloc (e.host, e.addr)
          { h1 with lines := h1.lines.map fun l => if l.host == e.host && l.addr == e.addr then { l with sectors := left } else l }
        .next (e.held.foldl (fun s w =>
          let p : Place := (e.host, w.1)
          if (s.shelf.sector p).isSome then s.storeHit p w.2
          else (s.fetch p (ext.drop (w.1 % 256 / 64 * 64))).storeHit p w.2) s2)

/-! ### Disabling the Shelf (R309) -/

/-- A write of 0 to `SHELF_CTRL.EN`. -/
def execShelfDisable (s : State) : Out := .next (s.withShelf fun h => h.setEn false)
/-- A write of 1 to `SHELF_CTRL.EN`. -/
def execShelfEnable (s : State) : Out := .next (s.withShelf fun h => h.setEn true)

/-- The drain ends: every dirty sector and every evicted line is written back, and the Shelf is invalidated. A store that waits for its sector
is not lost: the drain ends after it. -/
def execShelfDrainDone (s : State) : Out :=
  if s.shelf.state ≠ .draining || s.shelf.misses.any fun x => x.store.isSome then .next s
  else
    let s0 := (List.range 9).foldl (fun s k => s.flushGather k) s
    let s1 := s0.shelf.evict.foldl (fun s e => e.held.foldl (fun s w => s.backWrite (e.host, w.1) w.2) (s.cleanLine e.host e.addr)) s0
    let s2 := s1.shelf.lines.foldl (fun s l => s.cleanLine l.host l.addr) s1
    .next (s2.withShelf fun h => { h with state := .disabled, lines := [], plru := [], evict := [] })

end Sys2Proof.Machine
end

