-- ==== Sys2Proof/Machine/Host.lean ====
section
/-!
DEFINITION. The host link: accesses to the register window and camera tiles, and what the link holds in ROOST and TORPOR (R54 to R61, R76,
R240, R262, R377), with the register accesses of the other requesters.
-/
namespace Sys2Proof.Machine

/-! ### One access (R54 to R61) -/

/-- Perform an access that the link brings. -/
def State.perform (s : State) : HostAcc → State
  | .write r v upset => match r with
    | .mbxCmdData m => s.withMbx m fun b => b.putCmd (w32 v) upset
    | r => s.writeReg 9 r v
  | .read r upset => match r with
    | .mbxRspData m => { s.withMbx m (fun b => b.readRsp upset) with readData := s.regValue 9 (.mbxRspData m) }
    | r =>
      let (s1, v) := s.readReg 9 r
      { s1 with readData := v }
  | .reject read =>
    let s1 := s.withDev fun d => { d with accErr := true }
    if read then { s1 with readData := 0 } else s1
  | .tile camera depth chroma mode count bytes blocks => s.cameraTile camera depth chroma mode count bytes blocks

/-- Whether the link holds what arrives: in ROOST and TORPOR, and once its block has agreed to an entry (R76, R371, R377). -/
def State.linkHolds (s : State) : Bool := s.pw.state == 1 || s.pw.state == 2 || s.pw.agreed.contains 10

/-- The accesses that the link holds complete, in their order, once it holds no more (R76). -/
def State.releaseHost (s : State) : State :=
  if s.linkHolds then s else s.dev.hostHeld.foldl State.perform (s.withDev fun d => { d with hostHeld := [] })

/-- What arrives over the host link: performed in ACTIVE, held with HOST raised in ROOST and TORPOR, lost in HIBERNATE and OFF (R76, R262). -/
def State.fromHost (s : State) (a : HostAcc) : Out :=
  if s.dev.die == .inReset || !s.dev.refclk || !s.hostLink || decide (3 ≤ s.pw.state) then .next s
  else if s.linkHolds then .next ((s.withDev fun d => { d with hostHeld := d.hostHeld ++ [a] }).raiseLevel 6).releaseHost
  else .next (s.perform a)

/-! ### The rows of the window -/

/-- A host write to `MBXm_CMD_DATA`; `bad` is a later parity error of the stored word. -/
def execMbxCmdDataWrite (m : Nat) (w : W32) (bad : Bool) (s : State) : Out := s.fromHost (.write (.mbxCmdData m) w.toNat bad)

/-- A host read of `MBXm_RSP_DATA`; `upset` is a parity error of the word read. -/
def execMbxRspDataRead (m : Nat) (upset : Bool) (s : State) : Out := s.fromHost (.read (.mbxRspData m) upset)

/-- A write of 1 to `MBXm_CTRL.CMD_FLUSH`. -/
def execCmdFlush (m : Nat) (s : State) : Out := s.fromHost (.write (.mbxCtrl m) 1 false)

/-- A write of 1 to `MBXm_CTRL.RSP_FLUSH`. -/
def execRspFlush (m : Nat) (s : State) : Out := s.fromHost (.write (.mbxCtrl m) 2 false)

/-- The host clears `CMD_HELD` (R65). -/
def execCmdHeldClear (m : Nat) (s : State) : Out := s.fromHost (.write (.mbxStatus m) 0x10 false)

/-- A write of 1 to `FAULT_CTRL.RELEASE` (R56). -/
def execFaultCtrlRelease (s : State) : Out := s.fromHost (.write .faultCtrl 1 false)

/-- The register an access of the host reaches: of 32 bits, aligned, and listed in R56; none of another, which the device rejects (R54, R55). -/
def accepted (off width : Nat) : Option Reg := if width = 4 ∧ off % 4 = 0 then windowReg off else none

/-- An access at byte offset `off` of the window, `width` bytes wide, a read or a write of `v`: one that reaches no register is rejected
(R55). -/
def execWindowAccessRejected (read : Bool) (off width v : Nat) (s : State) : Out :=
  s.fromHost (match accepted off width with
    | none => .reject read
    | some r => if read then .read r false else .write r v false)

/-- CAMERA_TILE: a header and the coded bytes that follow; `blocks` gives each block's coded length and its samples, none where it breaks a Mica
rule. -/
def execCameraTile (camera depth chroma mode count bytes : Nat) (blocks : List (Nat × Option (List Nat))) (s : State) : Out :=
  s.fromHost (.tile camera depth chroma mode count bytes blocks)

/-! ### Registers by requester -/

/-- A write to a register by a requester. -/
def execRegisterWrite (who : Nat) (r : Reg) (v : Nat) (s : State) : Out :=
  if who = 9 then s.fromHost (.write r v false) else if !s.mayAccess who then .next s else .next (s.writeReg who r v)

/-- A read of a register by a requester; the value stands in `readData`. -/
def execClearingRead (who : Nat) (r : Reg) (s : State) : Out :=
  if who = 9 then s.fromHost (.read r false)
  else if !s.mayAccess who then .next s
  else
    let (s1, v) := s.readReg who r
    .next { s1 with readData := v }

end Sys2Proof.Machine
end

