-- ==== Sys2Proof/Machine/Security.lean ====
section
/-!
DEFINITION. Lifecycle, debug sessions, firmware images and the debug port: the host's commands, the DEBUG and FIRMWARE messages
at Flint, and the JTAG accesses (R292, R348, R417 to R441).
-/
namespace Sys2Proof.Machine

/-! ### DEBUG messages at Flint (R432) -/

/-- A DEBUG answer: word 0 repeats the op (log entry 30). -/
def State.dbgSay (s : State) (op status : Nat) (body : List W32) : State :=
  s.flintSay 0xF6 op status (if status = sOk then w32 op :: body else [])

/-- A DEBUG message without a KC trailer arrives. -/
def State.dbgMsg (s : State) (body : List W32) (act : State → State) : Out := if !s.fl.runs then .next s else .next (act (s.takeFlint 0xF6 body))

/-- What Flint answers on success, or its status. -/
abbrev DbgAns := Except Nat (State × List W32)

def State.dbgEnd (s : State) (op : Nat) : DbgAns → State
  | .ok (s', ws) => s'.dbgSay op sOk ws
  | .error e => s.dbgSay op e []

/-- The device identifier Flint reports. -/
def idWords (s : State) : List W32 := w64 s.devId

/-- STATE: lifecycle, debug levels, MP floor and firmware version. -/
def execDebugMsgState (s : State) : Out :=
  s.dbgMsg [1] fun s =>
    let cd := ((s.fl.sessions.find? fun x => x.1 == 0).map fun x => x.2.1).getD 0
    s.dbgSay 1 sOk [w32 (s.fl.lifecycle + cd * 2 ^ 4 + s.fl.level * 2 ^ 6), w32 s.fl.floor, w32 s.fl.version]

/-- CHALLENGE: the session of that die ends, and Flint draws and holds one nonce (R436, R437). -/
def execDebugMsgChallenge (body : List W32) (rtc : Nat) (s : State) : Out :=
  s.dbgMsg body fun s =>
    let w := (body.getD 1 0).toNat
    let s1 := (s.rtcAt rtc).endSession (fld w 2 1) 1
    let (s2, nonce) := State.drawWords 8 s1
    (s2.withFl fun f => { f with chal := some ⟨fld w 0 2, fld w 2 1, f.rtc, leNat (wordsBytes nonce)⟩ }).dbgSay 2 sOk (idWords s2 ++ nonce)

/-- Flint's checks 2, 4 and 5 of R436; the challenge is consumed before. -/
def unlock (ch : Option Chal) (w : Nat) (sigOk : Bool) (s : State) : DbgAns := do
  let f := s.fl
  match ch with
  | none => .error eState
  | some c =>
    metNeed (decide (f.rtc ≤ c.ticks + 60 * 32768)) eState
    metNeed (c.level == fld w 0 2 && c.die == fld w 2 1) eParam
    metNeed sigOk eAuth
    metNeed (!f.invasive) eState
    metNeed (decide (f.unacked + 2 ≤ 4096)) eFull
    let n := f.session + 1
    let key := bit (f.lifecycle != 0)
    let ts := s.flintStamp
    pure (s.withFl fun f => { f with
        session := n, sessions := f.sessions ++ [(c.die, c.level, n)], level := if c.die = 1 then c.level else f.level }.audits ts 4 0 0
          (c.level + c.die * 4 + 8 + key * 256 + n % 2 ^ 16 * 2 ^ 16), [w32 n])

/-- UNLOCK: `sigOk` is the signature's verdict under the key of R424. -/
def execDebugMsgUnlock (body : List W32) (sigOk : Bool) (rtc : Nat) (s : State) : Out :=
  s.dbgMsg body fun s =>
    let ch := s.fl.chal
    let s1 := (s.rtcAt rtc).withFl fun f => { f with chal := none }
    s1.dbgEnd 3 (unlock ch (body.getD 1 0).toNat sigOk s1)

/-- END: the session of a die ends with its reserved audit entry (R437). -/
def execDebugMsgEnd (body : List W32) (ctr : Nat) (tag : List W32) (s : State) : Out :=
  s.kcMsg 0xF6 body ctr tag fun s =>
    let w := (body.getD 1 0).toNat
    (s.endSession (fld w 0 1) (fld w 4 3)).dbgSay 4 sOk []

/-- The DEBUG CHUNK messages that carry some bytes: the byte offset, then up to 253 data words. -/
def debugChunks (data : List Byte) : List (List W32) :=
  (List.range ((data.length + 1011) / 1012)).map fun i =>
    let part := (data.drop (1012 * i)).take 1012
    5 :: w32 (1012 * i) :: leWords ((part.length + 3) / 4) part
/-- The byte offset and the bytes of such a message. -/
def debugChunk (body : List W32) : Nat × List Byte := ((body.getD 1 0).toNat, wordsBytes (body.drop 2))

/-- CHUNK: authorisation data; bytes past 4,096 have no effect. -/
def execDebugMsgChunk (body : List W32) (s : State) : Out :=
  s.dbgMsg body fun s =>
    let (o, b) := debugChunk body
    if o + b.length ≤ 4096 then s.withFl fun f => { f with auth := f.auth.writeN o b } else s

/-- Payload bytes of a transition; none where R425 has no such transition. -/
def lifePayload : Nat → Nat → Option Nat
  | 0, 1 => some 352
  | 1, 2 => some 64
  | 2, 3 => some 0
  | 0, 4 | 1, 4 | 2, 4 | 3, 4 => some 0
  | _, _ => none

/-- Flint's checks of a lifecycle authorisation and the transition (R425 to R427): `sigOk` is the verdict on its signature,
`certOk` on the chain of the device certificate it installs, which must name this device. -/
def advance (tgt len : Nat) (sigOk certOk : Bool) (s : State) : DbgAns := do
  let f := s.fl
  let lc := f.lifecycle
  let b := f.auth.readN 0 len
  match lifePayload lc tgt with
  | none => .error eState
  | some p =>
    metNeed (byteFld b 0 4 == 0x47584C43 && byteFld b 4 2 == 1 && byteFld b 6 1 == lc && byteFld b 7 1 == tgt && byteFld b 8 8 == s.devId && byteFld b 16 2 == p &&
      zeros b 18 14 && decide (128 + p ≤ len) && zeros b (32 + p) (len - 96 - (32 + p))) eParam
    metNeed sigOk eAuth
    metNeed (tgt != 1 || (certOk && leNat (certId ((b.drop 192).take 192)) == s.devId)) eAuth
    metNeed (!(lc == 1 && tgt == 2) || f.cal.isNone) eState
    metNeed (tgt != 3 || f.calEn) eSealed
    metNeed (tgt != 3 || !f.curve.isEmpty) eState
    metNeed (!(tgt == 4 && lc != 0) || s.ctxs.all fun c => c.state == .free) eState
    metNeed f.sessions.isEmpty eState
    metNeed (!f.trailFull) eFull
    let pay := (b.drop 32).take p
    let ts := s.flintStamp
    pure (s.withFl fun f => { f with
        life := List.replicate 3 (tgt + (7 - tgt) * 2 ^ 8)
        owner := if tgt = 1 then some (pay.take 96) else f.owner
        metOwner := if tgt = 1 then some ((pay.drop 96).take 64) else if tgt = 2 then some pay else f.metOwner
        cert := if tgt = 1 then some (pay.drop 160) else f.cert
        kmGen := if tgt = 2 then 0 else f.kmGen, kmCtr := if tgt = 2 then 0 else f.kmCtr
        helper := f.helper && tgt != 4 }.audits ts 5 0 0 (lc + tgt * 2 ^ 3 + bit (lc != 0) * 2 ^ 8), [w32 tgt])

/-- ADVANCE. -/
def execDebugMsgAdvance (body : List W32) (sigOk certOk : Bool) (s : State) : Out :=
  s.dbgMsg body fun s => s.dbgEnd 6 (advance (body.getD 1 0).toNat (body.getD 2 0).toNat sigOk certOk s)

/-! ### Firmware images (R428, R429, R348) -/

/-- Item 1 of R429. -/
def imageForm (b : List Byte) (target len : Nat) : Bool :=
  byteFld b 0 4 == 0x47584657 && byteFld b 4 2 == 1 && byteFld b 6 1 == target && decide (byteFld b 7 1 ≤ 1) && byteFld b 16 4 == len &&
    (target == 0 || byteFld b 12 4 == 0) && decide (byteFld b 24 1 < 16) && zeros b 25 39 && zeros b 112 16

/-- Item 2 of R429. -/
def imageKeyOk (b : List Byte) (lc : Nat) : Bool := (byteFld b 7 1 == 0 || decide (lc ≤ 1)) && bitAt (byteFld b 24 1) lc

/-- FLOOR: Flint verifies the header itself and raises the MP floor (R430). -/
def execDebugMsgFloor (body : List W32) (sigOk : Bool) (s : State) : Out :=
  s.dbgMsg body fun s =>
    let b := wordsBytes ((body.drop 1).take 32)
    if !sigOk || !imageForm b 0 (byteFld b 16 4) || !imageKeyOk b s.fl.lifecycle then s.dbgSay 7 eAuth []
    else if s.fl.invasive then s.dbgSay 7 eState []
    else
      let s1 := s.withFl fun f => { f with floor := max f.floor (byteFld b 12 4) }
      s1.dbgSay 7 sOk [w32 s1.fl.floor]

/-- What SIGN signs: `GX32-LINK`, the device's identifier, the twin's, and the ephemeral public key (R422). -/
def linkText (body : List W32) : List Byte :=
  ascii (gx32 ++ [0x4C, 0x49, 0x4E, 0x4B]) ++ deviceId ++ wordsBytes ((body.drop 17).take 2) ++ wordsBytes ((body.drop 1).take 16)
/-- A nonce from drawn words: 1 to n − 1. -/
def nonceOf (ws : List W32) : Nat := beVal (wordsBytes ws) % (p256N - 1) + 1

/-- SIGN: a signature of an ephemeral link key with a drawn nonce (R422); without its secret Flint signs nothing (R417). -/
def execDebugMsgSign (body : List W32) (ctr : Nat) (tag : List W32) (s : State) : Out :=
  s.kcMsg 0xF6 body ctr tag fun s =>
    if !s.fl.secret then s.dbgSay 8 eAuth []
    else
      let (s1, k) := State.drawWords 8 s
      s1.dbgSay 8 sOk (leWords 16 (ecdsaWith deviceKey (nonceOf k) (linkText body)))

/-- Item 4 of R429: the digest of the body. -/
def imageBodyOk (b : List Byte) (len : Nat) : Bool := sha384 ((b.drop 128).take (len - 224)) == (b.drop 64).take 48

/-- Flint's checks of a whole image (R348, R429); `sigOk` is the verdict on the signature. -/
def flintImage (b : List Byte) (len : Nat) (sigOk : Bool) (s : State) : DbgAns := do
  let f := s.fl
  let lc := f.lifecycle
  metNeed (imageForm b 1 len) eParam
  metNeed (lc != 3 && (lc == 0 || f.calEn)) eSealed
  metNeed (imageKeyOk b lc && sigOk && imageBodyOk b len) eAuth
  metNeed (decide (f.version ≤ byteFld b 8 4)) eParam
  metNeed (!f.invasive) eState
  metNeed (!f.full) eFull
  let s1 := s.withFl fun f => { f with slots := f.slots.set (1 - f.running) (byteFld b 8 4, true, softId b), newest := 1 - f.running }
  pure (s1.change 3 0 0 (byteFld b 8 4), [w32 (byteFld b 8 4)])

/-- FIRMWARE: image data; once the last byte has come, Flint checks the image and installs it in the inactive slot. -/
def execFirmware (body : List W32) (ctr : Nat) (tag : List W32) (sigOk : Bool) (s : State) : Out :=
  s.kcMsg 0xF5 body ctr tag fun s =>
    let (o, b) := chunkOf body
    let s1 := if o + b.length ≤ 524288 then s.withFl fun f => { f with image := f.image.writeN o b } else s
    let len := byteFld (s1.fl.image.readN 16 4) 0 4
    if o + b.length < len then s1
    else match flintImage (s1.fl.image.readN 0 len) len sigOk s1 with
      | .ok (s2, ws) => s2.flintSay 0xF5 0 sOk ws
      | .error e => s1.flintSay 0xF5 0 e []

/-! ### The host's commands (R292) -/

/-- LIFECYCLE_ADVANCE: the authorisation is fetched and relayed (R427). -/
def lifecycleAdvance (data : List Byte) (failed : Option Nat) (m : Nat) (c : Cmd) (s : State) : Begun := do
  let tgt := fld (c.word 0) 0 3
  let len := c.word 3
  need (hostRange (c.word 1 + c.word 2 * 2 ^ 32) len 128 4096) eParam
  need (lifePayload s.lifecycle tgt).isSome eState
  need (s.sec.cdLevel = 0 ∧ s.sec.flLevel = 0) eState
  fetched failed
  pure (((debugChunks (padTo len data)).foldl (fun s b => s.sendFlint 0xF6 b) (s.setPhase m c 1 [])).sendFlint 0xF6 [6, w32 tgt, w32 len])

def execLifecycleAdvance (m tag : Nat) (data : List Byte) (failed : Option Nat) (s : State) : Out :=
  s.begin m tag 0x58 fun c => lifecycleAdvance data failed m c

/-- Die 0's level falls without a message: its challenge ends the session at Flint (R437). -/
def State.dropCd (s : State) : State := { s.endCdSession 1 with toFlint := s.toFlint }

/-- DEBUG_CHALLENGE. -/
def debugChallenge (m : Nat) (c : Cmd) (s : State) : Begun := do
  let level := fld (c.word 0) 0 2
  let die := fld (c.word 0) 2 1
  need (level = 1 ∨ level = 2) eParam
  need (!(level = 2 ∧ die = 1 ∧ s.lifecycle = 3)) eSealed
  let s1 := if die = 0 then s.dropCd else s
  pure ((s1.setPhase m c 1 []).sendFlint 0xF6 [2, w32 (level + die * 4)])

def execDebugChallenge (m tag : Nat) (s : State) : Out := s.begin m tag 0x59 fun c => debugChallenge m c

/-- DEBUG_UNLOCK: the MP's checks 1 and 3, whose status is that of Flint's check 2, then the relay (R436). -/
def debugUnlock (m : Nat) (c : Cmd) (s : State) : Begun := do
  let level := fld (c.word 0) 0 2
  let die := fld (c.word 0) 2 1
  need (s.sec.chal.all fun x => x == (level, die)) eParam
  need (!(die = 0 ∧ level = 2 ∧ (s.tw.mode = .paired ∨ s.tw.modeNext = some .paired))) eState
  pure ((s.setPhase m c 1 []).sendFlint 0xF6 ([3, w32 (level + die * 4)] ++ c.words.drop 1))

def execDebugUnlock (m tag : Nat) (s : State) : Out := s.begin m tag 0x5A fun c => debugUnlock m c

def fwTarget (c : Cmd) : Nat := fld (c.word 0) 0 2

/-- The firmware starts (R430 steps 6 and 7): phase FIRMWARE, and HELLO to Flint. -/
def State.mpStart (s : State) (version : Nat) : State :=
  ((s.withSec fun d => { d with fwLock := true }).withDev fun d => { d with fwVer := version, phase := 1 }).sendFlint 0xF0 []

/-- FW_UPDATE target 0, served by the boot ROM (R429, R430): a header floor above the stored one goes to Flint first. -/
def fwUpdateMp (data : List Byte) (failed : Option Nat) (sigOk : Bool) (m : Nat) (c : Cmd) (s : State) : Begun := do
  let len := c.word 3
  need (decide (fwTarget c ≤ 1)) eParam
  need (hostRange (c.word 1 + c.word 2 * 2 ^ 32) len 1024 229376) eParam
  need (s.dev.phase = 0) eState
  fetched failed
  let b := padTo len data
  need (imageForm b 0 len) eParam
  need (imageKeyOk b s.lifecycle && sigOk && imageBodyOk b len) eAuth
  need (decide (s.dev.floor ≤ byteFld b 8 4)) eParam
  let version := byteFld b 8 4
  if byteFld b 12 4 ≤ s.dev.floor then pure ((s.mpStart version).respond m c sOk [w32 version])
  else pure ((s.setPhase m c 1 [version]).sendFlint 0xF6 (7 :: (leWords 32 (b.take 128) ++ leWords 24 (b.drop (len - 96)))))

/-- FW_UPDATE target 0; a reserved target is this row's too. -/
def execFwUpdateMp (m tag : Nat) (data : List Byte) (failed : Option Nat) (sigOk : Bool) (s : State) : Out :=
  match s.cmdIn m tag 0x5B 0 with
  | none => .next s
  | some c => if fwTarget c = 1 then .next s else s.begin m tag 0x5B fun c => fwUpdateMp data failed sigOk m c

/-- FW_UPDATE target 1: an image whose length field is that of the command goes to Flint in FIRMWARE messages (R348, R429). -/
def fwUpdateFlint (data : List Byte) (failed : Option Nat) (m : Nat) (c : Cmd) (s : State) : Begun := do
  let len := c.word 3
  need (hostRange (c.word 1 + c.word 2 * 2 ^ 32) len 1024 524288) eParam
  need (s.sec.flLevel ≠ 2) eState
  fetched failed
  need (byteFld (padTo len data) 16 4 = len) eParam
  pure ((s.setPhase m c 1 []).sendChunks 0xF5 0 254 (padTo len data))

def execFwUpdateFlint (m tag : Nat) (data : List Byte) (failed : Option Nat) (s : State) : Out :=
  match s.cmdIn m tag 0x5B 0 with
  | none => .next s
  | some c => if fwTarget c = 1 then s.begin m tag 0x5B fun c => fwUpdateFlint data failed m c else .next s

/-! ### Flint's DEBUG and FIRMWARE answers (R423, R430, R432, R436) -/

/-- The started command of an opcode that waits for Flint, with its mailbox. -/
def State.waitingCmd (s : State) (op : Nat) : Option (Nat × Cmd) :=
  ((List.range 8).flatMap fun m => ((s.mb m).out.filter fun c => c.op == op && c.phase == 1).map fun c => (m, c)).head?

/-- Answer a command that waited for Flint. -/
def State.answerFor (s : State) (op status : Nat) (words : List W32) : State := match s.waitingCmd op with
  | none => s
  | some (m, c) => s.respond m c status words

/-- The conduit receiver copies the lifecycle state into `DBG_STATUS` (R423). -/
def State.setLife (s : State) (lc : Nat) : State := s.withSec fun d => { d with lifecycle := lc, lcValid := true }

/-- A DEBUG answer reaches the compute die: op, status and the body from its word 0. -/
def State.dbgAnswer (s : State) (op status : Nat) (body : List W32) : State :=
  let w := (body.getD 1 0).toNat
  let ok := status == sOk
  match op with
  | 1 =>
    let s1 := ((s.setLife (fld w 0 3)).withSec fun d => { d with flLevel := fld w 6 2 }).withDev fun d =>
      { d with floor := (body.getD 2 0).toNat, flVer := (body.getD 3 0).toNat }
    if s1.dev.die = .starting then s1.withDev fun d => { d with die := .serving, phase := 0 } else s1
  | 2 =>
    let s1 := match s.waitingCmd 0x59 with
      | some (_, c) => s.withSec fun d => { d with chal := some (fld (c.word 0) 0 2, fld (c.word 0) 2 1), flLevel := if fld (c.word 0) 2 1 = 1 then 0 else d.flLevel }
      | none => s
    s1.answerFor 0x59 status (body.drop 1)
  | 3 =>
    let s1 := match s.waitingCmd 0x5A with
      | some (_, c) =>
        let level := fld (c.word 0) 0 2
        let s' := s.withSec fun d => { d with chal := none }
        if !ok then s'
        else if fld (c.word 0) 2 1 = 1 then s'.withSec fun d => { d with flLevel := level }
        else s'.withSec fun d => { d with cdLevel := level, session := w % 2 ^ 16 }
      | none => s
    s1.answerFor 0x5A status []
  | 6 => (if ok then s.setLife (fld w 0 3) else s).answerFor 0x58 status (if ok then [w32 w] else [])
  | 7 => match s.waitingCmd 0x5B with
    | none => s
    | some (m, c) =>
      if ok then
        let v := c.note.headD 0
        ((s.mpStart v).withDev fun d => { d with floor := w }).respond m c sOk [w32 v]
      else s.respond m c eAuth []
  | _ => s

/-! ### The debug port (R431, R433 to R435, R441) -/

/-- Set the acknowledgement and the data of a die's last DAP operation. -/
def State.dapAck (s : State) (die ack : Nat) (data : Option Nat) : State :=
  s.withSec fun d => { d with tap := d.tap.set die 8, ack := d.ack.set die ack, data := match data with
    | some v => d.data.set die v
    | none => d.data }

/-- The debug level of a die. -/
def State.dbgLevel (s : State) (die : Nat) : Nat := if die = 0 then s.sec.cdLevel else s.fl.level

/-- The acknowledgement that stops a DAP operation before its level is looked at (R441): POWERDOWN on the compute die outside ACTIVE;
DENIED on Flint in HIBERNATE. `none` where the port does not answer. -/
def State.dapPower (s : State) (die : Nat) : Option Nat :=
  if die = 0 then (if s.pw.state = 0 then some 0 else some 3) else (if s.pw.state = 3 then some 2 else some 0)

/-- Whether the die's TAP responds at all. -/
def State.tapUp (s : State) (die : Nat) : Bool := if die = 0 then s.dev.die != .inReset else s.fl.up

/-- Run a DAP operation that needs a level. -/
def State.dap (s : State) (die level : Nat) (act : State → State) : Out :=
  if !s.tapUp die then .next s
  else match s.dapPower die with
    | some 0 => .next (if s.dbgLevel die < level then s.dapAck die 2 none else act s)
    | some a => .next (s.dapAck die a none)
    | none => .next s

/-- Where a compute-die DAP address lies (R434): the store of the Gallery, a Pocket, MP SRAM, or a register. -/
inductive DapAt where
  | gal (p : Nat)
  | pocket (g o : Nat)
  | sram (o : Nat)
  | host (a : Nat)
  | reg (r : Reg)
  | none
  deriving DecidableEq, Repr

/-- The map of R434, for 4 bytes at `a`. -/
def State.dapAt (s : State) (a : Nat) (write : Bool) : DapAt :=
  if a < 0x8000000000 then
    match s.target a 4 write with
    | .dev (some r) _ ok => if ok then .reg r else .none
    | .mem (host, p) _ => if host then .host p else .gal p
    | _ => .none
  else if a < 0x8000000000 + 512 * 2 ^ 20 then .gal (a - 0x8000000000)
  else if 0x9000000000 ≤ a ∧ a < 0x9000000000 + 32 * 2 ^ 21 then .pocket ((a - 0x9000000000) / 2 ^ 21) (a % 2 ^ 21)
  else if 0xA000000000 ≤ a ∧ a < 0xA000000000 + 262144 then .sram (a - 0xA000000000)
  else .none

/-! ### What a protected slab stores (R206, R207, log entry 49) -/

/-- The tweak of granule `j` of slab `sl`. -/
def tweakOf (j sl epoch : Nat) : Nat := j + 2 ^ 16 * sl + 2 ^ 32 * epoch
/-- The keys of a slab: 64 bytes for XTS, 32 for CMAC. -/
def State.slabKeys (s : State) (sl : Nat) : List Byte := padTo 96 (Config.slabKey s.sec.galKey sl (s.gal.slab sl).epoch)
/-- The ciphertext of granule `j` of slab `sl`. -/
def State.cipherOf (s : State) (sl j : Nat) : List Byte :=
  xts ((s.slabKeys sl).take 64) (tweakOf j sl (s.gal.slab sl).epoch) (s.gal.mem.readN (galAt sl (256 * j)) 256)
/-- The tag of granule `j` of slab `sl`; where it does not match, another one. -/
def State.tagOf (s : State) (sl j : Nat) : List Byte :=
  let t := (cmac ((s.slabKeys sl).drop 64) (leBytes 16 (tweakOf j sl (s.gal.slab sl).epoch) ++ s.cipherOf sl j)).take 8
  if s.gal.badTag.contains (4096 * sl + j) then leBytes 8 (Config.wrongTag (leNat t)) else t
/-- The stored byte at offset `o` of a protected slab: ciphertext, tags, and the MP's words with the epoch and the slab number. -/
def State.storedByte (s : State) (sl o : Nat) : Byte :=
  if o < 0xF8000 then (s.cipherOf sl (o / 256)).getD (o % 256) 0
  else if o < 0xFFC00 then (s.tagOf sl ((o - 0xF8000) / 8)).getD (o % 8) 0
  else (leBytes 8 (s.gal.slab sl).epoch ++ leBytes 4 sl).getD (o - 0xFFC00) 0
/-- The 4 stored bytes at a place, past the engines, with the ECC of a demand read. -/
def State.storedRead (s : State) (p : Nat) : State × Nat :=
  let s1 := s.galEcc p 4 0
  let sl := p / 2 ^ 20
  (s1, if (s1.gal.slab sl).state = .prot then leNat ((List.range 4).map fun i => s1.storedByte sl (p % 2 ^ 20 + i)) else leNat (s1.gal.mem.readN p 4))

/-- Whether an access waits for the Gallery's first fill (R212): it is acknowledged WAIT. -/
def State.dapShut (s : State) : DapAt → Bool
  | .gal _ => !s.galOpen
  | _ => false

/-- DAP_READ: a protected slab is read as stored (R208); host memory lies outside the block; on Flint the addresses are those of the Flint
core, which the manual does not give. -/
def execDapRead (die a : Nat) (s : State) : Out :=
  s.dap die 1 fun s =>
    let free (s : State) : State := let (s1, v) := s.draw; s1.dapAck die 0 (some (v % 2 ^ 32))
    if die ≠ 0 then free s
    else if s.dapShut (s.dapAt a false) then s.dapAck 0 1 none
    else match s.dapAt a false with
      | .none => s.dapAck 0 4 none
      | .reg r => let (s1, v) := s.readReg 8 r; s1.dapAck 0 0 (some (v % 2 ^ 32))
      | .gal p => let (s1, v) := s.storedRead p; s1.dapAck 0 0 (some v)
      | .pocket g o => if s.retiredG g then s.dapAck 0 4 none else s.dapAck 0 0 (some (leNat ((s.geode g).pocket.readN o 4)))
      | .sram o => s.dapAck 0 0 (some (leNat (s.sec.sram.readN o 4)))
      | .host _ => free s

/-- DAP_WRITE: a write to a protected slab completes with FAULT and no effect (R431), and so does one to a retired Geode (R83). -/
def execDapWrite (die a : Nat) (v : W32) (s : State) : Out :=
  s.dap die 2 fun s =>
    let b := leBytes 4 v.toNat
    if die ≠ 0 then s.dapAck 1 0 none
    else if s.dapShut (s.dapAt a true) then s.dapAck 0 1 none
    else match s.dapAt a true with
      | .none => s.dapAck 0 4 none
      | .reg r => (s.writeReg 8 r v.toNat).dapAck 0 0 none
      | .gal p => if (s.gal.slab (p / 2 ^ 20)).state = .prot then s.dapAck 0 4 none else (s.galWriteP p b false).dapAck 0 0 none
      | .pocket g o => if s.retiredG g then s.dapAck 0 4 none else (s.withGeode g fun d => { d with pocket := d.pocket.writeN o b, poison := writeMarks d.poison o 4 false }).dapAck 0 0 none
      | .sram o => (s.withSec fun d => { d with sram := d.sram.writeN o b }).dapAck 0 0 none
      | .host p => ({ s with host := s.host.writeN p b }).dapAck 0 0 none

/-- Whether a control target exists (R434): 0 the MP, 1 to 8 the cores, 0x10 + g a Geode's sequencer. -/
def dapTarget (t : Nat) : Bool := decide (t ≤ 8) || (decide (16 ≤ t) && decide (t < 48))

/-- Halt or resume a target. -/
def State.haltTarget (s : State) (t : Nat) (on : Bool) : State :=
  if 16 ≤ t then s.withGeode (t - 16) fun d => { d with halted := on, step := false }
  else
    let s1 := s.withSec fun d => { d with halts := if on then insNat t d.halts else d.halts.filter (· != t), stepOk := none }
    if t = 0 then s1.withSec fun d => { d with dbgHalt := on } else s1

/-- DAP_HALT; on Flint it halts the Flint core. -/
def execDapHalt (die t : Nat) (s : State) : Out :=
  s.dap die 2 fun s =>
    if die ≠ 0 then (s.withFl fun f => { f with halted := true }).dapAck 1 0 none
    else if dapTarget t then (s.haltTarget t true).dapAck 0 0 none else s.dapAck 0 4 none

/-- DAP_RESUME. -/
def execDapResume (die t : Nat) (s : State) : Out :=
  s.dap die 2 fun s =>
    if die ≠ 0 then (s.withFl fun f => { f with halted := false }).dapAck 1 0 none
    else if dapTarget t then (s.haltTarget t false).dapAck 0 0 none else s.dapAck 0 4 none

/-- DAP_STEP: one instruction of a halted target. -/
def execDapStep (die t : Nat) (s : State) : Out :=
  s.dap die 2 fun s =>
    let s1 := s.withSec fun d => { d with steps := d.steps + 1 }
    if die ≠ 0 then s1.dapAck 1 0 none
    else if !dapTarget t then s.dapAck 0 4 none
    else if 16 ≤ t then (s1.withGeode (t - 16) fun d => { d with step := d.halted }).dapAck 0 0 none
    else (s1.withSec fun d => { d with stepOk := if d.halts.contains t then some t else d.stepOk }).dapAck 0 0 none

/-- DAP_END: the session of a die ends, at any level (R431, R437). -/
def execDapEnd (die : Nat) (s : State) : Out :=
  s.dap die 0 fun s => (if die = 0 then s.endCdSession 2 else s.endSession 1 2).dapAck die 0 none

/-- MBX3_ACCESS: a register of mailbox 3 by its index, under the rules of the host's own port (R67, R435); `upset` is a parity error of the FIFO
word it writes or reads (R59). -/
def execMbx3Access (write : Bool) (idx : Nat) (v : W32) (upset : Bool) (s : State) : Out :=
  if s.dev.die = .inReset then .next s
  else
    let s0 := s.withSec fun d => { d with tap := d.tap.set 0 9 }
    if s.pw.state ≠ 0 then .next (s0.withSec fun d => { d with mbx3Ack := 3 })
    else
      let regs : List Reg := [.mbxCmdData 3, .mbxCmdCount 3, .mbxRspData 3, .mbxRspCount 3, .mbxCtrl 3, .mbxStatus 3]
      match regs[idx]? with
      | none => .next (s0.withSec fun d => { d with mbx3Ack := 4 })
      | some r =>
        let s1 := s0.perform (if write then .write r v.toNat upset else .read r upset)
        .next (s1.withSec fun d => { d with mbx3Ack := 0, mbx3Data := if write then d.mbx3Data else s1.readData })

/-- TRST_N: both TAP controllers return to IDCODE; sessions stay (R433). -/
def execTrstN (s : State) : Out := .next (s.withSec fun d => { d with tap := [2, 2] })

/-- DBG_CTRL_END: a write of 1 to `DBG_CTRL.END` (R439). -/
def execDbgCtrlEnd (s : State) : Out := .next (s.writeReg 8 .dbgCtrl 1)

end Sys2Proof.Machine
end

