-- ==== Sys2Proof/Machine/Answers.lean ====
section
/-!
DEFINITION. What arrives from Flint in a MAILBOX_RESPONSE frame (R344, R346, R373, R381, R423).
-/
namespace Sys2Proof.Machine

/-- The power controller takes a POWER answer by its tag: ENTER's acknowledgement, COMMIT's wake bits, RUNNING's after HIBERNATE. -/
def State.powerAnswer (s : State) (tag : Nat) (body : List W32) : State :=
  let n (i : Nat) : Nat := (body.getD i 0).toNat
  match tag with
  | 1 => s.withPw fun p => { p with flintAck := true }
  | 2 => s.withPw fun p => { p with seen := p.seen ||| n 0, seenRule := n 1 }
  | 4 => if body.isEmpty then s else s.withPw fun p => { p with wakeCause := n 0 + 3 * 2 ^ 16 + n 1 * 2 ^ 24 }
  | _ => s

/-- KC arrives (R421, R446): the MP keeps it, and derives and writes KG unless `GAL_KEY_SET` stands already. -/
def State.takeKc (s : State) (kc : List Byte) : State :=
  s.withSec fun d =>
    if d.galSet.length = 8 then { d with kc := some kc } else { d with kc := some kc, galKey := leWords 8 (kgOf kc), galSet := List.range 8 }

/-- A message of Flint that is not a metrology response, by its framing kind: KC, a Flint reset, which the MP answers with HELLO, a TWIN_CMP
notice, which leaves over the twin link, and the answers of the KC kinds. -/
def State.flintAnswer (s : State) (kind tag status : Nat) (body : List W32) : State :=
  match kind with
  | 0xF0 => s.takeKc (wordsBytes (body.take 8))
  | 0xFD => (s.withSec fun d => { d with flLevel := 0, kc := none }).sendFlint 0xF0 []
  | 0xFE => { s with conduit := { s.conduit with ownG := (noticeG body :: s.conduit.ownG).take 3 } }
  | 0xF2 => if tag = 2 then s.modelAnswer status body else if tag = 5 then s.boardAnswer status else s
  | 0xF3 => if status = sOk then s.powerAnswer tag body else s
  | 0xF5 => s.answerFor 0x5B status body
  | 0xF6 => s.dbgAnswer tag status body
  | _ => s

/-- MAILBOX_RESPONSE: a metrology response waits for its relay (R69), but for one whose command has been answered E_TIMEOUT (R71); every other
message is taken at once. -/
def execMailboxResponse (raw : List Byte) (s : State) : Out :=
  if !s.receives then .next s
  else match s.receive 3 raw with
    | (s1, none) => .next s1
    | (s1, some f) =>
      let ws := leWords (f.payload.length / 4) f.payload
      let h := (ws.getD 0 0).toNat
      if isMet (fld h 24 8) then
        (if s1.conduit.stale.contains (answerCounter ws) then .next s1
          else .next { s1 with conduit := { s1.conduit with answers := s1.conduit.answers ++ [ws] } })
      else .next (s1.flintAnswer (fld h 24 8) (fld h 16 8) (fld h 0 8) (ws.drop 1))

end Sys2Proof.Machine
end

