-- ==== Sys2Proof/Machine/TwinOps.lean ====
section
/-!
DEFINITION. What the twin's rows share: mode changes, the exchange packet, the comparison of signatures and times, and the localisation
of a mismatch (R38, R39, R51, R152, R395 to R405).
-/
namespace Sys2Proof.Machine

/-! ### Modes (R345, R395, R396) -/

/-- TWIN_STATE, while the MP runs to send it. -/
def State.tellTwin (s : State) : State := if s.mpRuns then s.twinEvent else s

/-- Journalled commands of a follower that still wait for their entries, when the pair leaves PAIRED: the entries no longer come (R397). -/
def State.dropFollowed (s : State) : State :=
  (List.range 8).foldl (fun s m => ((s.mb m).out.filter fun c => isJournalled c.op && c.phase == 0).foldl (fun (s : State) c => s.respond m c eTwin []) s) s

/-- A mode takes effect: the MODE message to this device's Flint, and the event. A pair that becomes PAIRED starts its comparison and its
journal afresh. -/
def State.setMode (s : State) (m : TwinMode) : State :=
  let s0 := if s.follows && m != .paired then s.dropFollowed else s
  let s1 := (s0.withTw fun t =>
    let t1 := { t with mode := m, modeNext := none, soloNext := false }
    if m = .paired then { t1 with mine := [], theirs := [], history := [], locals := [], journalSeq := 0, journalOut := [], journalIn := [], applied := 0, gone := [] } else t1).sendFlint 0xF7 [w32 m.code]
  let s2 := if m = .paired then { s1 with conduit := { s1.conduit with lead := [], due := [], stood := [], copyTs := [] } } else s1
  s2.tellTwin

/-- The twin link is down for good in the sense of R399: a record, SOLO while staying attached, and a TWIN_SYNC in progress ends. -/
def State.linkDown (s : State) : State :=
  let s1 := ((s.addRec 0x0403 0xFF 0xFF 0xFF 0xFF 0 []).answerFor 0x53 eTwin []).withTw fun t => { t with sync := none }
  if s.tw.mode = .solo then s1.withTw fun t => { t with modeNext := none, soloNext := false } else s1.setMode .solo

/-! ### The exchange packet (R399) -/

/-- An entry of a context, its class, and the number of its interval. -/
def pkEnt (ctx : Nat) (cls : OClass) (ab : Bool) (num : Nat) (sig : W32) : PkEnt := ⟨ctx, cls.code, ab, num % 2 ^ 32, sig⟩

/-- The entry at byte `o` of a packet. -/
def readEnt (b : List Byte) (o : Nat) : PkEnt :=
  ⟨imgField b o 1, imgField b (o + 1) 1, bitAt (imgField b (o + 2) 1) 0, imgField b (o + 4) 4, BitVec.ofNat 32 (imgField b (o + 8) 4)⟩

/-- The packet of some received bytes, when its length and its CRC are right. -/
def parsePacket (raw : List Byte) (recv : Nat) : Option Packet :=
  let e := imgField raw 48 2
  if e ≤ 400 ∧ raw.length = 52 + 12 * e + 4 ∧ (crc32c (raw.take (52 + 12 * e))).toNat = imgField raw (52 + 12 * e) 4 then
    some { drip := imgField raw 0 8, send := imgField raw 8 16, echo := imgField raw 24 16, echoDrip := imgField raw 40 8
           entries := (List.range e).map fun k => readEnt raw (52 + 12 * k), recv := recv }
  else none

/-- The bytes of the packet this device sends. -/
def State.packetBytes (s : State) (k : SentPk) : List Byte :=
  let last := s.tw.recv.getLast?
  let ent (e : PkEnt) : List Byte := leBytes 1 e.ctx ++ leBytes 1 e.cls ++ leBytes 1 (bit e.abandoned) ++ [0] ++ leBytes 4 e.num ++ leBytes 4 e.sig.toNat
  let b := leBytes 8 k.drip ++ leBytes 16 k.send ++ leBytes 16 ((last.map fun p => p.recv).getD 0) ++ leBytes 8 ((last.map fun p => p.drip).getD 0) ++
    leBytes 2 k.entries.length ++ [0, 0] ++ k.entries.flatMap ent
  b ++ leBytes 4 (crc32c b).toNat

/-! ### Reports of abandonment (R39, R152) -/

/-- A context is reported abandoned for a drip: that interval is void in every tracker of every slot of it, and so is what is
still folded into it. -/
def State.voidDrip (s : State) (c num : Nat) : State :=
  ((s.slotsOf c).foldl (fun s x => s.withSlot x.1 x.2 fun sl =>
    { sl with trk := sl.trk.map fun t => { t with entries := t.entries.map fun e => if e.interval % 2 ^ 32 = num then { e with void := true } else e } }) s).withCtx c
      fun x => { x with voided := insNat (near64 s.drip.count num) x.voided }

/-! ### A mismatch (R403 steps 1 and 2) -/

/-- The Geodes that hold, or held until their retirement, a slot of a context. -/
def State.geodesOf (s : State) (c : Nat) : List Nat := ((s.slotsOf c ++ (s.ctx c).retiredSlots).map fun x => x.1).dedup

/-- Geodes of a context that a Vein or Geode record of either device, made since the interval's drip, already names. -/
def State.named (s : State) (c num : Nat) : List Nat :=
  (s.geodesOf c).filter fun g => s.tw.named.contains g || s.mpRecs.any fun r => (r.code == 0x0101 || r.code == 0x0102) && r.geode == g && decide (near64 s.drip.count num ≤ r.drip)

/-- A mismatch is recorded, RESULT is set, and the localisation begins: with the Geodes that a record names, else with a KAT of each
Geode of the context that no device has retired. -/
def State.mismatch (s : State) (code c num : Nat) (detail : List W32) : State :=
  let s1 := (s.addRec code c 0xFF 0xFF 0xFF num detail).withFcu fun f => { f with result := true }
  let known := s.named c num
  let gs := s.geodesOf c
  let dead := gs.filter fun g => s.retiredG g
  let l : Local := if known ≠ [] then ⟨c, num, [], known⟩ else ⟨c, num, gs.filter (fun g => !dead.contains g), dead⟩
  (l.geodes.foldl (fun s g => s.katStart g) s1).withTw fun t => { t with locals := t.locals ++ [l] }

/-! ### Comparison (R38, R39, R51, R400) -/

/-- Whether two entries are of one interval of one context. -/
def PkEnt.meets (a b : PkEnt) : Bool := a.ctx == b.ctx && a.cls == b.cls && a.num == b.num

/-- The outcome of R39 for a matched pair of a REALTIME or ELASTIC context. -/
def State.judge (s : State) (a b : PkEnt) : State :=
  if !a.abandoned && !b.abandoned then
    let s1 := s.withCtx a.ctx fun x => { x with oneSidedLast := false }
    if a.sig = b.sig then s1 else s1.mismatch 0x0301 a.ctx a.num [a.sig, b.sig]
  else
    let s1 := s.voidDrip a.ctx a.num
    if a.abandoned && b.abandoned then s1.withCtx a.ctx fun x => { x with oneSidedLast := false }
    else
      let s2 := s1.withCtx a.ctx fun x => { x with oneSidedLast := true }
      if (s.ctx a.ctx).oneSidedLast then s2.mismatch 0x0304 a.ctx a.num [] else s2

/-- Match this device's waiting entries with the twin's. -/
def State.matchOwn (s : State) : State :=
  s.tw.mine.foldl (fun (s : State) w =>
    match s.tw.theirs.find? fun x => x.ent.meets w.ent with
    | none => s
    | some x => (s.withTw fun t => { t with mine := t.mine.erase w, theirs := t.theirs.erase x }).judge w.ent x.ent) s

/-- Match the micro-steps that this device has sent with the twin's, and free their places (R38). -/
def State.matchBg (s : State) : State :=
  (List.range 24).foldl (fun s c => (s.ctx c).bg.foldl (fun (s : State) e =>
    if e.first.isNone then s
    else match s.tw.theirs.find? fun x => x.ent.meets (pkEnt c .background false e.micro e.sig) with
      | none => s
      | some x =>
        let s1 := (s.withTw fun t => { t with theirs := t.theirs.erase x }).withCtx c fun y => { y with bg := y.bg.erase e }
        if e.sig = x.ent.sig then s1 else s1.mismatch 0x0301 c (e.micro % 2 ^ 32) [e.sig, x.ent.sig]) s) s

/-- Entries that have waited too long at boundary `d`: a micro-step for 8 boundaries is a TWIN_LAG; the others leave with the packets the
engine keeps. -/
def State.ageOut (s : State) (d : Nat) : State :=
  let lag (e : BgEntry) : Bool := (e.first.map fun b => decide (b + 8 ≤ d)).getD false
  let s1 := (List.range 24).foldl (fun s c =>
    ((s.ctx c).bg.filter lag).foldl (fun (s : State) e =>
      (s.addRec 0x0305 c 0xFF 0xFF 0xFF (e.micro % 2 ^ 32) []).withCtx c fun y => { y with bg := y.bg.erase e }) s) s
  s1.withTw fun t => { t with mine := t.mine.filter fun w => decide (d < w.since + 4), theirs := t.theirs.filter fun w => decide (d < w.since + 8) }

/-- The twin time offset in ns, from the own packet the twin echoes and the twin's packet (R51). -/
def twinOffset (t1 t2 t3 t4 : Nat) : Int := (((t2 : Int) - t1) - ((t4 : Int) - t3)) / (2 * 2 ^ 32)

/-- Quality UNSET or CARRIED suspends the comparison of times. -/
def badQuality (q : Nat) : Bool := q == 0 || q == 3

/-- Compare the times of a packet. -/
def State.compareTime (s : State) (p : Packet) : State :=
  match s.tw.sent.find? fun k => k.drip == p.echoDrip, s.dev.board with
  | some k, some b =>
    if badQuality s.time.quality.code || badQuality (fld p.send 112 2) || p.echo == 0 then s
    else
      let o := twinOffset (stampUnits k.send) (stampUnits p.echo) (stampUnits p.send) (stampUnits p.recv)
      if o.natAbs ≤ b.timeBound then s else s.addRec 0x0306 0xFF 0xFF 0xFF 0xFF (p.drip % 2 ^ 32) (w64 (unsigned 64 o))
  | _, _ => s

/-- The comparison of one boundary, once both packets are there (R265, R399, R401). -/
def State.comparePk (s : State) (d : Nat) : State :=
  match s.tw.sent.find? fun k => k.drip == d && !k.done, s.tw.recv.find? fun p => p.drip == d with
  | some _, some p =>
    let s1 := (s.compareTime p).withTw fun t =>
      { t with missed := 0, sent := t.sent.map fun k => if k.drip = d then { k with done := true } else k }
    if s1.tw.mode ≠ .paired then s1
    else
      let new := p.entries.filter fun e => !s1.tw.theirs.any fun x => x.ent.meets e
      let s2 := s1.withTw fun t => { t with theirs := t.theirs ++ new.map fun e => ⟨e, d⟩ }
      let s3 := (s2.matchOwn.matchBg).ageOut d
      if s3.tw.leader ∧ d ≠ 0 then (s3.event 0 0x50 0 0 [w32 (d - 1)]).withTw fun t => { t with verdict := some ((d - 1) % 2 ^ 32) } else s3
  | _, _ => s

/-! ### The end of a localisation (R403 steps 4 and 5, R404) -/

/-- The KATs of a localisation have finished on this device. -/
def State.katsDone (s : State) (l : Local) : Bool := l.geodes.all fun g => !(s.geode g).kat.busy && !(s.geode g).kat.pending

/-- A Geode of a localisation failed here, or on the twin alone, or counts as failed without a test; it is retired. -/
def State.condemn (s : State) (l : Local) (twin : List Nat) (g : Nat) : State :=
  let k := (s.geode g).kat
  let s1 := if l.failed.contains g then s
    else if k.fail then s.addRec 0x0109 l.ctx g 0xFF 0xFF l.interval [w32 (2 * bit k.done + 4 * bit k.fail + 8 * k.unit)]
    else if twin.contains g then s.addRec 0x010A l.ctx g 0xFF 0xFF l.interval []
    else s
  s1.retireReq g

/-- Step 4 or step 5 of R403 at the boundary that opens drip `d`; `twin` are the Geodes that failed on the twin. -/
def State.localEnd (s : State) (d : Nat) (twin : List Nat) (l : Local) : State :=
  let bad := l.failed ++ l.geodes.filter fun g => (s.geode g).kat.fail || twin.contains g
  if bad ≠ [] then bad.foldl (fun s g => s.condemn l twin g) s
  else
    let again := s.tw.history.any fun h => h.1 == l.ctx && decide (d ≤ h.2 + 64)
    let s1 := (s.addRec 0x0302 l.ctx 0xFF 0xFF 0xFF l.interval []).withTw fun t => { t with history := t.history.filter (fun h => h.1 != l.ctx) ++ [(l.ctx, d)] }
    if again ∧ (s.ctx l.ctx).state = .running then
      ((s1.addRec 0x0303 l.ctx 0xFF 0xFF 0xFF l.interval []).zeroBudgets l.ctx).withCtx l.ctx fun x => { x with stopping := true }
    else if again then s1.addRec 0x0303 l.ctx 0xFF 0xFF 0xFF l.interval []
    else s1

/-- The localisations that end at this boundary, and in PAIRED the union of retirements. `kats` are the twin's failed Geodes, once it has
told them; `retired` are the Geodes retired on the twin. -/
def State.localise (s : State) (d : Nat) (kats : Option (List Nat)) (retired : List Nat) : State :=
  let s1 := match kats with
    | none => s
    | some twin => s.tw.locals.foldl (fun (s : State) l => if s.katsDone l then (s.withTw fun t => { t with locals := t.locals.erase l }).localEnd d twin l else s) s
  if s1.tw.mode ≠ .paired then s1
  else (retired.foldl (fun (s : State) g => s.retireReq g) s1).withTw fun t => { t with twinRetired := retired.foldl setBit t.twinRetired }

end Sys2Proof.Machine
end

