-- ==== Sys2Proof/Machine/Boundary.lean ====
section
/-!
DEFINITION. The drip boundary and the drop, the MP's boundary work, the exchange with the twin, and the exit from ROOST and TORPOR with
the boundaries it catches up (R27 to R40, R99, R103, R151 to R153, R265, R311, R312, R379, R399).
-/
namespace Sys2Proof.Machine

/-! ### Step 1: the count and the pending change (R27, R28, R453) -/

/-- The drip generator at its next boundary: T opens drip 0; a change that waits for this boundary takes effect. -/
def DripSt.next (d : DripSt) (start : Int) : DripSt :=
  let first : Bool := d.phase != .running
  let d1 := { d with phase := .running, count := if first then 0 else d.count + 1, drop := 0, start := start, len := if first then d.len else d.base }
  let d2 := match d.pend with
    | none => d1
    | some p => if p.skip then { d1 with pend := some { p with skip := false } }
      else { d1 with base := p.len, drops := p.drops, len := ((p.len : Int) + p.trim).toNat, pend := none }
  { d2 with past := (⟨d2.count, start, d2.len, d2.drops⟩ :: d.past).take 64 }

/-- Step 1 of R30, at the nominal instant. -/
def State.openDrip (s : State) : State :=
  let s0 := s.stepBefore s.nextBoundary
  let start := s0.nextBoundary
  ((s0.advanceTo start).withDrip fun d => d.next start).withDev fun d => { d with phase := 4 }

/-! ### Step 2: the overrun rules (R33 to R35, R101) -/

/-- Origin drips of the blocks a slot still has to work on. -/
def State.inOrigins (s : State) (g i : Nat) : List Nat :=
  (s.slot g i).ins.foldl (fun l q => ((s.queue g q).entries.filter fun e => e.released && !e.marker).foldl (fun l e => insNat (near64 s.drip.count e.origin) l) l) []

/-- The origin drip of a firing's work. -/
def Firing.origin (f : Firing) : Nat := f.lastOrigin.getD f.drip

/-- A RUN slot at the boundary that opens drip `d`. -/
def State.overrunSlot (s : State) (d g i : Nat) : State :=
  let sl := s.slot g i
  let f := s.firing g
  let busy := (f.map fun f => f.slot) == some i
  if sl.state ≠ .run then s
  else match sl.cls with
  | .background => if busy then s.withFiring g fun f => { f with stopped := true } else s.restoreBg g i
  | .realtime =>
    if d = 0 then s
    else if busy then (s.withFiring g fun f => { f with missed := insNat (d - 1) f.missed }).abandon g i (d - 1)
    else
      let (s1, old) := s.dropIn g i (d - 1)
      if old = [] then s1 else (s1.missing g i (d - 1)).abandon g i (d - 1)
  | .elastic =>
    if busy then
      let late := (insNat ((f.map Firing.origin).getD d) (s.inOrigins g i)).filter fun o => decide (o + 5 ≤ d)
      late.foldl (fun s o => s.abandon g i o) (s.withFiring g fun f => { f with crossed := true })
    else if d < 5 then s
    else
      let (s1, old) := s.dropIn g i (d - 5)
      old.foldl (fun s o => (s.missing g i o).abandon g i o) s1

/-- Every slot, by Geode and number. -/
def allSlots : List (Nat × Nat) := (List.range 32).flatMap fun g => (List.range 4).map fun i => (g, i)

def State.overrun (s : State) (d : Nat) : State := allSlots.foldl (fun s x => s.overrunSlot d x.1 x.2) s

/-! ### Step 3: budgets and windows (R99, R103); scales (R152) -/

/-- A slot's counters at a boundary. -/
def Slot.reload (sl : Slot) : Slot :=
  { sl with used := min (sl.used - sl.budget) sl.budgetNext, budget := sl.budgetNext, first := sl.firstNext, last := sl.lastNext }

def State.reload (s : State) : State := { s with geodes := s.geodes.map fun d => { d with slots := d.slots.map Slot.reload } }

/-- The scales in force for drip `d`; counts of released blocks outlive their drip by 64 drips. -/
def Geode.openDrip (x : Geode) (d : Nat) : Geode :=
  { x with
    slots := x.slots.map fun sl => if sl.cls = .background ∨ sl.state = .empty then sl else { sl with trk := sl.trk.map fun t => t.openDrip d }
    queues := x.queues.map fun w => { w with sent := w.sent.filter fun k => decide (d ≤ k.1 / 4 + 64) } }

def State.scales (s : State) (d : Nat) : State := { s with geodes := s.geodes.map fun x => x.openDrip d }

/-! ### Step 4: signatures (R38, R133) -/

/-- The signature of a context for an interval. -/
def State.sigOf (s : State) (c o : Nat) : W32 := (s.slotsOf c).foldl (fun v x => v ^^^ (s.slot x.1 x.2).accOf o) 0

/-- Origin drips with work of context `c` that has not finished: blocks a slot has still to take, blocks on their way to one, and firings. -/
def State.unfinished (s : State) (c : Nat) : List Nat :=
  (s.slotsOf c).flatMap fun x =>
    let d := s.geode x.1
    let moving := (d.slot x.2).outs.flatMap fun q =>
      let w := d.queue q
      if w.bind = 2 ∨ w.bind = 3 then (w.entries.filter fun e => !e.marker).map fun e => near64 s.drip.count e.origin else []
    let fires := match d.firing with
      | some f => if f.slot = x.2 then [f.origin] else []
      | none => []
    s.inOrigins x.1 x.2 ++ moving ++ fires

/-- Close a context's signature of drip `o` at the boundary that opens drip `d`. -/
def State.closeSig (s : State) (d c o : Nat) : State :=
  let e : SigEntry := ⟨o, s.sigOf c o, (s.ctx c).abandoned.contains o, d⟩
  ((s.slotsOf c).foldl (fun s x => s.withSlot x.1 x.2 fun sl => { sl with acc := sl.acc.filter fun a => a.1 != o }) s).withCtx c fun x =>
    { x with closed := x.closed ++ [e], done := insNat o x.done }

/-- The drips of context `c` whose signatures close at the boundary that opens drip `d`: for REALTIME the drip that ends, for ELASTIC
those whose work has finished or been dropped; and drips with an accumulator that blocks of an earlier origin opened. -/
def State.closing (s : State) (d c : Nat) : List Nat :=
  let x := s.ctx c
  let left := s.unfinished c
  let open' := (s.slotsOf c).foldl (fun l z => (s.slot z.1 z.2).acc.foldl (fun l a => insNat a.1 l) l) []
  match x.cls with
  | .background => []
  | .realtime => (insNat (d - 1) open').filter fun o => decide (o < d) && !x.done.contains o
  | .elastic => ((range' (d - 5) (min d 5)).foldl (fun l o => insNat o l) open').filter fun o =>
      decide (o < d) && !x.done.contains o && (decide (o + 5 ≤ d) || !left.any fun p => decide (p ≤ o))

def State.closeSigs (s : State) (d : Nat) : State :=
  (List.range 24).foldl (fun s c =>
    if (s.ctx c).state ≠ .running ∨ d = 0 then s
    else ((s.closing d c).foldl (fun s o => s.closeSig d c o) s).withCtx c fun x =>
      { x with
        done := x.done.filter fun o => decide (d ≤ o + 64), abandoned := x.abandoned.filter fun o => decide (d ≤ o + 64)
        voided := x.voided.filter fun o => decide (d ≤ o + 64) }) s

/-! ### Steps 6 to 8 (R30, R40, R311, R399) -/

/-- Set the DRIP and DROP sources in every block, for `k` boundaries. -/
def State.dripIrq (s : State) (k : Nat) : State :=
  { s with cic := s.cic.map fun c => { c with pending := c.pending ||| 3, drips := min 255 (c.drips + k) } }

/-- The timing message of the drip that has just opened. -/
def State.sendTiming (s : State) : State :=
  let b := s.drip.start.toNat
  s.sendFlint 0xF1 (timingBody s.drip.count s.drip.len s.drip.drops (stampOf (b % 2 ^ 32) (b / 2 ^ 32) s.time.quality.code))

/-- The entries of the packet of the boundary that opens drip `d`: the signatures it closed, and micro-steps committed since the last. -/
def State.ownEntries (s : State) (d : Nat) : List PkEnt :=
  (List.range 24).flatMap fun c =>
    let x := s.ctx c
    ((x.closed.filter fun e => e.at' == d).map fun e => pkEnt c x.cls e.abandoned e.drip e.sig) ++ ((x.bg.filter fun e => e.first.isNone).map fun e => pkEnt c .background false e.micro e.sig)

/-- The exchange engine sends its packet at the boundary that opens drip `d`; outside PAIRED no micro-step waits for a comparison. -/
def State.sendPacket (s : State) (d : Nat) : State :=
  let l := s.ownEntries d
  let paired := s.tw.mode == .paired
  let sends := s.tw.attached && !s.failSilent && s.receives
  let s1 := if !paired then { s with ctxs := s.ctxs.map fun x => { x with bg := [] } }
    else if sends then { s with ctxs := s.ctxs.map fun x => { x with bg := x.bg.map fun e => { e with first := some (e.first.getD d) } } }
    else s
  if !sends then s1
  else s1.withTw fun t =>
    { t with
      sent := (t.sent ++ [({ drip := d, send := s.stamp, entries := l } : SentPk)]).drop (t.sent.length + 1 - 4)
      mine := if paired then t.mine ++ (l.filter fun e => e.cls != 2).map (fun e => (⟨e, d⟩ : Waiting)) else t.mine }

/-! ### What waits for a boundary -/

/-- A mode change takes effect (R290, R411): its command answers, or fails when the change has been overtaken. -/
def State.modeAtBoundary (s : State) : State :=
  if !s.mpRuns then s
  else match s.tw.modeNext with
    | some m => (s.setMode m).answerFor 0x52 sOk []
    | none => (if s.tw.soloNext then s.setMode .solo else s).answerFor 0x52 eTwin []

/-- The Pocket phase of a TWIN_SYNC begins; injected faults come nearer; the boundary's work is due; a stopping context may end its stop, and its
slots are LOADED as their firings end (R223). -/
def State.dueAtBoundary (s : State) (k : Nat) : State :=
  let s1 := s.withTw fun t => { t with sync := t.sync.map fun y => if y.phase = 1 then { y with phase := 2 } else y }
  let s2 := s1.withDev fun d => { d with injected := d.injected.map fun x => (x.1, x.2.1, x.2.2 - k), workDue := d.workDue ++ [s.drip.count] }
  let s3 := { s2 with ctxs := s2.ctxs.map fun x => { x with stopArmed := x.stopArmed || x.stopping || x.halting } }
  allSlots.foldl (fun s z => if (s.ctx (s.slot z.1 z.2).ctx).stopArmed then s.setSlotState z.1 z.2 1 else s) s3

/-- DRIP_BOUNDARY: the steps of R30 at its nominal instant. `reads` are the read indices of the rings the device reads, `kats` the Geodes
that failed on the twin once its localisation tests are done, `retired` the Geodes retired on it. The budgets of a new L that waited for
this boundary to pass are written after it (R216). In ROOST and TORPOR only the count, the
schedule and the timing message go on (R29, R368). -/
def execDripBoundary (reads : List (Nat × Nat)) (kats : Option (List Nat)) (retired : List Nat) (s : State) : Out :=
  if s.drip.phase = .stopped || !s.qtzRuns then .next s
  else
    let s1 := s.openDrip.sendTiming
    let d := s1.drip.count
    let late (s : State) (due : Bool) : State := if due then s.rebudget else s
    let due := (s.drip.pend.map fun p => p.skip).getD false
    if s.pw.state ≠ 0 then .next (late (s1.withPw fun p => { p with passed := p.passed + 1 }) due)
    else
      let s2 := ((((s1.overrun d).reload).scales d).closeSigs d).dripIrq 1
      let s3 := ((s2.streamsBoundary d reads).sendPacket d).modeAtBoundary
      .next (late ((if s3.mpRuns && s3.tw.attached then s3.localise d kats retired else s3).dueAtBoundary 1) due)

/-- The nominal start of drop `k` of the current drip (R27). -/
def State.dropTime (s : State) (k : Nat) : Int := s.drip.start + (k * s.drip.len / s.drip.drops * nsU : Nat)

/-- DROP_START: the next drop of the drip, at its nominal start. -/
def execDropStart (s : State) : Out :=
  let k := s.drip.drop + 1
  if s.drip.phase ≠ .running || !s.qtzRuns || decide (s.drip.drops ≤ k) then .next s
  else
    let s0 := s.stepBefore (s.dropTime k)
    let s1 := (s0.advanceTo (s0.dropTime k)).withDrip fun d => { d with drop := k }
    if s.pw.state ≠ 0 then .next s1 else .next { s1 with cic := s1.cic.map fun c => { c with pending := c.pending ||| 2 } }

/-! ### The MP's boundary work (R260, R265, R267) -/

/-- Outside PAIRED this device's own flags are the report of R152, for the signatures closed up to the boundary that opens drip `d`. -/
def State.ownReports (s : State) (d : Nat) : State :=
  let s1 := if s.tw.mode = .paired then s
    else (List.range 24).foldl (fun s c => ((s.ctx c).closed.filter fun e => e.abandoned && decide (e.at' ≤ d)).foldl (fun (s : State) e => s.voidDrip c (e.drip % 2 ^ 32)) s) s
  { s1 with ctxs := s1.ctxs.map fun x => { x with closed := x.closed.filter fun e => decide (d < e.at') } }

/-- BOUNDARY_WORK: the work of the oldest boundary that waits for it (R267). -/
def execBoundaryWork (s : State) : Out :=
  match s.dev.workDue with
  | [] => .next s
  | d :: rest =>
    if !s.mpRuns then .next s else
    let s1 : State := { s.ownReports d with streams := s.streams.map fun (x : Stream) => if x.state = 0 then x else { x with snap := x.cnt, snapCrc := s.conduit.crcErr, snapState := x.state } }
    let s2 := (s1.tw.sent.filter fun k => decide (k.drip ≤ d)).foldl (fun (s : State) k => s.comparePk k.drip) s1
    .next (s2.withDev fun d => { d with workDue := rest })

/-! ### The exchange (R399, R422) -/

/-- EXCHANGE_PACKET_RECEIVE: a packet whose CRC fails is discarded; the last 4 are kept. `named` are the Geodes that the twin's records name for
its intervals. -/
def execExchangePacketReceive (raw : List Byte) (named : List Nat) (s : State) : Out :=
  if !s.tw.attached || !s.receives || !s.twinLink then .next s
  else match parsePacket raw s.stamp with
    | none => .next s
    | some p =>
      let s1 := s.withTw fun t => { t with recv := (t.recv ++ [p]).drop (t.recv.length + 1 - 4), named := named }
      if s.mpRuns && s.dev.workDue.isEmpty then .next (s1.comparePk p.drip) else .next s1

/-- EXCHANGE_TIMEOUT: the signatures of the latest boundary without a packet are not compared; the second miss in a row ends the link. -/
def execExchangeTimeout (s : State) : Out :=
  match s.tw.sent.find? fun k => !k.done && !s.tw.recv.any fun p => p.drip == k.drip with
  | none => .next s
  | some k =>
    if !s.mpRuns || !s.tw.attached then .next s
    else
      let s1 := s.withTw fun t =>
        { t with
          missed := t.missed + 1, sent := t.sent.map fun x => if x.drip = k.drip then { x with done := true } else x
          mine := t.mine.filter fun w => w.since != k.drip }
      .next (if s1.tw.missed = 2 then s1.linkDown else s1)

/-- TWIN_PACKET_AUTH_FAIL: the link is handled as down. -/
def execTwinPacketAuthFail (s : State) : Out :=
  if !s.mpRuns || !s.tw.attached || decide (2 ≤ s.tw.missed) then .next s
  else .next ((s.withTw fun t => { t with missed := 2 }).linkDown)

/-! ### Exit from ROOST and TORPOR (R29, R379) -/

/-- The boundary steps of `k` boundaries passed: the overrun rules as if each had occurred, then the rest once. -/
def State.catchUp (s : State) (k : Nat) (reads : List (Nat × Nat)) : State :=
  if k = 0 then s
  else
    let ds := range' (s.drip.count + 1 - k) k
    let s1 := ds.foldl (fun (s : State) d => (((s.overrun d).scales d).closeSigs d).streamsBoundary d reads) s
    (s1.reload.dripIrq k).dueAtBoundary k

/-- EXIT_ROOST_TORPOR: the wake's bits are recorded, the blocks restart, RUNNING goes to Flint, the boundaries are caught up. -/
def execExitRoostTorpor (reads : List (Nat × Nat)) (s : State) : Out :=
  let bits := s.pw.seen ||| (s.pw.levels &&& 0x40)
  if (s.pw.state ≠ 1 ∧ s.pw.state ≠ 2) ∨ bits = 0 then .next s
  else
    let cause := bits + s.pw.state * 2 ^ 16 + (if bitAt bits 1 then s.pw.seenRule * 2 ^ 24 else 0)
    let k := s.pw.passed
    let s1 := ((s.withPw fun p => { p with state := 0, wakeCause := cause, outcome := 1, block := 0, cause := 0, passed := 0 }).ackWakes bits).tdoFree bits
    let s2 := [1, 2, 3, 4, 5].foldl (fun (s : State) d => s.quietClk d 98) s1
    .next ((((s2.sendFlint 0xF3 [4]).withTw fun t => { t with announced := false }).catchUp k reads).pwrEvent).releaseHost

end Sys2Proof.Machine
end

