-- ==== Sys2Proof/Machine/Start.lean ====
section
/-!
DEFINITION. Power-up, resets and the start of the compute die (R417, R418, R442 to R446, R454, R457 to R460), the heartbeat and MP
SRAM's scrub.
-/
namespace Sys2Proof.Machine

/-! ### Power and resets -/

/-- AON_POWER_UP, from OFF: Flint's SRAM as it powers up, the secret reconstructed or enrolled (`puf`: the SRAM matches the helper data),
and the newer valid firmware slot (R417, R418, R444). -/
def execAonPowerUp (puf : Bool) (s : State) : Out :=
  if s.dev.aon then .next s
  else
    let f0 := s.fl
    let enrol := !f0.helper && f0.lifecycle == 0
    let f := { f0.mram with up := true, helper := f0.helper || enrol, secret := enrol || (f0.helper && puf), running := f0.pickSlot, use := ⟨f0.p, f0.curve, f0.events, 0, false⟩ }
    .next ((({ s with pw := {} } : State).withFl fun _ => f).withDev fun d => { d with aon := true })

/-- The device enters OFF: only Flint's MRAM stays. -/
def State.off (s : State) : State :=
  let s1 := (s.flintSees 4).withFl fun f => f.mram
  { s1.clearCompute.dropRecords with pw := { state := 4 }, fcu := {}, sec := {}, dev := { rails := false, rstN := false, aon := false } }

/-- AON_POWER_DOWN. -/
def execAonPowerDown (s : State) : Out := if !s.dev.aon then .next s else .next s.off

/-- Whether a low RST_N or a rail resets the compute die: not in HIBERNATE or OFF (R460). -/
def State.resettable (s : State) : Bool := decide (s.pw.state ≤ 2)

/-- RST_N_LOW, for 10 µs or more. -/
def execRstNLow (s : State) : Out := if s.resettable then .next (s.computeReset.withDev fun d => { d with rstN := false }) else .next s

/-- RAIL_UNDERVOLTAGE: a compute rail below its range (R459). -/
def execRailUndervoltage (s : State) : Out := if s.resettable then .next (s.computeReset.withDev fun d => { d with rails := false }) else .next s

/-! ### The boot ROM (R81, R430, R445) -/

/-- A Geode after its start-up self-test found `n` faulty Veins (R81). -/
def geodeStart (n : Nat) : Geode := { spareUsed := decide (n = 1), retired := decide (2 ≤ n) }

/-- COMPUTE_DIE_START: the board or the wake unit has started the compute die, whose rails and RST_N are then good; the arrays test
themselves (`veins`: faulty Veins by Geode), the links train (`down`: the UCIe modules that fail at 16 GT/s and stay down, R14), and the boot
ROM sends DEBUG STATE. -/
def execComputeDieStart (veins down : List Nat) (s : State) : Out :=
  if s.dev.die != .inReset || s.pw.state ≠ 0 || s.fcu.held || !s.fl.up || !s.dev.refclk then .next s
  else
    .next ((({ s with geodes := (List.range 32).map fun g => geodeStart (veins.getD g 0) } : State).withDev fun d =>
      { d with die := .starting, rails := true, rstN := true, down := down.filter (· < 3) }).sendFlint 0xF6 [1])

/-- FLINT_STATE_TIMEOUT: BOOT with `LC_VALID` 0. -/
def execFlintStateTimeout (s : State) : Out :=
  if s.dev.die != .starting then .next s else .next (s.withDev fun d => { d with die := .serving, phase := 0, stateLost := true })

/-- The FCU finds a failed domain: CLOCK, FAULT_N and a record (R407, R408). -/
def State.clockFault (s : State) (domain count : Nat) : State :=
  let s1 := s.withFcu fun f => { f with clock := true, failed := setBit f.failed domain, faultN := true }
  s1.addFcuRec 0x0502 domain [w32 s1.fcu.failed, w32 count]

/-- PLL_LOCK_TIMEOUT: BOOT is never reached; without the LINK PLL no link is up. -/
def execPllLockTimeout (domain count : Nat) (s : State) : Out :=
  if s.dev.die != .starting || 4 < domain then .next s
  else .next ((s.withDev fun d => { d with die := .noPll, down := if domain = 4 then [0, 1, 2] else d.down }).clockFault domain count)

/-! ### MP firmware (R421, R446) -/

/-- A Geode's start-up KAT: a unit that failed retires it (R402). -/
def State.startKat (s : State) (g : Nat) (unit : Option Nat) : State :=
  if (s.geode g).retired then s
  else match unit with
    | none => s.withGeode g fun d => { d with kat := { d.kat with done := true, fail := false, unit := 0 } }
    | some u =>
      let s1 := s.withGeode g fun d => { d with kat := { d.kat with done := true, fail := true, unit := min u 4 } }
      (s1.addRec 0x0109 0xFF g 0xFF 0xFF 0 [w32 (2 + 4 + 8 * min u 4)]).retire g

/-- The records of a Geode's Vein map. -/
def State.veinRec (s : State) (before : List Geode) (g : Nat) : State :=
  let d := before.getD g {}
  if d.retired then s.addRec 0x0102 0xFF g 0xFF 0xFF 0 [] else if d.spareUsed then s.addRec 0x0101 0xFF g 0xFF 0xFF 0 [] else s

/-- FIRMWARE_SELF_CALIBRATION, once KC has come and KG is written (step 1; the firmware has sent HELLO at its start, R430): the Gallery's fill and
scrub, the KATs (`fails`: Geode and unit), the records, phase CALIBRATED. After HIBERNATE, RUNNING follows HELLO (R381). -/
def execFirmwareSelfCalibration (fails : List (Nat × Nat)) (s : State) : Out :=
  if !s.mpRuns || s.dev.phase ≠ 1 || s.sec.galSet.length ≠ 8 then .next s
  else
    let s2 := if s.dev.fromHib then s.sendFlint 0xF3 [4] else s
    let s4 := s2.withGal fun g =>
      { g with initBusy := false, initDone := true, mem := [], poison := [], ce := [], ue := [], badTag := [], scrubEn := true, period := 8 }
    let s5 := (List.range 32).foldl (fun (s : State) g => s.startKat g ((fails.find? fun x => x.1 == g).map fun x => x.2)) s4
    let s6 := (List.range 32).foldl (fun (s : State) g => s.veinRec s4.geodes g) s5
    .next (s6.withDev fun d => { d with phase := 2 })

/-! ### The heartbeat and MP SRAM (R56, R413) -/

/-- HEARTBEAT_TICK, while the MP runs. -/
def execHeartbeatTick (s : State) : Out :=
  if (s.dev.die == .starting || s.dev.die == .serving) && !s.fcu.mpHalt && !s.sec.dbgHalt && s.pw.state == 0 then
    .next (s.withDev fun d => { d with heartbeat := (d.heartbeat + 1) % 2 ^ 32 })
  else .next s

/-- MP_SRAM_SCRUB: correctable errors (1) are corrected; no fault code names an uncorrectable one (2), which stays marked. `errs` are the
errors that have come up since the last scrub: address and kind. -/
def execMpSramScrub (errs : List (Nat × Nat)) (s : State) : Out :=
  if !s.mpRuns then .next s else .next (s.withSec fun d => { d with sramErr := (d.sramErr ++ errs).filter fun e => e.2 == 2 })

end Sys2Proof.Machine
end

