-- ==== Sys2Proof/Machine/Twin.lean ====
section
/-!
DEFINITION. The twin commands, resynchronisation, the journal, the alert wire, holds and failover, and the FCU's watches (R290, R393 to
R398, R406, R407, R411, R412).
-/
namespace Sys2Proof.Machine

/-! ### TWIN_ATTACH, TWIN_DETACH (R395, R398, R422) -/

/-- Whether this device holds a context that is not FREE. -/
def State.holdsCtx (s : State) : Bool := s.ctxs.any fun x => x.state != .free
/-- Whether a context is RUNNING. -/
def State.ctxRunning (s : State) : Bool := s.ctxs.any fun x => x.state == .running

/-- The checks of TWIN_ATTACH, in R273's order, on what the twin tells; none where the link is down or it does not answer. -/
def attachCheck (twin : Option TwinId) (s : State) : Except (Nat × List W32) TwinId := do
  need (!s.tw.attached) eState
  need (s.lifecycle ≠ 0) eState
  need s.twinLink eTwin
  match twin with
  | none => .error (eTwin, [])
  | some t =>
    need (t.role ≠ s.role ∧ (t.role = 1 ∨ t.role = 2)) eTwin
    let want := (s.dev.board.map fun b => b.twinId).getD 0
    need (want = 0 ∨ want = t.id) eTwin
    need t.sigOk eTwin
    pure t

/-- Steps 1 to 4 of R395: SIGN and the certificate go to Flint, the link keys start their counters, leadership is fixed, SOLO. -/
def State.attach (s : State) (t : TwinId) : State :=
  let (s1, key) := State.drawWords 16 s
  let s2 := (s1.sendFlint 0xF6 ([w32 8] ++ key ++ w64 t.id)).sendFlint 0xF4 t.cert
  let leads := if s.holdsCtx = t.holds then s.role == 1 else s.holdsCtx
  (s2.withTw fun x =>
    { x with
      attached := true, leader := leads, id := t.id, fw := t.fw, keyed := true, txCtr := 0, rxCtr := 0, recv := [], sent := [], missed := 0
      mine := [], theirs := [], history := [], locals := [], sync := none, twinRetired := 0, announced := false, verdict := none }).setMode .solo

/-- TWIN_ATTACH; `asked` where the twin begins it and no command waits here: this device answers in CONFIGURED or later. -/
def execTwinAttach (m tag : Nat) (asked : Bool) (twin : Option TwinId) (s : State) : Out :=
  if asked then
    match attachCheck twin s with
    | .ok t => if s.mpRuns && decide (3 ≤ s.dev.phase) then .next (s.attach t) else .next s
    | .error _ => .next s
  else s.run m tag 0x50 fun _ s => do
    let t ← attachCheck twin s
    pure (s.attach t, w64 t.id ++ [w32 t.fw, w32 t.role], [])

/-- This device detaches: comparison stops and its hold is released; a TWIN_SYNC in progress ends. -/
def State.detach (s : State) : State :=
  (((s.answerFor 0x53 eTwin []).withFcu fun f => { f with holdTx := false }).withTw fun t =>
    { t with
      attached := false, leader := false, keyed := false, recv := [], sent := [], missed := 0, mine := [], theirs := [], locals := [], history := []
      sync := none, twinRetired := 0, announced := false }).setMode .none

/-- TWIN_DETACH; `asked` where the twin detaches both. -/
def execTwinDetach (m tag : Nat) (asked : Bool) (s : State) : Out :=
  if asked then (if s.mpRuns && s.tw.attached then .next s.detach else .next s)
  else s.run m tag 0x51 fun _ s => do
    need s.tw.attached eState
    pure (s.detach, [], [])

/-! ### TWIN_MODE (R290, R396, R452) -/

/-- A mode change on this device: at the next boundary while the generator runs, else at once. -/
def State.changeMode (s : State) (m : TwinMode) : State := if s.running then s.withTw fun t => { t with modeNext := some m } else s.setMode m

/-- TWIN_MODE on the leader; `twinRuns` and `twinHolds` tell of the follower's contexts. -/
def twinMode (twinRuns twinHolds : Bool) (m : Nat) (c : Cmd) (s : State) : Begun := do
  let v := fld (c.word 0) 0 2
  let t := s.tw
  need (v ≠ 0) eParam
  need (!(t.attached && !t.leader)) eState
  need (!s.ctxRunning && !(t.attached && twinRuns)) eState
  need (!(v == 1 && t.attached && twinHolds)) eState
  need t.attached eTwin
  need (v ≠ 1 ∨ t.fw = s.dev.fwVer) eTwin
  let s1 := s.changeMode (.ofCode v)
  pure (if s.running then s1.setPhase m c 1 [] else s1.finish m c sOk [] [])

/-- TWIN_MODE; `lead` is the mode the leader orders, on the follower. -/
def execTwinMode (m tag : Nat) (twinRuns twinHolds : Bool) (lead : Option Nat) (s : State) : Out :=
  match lead with
  | some v => if s.mpRuns && s.tw.attached && !s.tw.leader && decide (1 ≤ v) && decide (v ≤ 3) then .next (s.changeMode (.ofCode v)) else .next s
  | none => s.begin m tag 0x52 fun c => twinMode twinRuns twinHolds m c

/-! ### TWIN_SYNC (R406) -/

/-- TWIN_SYNC is accepted on the leader. -/
def twinSync (twinHolds : Bool) (m : Nat) (c : Cmd) (s : State) : Begun := do
  let v := fld (c.word 0) 0 2
  let t := s.tw
  need (v = 1 ∨ v = 3) eParam
  need (!(t.attached && (!t.leader || twinHolds))) eState
  need t.attached eTwin
  pure ((s.withTw fun t => { t with sync := some { pockets := bitAt v 1, start := s.mtime } }).setPhase m c 1 [])

def execTwinSync (m tag : Nat) (twinHolds : Bool) (s : State) : Out := s.begin m tag 0x53 fun c => twinSync twinHolds m c

/-- A context as it arrives: STOPPED, with nothing of a comparison. -/
def Ctx.arrive (x : Ctx) : Ctx :=
  if x.state = .free then {}
  else { x with state := .stopped, stopping := false, halting := false, stopArmed := false, closed := [], done := [], abandoned := [], bg := [], oneSidedLast := false }

/-- A stream's set-up as it arrives, without the blocks that wait inside the leader. -/
def Stream.arrive (x : Stream) : Stream :=
  { x with
    tilesIn := [], marks := [], waiting := [], tiles := 0, blocks := 0, cnt := {}, snap := {}, snapCrc := 0, snapState := 0, sent := [], dropping := false, gone := []
    lastRead := none }

/-- A Geode takes the leader's queue set-up and LOADED slots. -/
def Geode.arrive (d l : Geode) : Geode :=
  { d with
    queues := (d.queues.zip l.queues).map fun w =>
      { w.1 with fmt := w.2.fmt, quota := w.2.quota, bind := w.2.bind, peer := w.2.peer, peerQ := w.2.peerQ, credit := w.2.credit, creditDue := 0, sent := [] }
    slots := (d.slots.zip l.slots).map fun w => if w.2.state = .loaded ∨ w.2.state = .run then { w.2 with state := .loaded, stopping := false } else w.1 }

/-- The header of an output ring with the leader's values (R249). -/
def State.ringHeader (s : State) (i : Nat) : State :=
  let x := s.stream i
  if x.state = 0 ∨ !isOut x.kind then s
  else { s with host := s.host.writeN x.ring (leBytes 4 x.wIdx ++ leBytes 4 x.rIdx ++ leBytes 4 x.entry ++ leBytes 4 x.cap ++ leBytes 4 x.wrap ++ List.replicate 44 0) }

/-- The granules of protected slabs that an engine delivers with poison: a tag that does not match, a poisoned word of it or of the granule. -/
def Gallery.badGranules (g : Gallery) : List Nat :=
  let ofWord (w : Nat) : Nat := if w % 2 ^ 17 < 0x1F000 then w / 32 else w / 2 ^ 17 * 4096 + (w % 2 ^ 17 - 0x1F000)
  ((g.badTag ++ (g.poison.filter fun w => (g.slab (w / 2 ^ 17)).state == .prot).map ofWord).filter fun j => decide (j % 4096 < 3968)).dedup
/-- The poisoned words of a Gallery as it arrives at the twin: a protected slab passes both devices' engines (R208, R209). -/
def Gallery.crossed (g : Gallery) : List Nat :=
  (g.badGranules.flatMap fun j => range' (32 * j) 32).foldl (fun l w => insNat w l) (g.poison.filter fun w => (g.slab (w / 2 ^ 17)).state != .prot)

/-- The State and Gallery phases on the follower. -/
def State.takeCopy (s : State) (c : TwinCopy) : State :=
  let s1 := { s with
    ctxs := c.ctxs.map Ctx.arrive
    streams := c.streams.map Stream.arrive
    geodes := (s.geodes.zip c.geodes).map fun w => w.1.arrive w.2
    gal := { s.gal with mem := c.mem, poison := { s.gal with poison := c.poison, badTag := c.badTag, slabs := c.slabs : Gallery }.crossed
                        ce := [], ue := [], badTag := [], slabs := c.slabs } }
  let s2 := ((c.geodes.zipIdx).filter fun w => w.1.retired).foldl (fun (s : State) w => s.retireReq w.2) s1
  (List.range 64).foldl (fun s i => s.ringHeader i) s2

/-- The leader reads every slab that is not FREE: ECC and tags are checked as on any read. -/
def State.syncRead (s : State) : State :=
  let s1 := ((List.range 512).filter fun sl => (s.gal.slab sl).state != .free).foldl (fun s sl => s.galEcc (galAt sl 0) (2 ^ 20) 0) s
  s1.gal.badGranules.foldl (fun s j => s.galError (256 * j) 2) s1

/-- Microseconds since a TWIN_SYNC was accepted. -/
def State.syncTime (s : State) (y : Sync) : Nat := (s.mtime - y.start) * 4 / 1000

/-- TWIN_SYNC_GALLERY_DONE: on the leader the response, or the wait for the boundary of the Pocket phase; on the follower (`copy`) the
contexts, streams, slots, retirements and Gallery arrive. -/
def execTwinSyncGalleryDone (copy : Option TwinCopy) (pockets : Bool) (s : State) : Out :=
  if !s.mpRuns || !s.tw.attached || !s.galOpen then .next s
  else if s.tw.leader then
    match s.tw.sync with
    | some y =>
      if y.phase ≠ 0 then .next s
      else if !y.pockets then .next ((s.syncRead.answerFor 0x53 sOk [w32 (s.syncTime y)]).withTw fun t => { t with sync := none })
      else .next (s.syncRead.withTw fun t => { t with sync := some { y with phase := if s.running then 1 else 2 } })
    | none => .next s
  else match copy with
    | some c =>
      if s.holdsCtx || c.geodes.length ≠ 32 || !(c.geodes.all Geode.tables) || c.ctxs.length ≠ 24 || c.slabs.length ≠ 512 || c.streams.length ≠ 64 || !c.mem.wf then .next s
      else
        let s1 := s.takeCopy c
        .next (if pockets then s1.withTw fun t => { t with sync := some { pockets := true, phase := if s.running then 1 else 2, start := s.mtime } } else s1)
    | none => .next s

/-- A Geode takes the leader's Pocket, queue entries and slots. -/
def Geode.takePocket (d l : Geode) : Geode := { d with pocket := l.pocket, poison := l.poison, ce := l.ce, ue := l.ue, queues := l.queues, slots := l.slots }

/-- POCKET_PHASE_DONE: no firing is in progress; the follower (`copy`) takes the Pockets, the queues, the slots and the contexts' states, and
the pair is PAIRED. -/
def execPocketPhaseDone (copy : Option TwinCopy) (s : State) : Out :=
  match s.tw.sync with
  | none => .next s
  | some y =>
    if y.phase ≠ 2 || !s.mpRuns || !s.tw.attached || s.geodes.any fun d => d.firing.isSome then .next s
    else
      let fin (s : State) : State := (s.withTw fun t => { t with sync := none }).setMode .paired
      if s.tw.leader then .next ((fin s).answerFor 0x53 sOk [w32 (s.syncTime y)])
      else match copy with
        | none => .next s
        | some c =>
          if c.geodes.length ≠ 32 || c.ctxs.length ≠ 24 || !(c.geodes.all fun d => d.pocket.wf && d.tables) then .next s
          else .next (fin { s with
            geodes := (s.geodes.zip c.geodes).map fun w => w.1.takePocket w.2
            ctxs := (s.ctxs.zip c.ctxs).map fun w => { w.1 with state := w.2.state, done := w.2.done, abandoned := w.2.abandoned } })

/-! ### The journal (R397) -/

/-- A journalled command runs on the follower with the leader's choices. -/
def State.runAs (s : State) (m : Nat) (c : Cmd) (ch : List Nat) (reads : List (Nat × Nat)) : State :=
  let go (body : State → Answer) : State := s.runBody m c body
  let start (body : State → Begun) : State := s.beginBody m c body
  match c.op with
  | 0x04 => go (if bitAt (c.word 0) 2 then setDripStart c ch else setDrip c ch)
  | 0x18 => go (if bitAt (c.word 0) 8 then slabShare c else slabAlloc c ch)
  | 0x19 => start (slabFree m c)
  | 0x1A => start (slabProtect m c)
  | 0x1B => start (startXfer m true (fun _ _ => .ok ()) c)
  | 0x1D => start (imageLoad m c)
  | 0x1F => start (indexBuild m c)
  | 0x20 => go (scrubConfig c)
  | 0x28 => go (ctxCreate c ch)
  | 0x29 => go (ctxBind c ch)
  | 0x2A => go (ctxStart c ch)
  | 0x2B => start (ctxStop m c)
  | 0x2C => start (if bitAt (c.word 0) 8 then ckptRestore m ch c else ckptSave m c)
  | 0x2D => start (ctxDestroy reads m c)
  | 0x2E => go (streamOpen c)
  | 0x2F => go (streamClose c ((getKey reads (fld (c.word 0) 0 6)).getD (s.stream (fld (c.word 0) 0 6)).rIdx))
  | _ => s

/-- The oldest journalled command of a mailbox that waits for its entry. -/
def State.waitsEntry (s : State) (m : Nat) : Option Cmd := (s.mb m).out.find? fun c => isJournalled c.op && c.phase == 0

/-- One entry meets its command: a divergence, the leader's status, or its effect. -/
def State.applyEntry (s : State) (e : Journal) (c : Cmd) (reads : List (Nat × Nat)) : State :=
  if e.op ≠ c.op ∨ e.crc ≠ crc32c (wordsBytes c.words) then (s.respond e.mbox c eTwin []).addRec 0x0307 0xFF 0xFF 0xFF 0xFF 0 [w32 e.mbox, w32 c.op]
  else if e.status ≠ sOk then s.respond e.mbox c e.status []
  else s.runAs e.mbox c e.choices reads

/-- Apply entries in the leader's order, as far as their commands are there and may start; the first argument counts entries. -/
def State.pumpJournal : Nat → State → List (Nat × Nat) → State
  | 0, s, _ => s
  | k + 1, s, reads => match s.tw.journalIn.find? fun e => e.seq == s.tw.applied + 1 with
    | none => s
    | some e =>
      let s1 := s.withTw fun t => { t with journalIn := t.journalIn.erase e, applied := e.seq }
      if s.tw.gone.contains e.mbox then State.pumpJournal k (s1.withTw fun t => { t with gone := t.gone.erase e.mbox }) reads
      else match s.waitsEntry e.mbox with
        | none => s
        | some c => if s.mayStart e.mbox c then State.pumpJournal k (s1.applyEntry e c reads) reads else s

/-- JOURNAL_ENTRY: on the follower an entry arrives, or arrives again for a command that came after it; on the leader, the follower's
report of a divergence. -/
def execJournalEntry (m seq op : Nat) (crc : W32) (status : Nat) (choices : List Nat) (reads : List (Nat × Nat)) (s : State) : Out :=
  if s.tw.mode ≠ .paired || !s.mpRuns || !s.twinLink then .next s
  else if s.tw.leader then .next (s.addRec 0x0307 0xFF 0xFF 0xFF 0xFF 0 [w32 m, w32 op])
  else
    let s1 := if decide (seq ≤ s.tw.applied) || s.tw.journalIn.any fun e => e.seq == seq then s
      else s.withTw fun t => { t with journalIn := t.journalIn ++ [⟨seq, m, op, crc, status, choices⟩] }
    .next (State.pumpJournal s1.tw.journalIn.length s1 reads)

/-- JOURNAL_TIMEOUT: no entry for the command after 10 ms; the entry that comes later belongs to it. -/
def execJournalTimeout (m tag : Nat) (s : State) : Out :=
  match s.waitsEntry m with
  | none => .next s
  | some c =>
    if c.tag ≠ tag || !s.follows || !s.mpRuns || s.tw.journalIn.any fun e => e.mbox == m then .next s
    else .next ((s.respond m c eTwin []).withTw fun t => { t with gone := t.gone ++ [m] })

/-! ### Alert frames, holds, failover (R393, R394, R411, R412) -/

/-- Whether the alert receiver runs: with QTZ, and through the reset of a hold (R20, R394). -/
def State.alertsOn (s : State) : Bool := s.qtzRuns || s.fcu.held

/-- ALERT_FRAME: a frame that fails the sync byte or the complement is ignored. -/
def execAlertFrame (w : Nat) (s : State) : Out :=
  let c := fld w 0 4
  if fld w 8 8 ≠ 0xA5 ∨ fld w 4 4 ≠ 15 - c ∨ !s.alertsOn then .next s
  else .next (s.withFcu fun f => { f with runCause := c, runLen := if f.runCause = c then min 8 (f.runLen + 1) else 1 })

/-- The compute die is held in reset by the twin. -/
def State.holdDie (s : State) : State := (s.withFcu fun f => { f with held := true, faultN := true }).computeReset

/-- ALERT_CAUSE_APPLIED. -/
def execAlertCauseApplied (s : State) : Out :=
  let f := s.fcu
  if f.runLen < 8 ∨ f.runCause = f.rx then .next s
  else
    let s1 := s.withFcu fun f => { f with rx := f.runCause }
    if s1.fcu.rx = 4 then .next s1.holdDie
    else if s.dev.die = .inReset then .next s1
    else
      let s2 := if s1.fcu.rx = 2 ∨ s1.fcu.rx = 3 then s1.withFcu fun f => { f with twinSignal := true } else s1
      .next s2.tellTwin

/-- ALERT_ABSENT: no valid frame for 20 µs; a record unless the twin announced a power entry. -/
def execAlertAbsent (s : State) : Out :=
  if s.fcu.rx = 0 then .next s
  else
    let s1 := s.withFcu fun f => { f with rx := 0, runCause := 0, runLen := 0 }
    if s.dev.die ≠ .serving then .next s1
    else .next (if s.tw.announced then s1.tellTwin else (s1.addRec 0x0404 0xFF 0xFF 0xFF 0xFF 0 []).tellTwin)

/-- TWIN_FAILOVER: the survivor holds its twin, records it, leads, and enters SOLO at the next boundary. -/
def execTwinFailover (s : State) : Out :=
  if !s.mpRuns || !s.mayHold || s.fcu.holdTx then .next s
  else
    let s1 := (s.withFcu fun f => { f with holdTx := true }).addRec 0x0401 0xFF 0xFF 0xFF 0xFF 0 [w32 s.fcu.rx]
    let s2 := (s1.addRec 0x0402 0xFF 0xFF 0xFF 0xFF 0 []).withTw fun t => { t with leader := true, soloNext := true }
    .next (if s.running then s2.tellTwin else s2.setMode .solo)

/-- HOLD_END: the die may start, and FAULT_N follows FAULT_STATUS again. -/
def execHoldEnd (s : State) : Out :=
  if !s.fcu.held || s.fcu.rx == 4 then .next s
  else .next (s.withFcu fun f => { f with held := false, faultN := false })

/-! ### The FCU's watches (R407 to R409) -/

/-- MP_HALT: `FAULT_STATUS`, FAULT_N and a record of its cause. -/
def State.haltMp (s : State) (detail : Nat) : State :=
  if s.fcu.mpHalt then s else (s.withFcu fun f => { f with mpHalt := true, faultN := true }).addFcuRec 0x0501 0xFF [w32 detail]

/-- HEARTBEAT_MISS, watched from the end of a reset in ACTIVE, 1 ms after an exit (R368), but not while a debugger halts the MP (R431). -/
def execHeartbeatMiss (s : State) : Out :=
  if (s.dev.die != .starting && s.dev.die != .serving) || s.pw.state ≠ 0 || s.sec.dbgHalt || decide (0 < s.fcu.quiet.getD 5 0) then .next s else .next (s.haltMp 2)

/-- MP_LOCKSTEP_DIVERGE. -/
def execMpLockstepDiverge (s : State) : Out :=
  if (s.dev.die != .starting && s.dev.die != .serving) || s.pw.state ≠ 0 then .next s else .next (s.haltMp 1)

/-- The count a monitor window of 10.24 µs expects of a domain at its operating point. -/
def State.expectClk (s : State) (domain : Nat) : Nat :=
  let p (k : Nat) : Nat := s.pw.points.getD k 0
  match domain with
  | 0 => 2560
  | 1 => [1920, 3840, 5760, 7680].getD (p 0) 7680
  | 2 => [2560, 5120, 7680, 10240].getD (p 1) 10240
  | 3 => [5120, 10240, 15360, 20480].getD (p 2) 20480
  | _ => 10240

/-- Whether a domain is not watched now: a gated clock, an operating-point change, the trip, or an exemption. -/
def State.unwatched (s : State) (domain : Nat) : Bool :=
  (domain != 0 && s.pw.state != 0) || (s.pw.dvfs.any fun x => x.2.2 && x.1 + 1 == domain) || (domain == 1 && s.fcu.trip) || decide (0 < s.fcu.quiet.getD domain 0)

/-- One window of the monitor oscillator: `count` cycles of a domain; a count back within 12.5 % ends the condition that FAULT_CLEAR looks at. -/
def State.clockWindow (s' : State) (domain count : Nat) : Out :=
  let s := if domain = 0 then s'.withFcu fun f => { f with quiet := upd f.quiet 5 fun n => n - 1 } else s'
  if s.dev.die == .inReset || decide (3 ≤ s.pw.state) || 4 < domain then .next s
  else if s.unwatched domain then .next (s.withFcu fun f => { f with quiet := upd f.quiet domain fun n => n - 1 })
  else
    let e := s.expectClk domain
    let out := decide (e < 8 * (count - e + (e - count)))
    if !out then .next (s.withFcu fun f => { f with failed := clearBit f.failed domain })
    else if bitAt s.fcu.failed domain then .next s
    else .next (s.clockFault domain count)

/-- CLOCK_MONITOR_WINDOW: `ref` says whether REFCLK25 runs; without it no cycle of the domain is counted (R23). -/
def execClockMonitorWindow (domain count : Nat) (ref : Bool) (s : State) : Out :=
  (s.withDev fun d => { d with refclk := ref }).clockWindow domain (if ref then count else 0)

end Sys2Proof.Machine
end

