-- ==== Sys2Proof/Machine/Faults.lean ====
section
/-!
DEFINITION. The fault commands and injected faults (R291, R405, R408, R414 to R416).
-/
namespace Sys2Proof.Machine

/-! ### FAULT_READ, FAULT_CLEAR (R278, R291, R408, R416) -/

/-- FAULT_READ: the FCU store first, then the MP's, oldest first; they leave the stores. -/
def faultRead (c : Cmd) (s : State) : Answer := do
  let k := fld (c.word 0) 0 2
  need (1 ≤ k) eParam
  let all := s.fcuRecs ++ s.mpRecs
  let out := all.take k
  let n := s.fcuRecs.length
  let s1 := { s with
    fcuRecs := s.fcuRecs.drop k, mpRecs := s.mpRecs.drop (k - n)
    recLost := if out.any fun r => r.code == 1 then 0 else s.recLost }
  pure (s1, w32 (out.length + min 255 (all.length - out.length) * 2 ^ 8) :: out.flatMap FRec.words, [])

def execFaultRead (m tag : Nat) (s : State) : Out := s.run m tag 0x54 faultRead

/-- Whether the condition of a cause of `FAULT_STATUS` still holds (R408). -/
def State.causeHolds (s : State) (b : Nat) : Bool :=
  match b with
  | 1 => s.fcu.mpHalt
  | 2 => s.fcu.failed != 0 || s.fcu.trip
  | 3 => s.fcu.rx == 2 || s.fcu.rx == 3
  | 4 => !s.tw.locals.isEmpty
  | _ => false

/-- FAULT_CLEAR: all the causes named, or none. -/
def faultClear (c : Cmd) (s : State) : Answer := do
  let v := c.word 0
  need (!([1, 2, 3, 4].any fun b => bitAt v b && s.causeHolds b)) eState
  let s1 := s.withFcu fun f => { f with clock := f.clock && !bitAt v 2, twinSignal := f.twinSignal && !bitAt v 3, result := f.result && !bitAt v 4 }
  pure (s1, [w32 s1.faultStatus], [])

def execFaultClear (m tag : Nat) (s : State) : Out := s.run m tag 0x55 faultClear

/-! ### FAULT_INJECT (R291, R405, R415) -/

/-- The codes of a Geode, and of a Gallery channel. -/
def geodeCode (c : Nat) : Bool := [0x0101, 0x0102, 0x0103, 0x0104, 0x0105, 0x0106, 0x0108, 0x0109].contains c
def channelCode (c : Nat) : Bool := [0x0201, 0x0202, 0x0203].contains c
/-- The injectable codes of R415. -/
def injectable (c : Nat) : Bool := geodeCode c || channelCode c || [0x0204, 0x0301, 0x0306, 0x0403, 0x0404, 0x0501, 0x0502].contains c
/-- The targets a code has; one that names no Geode, channel or domain takes any (log entry 32). -/
def targetOk (c t : Nat) : Bool := if geodeCode c || channelCode c then decide (t < 32) else if c = 0x0502 then decide (t < 5) else if c = 0x0301 then decide (t < 24) else true

/-- FAULT_INJECT. -/
def faultInject (c : Cmd) (s : State) : Answer := do
  let code := fld (c.word 0) 0 16
  let t := fld (c.word 1) 0 8
  need (injectable code) eParam
  need (targetOk code t) eParam
  need (!(geodeCode code && s.retiredG t)) eState
  pure (s.withDev fun d => { d with injected := d.injected ++ [(code, t, fld (c.word 2) 0 8)] }, [], [])

def execFaultInject (m tag : Nat) (s : State) : Out := s.run m tag 0x56 faultInject

/-! ### INJECTED_FAULT (R82, R87, R90, R102, R105, R200, R209, R308, R402, R415) -/

/-- The oldest entry of a queue comes with poison in its bytes. -/
def Queue.spoil (w : Queue) : Queue := match w.entries with
  | [] => w
  | e :: t => { w with entries := { e with poison := true, bad := true } :: t }

/-- A queue error of a code with its bit of `GD_FAULT`. -/
def State.upsetQueue (s : State) (code g q b : Nat) : State :=
  ((s.withQueue g q Queue.spoil).geodeFault g b).addRec code 0xFF g q 0xFF 0 []

/-- An injected fault of a Geode; `v` is an open value that says where in the Geode it strikes (log entry 32). -/
def State.injectGeode (s : State) (code g v : Nat) : State :=
  match code with
  | 0x0101 => s.faultyVeins g 1
  | 0x0102 => s.faultyVeins g (if (s.geode g).veinCount 0 = 0 then 2 else 1)
  | 0x0103 =>
    let w := v % 262144
    ((s.withGeode g fun d => { d with poison := insNat w d.poison }).geodeFault g 0x08).addRec 0x0103 0xFF g 0xFF 0xFF 0 [w32 (8 * w)]
  | 0x0104 => s.upsetQueue 0x0104 g (v % 24) 0x10
  | 0x0105 => s.withSlot g (v % 4) fun sl => { sl with progUe := insNat (v / 4 % max 1 sl.prog.length) sl.progUe }
  | 0x0106 => s.upsetQueue 0x0106 g (v % 16) 0x40
  | 0x0108 =>
    let queue := v % 3 ≠ 0 && bitAt v 2
    s.calError g (v % 3) queue (if queue then fld v 3 4 else fld v 3 5) (1 + fld v 8 8 % 6) (if queue then fld v 16 6 else fld v 16 32)
  | 0x0109 => s.withGeode g fun d => { d with kat := { d.kat with latent := some (v % 5) } }
  | _ => s

/-- An injected fault acts. -/
def State.inject (s : State) (code t : Nat) : State :=
  let (s0, v) := s.draw
  let p := linePlace t (v % 131072) + v / 131072 % 16 * 8
  match code with
  | 0x0201 => (s0.withGal fun g => { g with ue := insNat (p / 8) g.ue }).galEcc p 8 0
  | 0x0202 => (s0.withGal fun g => { g with ue := insNat (p / 8) g.ue }).galEcc p 8 1
  | 0x0203 => (s0.withGal fun g => { g with badTag := insNat (p / 256) g.badTag }).galError (p / 256 * 256) 2
  | 0x0204 => s0.shelfUe (false, v % 2 ^ 29)
  | 0x0301 =>
    let (s1, ws) := State.drawWords 2 s0
    if s.tw.mode = .paired ∧ t < 24 then s1.mismatch 0x0301 t (s.drip.count % 2 ^ 32) ws else s1.addRec 0x0301 (t % 24) 0xFF 0xFF 0xFF (s.drip.count % 2 ^ 32) ws
  | 0x0306 => s0.addRec 0x0306 0xFF 0xFF 0xFF 0xFF (s.drip.count % 2 ^ 32) (w64 ((s.dev.board.map fun b => b.timeBound).getD 0 + 1 + v % 1000000000))
  | 0x0403 => if s.tw.attached then (s0.withTw fun x => { x with missed := max 2 x.missed }).linkDown else s0.addRec 0x0403 0xFF 0xFF 0xFF 0xFF 0 []
  | 0x0404 => s0.addRec 0x0404 0xFF 0xFF 0xFF 0xFF 0 []
  | 0x0501 => s0.haltMp (1 + v % 2)
  | 0x0502 => s0.clockFault t (v % 2 ^ 32)
  | c => s0.injectGeode c t v

/-- INJECTED_FAULT: the oldest one whose drips have passed. -/
def execInjectedFault (s : State) : Out :=
  match s.dev.injected.find? fun x => x.2.2 == 0 with
  | none => .next s
  | some x =>
    if s.dev.die != .serving || s.pw.state ≠ 0 then .next s
    else .next ((s.withDev fun d => { d with injected := d.injected.erase x }).inject x.1 x.2.1)

end Sys2Proof.Machine
end

