-- ==== Sys2Proof/Machine/Dispatch.lean ====
section
/-!
DEFINITION. One arm per command: each calls the command's own meaning.
-/
namespace Sys2Proof.Machine

def exec (i : Instr) (s : State) : Host.Outcome State Fault Refusal :=
  match i with
  | .mbxCmdDataWrite m w bad => Sys2Proof.Machine.execMbxCmdDataWrite m w bad s
  | .mbxRspDataRead m upset => Sys2Proof.Machine.execMbxRspDataRead m upset s
  | .cmdFlush m => Sys2Proof.Machine.execCmdFlush m s
  | .rspFlush m => Sys2Proof.Machine.execRspFlush m s
  | .cmdHeldClear m => Sys2Proof.Machine.execCmdHeldClear m s
  | .faultCtrlRelease => Sys2Proof.Machine.execFaultCtrlRelease s
  | .windowAccessRejected read off width v => Sys2Proof.Machine.execWindowAccessRejected read off width v s
  | .registerWrite who r v => Sys2Proof.Machine.execRegisterWrite who r v s
  | .clearingRead who r => Sys2Proof.Machine.execClearingRead who r s
  | .mpAcceptCommand => Sys2Proof.Machine.execMpAcceptCommand s
  | .cmdPayloadTimeout m => Sys2Proof.Machine.execCmdPayloadTimeout m s
  | .heldMessageWrite m => Sys2Proof.Machine.execHeldMessageWrite m s
  | .flintResponseRelay m tag => Sys2Proof.Machine.execFlintResponseRelay m tag s
  | .metrologyTimeout m tag => Sys2Proof.Machine.execMetrologyTimeout m tag s
  | .identify m tag => Sys2Proof.Machine.execIdentify m tag s
  | .boardRecord m tag data failed sigOk => Sys2Proof.Machine.execBoardRecord m tag data failed sigOk s
  | .getStatus m tag => Sys2Proof.Machine.execGetStatus m tag s
  | .setDripStart m tag => Sys2Proof.Machine.execSetDripStart m tag s
  | .setDrip m tag => Sys2Proof.Machine.execSetDrip m tag s
  | .timeSet m tag => Sys2Proof.Machine.execTimeSet m tag s
  | .timeAdjust m tag => Sys2Proof.Machine.execTimeAdjust m tag s
  | .timeRead m tag => Sys2Proof.Machine.execTimeRead m tag s
  | .ppsConfig m tag => Sys2Proof.Machine.execPpsConfig m tag s
  | .slabAlloc m tag => Sys2Proof.Machine.execSlabAlloc m tag s
  | .slabAllocShare m tag => Sys2Proof.Machine.execSlabAllocShare m tag s
  | .slabFree m tag => Sys2Proof.Machine.execSlabFree m tag s
  | .slabZeroed sl => Sys2Proof.Machine.execSlabZeroed sl s
  | .slabProtect m tag => Sys2Proof.Machine.execSlabProtect m tag s
  | .dmaIn m tag => Sys2Proof.Machine.execDmaIn m tag s
  | .dmaOut m tag => Sys2Proof.Machine.execDmaOut m tag s
  | .dmaTransferDone m tag data failed => Sys2Proof.Machine.execDmaTransferDone m tag data failed s
  | .imageLoad m tag => Sys2Proof.Machine.execImageLoad m tag s
  | .imageVerify m tag => Sys2Proof.Machine.execImageVerify m tag s
  | .indexBuild m tag => Sys2Proof.Machine.execIndexBuild m tag s
  | .scrubConfig m tag => Sys2Proof.Machine.execScrubConfig m tag s
  | .ctxCreate m tag => Sys2Proof.Machine.execCtxCreate m tag s
  | .ctxBind m tag => Sys2Proof.Machine.execCtxBind m tag s
  | .ctxStart m tag => Sys2Proof.Machine.execCtxStart m tag s
  | .ctxStop m tag => Sys2Proof.Machine.execCtxStop m tag s
  | .ctxStopComplete ctx => Sys2Proof.Machine.execCtxStopComplete ctx s
  | .ctxCheckpointSave m tag => Sys2Proof.Machine.execCtxCheckpointSave m tag s
  | .ctxCheckpointRestore m tag => Sys2Proof.Machine.execCtxCheckpointRestore m tag s
  | .ctxDestroy m tag reads => Sys2Proof.Machine.execCtxDestroy m tag reads s
  | .streamOpen m tag => Sys2Proof.Machine.execStreamOpen m tag s
  | .streamClose m tag r => Sys2Proof.Machine.execStreamClose m tag r s
  | .streamStat m tag => Sys2Proof.Machine.execStreamStat m tag s
  | .metRead m tag => Sys2Proof.Machine.execMetRead m tag s
  | .metParamSet m tag => Sys2Proof.Machine.execMetParamSet m tag s
  | .tare m tag => Sys2Proof.Machine.execTare m tag s
  | .zero m tag => Sys2Proof.Machine.execZero m tag s
  | .keyGeneration m tag => Sys2Proof.Machine.execKeyGeneration m tag s
  | .metCalStart m tag => Sys2Proof.Machine.execMetCalStart m tag s
  | .metCalCapture m tag => Sys2Proof.Machine.execMetCalCapture m tag s
  | .metCalCommit m tag volts => Sys2Proof.Machine.execMetCalCommit m tag volts s
  | .metCalAbort m tag => Sys2Proof.Machine.execMetCalAbort m tag s
  | .metLogRead m tag => Sys2Proof.Machine.execMetLogRead m tag s
  | .metLogAck m tag => Sys2Proof.Machine.execMetLogAck m tag s
  | .lanModelLoad m tag data failed => Sys2Proof.Machine.execLanModelLoad m tag data failed s
  | .lanRules m tag => Sys2Proof.Machine.execLanRules m tag s
  | .pwrRequest m tag => Sys2Proof.Machine.execPwrRequest m tag s
  | .pwrStatus m tag => Sys2Proof.Machine.execPwrStatus m tag s
  | .padRelease m tag => Sys2Proof.Machine.execPadRelease m tag s
  | .dvfsSet m tag => Sys2Proof.Machine.execDvfsSet m tag s
  | .dvfsChangeStart lead => Sys2Proof.Machine.execDvfsChangeStart lead s
  | .dvfsChangeDone => Sys2Proof.Machine.execDvfsChangeDone s
  | .twinAttach m tag asked twin => Sys2Proof.Machine.execTwinAttach m tag asked twin s
  | .twinDetach m tag asked => Sys2Proof.Machine.execTwinDetach m tag asked s
  | .twinMode m tag twinRuns twinHolds lead => Sys2Proof.Machine.execTwinMode m tag twinRuns twinHolds lead s
  | .twinSync m tag twinHolds => Sys2Proof.Machine.execTwinSync m tag twinHolds s
  | .twinSyncGalleryDone copy pockets => Sys2Proof.Machine.execTwinSyncGalleryDone copy pockets s
  | .faultRead m tag => Sys2Proof.Machine.execFaultRead m tag s
  | .faultClear m tag => Sys2Proof.Machine.execFaultClear m tag s
  | .faultInject m tag => Sys2Proof.Machine.execFaultInject m tag s
  | .injectedFault => Sys2Proof.Machine.execInjectedFault s
  | .lifecycleAdvance m tag data failed => Sys2Proof.Machine.execLifecycleAdvance m tag data failed s
  | .debugChallenge m tag => Sys2Proof.Machine.execDebugChallenge m tag s
  | .debugUnlock m tag => Sys2Proof.Machine.execDebugUnlock m tag s
  | .fwUpdateMp m tag data failed sigOk => Sys2Proof.Machine.execFwUpdateMp m tag data failed sigOk s
  | .fwUpdateFlint m tag data failed => Sys2Proof.Machine.execFwUpdateFlint m tag data failed s
  | .journalEntry m sq op crc status choices reads => Sys2Proof.Machine.execJournalEntry m sq op crc status choices reads s
  | .journalTimeout m tag => Sys2Proof.Machine.execJournalTimeout m tag s
  | .dripBoundary reads kats retired => Sys2Proof.Machine.execDripBoundary reads kats retired s
  | .dropStart => Sys2Proof.Machine.execDropStart s
  | .boundaryWork => Sys2Proof.Machine.execBoundaryWork s
  | .exchangePacketReceive raw named => Sys2Proof.Machine.execExchangePacketReceive raw named s
  | .exchangeTimeout => Sys2Proof.Machine.execExchangeTimeout s
  | .twinPacketAuthFail => Sys2Proof.Machine.execTwinPacketAuthFail s
  | .qtzStepWrite req v => Sys2Proof.Machine.execQtzStepWrite req v s
  | .qtzNowFracRead req => Sys2Proof.Machine.execQtzNowFracRead req s
  | .dripCountLoRead req => Sys2Proof.Machine.execDripCountLoRead req s
  | .qtzStatusRead req => Sys2Proof.Machine.execQtzStatusRead req s
  | .ppsInEdge phase => Sys2Proof.Machine.execPpsInEdge phase s
  | .ppsOutEdge => Sys2Proof.Machine.execPpsOutEdge s
  | .timeServoSecond => Sys2Proof.Machine.execTimeServoSecond s
  | .timing body ctr tag rtc => Sys2Proof.Machine.execTiming body ctr tag rtc s
  | .timingHoldover => Sys2Proof.Machine.execTimingHoldover s
  | .flintDropSample codes volts reads skip => Sys2Proof.Machine.execFlintDropSample codes volts reads skip s
  | .weightRecordDecision => Sys2Proof.Machine.execWeightRecordDecision s
  | .weightRecordSigned => Sys2Proof.Machine.execWeightRecordSigned s
  | .hello => Sys2Proof.Machine.execHello s
  | .modeMsg body ctr tag => Sys2Proof.Machine.execModeMsg body ctr tag s
  | .pairCertificate body ctr tag certOk => Sys2Proof.Machine.execPairCertificate body ctr tag certOk s
  | .pairTwinCmp body ctr tag => Sys2Proof.Machine.execPairTwinCmp body ctr tag s
  | .firmware body ctr tag sigOk => Sys2Proof.Machine.execFirmware body ctr tag sigOk s
  | .lanternChunk body ctr tag => Sys2Proof.Machine.execLanternChunk body ctr tag s
  | .lanternCommit body ctr tag => Sys2Proof.Machine.execLanternCommit body ctr tag s
  | .lanternRules body ctr tag => Sys2Proof.Machine.execLanternRules body ctr tag s
  | .lanternReport body ctr tag => Sys2Proof.Machine.execLanternReport body ctr tag s
  | .lanternBoard body ctr tag sigOk => Sys2Proof.Machine.execLanternBoard body ctr tag sigOk s
  | .powerEnter body ctr tag rtc => Sys2Proof.Machine.execPowerEnter body ctr tag rtc s
  | .powerCommit body ctr tag => Sys2Proof.Machine.execPowerCommit body ctr tag s
  | .powerAbort body ctr tag => Sys2Proof.Machine.execPowerAbort body ctr tag s
  | .powerRunning body ctr tag rtc => Sys2Proof.Machine.execPowerRunning body ctr tag rtc s
  | .debugMsgState => Sys2Proof.Machine.execDebugMsgState s
  | .debugMsgChallenge body rtc => Sys2Proof.Machine.execDebugMsgChallenge body rtc s
  | .debugMsgUnlock body sigOk rtc => Sys2Proof.Machine.execDebugMsgUnlock body sigOk rtc s
  | .debugMsgEnd body ctr tag => Sys2Proof.Machine.execDebugMsgEnd body ctr tag s
  | .debugMsgChunk body => Sys2Proof.Machine.execDebugMsgChunk body s
  | .debugMsgAdvance body sigOk certOk => Sys2Proof.Machine.execDebugMsgAdvance body sigOk certOk s
  | .debugMsgFloor body sigOk => Sys2Proof.Machine.execDebugMsgFloor body sigOk s
  | .debugMsgSign body ctr tag => Sys2Proof.Machine.execDebugMsgSign body ctr tag s
  | .sampleFrame raw upset => Sys2Proof.Machine.execSampleFrame raw upset s
  | .lanternEvent raw upset => Sys2Proof.Machine.execLanternEvent raw upset s
  | .mailboxResponse raw => Sys2Proof.Machine.execMailboxResponse raw s
  | .recordFrame raw => Sys2Proof.Machine.execRecordFrame raw s
  | .rtcLatch raw => Sys2Proof.Machine.execRtcLatch raw s
  | .conduitCopy kind source sq lost ts payload poison => Sys2Proof.Machine.execConduitCopy kind source sq lost ts payload poison s
  | .twinLate source ts => Sys2Proof.Machine.execTwinLate source ts s
  | .cameraTile camera depth chroma mode count bytes blocks => Sys2Proof.Machine.execCameraTile camera depth chroma mode count bytes blocks s
  | .ingestBlockDeliver strm upset => Sys2Proof.Machine.execIngestBlockDeliver strm upset s
  | .ringEntryWrite strm => Sys2Proof.Machine.execRingEntryWrite strm s
  | .ringWriteIndexUpdate strm => Sys2Proof.Machine.execRingWriteIndexUpdate strm s
  | .ringReadIndexRead strm r => Sys2Proof.Machine.execRingReadIndexRead strm r s
  | .hostLinkReject strm => Sys2Proof.Machine.execHostLinkReject strm s
  | .firingStart g slot => Sys2Proof.Machine.execFiringStart g slot s
  | .markerHandling g slot q => Sys2Proof.Machine.execMarkerHandling g slot q s
  | .blockArrival g q parity => Sys2Proof.Machine.execBlockArrival g q parity s
  | .creditReturn g q => Sys2Proof.Machine.execCreditReturn g q s
  | .firingLimit g => Sys2Proof.Machine.execFiringLimit g s
  | .programFaultHandling g slot => Sys2Proof.Machine.execProgramFaultHandling g slot s
  | .veinRepairDone g => Sys2Proof.Machine.execVeinRepairDone g s
  | .nop g t => Sys2Proof.Machine.execNop g t s
  | .yieldI g t => Sys2Proof.Machine.execYieldI g t s
  | .commit g t => Sys2Proof.Machine.execCommit g t s
  | .seti g t => Sys2Proof.Machine.execSeti g t s
  | .addi g t => Sys2Proof.Machine.execAddi g t s
  | .add g t => Sys2Proof.Machine.execAdd g t s
  | .sub g t => Sys2Proof.Machine.execSub g t s
  | .muli g t => Sys2Proof.Machine.execMuli g t s
  | .alui g t => Sys2Proof.Machine.execAlui g t s
  | .rdspec g t => Sys2Proof.Machine.execRdspec g t s
  | .loopI g t => Sys2Proof.Machine.execLoopI g t s
  | .br g t => Sys2Proof.Machine.execBr g t s
  | .bcmp g t => Sys2Proof.Machine.execBcmp g t s
  | .aset g t => Sys2Proof.Machine.execAset g t s
  | .tset g t => Sys2Proof.Machine.execTset g t s
  | .sld g t => Sys2Proof.Machine.execSld g t s
  | .matmul g t vein => Sys2Proof.Machine.execMatmul g t vein s
  | .matmulT g t vein => Sys2Proof.Machine.execMatmulT g t vein s
  | .vld g t => Sys2Proof.Machine.execVld g t s
  | .vst g t => Sys2Proof.Machine.execVst g t s
  | .vop g t => Sys2Proof.Machine.execVop g t s
  | .vopi g t => Sys2Proof.Machine.execVopi g t s
  | .vfma g t => Sys2Proof.Machine.execVfma g t s
  | .vun g t => Sys2Proof.Machine.execVun g t s
  | .vexpsub g t => Sys2Proof.Machine.execVexpsub g t s
  | .vred g t => Sys2Proof.Machine.execVred g t s
  | .vbcast g t => Sys2Proof.Machine.execVbcast g t s
  | .vsel g t => Sys2Proof.Machine.execVsel g t s
  | .vmoments g t => Sys2Proof.Machine.execVmoments g t s
  | .vadamw g t => Sys2Proof.Machine.execVadamw g t s
  | .vcvt g t => Sys2Proof.Machine.execVcvt g t s
  | .moveI g t => Sys2Proof.Machine.execMoveI g t s
  | .moveZero g t => Sys2Proof.Machine.execMoveZero g t s
  | .moveGalleryWriteDone g slot k => Sys2Proof.Machine.execMoveGalleryWriteDone g slot k s
  | .qpop g t => Sys2Proof.Machine.execQpop g t s
  | .qpush g t => Sys2Proof.Machine.execQpush g t s
  | .qskip g t => Sys2Proof.Machine.execQskip g t s
  | .qfwd g t => Sys2Proof.Machine.execQfwd g t s
  | .scaleGet g t => Sys2Proof.Machine.execScaleGet g t s
  | .scaleSet g t => Sys2Proof.Machine.execScaleSet g t s
  | .scaleObserve g t => Sys2Proof.Machine.execScaleObserve g t s
  | .scaleHold g t => Sys2Proof.Machine.execScaleHold g t s
  | .sigFold g t => Sys2Proof.Machine.execSigFold g t s
  | .sigRead g t => Sys2Proof.Machine.execSigRead g t s
  | .slotStateWrite g slot v => Sys2Proof.Machine.execSlotStateWrite g slot v s
  | .queueDiscard g q => Sys2Proof.Machine.execQueueDiscard g q s
  | .katStart g => Sys2Proof.Machine.execKatStart g s
  | .katDone g unit => Sys2Proof.Machine.execKatDone g unit s
  | .geodeRetire g => Sys2Proof.Machine.execGeodeRetire g s
  | .pocketScrub g err word => Sys2Proof.Machine.execPocketScrub g err word s
  | .galleryInit => Sys2Proof.Machine.execGalleryInit s
  | .galleryInitDone => Sys2Proof.Machine.execGalleryInitDone s
  | .patrolScrub ch err word => Sys2Proof.Machine.execPatrolScrub ch err word s
  | .coreLoad req addr n err ext => Sys2Proof.Machine.execCoreLoad req addr n err ext s
  | .coreStore req addr data ext => Sys2Proof.Machine.execCoreStore req addr data ext s
  | .coreAmo req addr n op v ext => Sys2Proof.Machine.execCoreAmo req addr n op v ext s
  | .fence req => Sys2Proof.Machine.execFence req s
  | .cboClean req addr => Sys2Proof.Machine.execCboClean req addr s
  | .cboFlush req addr => Sys2Proof.Machine.execCboFlush req addr s
  | .cboInval req addr => Sys2Proof.Machine.execCboInval req addr s
  | .cboZero req addr => Sys2Proof.Machine.execCboZero req addr s
  | .shelfMissFill k ext => Sys2Proof.Machine.execShelfMissFill k ext s
  | .evictionWritebackDone k issue ext => Sys2Proof.Machine.execEvictionWritebackDone k issue ext s
  | .shelfDisable => Sys2Proof.Machine.execShelfDisable s
  | .shelfEnable => Sys2Proof.Machine.execShelfEnable s
  | .shelfDrainDone => Sys2Proof.Machine.execShelfDrainDone s
  | .cicIpi req v => Sys2Proof.Machine.execCicIpi req v s
  | .doorbell h v => Sys2Proof.Machine.execDoorbell h v s
  | .machineTimer h => Sys2Proof.Machine.execMachineTimer h s
  | .powerHandshakeStart busy => Sys2Proof.Machine.execPowerHandshakeStart busy s
  | .blockAnswer busy twin => Sys2Proof.Machine.execBlockAnswer busy twin s
  | .blockDelayTimeout busy => Sys2Proof.Machine.execBlockDelayTimeout busy s
  | .entryCommit => Sys2Proof.Machine.execEntryCommit s
  | .hibernateEntry => Sys2Proof.Machine.execHibernateEntry s
  | .sbSync => Sys2Proof.Machine.execSbSync s
  | .wake src => Sys2Proof.Machine.execWake src s
  | .wakePin pin level => Sys2Proof.Machine.execWakePin pin level s
  | .hostAccessWake => Sys2Proof.Machine.execHostAccessWake s
  | .tckWake => Sys2Proof.Machine.execTckWake s
  | .sbWake level => Sys2Proof.Machine.execSbWake level s
  | .exitRoostTorpor reads => Sys2Proof.Machine.execExitRoostTorpor reads s
  | .hibernateExit => Sys2Proof.Machine.execHibernateExit s
  | .rtcWake codes volts reads => Sys2Proof.Machine.execRtcWake codes volts reads s
  | .powerSample p temps => Sys2Proof.Machine.execPowerSample p temps s
  | .throttle twin => Sys2Proof.Machine.execThrottle twin s
  | .thermalLimit sensor temp => Sys2Proof.Machine.execThermalLimit sensor temp s
  | .thermalTrip sensor temp => Sys2Proof.Machine.execThermalTrip sensor temp s
  | .brownout => Sys2Proof.Machine.execBrownout s
  | .flintReset => Sys2Proof.Machine.execFlintReset s
  | .calEnNAsserted => Sys2Proof.Machine.execCalEnNAsserted s
  | .calEnNDeasserted => Sys2Proof.Machine.execCalEnNDeasserted s
  | .heartbeatTick => Sys2Proof.Machine.execHeartbeatTick s
  | .heartbeatMiss => Sys2Proof.Machine.execHeartbeatMiss s
  | .mpLockstepDiverge => Sys2Proof.Machine.execMpLockstepDiverge s
  | .clockMonitorWindow domain count ref => Sys2Proof.Machine.execClockMonitorWindow domain count ref s
  | .alertFrame w => Sys2Proof.Machine.execAlertFrame w s
  | .alertCauseApplied => Sys2Proof.Machine.execAlertCauseApplied s
  | .alertAbsent => Sys2Proof.Machine.execAlertAbsent s
  | .twinFailover => Sys2Proof.Machine.execTwinFailover s
  | .holdEnd => Sys2Proof.Machine.execHoldEnd s
  | .fcuHoldWrite b => Sys2Proof.Machine.execFcuHoldWrite b s
  | .fcuResultWrite b => Sys2Proof.Machine.execFcuResultWrite b s
  | .aonPowerUp puf => Sys2Proof.Machine.execAonPowerUp puf s
  | .rstNLow => Sys2Proof.Machine.execRstNLow s
  | .railUndervoltage => Sys2Proof.Machine.execRailUndervoltage s
  | .computeDieStart veins down => Sys2Proof.Machine.execComputeDieStart veins down s
  | .firmwareSelfCalibration fails => Sys2Proof.Machine.execFirmwareSelfCalibration fails s
  | .dapRead die a => Sys2Proof.Machine.execDapRead die a s
  | .dapWrite die a v => Sys2Proof.Machine.execDapWrite die a v s
  | .dapHalt die t => Sys2Proof.Machine.execDapHalt die t s
  | .dapResume die t => Sys2Proof.Machine.execDapResume die t s
  | .dapStep die t => Sys2Proof.Machine.execDapStep die t s
  | .dapEnd die => Sys2Proof.Machine.execDapEnd die s
  | .mbx3Access write idx v upset => Sys2Proof.Machine.execMbx3Access write idx v upset s
  | .trstN => Sys2Proof.Machine.execTrstN s
  | .dbgCtrlEnd => Sys2Proof.Machine.execDbgCtrlEnd s
  | .secGalKeyWrite n w => Sys2Proof.Machine.execSecGalKeyWrite n w s
  | .fwLockWrite => Sys2Proof.Machine.execFwLockWrite s
  | .unassignedOpcode g t => Sys2Proof.Machine.execUnassignedOpcode g t s
  | .protectionConversionDone sl => Sys2Proof.Machine.execProtectionConversionDone sl s
  | .indexBuildDone m tag => Sys2Proof.Machine.execIndexBuildDone m tag s
  | .imageVerifyDone m tag => Sys2Proof.Machine.execImageVerifyDone m tag s
  | .pocketPhaseDone copy => Sys2Proof.Machine.execPocketPhaseDone copy s
  | .followerHandshake target ticks follows busy => Sys2Proof.Machine.execFollowerHandshake target ticks follows busy s
  | .twinCmpRelay body => Sys2Proof.Machine.execTwinCmpRelay body s
  | .flintStateTimeout => Sys2Proof.Machine.execFlintStateTimeout s
  | .pllLockTimeout domain count => Sys2Proof.Machine.execPllLockTimeout domain count s
  | .mpSramScrub errs => Sys2Proof.Machine.execMpSramScrub errs s
  | .aonPowerDown => Sys2Proof.Machine.execAonPowerDown s

end Sys2Proof.Machine
end

