-- ==== Sys2Proof/Safety.lean ====
section
/-!
DEFINITION. The terms that claims use: the invariant of a safe run, when an accepted mailbox command can start, and when a
Geode's sequencer issues an instruction.
-/
namespace Sys2Proof.Machine

/-- Every memory of the state is in canonical form. -/
def State.memWf (s : State) : Bool :=
  s.gal.mem.wf && s.host.wf && (s.geodes.all fun d => d.pocket.wf) && (s.fl.lan.bufs.all fun m => Mem.wf m) && s.sec.sram.wf &&
    s.fl.auth.wf && s.fl.boardBuf.wf && s.fl.image.wf

/-- Every table has its size: 8 mailboxes, 9 requesters, 32 Geodes with 4 slots and 24 queues each, 512 slabs, 32 Gallery channels, 24
contexts, 64 streams (R4), a reduction for each context and 3 operating points (R383, R387), and Shelf lines of four 64-byte sectors (R303). -/
def State.tables (s : State) : Bool :=
  s.mbx.length == 8 && s.time.latches.length == 9 && s.cores.length == 9 && s.cic.length == 9 && s.geodes.length == 32 && (s.geodes.all Geode.tables) &&
    s.gal.slabs.length == 512 && s.gal.chans.length == 32 && s.ctxs.length == 24 && s.streams.length == 64 && s.pw.halved.length == 24 &&
    s.pw.points.length == 3 && s.shelf.lines.all fun l => l.sectors.length == 4 && l.sectors.all fun x => x.data.length == 64

/-- The accepted command `c` of mailbox `m` can run now: the MP runs, nothing that R72 and R274 name is in its way, it is not a
follower's journalled command (R397), and items 1 and 2 of R273 pass. -/
abbrev State.ready (s : State) (m tag op : Nat) (c : Cmd) : Prop :=
  s.cmdIn m tag op 0 = some c ∧ s.mpRuns = true ∧ s.mayStart m c = true ∧ (s.follows && isJournalled op) = false ∧ s.grant m c = none

/-- The body of a metrology command, before the counter and the tag that end it (R341). -/
def Cmd.metBody (c : Cmd) : List Nat := (c.words.take (c.words.length - 5)).map fun w => w.toNat
/-- Its counter. -/
def Cmd.metCtr (c : Cmd) : W32 := c.words.getD (c.words.length - 5) 0

/-- The accepted metrology command `c` can be relayed now, Flint runs, and the command's tag and counter authenticate it (R70, R341, R343). -/
abbrev State.metReady (s : State) (m tag op : Nat) (c : Cmd) : Prop :=
  s.cmdIn m tag op 0 = some c ∧ s.mpRuns = true ∧ s.mayStart m c = true ∧ s.grant m c = none ∧ s.fl.runs = true ∧ s.fl.metOk c = true

/-- The state in which Flint executes it: it is relayed, and its counter is consumed. -/
def State.metTaken (s : State) (m : Nat) (c : Cmd) : State := (s.setPhase m c 1 []).withFl fun f => { f with kmCtr := c.metCtr.toNat }

/-- Flint takes a message of a KC kind now: it runs, and the message's tag and counter authenticate it under the KC in use (R345). -/
abbrev State.kcReady (s : State) (kind : Nat) (body : List W32) (ctr : Nat) (tag : List W32) : Prop :=
  s.fl.runs = true ∧ s.fl.kcOk kind body ctr tag = true

/-- The state in which Flint acts on it: the message has left the path, and its counter is the last one. -/
def State.kcTaken (s : State) (kind : Nat) (body : List W32) (ctr : Nat) : State := (s.takeFlint kind body).withFl fun f => { f with kcCtr := some ctr }

/-- The instruction at the program counter of Geode `g`'s firing. -/
def State.instrAt (s : State) (g : Nat) : Nat := ((s.fsl g).prog.getD (s.fsl g).pc 0).toNat

/-- Geode `g`'s sequencer issues opcode `op` within the firing's limit: ARITH runs, a firing is in progress, the sequencer is not halted,
the program counter names a stored instruction with that opcode whose word has no uncorrectable error (R99, R102, R434); the
cycles of a COMMIT stalled on a full list do not count against the limit. -/
def State.issues (s : State) (g t op : Nat) : Bool :=
  match s.firing g with
  | none => false
  | some f =>
    s.arithRuns && (!(s.geode g).halted || (s.geode g).step) && decide ((s.fsl g).pc < (s.fsl g).prog.length) && fld (s.instrAt g) 56 8 == op &&
      !(s.fsl g).progUe.contains (s.fsl g).pc && (f.limit == 0 || decide (f.cycles + t < f.limit + (f.stalled + if s.commitFull g then t else 0)))

/-- The program counter of the firing slot moves to `p` (R115). -/
def State.goTo (s : State) (g p : Nat) : State := s.withFsl g fun sl => { sl with pc := p }

/-- An instruction that goes on to the next one: issued with another instruction behind it, it has the effect `e` and the program
counter moves on by 1 (R115). -/
def State.does (s : State) (g t op : Nat) (i : Instr) (e : State → State) : Prop :=
  s.issues g t op = true → (s.fsl g).pc + 1 < (s.fsl g).prog.length → exec i s = .next ((e (s.spend g t)).goTo g ((s.fsl g).pc + 1))

/-- An instruction that branches: issued, it has the effect `e` and the program counter moves to `p`, below the count (R118). -/
def State.jumps (s : State) (g t op p : Nat) (i : Instr) (e : State → State) : Prop :=
  s.issues g t op = true → p < (s.fsl g).prog.length → exec i s = .next ((e (s.spend g t)).goTo g p)

/-- An instruction that faults: issued, it ends the firing with a program fault of cause `c` at its own program counter (R102). -/
def State.faults (s : State) (g t op c : Nat) (i : Instr) : Prop :=
  s.issues g t op = true → exec i s = .next ((s.spend g t).progFault g (s.fslot g) c (s.fsl g).pc)

/-- Every block agrees at once to an entry into `t`, except that Flint has to acknowledge (the blocks of R371), and no source that acts
in `t` is raised. -/
abbrev State.blocksIdle (s : State) (t : Nat) : Prop :=
  s.sec.cdLevel ≠ 2 ∧ s.sec.flLevel ≠ 2 ∧ s.outstanding = [] ∧ (∀ d ∈ s.geodes, d.firing = none) ∧
    (t = 3 → ∀ c ∈ s.ctxs, c.state ≠ .running) ∧ (t ≠ 3 → s.shelf.state ≠ .draining) ∧ s.gal.initBusy = false ∧
    (∀ x ∈ s.gal.slabs, x.state ≠ .zeroing ∧ x.converting = false) ∧ (∀ d ∈ s.pw.dvfs, d.2.2 = false) ∧ (t = 3 → s.fcu.faultN = false) ∧
    s.raised t = 0 ∧ s.pw.abort = false

end Sys2Proof.Machine
end

