-- ==== Sys2Proof/Certificates/Slice0/Obligations.lean ====
section
/-!
DEFINITION. The statements for the provers, by the chapters of the manual. A statement whose conclusion is `exec … = .next …` says
where its command completes, and with what state.
-/
open Sys2Proof Sys2Proof.Machine

/-! ### The step -/

/-- A step takes the command at the front of the queue and runs it on the state with the queue's rest. No command stops the block: every command
answers a next state in every state (log entry 3). Conventions of the model: log entries 2, 3. -/
def Obligations.StepRunsFront : Prop :=
  (∀ (c : Instr) (rest : List Instr) (s : State), step { s with pending := c :: rest } = exec c { s with pending := rest }) ∧
  (∀ (c : Instr) (s : State), ∃ t : State, exec c s = .next t)

/-- Every step keeps every memory of the block in its canonical form. Conventions of the model: log entries 4, 47. -/
def Obligations.StepKeepsMemories : Prop :=
  ∀ s t : State, s.memWf = true → step s = .next t → t.memWf = true

/-- R4: every step keeps the number of mailboxes, requesters, Geodes, slots, queues, slabs, Gallery channels, contexts and streams, and the size of
every Shelf line (R303). -/
def Obligations.StepKeepsTables : Prop :=
  ∀ s t : State, s.tables = true → step s = .next t → t.tables = true

/-- R42, R56, R43: Quartz reads zero with quality UNSET after reset, the generator is stopped, no version is selected, the phase is BOOT, and no
fault cause is set. Every memory has its canonical form after reset, and every table its size. Conventions of the model: log entry 4. -/
def Obligations.ResetValues : Prop :=
  (let s := State.reset
   s.time.now = 0 ∧ s.time.quality = .unset ∧ s.drip.phase = .stopped ∧ s.regValue 8 .dripCfg = 0 ∧ s.regValue 8 .qtzStatus = 0 ∧
     s.regValue 9 .devVendor = 0x0B6E ∧ s.regValue 9 .devPart = 0x0320 ∧ s.regValue 9 .devStepping = 0x11 ∧ s.regValue 9 .devProto = 0 ∧
     s.regValue 9 .devState = 0 ∧ s.regValue 9 .faultStatus = 0 ∧ s.regValue 9 .heartbeat = 0 ∧ s.regValue 9 .winStatus = 0 ∧
     (∀ m < 8, s.regValue 9 (.mbxCmdCount m) = 0 ∧ s.regValue 9 (.mbxRspCount m) = 0 ∧ s.regValue 9 (.mbxStatus m) = 0) ∧
     s.regValue 8 .galCtrl = 16 ∧ s.regValue 8 .galStatus = 0 ∧ s.regValue 8 .shelfCtrl = 7 ∧ s.pending = []) ∧
  (State.reset.memWf = true ∧ State.reset.tables = true)

/-! ### The register window (03_mailboxes.md) -/

/-- R57, R65: a host write to a command FIFO is dropped without a trace under `CMD_HELD`, sets `CMD_OVF` when the FIFO is full, and is appended
otherwise; R65: the hold ends when the host clears it. Nothing else changes. R76: in ROOST and TORPOR the link holds an access, and no mailbox
changes until the exit. R58: a read of an empty response FIFO returns 0, sets `RSP_UNDF` and removes nothing; R58, R59: otherwise the read returns
the oldest word and removes it, and a word with bad parity sets `RSP_POISON`. R61: CMD_FLUSH discards the FIFO and the message being read, RSP_FLUSH
the response FIFO; each sends its event while the MP runs, and a discarded event sets `EVT_LOST`. R54, R55: an access that is not of 32 bits, is not
aligned to 4 bytes or names an offset that R56 does not list is rejected: it only sets `ACC_ERR`, and a read returns 0. R56: a release is honoured
when no cause stands and the MP runs. Conventions of the model: log entries 8, 25, 33, 48. -/
def Obligations.RegisterWindow : Prop :=
  (∀ (s : State) (m : Nat) (w : W32) (bad : Bool),
     (s.dev.die ≠ .inReset → s.dev.refclk = true → s.hostLink = true → (s.pw.state = 1 ∨ s.pw.state = 2) → ∃ t : State, exec (.mbxCmdDataWrite m w bad) s = .next t ∧
       t.dev.hostHeld = s.dev.hostHeld ++ [.write (.mbxCmdData m) w.toNat bad] ∧ t.mbx = s.mbx ∧ t.pw.state = s.pw.state) ∧
     (s.winUp = true → s.linkHolds = false →
     ((s.mb m).cmdHeld = true → exec (.mbxCmdDataWrite m w bad) s = .next s) ∧
     ((s.mb m).cmdHeld = false → 64 ≤ (s.mb m).cmd.length →
       exec (.mbxCmdDataWrite m w bad) s = .next (s.withMbx m fun b => { b with cmdOvf := true })) ∧
     ((s.mb m).cmdHeld = false → (s.mb m).cmd.length < 64 →
       exec (.mbxCmdDataWrite m w bad) s = .next (s.withMbx m fun b => { b with cmd := b.cmd ++ [⟨w, bad⟩] })) ∧
     exec (.cmdHeldClear m) s = .next (s.withMbx m fun b => { b with cmdHeld := false }))) ∧
  (∀ (s : State) (m : Nat) (upset : Bool), s.winUp = true → s.linkHolds = false →
     ((s.mb m).rsp = [] →
       exec (.mbxRspDataRead m upset) s = .next { s.withMbx m (fun b => { b with rspUndf := true }) with readData := 0 }) ∧
     (∀ (msg : OutMsg) (rest : List OutMsg) (w : W32) (ws : List W32), (s.mb m).rsp = msg :: rest → msg.words = w :: ws →
       ∃ t : State, exec (.mbxRspDataRead m upset) s = .next t ∧ t.readData = w.toNat ∧
         t = { s.withMbx m (fun _ => { s.mb m with rsp := if ws = [] then rest else { msg with words := ws } :: rest
                                                   rspPoison := (s.mb m).rspPoison || upset }) with readData := w.toNat })) ∧
  (∀ (s : State) (m : Nat), s.winUp = true → s.linkHolds = false → m < s.mbx.length →
     (∃ t : State, exec (.cmdFlush m) s = .next t ∧ (t.mb m).cmd = [] ∧ (t.mb m).part = none ∧ (t.mb m).out = (s.mb m).out ∧
       (s.mpRuns = false → (t.mb m).rsp = (s.mb m).rsp) ∧
       (s.mpRuns = true → t = (s.withMbx m fun b => { b with cmd := [], part := none }).event m 0x01
         (((s.mb m).part.map fun p => fld p.header.toNat 16 8).getD 0)
         ((s.mb m).cmd.length + ((s.mb m).part.map fun p => 1 + p.words.length).getD 0) (tagWords 16 (s.mb m).tags))) ∧
     (∃ t : State, exec (.rspFlush m) s = .next t ∧ (t.mb m).cmd = (s.mb m).cmd ∧ (t.mb m).out = (s.mb m).out ∧
       (s.mpRuns = false → (t.mb m).rsp = []) ∧
       (s.mpRuns = true → t = (s.withMbx m fun b => { b with rsp := [], evtLost := b.evtLost || b.rsp.any fun x => x.event }).event m 0x02 0
         (s.mb m).rspCount (tagWords 16 (((s.mb m).rsp.filter fun x => !x.event).map fun x => x.tag)))) ∧
     (∀ off width v, (width ≠ 4 ∨ off % 4 ≠ 0 ∨ (0x014 ≤ off ∧ off < 0x040) ∨ (0x050 ≤ off ∧ off < 0x100) ∨ 0x200 ≤ off) →
       exec (.windowAccessRejected false off width v) s = .next (s.withDev fun d => { d with accErr := true }) ∧
       exec (.windowAccessRejected true off width v) s = .next { s.withDev (fun d => { d with accErr := true }) with readData := 0 }) ∧
     (s.fcu.mpHalt = false → s.fcu.clock = false → s.fcu.twinSignal = false → s.fcu.result = false → s.mpRuns = true →
       exec .faultCtrlRelease s = .next (s.withFcu fun f => { f with faultN := false })))

/-- R7 on one register of each access code: RW stores (`GD_SLOTs_LIMIT`), RO ignores a write (`HEARTBEAT`), W1C clears the bits written 1
(`WIN_STATUS`), RC returns the value and clears (`GD_CE_COUNT`), WO reads zero (`QTZ_STEP`); R43: a core's write to `QTZ_RATE` has no effect. R56:
the offsets of the window name its registers. Conventions of the model: log entries 8, 9. -/
def Obligations.RegisterAccessCodes : Prop :=
  (∀ k < 8, [0x00, 0x04, 0x08, 0x0C, 0x10, 0x14].map (fun o => windowReg (0x100 + 0x20 * k + o)) =
    [some (.mbxCmdData k), some (.mbxCmdCount k), some (.mbxRspData k), some (.mbxRspCount k), some (.mbxCtrl k), some (.mbxStatus k)]) ∧
  ∀ (s : State) (g i v : Nat),
    (s.mayAccess 8 = true →
      exec (.registerWrite 8 (.gd g (.slotLimit i)) v) s = .next (s.withSlot g i fun sl => { sl with limit := fld v 0 24 }) ∧
      exec (.clearingRead 8 (.gd g .ceCount)) s =
        .next { s.withGeode g (fun d => { d with ceCount := 0 }) with readData := (s.geode g).ceCount } ∧
      exec (.clearingRead 8 .qtzStep) s = .next { s with readData := 0 } ∧
      exec (.registerWrite 8 .qtzRate v) s = .next (s.withTime fun t => { t with rate := clampRate (signed 32 v) })) ∧
    (s.winUp = true → s.linkHolds = false →
      exec (.registerWrite 9 .heartbeat v) s = .next s ∧
      (bitAt v 0 = true → exec (.registerWrite 9 .winStatus v) s = .next (s.withDev fun d => { d with accErr := false })) ∧
      (bitAt v 0 = false → exec (.registerWrite 9 .winStatus v) s = .next s)) ∧
    (∀ h < 8, s.mayAccess h = true → exec (.registerWrite h .qtzRate v) s = .next s)

/-! ### Acceptance (R64 to R73) -/

/-- R66, R72, R73: the MP takes the first mailbox of the rotation that is not skipped; a complete message that passes checks 1 to 14 is accepted: it
becomes outstanding with the next place in the order of acceptance, its words leave the FIFO, and the rotation moves on. R66 check 3 and R65: payload
words still missing after 1 ms answer E_LEN, the FIFO is flushed, the hold is set and RESYNC_LEN is sent, once the response has room. R64: a held
message is written once it fits, and its command is then answered. R71: a metrology command that Flint has not answered in 50 ms answers E_TIMEOUT,
and a later answer to it is discarded. R69: Flint's answer to a relayed metrology command reaches the mailbox of the command as Flint sent it.
Conventions of the model: log entries 1, 33, 38, 44. -/
def Obligations.CommandAcceptance : Prop :=
  (∀ (s : State) (m : Nat) (h : W32) (rest : List InWord),
     m < 8 → s.mbx.length = 8 → s.mpRuns = true → s.dev.workDue = [] → s.pw.agreed.contains 3 = false →
     (((List.range 8).map fun k => (s.dev.rot + k) % 8).find? fun k => !(s.mb k).skipped) = some m →
     (s.mb m).part = none → (s.mb m).cmd = ⟨h, false⟩ :: rest → fld h.toNat 10 6 ≠ 63 → fld h.toNat 10 6 ≤ rest.length →
     fld h.toNat 16 8 ≠ 0 → (s.mb m).tags.contains (fld h.toNat 16 8) = false →
     s.checks m h (rest.take (fld h.toNat 10 6)) = none →
     ∃ t : State, exec .mpAcceptCommand s = .next t ∧ t.dev.rot = (m + 1) % 8 ∧ t.dev.seq = s.dev.seq + 1 ∧
       (t.mb m).cmd = rest.drop (fld h.toNat 10 6) ∧ (t.mb m).part = none ∧ (t.mb m).rsp = (s.mb m).rsp ∧
       ∃ c : Cmd, (t.mb m).out = (s.mb m).out ++ [c] ∧ c.tag = fld h.toNat 16 8 ∧ c.op = fld h.toNat 24 8 ∧ c.seq = s.dev.seq + 1 ∧
         c.words = (rest.take (fld h.toNat 10 6)).map (fun x => x.w) ∧ c.fence = bitAt h.toNat 9 ∧ c.phase = 0 ∧
         ∀ k, k ≠ m → t.mb k = s.mb k) ∧
  (∀ (s : State) (m : Nat), s.mpRuns = true →
     (∀ p : Partial, (s.mb m).part = some p →
       (p.late = false → 64 ≤ (s.mb m).rspCount →
         exec (.cmdPayloadTimeout m) s = .next (s.withMbx m fun b => { b with part := some { p with late := true } })) ∧
       (p.late = true → (s.mb m).held = [] → (s.mb m).rspCount < 64 →
         exec (.heldMessageWrite m) s =
           .next ((s.reject m p.header eLen).resync m 0x03 (fld p.header.toNat 16 8) (1 + p.words.length))) ∧
       (p.late = false → (s.mb m).rspCount < 64 → exec (.cmdPayloadTimeout m) s =
         .next ((s.reject m p.header eLen).resync m 0x03 (fld p.header.toNat 16 8) (1 + p.words.length)))) ∧
     (∀ (msg : OutMsg) (rest : List OutMsg), (s.mb m).held = msg :: rest → (s.mb m).rspCount + msg.words.length ≤ 64 →
       exec (.heldMessageWrite m) s = .next (s.withMbx m fun b =>
         { b with
           rsp := b.rsp ++ [msg], held := rest
           out := if msg.event then b.out else b.out.filter fun c => !(c.tag == msg.tag && c.phase == answered) })) ∧
     (∀ (tag : Nat) (c : Cmd), (s.mb m).out.find? (fun c => c.tag == tag && isMet c.op && c.phase == 1) = some c →
       s.metAnswered m tag = none →
       exec (.metrologyTimeout m tag) s =
         .next (({ s with conduit := { s.conduit with stale := insNat c.counter s.conduit.stale } } : State).finish m c eTimeout [] []))) ∧
  (∀ (s : State) (m : Nat) (c : Cmd) (h : W32) (ws : List W32),
     s.mpRuns = true → isMet c.op = true → fld h.toNat 24 8 = c.op → fld h.toNat 16 8 = c.tag →
     s.cmdIn m c.tag c.op 1 = some c → s.conduit.answers = [h :: ws] →
     c.counter = answerCounter (h :: ws) → (s.mb m).rspCount + (ws.length + 1) ≤ 64 →
     exec (.flintResponseRelay m c.tag) s =
       .next (({ s with conduit := { s.conduit with answers := [] } } : State).withMbx m fun b =>
         { b with rsp := b.rsp ++ [⟨false, c.tag, h :: ws⟩], out := b.out.filter fun x => x.tag != c.tag }))

/-! ### Device and time commands (02_drip_and_time.md, 12_commands.md) -/

/-- R26: a SET_DRIP with START outside the limits of L, N or L ÷ N answers E_PARAM and leaves the schedule unchanged, whatever else it carries; so
does one sent to a running schedule whose new L and N break a limit. -/
def Obligations.DripLimits : Prop :=
  (∀ len n : Nat, dripLegal len n = true ↔ 250000 ≤ len ∧ len ≤ 50000000 ∧ 1 ≤ n ∧ n ≤ 256 ∧ 200000 * n ≤ len) ∧
  (∀ len n : Nat, 250 < n → dripLegal len n = false) ∧
  (∀ (s : State) (m tag : Nat) (c : Cmd), s.ready m tag 0x04 c → dripLegal (fld (c.word 1) 0 26) (fld (c.word 2) 0 9) = false →
    (bitAt (c.word 0) 2 = true → exec (.setDripStart m tag) s = .next (s.finish m c eParam [] [])) ∧
    (bitAt (c.word 0) 2 = false → bitAt (c.word 0) 0 = true → bitAt (c.word 0) 1 = false →
      exec (.setDrip m tag) s = .next (s.finish m c eParam [] [])))

/-- R28, R453: a start while the generator is stopped, with a legal L and N, a quality other than UNSET and T from 100 µs to 1 s ahead, schedules
drip 0 at T, and writes the budgets (R216). R28: a change of L and N, or a trim, accepted while the generator runs, waits for the first boundary 10
µs or more ahead, and the response names it; the schedule in force is unchanged, and the budgets are written anew (R216). Conventions of the model:
log entries 10, 11. -/
def Obligations.DripScheduleChanges : Prop :=
  (∀ (s : State) (m tag : Nat) (c : Cmd), s.ready m tag 0x04 c → s.drip.phase = .stopped → bitAt (c.word 0) 2 = true →
     bitAt (c.word 0) 0 = true → bitAt (c.word 0) 1 = false → dripLegal (fld (c.word 1) 0 26) (fld (c.word 2) 0 9) = true →
     s.time.quality ≠ .unset → c.word 4 < giga → workFits (s.work 0 0) (fld (c.word 1) 0 26) = true →
     let T := c.word 4 + giga * (c.word 5 + fld (c.word 6) 0 16 * 2 ^ 32)
     s.time.now + 100000 * nsU ≤ T * nsU → T * nsU ≤ s.time.now + giga * nsU →
     exec (.setDripStart m tag) s = .next ((((s.withDrip fun d =>
       { d with phase := .scheduled, count := 0, base := fld (c.word 1) 0 26, len := fld (c.word 1) 0 26, drops := fld (c.word 2) 0 9, drop := 0
                start := (T * nsU : Nat), pend := none }).withDev fun d => { d with dripSet := true }).rebudget).finish m c sOk (w64 0) [0, T])) ∧
  (∀ (s : State) (m tag : Nat) (c : Cmd), s.ready m tag 0x04 c → s.drip.phase = .running → bitAt (c.word 0) 2 = false →
     (bitAt (c.word 0) 0 = true → bitAt (c.word 0) 1 = false → dripLegal (fld (c.word 1) 0 26) (fld (c.word 2) 0 9) = true →
       workFits (s.work 0 0) (fld (c.word 1) 0 26) = true →
       let soon := decide (s.nextBoundary < s.time.now + 10000 * nsU)
       exec (.setDrip m tag) s = .next ((((s.withDrip fun d =>
         { d with pend := some ⟨fld (c.word 1) 0 26, fld (c.word 2) 0 9, 0, soon⟩ }).withDev fun d => { d with dripSet := true }).rebudget).finish m c sOk
           (w64 (if soon then s.drip.count + 2 else s.drip.count + 1)) [if soon then s.drip.count + 2 else s.drip.count + 1])) ∧
     (bitAt (c.word 0) 0 = false → bitAt (c.word 0) 1 = true → dripLegal s.drip.base s.drip.drops = true →
       dripLegal ((s.drip.base : Int) + signed 32 (c.word 3)) s.drip.drops = true → s.time.now + 10000 * nsU ≤ s.nextBoundary →
       exec (.setDrip m tag) s = .next ((((s.withDrip fun d =>
         { d with pend := some ⟨s.drip.base, s.drip.drops, signed 32 (c.word 3), false⟩ }).withDev fun d => { d with dripSet := true }).rebudget).finish m c
           sOk (w64 (s.drip.count + 1)) [s.drip.count + 1])))

/-- R46, R47, R282: TIME_SET gives the counter the value named and quality HOLDOVER, and moves future boundaries with it; TIME_READ answers the time;
PPS_CONFIG within its ranges sets the output. R46: a TIME_ADJUST within its ranges that names an unused edge of the last 4 s is used: that edge is
marked, the report is kept for extrapolation, and an error beyond 100 µs is stepped out with quality HOLDOVER; one that names no such edge is not
used. Conventions of the model: log entries 6, 10. -/
def Obligations.TimeCommands : Prop :=
  (∀ (s : State) (m tag : Nat) (c : Cmd),
     (s.ready m tag 0x10 c → c.word 1 < giga →
       ∃ t : State, exec (.timeSet m tag) s = .next (t.finish m c sOk [] []) ∧ t.time.quality = .holdover ∧
         t.time.now = (c.word 0 + nsU * (c.word 1 + giga * (c.word 2 + fld (c.word 3) 0 16 * 2 ^ 32))) % timeMod ∧
         t.drip.len = s.drip.len ∧ t.drip.count = s.drip.count ∧ t.drip.phase = s.drip.phase ∧
         (s.drip.phase ≠ .stopped → t.drip.start - s.drip.start =
           (c.word 0 + nsU * (c.word 1 + giga * (c.word 2 + fld (c.word 3) 0 16 * 2 ^ 32)) : Nat) - (s.time.now : Int)) ∧
         t.geodes = s.geodes ∧ t.gal = s.gal ∧ t.mbx = s.mbx) ∧
     (s.ready m tag 0x12 c →
       exec (.timeRead m tag) s = .next (s.finish m c sOk (leWords 4 (leBytes 16 s.stamp) ++ w64 s.drip.count ++
         [w32 (s.time.ppsCap % giga), w32 (s.time.ppsCap / giga), w32 (s.time.ppsCap / giga / 2 ^ 32)]) [])) ∧
     (s.ready m tag 0x13 c → -500000000 ≤ signed 32 (c.word 1) → signed 32 (c.word 1) ≤ 500000000 → 1000 ≤ c.word 2 → c.word 2 ≤ 500000000 →
       exec (.ppsConfig m tag) s = .next ((s.withTime fun t =>
         { t with ppsOutEn := bitAt (c.word 0) 0, ppsOutOffset := signed 32 (c.word 1), ppsOutWidth := c.word 2
                  ppsOut := t.ppsOut && bitAt (c.word 0) 0 }).finish m c sOk [] []))) ∧
  (∀ (s : State) (m tag : Nat) (c : Cmd) (e : Edge), s.ready m tag 0x11 c →
     -(giga * 2 ^ 16 : Nat) ≤ signed 64 (c.word 0 + c.word 1 * 2 ^ 32) → signed 64 (c.word 0 + c.word 1 * 2 ^ 32) ≤ (giga * 2 ^ 16 : Nat) →
     bitAt (c.word 3) 0 = false →
     (s.time.edges = [] → exec (.timeAdjust m tag) s = .next (s.finish m c sOk [w32 (2 * s.time.quality.code)] [])) ∧
     (s.time.edges = [e] → e.used = false → nearSec e.ns % 2 ^ 32 = c.word 4 → s.recentEdge e = true →
       100 * (1000 * 2 ^ 16) < |edgeErr e.ns (signed 64 (c.word 0 + c.word 1 * 2 ^ 32))| →
       ∃ t : State, exec (.timeAdjust m tag) s = .next (t.finish m c sOk [w32 (1 + 2 * Quality.holdover.code)] []) ∧
         t.time.quality = .holdover ∧ t.time.edges = [{ e with used := true, done := true }] ∧ t.time.good = 0 ∧
         t.time.step = -((edgeErr e.ns (signed 64 (c.word 0 + c.word 1 * 2 ^ 32)) + 2 ^ 15) / 2 ^ 16) ∧ t.drip = s.drip ∧ t.mbx = s.mbx))

/-- R74: IDENTIFY on mailbox 0 with a range that includes 3 selects version 3.0, on another mailbox it reports without selecting; R281: GET_STATUS
answers the status words and changes nothing else. R280, R448, R449: a board record that is fetched, signed and legal is relayed to Flint and waits
for its answer; no second record is taken. Conventions of the model: log entries 7, 42, 44. -/
def Obligations.IdentificationAndBoard : Prop :=
  (∀ (s : State) (m tag : Nat) (c : Cmd),
     (s.ready 0 tag 0x01 c → fld (c.word 0) 0 8 ≤ 3 → 3 ≤ fld (c.word 0) 8 8 →
       ∃ ws, exec (.identify 0 tag) s = .next ((s.withDev fun d => { d with proto := 3 }).finish 0 c sOk (w32 3 :: ws) [])) ∧
     (s.ready 0 tag 0x01 c → (3 < fld (c.word 0) 0 8 ∨ fld (c.word 0) 8 8 < 3) →
       exec (.identify 0 tag) s = .next (s.finish 0 c (if s.dev.proto = 0 then eParam else eState) [] [])) ∧
     (m ≠ 0 → s.ready m tag 0x01 c → ∃ ws, exec (.identify m tag) s = .next (s.finish m c sOk (w32 s.dev.proto :: ws) [])) ∧
     (s.ready m tag 0x03 c → exec (.getStatus m tag) s = .next (s.finish m c sOk (statusWords s m) []))) ∧
  (∀ (s : State) (m tag : Nat) (c : Cmd) (data : List Byte) (r : Board), s.ready m tag 0x02 c → s.dev.phase ≠ 1 →
     hostField (c.word 0 + c.word 1 * 2 ^ 32) (c.word 2) 512 16384 = true →
     (s.dev.board = none → parseBoard s.devId (padTo (c.word 2) data) (c.word 2) = some r →
       exec (.boardRecord m tag data none true) s =
         .next (((s.withDev fun d => { d with boardPend := some r }).setPhase m c 1 []).sendChunks 0xF2 5 254 (padTo (c.word 2) data)) ∧
       exec (.boardRecord m tag data none false) s = .next (s.finish m c eAuth [] [])) ∧
     (∀ b, s.dev.board = some b → exec (.boardRecord m tag data none true) s = .next (s.finish m c eState [] [])))

/-! ### The Gallery's commands (08_gallery.md, 12_commands.md) -/

/-- R284: the slabs that SLAB_ALLOC picks are as many as asked for, distinct, free, and of the Chambers the mask names. R192, R284: SLAB_ALLOC makes
the picked slabs OWNED by the context and maps them, with write permission, at consecutive indices; with SHARE it maps the owner's slabs read-only.
No other slab, no byte and no other context changes. Conventions of the model: log entries 6, 34. -/
def Obligations.SlabAllocation : Prop :=
  (∀ (s : State) (mask count : Nat) (l : List Nat), s.pickSlabs mask count = some l →
     l.length = count ∧ l.Nodup ∧ ∀ sl ∈ l, sl < 512 ∧ bitAt mask (sl / 128) = true ∧ (s.gal.slab sl).state = .free) ∧
  (∀ (s : State) (m tag : Nat) (c : Cmd), s.ready m tag 0x18 c → s.gal.slabs.length = 512 → s.ctxs.length = 24 →
     let x := ctxField c
     let first := fld (c.word 1) 0 9
     let count := fld (c.word 2) 0 10
     x < 24 → countOk first count = true → s.notFree x = true → (∀ i, first ≤ i → i < first + count → (s.ctx x).ent i = none) →
     (∀ l : List Nat, bitAt (c.word 0) 8 = false → fld (c.word 0) 12 4 ≠ 0 → s.gal.initDone = true →
       s.pickSlabs (fld (c.word 0) 12 4) count = some l →
       ∃ t : State, exec (.slabAlloc m tag) s = .next (t.finish m c sOk [w32 (chamberCounts l)] l) ∧
         (∀ sl ∈ l, (t.gal.slab sl).state = .owned ∧ (t.gal.slab sl).owner = x ∧ (t.gal.slab sl).scratch = bitAt (c.word 0) 9) ∧
         (∀ sl, sl ∉ l → t.gal.slab sl = s.gal.slab sl) ∧
         (∀ k < count, (t.ctx x).ent (first + k) = some ⟨l.getD k 0, true, false⟩) ∧
         t.gal.mem = s.gal.mem ∧ t.geodes = s.geodes ∧ t.mbx = s.mbx ∧ ∀ k, k ≠ x → t.ctx k = s.ctx k) ∧
     (bitAt (c.word 0) 8 = true → bitAt (c.word 0) 9 = false → fld (c.word 3) 0 5 < 24 → fld (c.word 3) 0 5 ≠ x →
       (∀ k < count, ∃ e, (s.ctx (fld (c.word 3) 0 5)).ent (fld (c.word 4) 0 9 + k) = some e ∧ e.write = true) →
       ∃ t : State, exec (.slabAllocShare m tag) s = .next (t.finish m c sOk [0] [0]) ∧ t.gal = s.gal ∧ t.mbx = s.mbx ∧
         (∀ k < count, ∃ e, (s.ctx (fld (c.word 3) 0 5)).ent (fld (c.word 4) 0 9 + k) = some e ∧ (t.ctx x).ent (first + k) = some ⟨e.slab, false, e.prot⟩) ∧
         ∀ k, k ≠ x → t.ctx k = s.ctx k))

/-- R192, R193: SLAB_FREE of one owned slab that only a context without a RUN slot maps makes it unusable, and no byte of it is read again; when the
channels have zeroed it, it is FREE, its bytes read 0, no entry maps it, and the command answers OK. A share goes at once. R205: SLAB_PROTECT of a
slab drops what the Shelf holds of it and begins its conversion with a fresh epoch; at its end the slab is PROTECTED, every byte reads 0, and every
entry that maps it has `PROT`. Conventions of the model: log entries 6, 45, 49. -/
def Obligations.SlabReleaseAndProtection : Prop :=
  (∀ (s : State) (m tag : Nat) (c : Cmd) (e : MapEnt) (sl : Nat),
     (s.ready m tag 0x19 c → ctxField c < 24 → fld (c.word 2) 0 10 = 1 → s.notFree (ctxField c) = true →
       (s.ctx (ctxField c)).ent (fld (c.word 1) 0 9) = some e →
       (e.write = true → s.mappers e.slab = [ctxField c] → s.ctxRuns (ctxField c) = false → e.slab < s.gal.slabs.length → s.gal.mem.wf = true →
         ∃ t : State, exec (.slabFree m tag) s = .next (t.setPhase m c 1 [e.slab]) ∧ (t.gal.slab e.slab).state = .zeroing ∧
           (∀ a, t.gal.mem.read a = if galAt e.slab 0 ≤ a ∧ a < galAt e.slab (2 ^ 20) then 0 else s.gal.mem.read a) ∧
           t.ctxs = s.ctxs ∧ t.mbx = s.mbx ∧ ∀ k, k ≠ e.slab → t.gal.slab k = s.gal.slab k) ∧
       (e.write = false → s.ctxRuns (ctxField c) = false →
         exec (.slabFree m tag) s = .next ((s.withCtx (ctxField c) fun y =>
           { y with map := y.map.filter fun z => z.1 != fld (c.word 1) 0 9 }).finish m c sOk [] [0]))) ∧
     ((s.gal.slab sl).state = .zeroing → sl < s.gal.slabs.length → s.gal.mem.wf = true →
       ∃ t : State, exec (.slabZeroed sl) s = .next (t.oneDone [0x19, 0x2D] sl) ∧ t.gal.slab sl = {} ∧ t.mbx = s.mbx ∧
         (∀ k, k ≠ sl → t.gal.slab k = s.gal.slab k) ∧ (∀ x i, ∀ z, (t.ctx x).ent i = some z → z.slab ≠ sl) ∧
         ∀ a, t.gal.mem.read a = if galAt sl 0 ≤ a ∧ a < galAt sl (2 ^ 20) then 0 else s.gal.mem.read a) ∧
     (s.waiter [0x19] sl = some (m, c) → c.op = 0x19 → c.note = [sl] → s.oneDone [0x19] sl = s.finish m c sOk [] [0])) ∧
  (∀ (s : State) (m tag : Nat) (c : Cmd) (e : MapEnt) (sl : Nat),
     (s.ready m tag 0x1A c → ctxField c < 24 → fld (c.word 2) 0 10 = 1 → s.notFree (ctxField c) = true →
       (s.ctx (ctxField c)).ent (fld (c.word 1) 0 9) = some e → e.write = true → e.prot = false → (s.gal.slab e.slab).coded = false →
       s.slabBusy e.slab = false → s.sec.galSet.length = 8 →
       exec (.slabProtect m tag) s = .next (((s.draw.1.withGal fun g =>
         g.withSlab e.slab fun y => { y with converting := true, epoch := s.draw.2 % 2 ^ 64 }).withShelf fun h => h.dropSlab e.slab).setPhase m c 1 [e.slab])) ∧
     ((s.gal.slab sl).converting = true → sl < s.gal.slabs.length → s.gal.mem.wf = true →
       ∃ t : State, exec (.protectionConversionDone sl) s = .next (t.oneDone [0x1A] sl) ∧
         t.gal.slab sl = { s.gal.slab sl with state := .prot, converting := false } ∧ t.mbx = s.mbx ∧
         (∀ k, k ≠ sl → t.gal.slab k = s.gal.slab k) ∧
         (∀ x i, ∀ z, (t.ctx x).ent i = some z → z.slab = sl → z.prot = true) ∧
         ∀ a, t.gal.mem.read a = if galAt sl 0 ≤ a ∧ a < galAt sl (2 ^ 20) then 0 else s.gal.mem.read a))

/-- R284, R283: a transfer, a verification or an index build with legal fields starts: the command goes on to its transfer or walk, and nothing else
changes. R284: at its end a DMA_IN has written what the host sent and answers its length, or E_TIMEOUT with the bytes moved; a DMA_OUT has written
the Gallery's bytes to host memory, and answers OK when none came with poison. R284, R177, R109: IMAGE_VERIFY of plain bytes answers OK when their
CRC-32C is the one named and E_PARAM when it is not, unless poison came with them; INDEX_BUILD writes one offset per group behind the tensor, or
nothing. Conventions of the model: log entries 34, 45, 47. -/
def Obligations.TransfersAndWalks : Prop :=
  (∀ (s : State) (m tag : Nat) (c : Cmd), ctxField c < 24 → s.notFree (ctxField c) = true →
     (1 ≤ c.word 4 → c.word 4 ≤ 536870912 → c.word 1 + c.word 2 * 2 ^ 32 + c.word 4 ≤ 2 ^ 64 →
       (s.ready m tag 0x1B c → (s.ctx (ctxField c)).inSet (c.word 3) (c.word 4) true = true →
         exec (.dmaIn m tag) s = .next (s.setPhase m c 1 [])) ∧
       (s.ready m tag 0x1C c → (s.ctx (ctxField c)).inSet (c.word 3) (c.word 4) false = true →
         exec (.dmaOut m tag) s = .next (s.setPhase m c 1 [])) ∧
       (s.ready m tag 0x1D c → (s.ctx (ctxField c)).inSet (c.word 3) (c.word 4) true = true → c.word 5 ≠ 0 →
         (bitAt (c.word 6) 0 = true → (s.ctx (ctxField c)).anyProt (c.word 3) (c.word 4) = false) →
         exec (.imageLoad m tag) s = .next (s.setPhase m c 1 []))) ∧
     (s.ready m tag 0x1E c → fld (c.word 0) 8 2 = 0 → 1 ≤ c.word 2 → c.word 2 ≤ 536870912 →
       (s.ctx (ctxField c)).inSet (c.word 1) (c.word 2) false = true → exec (.imageVerify m tag) s = .next (s.setPhase m c 1 [])) ∧
     (s.ready m tag 0x1E c → fld (c.word 0) 8 2 = 1 → c.word 1 % 16 = 0 → c.word 4 % 4 = 0 → 1 ≤ c.word 5 → c.word 5 ≤ 16777215 →
       (s.ctx (ctxField c)).inSet (c.word 1) (calSpan (c.word 4) (c.word 5)) false = true →
       exec (.imageVerify m tag) s = .next (s.setPhase m c 1 [])) ∧
     (s.ready m tag 0x1E c → fld (c.word 0) 8 2 = 2 → 840 ≤ c.word 2 → c.word 2 ≤ 9024 →
       (s.ctx (ctxField c)).inSet (c.word 1) (c.word 2) false = true → exec (.imageVerify m tag) s = .next (s.setPhase m c 1 [])) ∧
     (s.ready m tag 0x1F c → c.word 1 % 16 = 0 → c.word 2 % 4 = 0 → 1 ≤ c.word 3 → c.word 3 ≤ 16777215 →
       (s.ctx (ctxField c)).inSet (c.word 1) (calSpan (c.word 2) (c.word 3)) true = true →
       (s.ctx (ctxField c)).anyProt (c.word 1) (calSpan (c.word 2) (c.word 3)) = false →
       (∀ sl ∈ (s.ctx (ctxField c)).slabs (c.word 1) (calSpan (c.word 2) (c.word 3)), s.slabBusy sl = false) →
       exec (.indexBuild m tag) s = .next (s.setPhase m c 1 []))) ∧
  (∀ (s : State) (m tag : Nat) (c : Cmd) (data : List Byte), s.galOpen = true →
     (s.cmdIn m tag 0x1B 1 = some c →
       exec (.dmaTransferDone m tag data none) s =
         .next ((s.dmaWrite (ctxField c) (c.word 3) (padTo (c.word 4) data)).finish m c sOk [w32 (c.word 4)] [0]) ∧
       ∀ k, k < c.word 4 → exec (.dmaTransferDone m tag data (some k)) s =
         .next ((s.dmaWrite (ctxField c) (c.word 3) (padTo k data)).finish m c eTimeout [w32 k] [0])) ∧
     (s.cmdIn m tag 0x1C 1 = some c → s.cmdIn m tag 0x1B 1 = none → s.cmdIn m tag 0x1D 1 = none →
       (s.dmaRead (ctxField c) (c.word 3) (c.word 4)).2.2 = false →
       ∃ t : State, exec (.dmaTransferDone m tag data none) s = .next (t.finish m c sOk [w32 (c.word 4)] [0]) ∧
         t.host = (s.dmaRead (ctxField c) (c.word 3) (c.word 4)).1.host.writeN (c.word 1 + c.word 2 * 2 ^ 32) (s.dmaRead (ctxField c) (c.word 3) (c.word 4)).2.1)) ∧
  (∀ (s : State) (m tag : Nat) (c : Cmd), s.galOpen = true →
     (s.cmdIn m tag 0x1E 1 = some c → fld (c.word 0) 8 2 = 0 →
       let r := s.dmaRead (ctxField c) (c.word 1) (c.word 2)
       exec (.imageVerifyDone m tag) s = .next (if r.2.2 then r.1.finish m c ePoison [] [] else
         if (crc32c r.2.1).toNat = c.word 3 then r.1.finish m c sOk [0, 0] [] else r.1.finish m c eParam [w32 0xFFFFFFFF, 0] [])) ∧
     (s.cmdIn m tag 0x1F 1 = some c →
       ∀ t : State,
         (∀ idx last, s.walk (bitAt (c.word 0) 8) false (ctxField c) (c.word 1) (c.word 2) (c.word 3) = (t, .done idx last) →
           exec (.indexBuildDone m tag) s =
             .next ((t.dmaWrite (ctxField c) (c.word 1 + c.word 2) (idx.flatMap fun o => leBytes 4 o)).finish m c sOk [w32 idx.length, w32 last] [0]) ∧
           idx.length = calGroups (c.word 3)) ∧
         (s.walk (bitAt (c.word 0) 8) false (ctxField c) (c.word 1) (c.word 2) (c.word 3) = (t, .poison) →
           exec (.indexBuildDone m tag) s = .next (t.finish m c ePoison [] [0]))))

/-- R201, R211, R212: SCRUB_CONFIG answers what was in force and sets the new; the fill leaves zeros and no error; a scrub read of channel 31 moves
the position on. Conventions of the model: log entries 4, 34, 45. -/
def Obligations.GalleryUpkeep : Prop :=
  ∀ (s : State) (m tag : Nat) (c : Cmd),
    (s.ready m tag 0x20 c → 1 ≤ fld (c.word 0) 1 7 → fld (c.word 0) 1 7 ≤ 64 →
      exec (.scrubConfig m tag) s = .next ((s.withGal fun g => { g with scrubEn := bitAt (c.word 0) 0, period := fld (c.word 0) 1 7 }).finish m c sOk
        [w32 (bit s.gal.scrubEn + 2 * s.gal.period)] [])) ∧
    (s.gal.initBusy = false → exec .galleryInit s = .next (s.withGal fun g => { g with initBusy := true, initDone := false })) ∧
    (s.gal.initBusy = true → ∃ t : State, exec .galleryInitDone s = .next t ∧ t.gal.initDone = true ∧ t.gal.initBusy = false ∧
      (∀ a, t.gal.mem.read a = 0) ∧ t.gal.poison = [] ∧ t.gal.ue = [] ∧ ((∀ y ∈ s.gal.slabs, y.state ≠ .prot) → t.gal.badTag = []) ∧ t.gal.slabs = s.gal.slabs ∧ t.geodes = s.geodes) ∧
    (∀ word, s.gal.scrubEn = true → s.galOpen = true → s.pw.agreed.contains 8 = false → s.gal.ce = [] → s.gal.ue = [] →
      (s.gal.scrubPos + 1 < 131072 →
        ∃ t : State, exec (.patrolScrub 31 0 word) s = .next t ∧ t.gal.scrubPos = s.gal.scrubPos + 1 ∧ t.gal.passes = s.gal.passes ∧
          t.gal.mem = s.gal.mem ∧ t.gal.poison = s.gal.poison) ∧
      (s.gal.scrubPos = 131071 → s.gal.passes < 8191 →
        ∃ t : State, exec (.patrolScrub 31 0 word) s = .next t ∧ t.gal.scrubPos = 0 ∧ t.gal.passes = s.gal.passes + 1 ∧ t.gal.mem = s.gal.mem))

/-! ### Contexts (09_contexts_and_training.md) -/

/-- R215: CTX_CREATE with legal fields on a FREE context makes it CREATED with what the command gives: its class, priority, share, masks and K, a
drawn K when the command gives 0, and a limit of 30000 for a BACKGROUND context that gives 0. R226: CTX_DESTROY of a context that does not run
empties its slots and releases what it maps; without an owned slab it is FREE at once, otherwise it waits until its slabs are zeroed. Conventions of
the model: log entries 6, 36. -/
def Obligations.ContextCreation : Prop :=
  (∀ (s : State) (m tag : Nat) (c : Cmd) (cls : OClass), s.ready m tag 0x28 c → ctxField c < 24 → OClass.ofCode (fld (c.word 0) 5 2) = some cls →
     1 ≤ fld (c.word 0) 12 9 → fld (c.word 0) 12 9 ≤ 256 → (fld (c.word 0) 21 3 = 0 ∨ 4 ≤ fld (c.word 0) 21 3) → c.word 2 ≠ 0 →
     (c.word 5 + c.word 6 * 2 ^ 32) % 4096 = 0 → c.word 7 % 4096 = 0 → c.word 5 + c.word 6 * 2 ^ 32 + c.word 7 ≤ 2 ^ 64 → (s.ctx (ctxField c)).state = .free →
     (∀ y ∈ s.ctxs, y.state ≠ .free → y.client ≠ some (fld (c.word 0) 21 3)) → (∀ g < 32, bitAt (c.word 2) g = true → s.retiredG g = false) →
     (cls = .background ∨ ∀ g < 32, bitAt (c.word 2) g = true → s.sharesOn g + fld (c.word 0) 12 9 ≤ 256) →
     let k := c.word 3 + c.word 4 * 2 ^ 32
     let y (k : Nat) : Ctx :=
       { state := .created, cls := cls, prio := fld (c.word 0) 8 3, share := fld (c.word 0) 12 9
         limit := if fld (c.word 1) 0 24 = 0 ∧ cls = .background then 30000 else fld (c.word 1) 0 24
         mask := c.word 2, seedBase := k, client := if fld (c.word 0) 21 3 = 0 then none else some (fld (c.word 0) 21 3)
         ckAddr := c.word 5 + c.word 6 * 2 ^ 32, ckSize := if c.word 5 + c.word 6 * 2 ^ 32 = 0 then 0 else c.word 7 }
     (k ≠ 0 → exec (.ctxCreate m tag) s = .next ((s.withCtx (ctxField c) fun _ => y k).finish m c sOk (w64 k) [k])) ∧
     (k = 0 → exec (.ctxCreate m tag) s =
       .next ((s.draw.1.withCtx (ctxField c) fun _ => y (s.draw.2 % 2 ^ 64)).finish m c sOk (w64 (s.draw.2 % 2 ^ 64)) [s.draw.2 % 2 ^ 64]))) ∧
  (∀ (s : State) (m tag : Nat) (c : Cmd) (reads : List (Nat × Nat)), s.ready m tag 0x2D c → s.ctxs.length = 24 →
     let x := ctxField c
     let owned := ((s.ctx x).map.filter fun e => e.2.write).map fun e => e.2.slab
     x < 24 → (s.ctx x).state ≠ .free → (s.ctx x).state ≠ .running → (∀ sl ∈ owned, (s.mappers sl).length = 1) →
     (owned = [] → ∃ t : State, exec (.ctxDestroy m tag reads) s = .next (t.finish m c sOk [] [0]) ∧ t.ctx x = {} ∧
       t = (s.tearDown x reads).withCtx x fun _ => {}) ∧
     (owned ≠ [] → exec (.ctxDestroy m tag reads) s = .next ((s.tearDown x reads).setPhase m c 1 owned)))

/-- R220, R110: CTX_BIND with a good image and legal bindings loads the slot from the image into a window of its own, or into the window it shares,
and answers the window. Conventions of the model: log entries 6, 36. -/
def Obligations.ContextBinding : Prop :=
  ∀ (s s1 : State) (m tag base : Nat) (c : Cmd) (b : List Byte), s.ready m tag 0x29 c → s1.geodes.length = 32 →
    (∀ d ∈ s1.geodes, d.slots.length = 4) →
    let x := ctxField c
    let g := fld (c.word 0) 5 5
    let slot := fld (c.word 0) 10 2
    let ents := (range' 4 (fld (c.word 3) 0 5)).map fun k => bindEnt (c.word k)
    let w := (s1.geode g).slot (fld (c.word 0) 13 2)
    let size := imgField b 8 1
    x < 24 → fld (c.word 3) 0 5 ≤ 24 → fld (c.word 3) 0 5 + 4 = c.words.length → (∀ e ∈ ents, e.q < 24 ∧ e.peerQ < 24) →
    (ents.map fun e => e.q).dedup.length = fld (c.word 3) 0 5 →
    ((s.ctx x).state = .created ∨ (s.ctx x).state = .stopped ∨ (s.ctx x).state = .halted) → s.readImage x (c.word 1) = (s1, some (b, false)) →
    bitAt (s.ctx x).mask g = true → s1.retiredG g = false → (s1.slot g slot).state = .empty → (s1.slotsOf x).length < 16 →
    (ents.findSome? fun e => s1.bindCheck x g slot b e) = none → imgCheck1 b b.length = true → imgCheck2 b = true →
    bitAt (imgField b 9 1) (s.ctx x).cls.code = true → s1.imageBusy g b = false →
    (bitAt (c.word 0) 12 = false → (s1.geode g).findWindow slot size = some base →
      ∃ t : State, exec (.ctxBind m tag) s = .next (t.finish m c sOk [w32 (base + size * 2 ^ 8)] [base]) ∧
        (t.slot g slot).state = .loaded ∧ (t.slot g slot).ctx = x ∧ (t.slot g slot).base = base ∧ (t.slot g slot).size = size ∧
        (t.slot g slot).pc = 0 ∧ (t.slot g slot).limit = (s.ctx x).limit ∧ (t.slot g slot).prog.length = imgCount b ∧ t.mbx = s1.mbx) ∧
    (bitAt (c.word 0) 12 = true → w.state ≠ .empty → w.ctx = x → size ≤ w.size →
      ∃ t : State, exec (.ctxBind m tag) s = .next (t.finish m c sOk [w32 (w.base + w.size * 2 ^ 8)] [w.base]) ∧
        (t.slot g slot).state = .loaded ∧ (t.slot g slot).base = w.base ∧ (t.slot g slot).size = w.size) ∧
    (bitAt (c.word 0) 12 = true → (w.state = .empty ∨ w.ctx ≠ x) → exec (.ctxBind m tag) s = .next (s.finish m c eState [] []))

/-- R222: CTX_START of a context whose slots are all LOADED and whose queues are ready sets every slot RUN and the context RUNNING, and answers the
drip it starts in: the next one while the generator runs. R223: CTX_STOP of a context that does not run answers what its queues hold; of a running
one it takes the budgets away and waits; when its firings have ended after the boundary, its slots are LOADED and it is STOPPED, or HALTED after a
program fault. Conventions of the model: log entries 36, 45. -/
def Obligations.ContextStartAndStop : Prop :=
  (∀ (s : State) (m tag : Nat) (c : Cmd), s.ready m tag 0x2A c → s.ctxs.length = 24 →
     let x := ctxField c
     x < 24 → ((s.ctx x).state = .created ∨ (s.ctx x).state = .stopped ∨ ((s.ctx x).state = .halted ∧ (s.ctx x).vacated = [])) →
     s.slotsOf x ≠ [] → (∀ z ∈ s.slotsOf x, (s.slot z.1 z.2).state = .loaded ∧ (s.geode z.1).doubled = false ∧
       ∀ q ∈ (s.slot z.1 z.2).ins ++ (s.slot z.1 z.2).outs, s.queueReady x z.1 q = true) →
     (s.dev.dripSet = false ∨ workFits (s.work 0 1) s.shortL = true) →
     ∃ t : State, exec (.ctxStart m tag) s =
         .next (t.finish m c sOk (w64 (if s.running then s.drip.count + 1 else 0)) [if s.running then s.drip.count + 1 else 0]) ∧
       (t.ctx x).state = .running ∧ (∀ z ∈ s.slotsOf x, (t.slot z.1 z.2).state = .run ∧ (t.slot z.1 z.2).prog = (s.slot z.1 z.2).prog) ∧
       (∀ g i, (g, i) ∉ s.slotsOf x → t.slot g i = s.slot g i) ∧ t.gal = s.gal ∧ t.mbx = s.mbx ∧ ∀ k, k ≠ x → t.ctx k = s.ctx k) ∧
  (∀ (s : State) (m tag x : Nat) (c : Cmd),
     (s.ready m tag 0x2B c → ctxField c < 24 → s.notFree (ctxField c) = true →
       ((s.ctx (ctxField c)).state ≠ .running →
         exec (.ctxStop m tag) s = .next (s.finish m c sOk (s.leftIn (ctxField c)) [0])) ∧
       ((s.ctx (ctxField c)).state = .running → s.running = true →
         exec (.ctxStop m tag) s = .next (((s.zeroBudgets (ctxField c)).withCtx (ctxField c) fun y => { y with stopping := true }).setPhase m c 1 [ctxField c]))) ∧
     (((s.ctx x).stopping = true ∨ (s.ctx x).halting = true) → (s.ctx x).stopArmed = true → s.ctxFires x = false → x < s.ctxs.length →
       (∀ k < 8, ∀ d ∈ (s.mb k).out, d.op ≠ 0x2B) →
       ∃ t : State, exec (.ctxStopComplete x) s = .next t ∧ (t.ctx x).state = (if (s.ctx x).halting then .halted else .stopped) ∧
         (t.ctx x).stopping = false ∧ (∀ g < 32, ∀ i < 4, (t.slot g i).ctx = x → (t.slot g i).state ≠ .run) ∧ t.mbx = s.mbx ∧ t.gal = s.gal ∧
         ∀ k, k ≠ x → t.ctx k = s.ctx k))

/-- R226, R227, R229: a checkpoint of a STOPPED context without protected slabs or queued blocks starts when it fits its area, and answers E_NO_SPACE
with the length it takes when it does not; its end writes it to host memory; a restore starts on a CREATED context with an area. Conventions of the
model: log entries 24, 45. -/
def Obligations.Checkpoints : Prop :=
  ∀ (s : State) (m tag : Nat) (c : Cmd),
    (s.ready m tag 0x2C c → ctxField c < 24 → bitAt (c.word 0) 8 = false → (s.ctx (ctxField c)).state = .stopped → (s.ctx (ctxField c)).ckSize ≠ 0 →
      (∀ e ∈ (s.ctx (ctxField c)).map, e.2.write = true → e.2.prot = false) → (∀ p ∈ s.queuesOf (ctxField c), (s.queue p.1 p.2).left = 0) →
      exec (.ctxCheckpointSave m tag) s = .next (if (s.ctx (ctxField c)).ckSize < s.ckptSize (ctxField c)
        then s.finish m c eNoSpace [0, w32 (s.ckptSize (ctxField c))] [] else s.setPhase m c 1 [])) ∧
    (s.galOpen = true → s.cmdIn m tag 0x2C 1 = some c → bitAt (c.word 0) 8 = false → s.cmdIn m tag 0x1B 1 = none → s.cmdIn m tag 0x1C 1 = none →
      s.cmdIn m tag 0x1D 1 = none →
      let r := s.ckptRaw (ctxField c)
      let b := ckptSeal r.2
      exec (.dmaTransferDone m tag [] none) s =
        .next (({ r.1 with host := r.1.host.writeN (s.ctx (ctxField c)).ckAddr b } : State).finish m c sOk [w32 b.length, 0] [0])) ∧
    (s.ready m tag 0x2C c → ctxField c < 24 → bitAt (c.word 0) 8 = true → (s.ctx (ctxField c)).state = .created → (s.ctx (ctxField c)).ckSize ≠ 0 →
      exec (.ctxCheckpointRestore m tag) s = .next (s.setPhase m c 1 []))

/-! ### Streams (10_streams.md) -/

/-- R238, R249: STREAM_OPEN of an output stream with a free, unbound queue of a RENDER or OVERLAY kind and a legal ring opens it with an empty ring:
write index 0, E, C and W in the header; the queue is bound to the stream with 32 credits. R260, R261: STREAM_CLOSE of a stream none of whose queues
a RUN slot names leaves the stream closed and answers the count; STREAM_STAT answers the counters and clears them when asked. Conventions of the
model: log entry 35. -/
def Obligations.StreamCommands : Prop :=
  (∀ (s : State) (m tag : Nat) (c : Cmd) (cls : OClass), s.ready m tag 0x2E c →
     let i := fld (c.word 0) 0 6
     let kind := fld (c.word 0) 6 3
     let x := fld (c.word 0) 11 5
     let g := fld (c.word 7) 0 5
     let q := fld (c.word 7) 5 5
     let ring := c.word 3 + c.word 4 * 2 ^ 32
     let e := entrySize (s.queue g q).fmt
     (s.stream i).state = 0 → i < s.streams.length → g < s.geodes.length → q < (s.geode g).queues.length → (kind = 4 ∨ kind = 5) →
     OClass.ofCode (fld (c.word 0) 9 2) = some cls → x < 24 → ((s.ctx x).state = .created ∨ (s.ctx x).state = .stopped) →
     fld (c.word 6) 0 4 = 1 → c.words.length = 8 → 16 ≤ q → q < 24 → bitAt (s.ctx x).mask g = true →
     s.retiredG g = false → (s.queue g q).quota ≠ 0 → s.ctxNames x g q = true → (s.queue g q).bind = 0 → (s.queue g q).left = 0 →
     (s.geode g).runNames q = false → (kind = 5 → (s.queue g q).fmt = 0 ∧ 1 ≤ fld (c.word 2) 0 9 ∧ fld (c.word 2) 0 9 ≤ 256 ∧
       1 ≤ fld (c.word 2) 16 9 ∧ fld (c.word 2) 16 9 ≤ 256) →
     ring % 4096 = 0 → c.word 5 % 4096 = 0 → 4096 ≤ c.word 5 → ring + c.word 5 ≤ 2 ^ 64 → 3 ≤ (c.word 5 - 64) / e →
     (s.streams.filter fun y => y.state != 0 && y.kind == kind).length < kindLimit kind →
     (s.dev.dripSet = false ∨ workFits (s.work 1 0) s.shortL = true) →
     ∃ t : State, exec (.streamOpen m tag) s = .next (t.finish m c sOk [] []) ∧ (t.stream i).state = 1 ∧ (t.stream i).kind = kind ∧
       (t.stream i).ctx = x ∧ (t.stream i).wIdx = 0 ∧ (t.stream i).rIdx = 0 ∧ (t.stream i).entry = e ∧ (t.queue g q).bind = 1 ∧
       (t.queue g q).peer = i ∧ (t.queue g q).credit = 32 ∧
       t.host = (s.host.writeN ring (leBytes 4 0)).writeN (ring + 8) (leBytes 4 e ++ leBytes 4 ((c.word 5 - 64) / e) ++
         leBytes 4 ((c.word 5 - 64) / e * (2 ^ 32 / ((c.word 5 - 64) / e))) ++ List.replicate 44 0) ∧ ∀ k, k ≠ i → t.stream k = s.stream k) ∧
  (∀ (s : State) (m tag r : Nat) (c : Cmd), (s.stream (fld (c.word 0) 0 6)).state ≠ 0 →
     (s.ready m tag 0x2F c → s.streamRuns (fld (c.word 0) 0 6) = false →
       ∃ (t : State) (n : Nat), exec (.streamClose m tag r) s = .next (t.finish m c sOk [w32 n] []) ∧ t.stream (fld (c.word 0) 0 6) = {} ∧
         s.closeStream (fld (c.word 0) 0 6) r = (t, n)) ∧
     (s.ready m tag 0x30 c →
       let x := s.stream (fld (c.word 0) 0 6)
       exec (.streamStat m tag) s =
         .next ((if bitAt (c.word 0) 8 then s.withStream (fld (c.word 0) 0 6) fun x => { x with cnt := {} } else s).finish m c sOk
           (x.cnt.words ++ [w32 (if isConduit x.kind then min (2 ^ 32 - 1) s.conduit.crcErr else 0), w32 x.state]) [])))

/-- R240, R241, R255: a camera tile with legal coding joins its stream, whose buffer takes it in units of 4 KiB as there is room: with room for all
of it, it stands there whole, with its blocks in order and the drip of its arrival; with none it waits for credit. A tile of a camera without an open
stream is only counted. The oldest waiting block of a stream with room goes to its queue with the drip of its delivery. R249 to R253: an entry of a
RENDER stream with two free ring entries is written, sideband first, at the write index, which moves on; the write index follows into host memory; a
read index within the ring that is read when the ring looks full is taken; a rejected access puts the stream into ERROR and sends its event.
Conventions of the model: log entries 35, 47. -/
def Obligations.IngestAndRings : Prop :=
  (∀ (s : State) (camera depth mode count bytes i : Nat) (blocks : List (Nat × Option (List Nat))),
     (s.dev.die = .serving → s.winUp = true → s.linkHolds = false →
     ((∀ x ∈ s.streams, x.state = 0 ∨ x.kind ≠ 0 ∨ x.camera ≠ camera) →
       exec (.cameraTile camera depth 420 mode count bytes blocks) s =
         .next (s.withDev fun d => { d with unknownCam := sat32 d.unknownCam 1 })) ∧
     (firstIdx (fun x : Stream => x.state != 0 && x.kind == 0 && x.camera == camera) s.streams = some i → i < s.streams.length →
       (tileRoom ≤ (s.stream i).used → ∃ t : State, exec (.cameraTile camera depth 420 mode count bytes blocks) s = .next t ∧
         (t.stream i).tiles = (s.stream i).tiles + 1 ∧ t.geodes = s.geodes ∧ (∀ k, k ≠ i → t.stream k = s.stream k) ∧
         ∃ a : TileIn, (t.stream i).tilesIn = (s.stream i).tilesIn ++ [a] ∧ a.got = 0) ∧
       (1 ≤ count → count ≤ 1024 → bytes ≤ 65536 → tileOk depth 420 mode = true → (∀ k < count, (blocks.getD k (0, none)).2.isSome = true) → (s.stream i).tilesIn = [] →
         ∃ (t : State) (a : TileIn), exec (.cameraTile camera depth 420 mode count bytes blocks) s = .next t ∧ (t.stream i).tiles = (s.stream i).tiles + 1 ∧
           (t.stream i).tilesIn = [a] ∧ a.got = a.units ∧ a.units = max 1 ((bytes + 4095) / 4096) ∧ a.drip = some s.drip.count ∧ a.blocks.length = count ∧
           (∀ b ∈ a.blocks, b.poison = false ∧ b.rows.length = 4 ∧ b.dest = (s.stream i).tiles % (s.stream i).queues.length) ∧
           t.geodes = s.geodes ∧ ∀ k, k ≠ i → t.stream k = s.stream k))) ∧
     (∀ (g q : Nat) (r : List Byte) (b : Mica) (a : TileIn), s.stopRuns = true → (s.stream i).state = 1 → (s.stream i).kind = 0 → (s.stream i).queues = [(g, q)] → (s.stream i).copy = false →
       (s.stream i).marks = [] → (s.stream i).waiting = [] → (s.stream i).dropping = false → (s.stream i).tilesIn = [a] → a.blocks = [b] → b.endAt ≤ a.got * tileUnit → b.err = false →
       b.rows = [r] → b.dest = 0 →
       g < s.geodes.length → q < (s.geode g).queues.length → (s.ctx (s.stream i).ctx).state = .running → (s.geode g).retired = false → (s.queue g q).blocks < 32 →
       ∃ t : State, exec (.ingestBlockDeliver i false) s = .next t ∧ (t.stream i).tilesIn = [] ∧
         (t.stream i).cnt.delivered = sat32 (s.stream i).cnt.delivered 1 ∧
         (t.queue g q).entries = (s.queue g q).entries ++
           [{ payload := r, ts := s.stamp, origin := s.drip.count % 2 ^ 32, poison := b.poison, cls := (s.stream i).cls, fmt := 2 * (s.stream i).mode }])) ∧
  (∀ (s : State) (i r : Nat) (e : Entry), i < s.streams.length → isOut (s.stream i).kind = true → (s.stream i).state = 1 → s.failSilent = false → s.winUp = true →
     ((s.stream i).kind = 4 → s.moves (s.stream i) = true → (s.stream i).held = none → (s.stream i).dropping = false → 2 ≤ (s.stream i).room →
       s.headOut i = some e → e.marker = false →
       ∃ t : State, exec (.ringEntryWrite i) s = .next t ∧
         t.host = s.host.writeN ((s.stream i).ring + 64 + (s.stream i).entry * ((s.stream i).wIdx % (s.stream i).cap)) (padTo (s.stream i).entry (e.sideband ++ e.payload)) ∧
         (t.stream i).wIdx = ((s.stream i).wIdx + 1) % (s.stream i).wrap ∧ (t.stream i).idxDue = true ∧ t.geodes = (s.takeOut i).geodes) ∧
     ((s.stream i).idxDue = true →
       exec (.ringWriteIndexUpdate i) s = .next (({ s with host := s.host.writeN (s.stream i).ring (leBytes 4 (s.stream i).wIdx) } : State).withStream i fun x =>
         { x with idxDue := false })) ∧
     ((s.stream i).room < 2 → (∀ t, (s.stream i).lastRead = some t → t + readGap ≤ s.mtime) → r < (s.stream i).wrap → ((s.stream i).wIdx + (s.stream i).wrap - r) % (s.stream i).wrap ≤ (s.stream i).cap →
       exec (.ringReadIndexRead i r) s = .next (s.withStream i fun x => { x with lastRead := some s.mtime, rIdx := r })) ∧
     exec (.hostLinkReject i) s = .next ((s.withStream i fun x => { x with state := 2, idxDue := false }).streamEvent i 5))

/-! ### Metrology commands (14_flint_metrology.md) -/

/-- R331, R340, R341: MET_READ of the latest record answers its words; MET_LOG_READ from an entry that is held answers the entries from there;
MET_LOG_ACK of an entry that has been read acknowledges it; a command whose tag does not verify answers E_AUTH and consumes nothing. R332 to R334:
with CAL_EN_N asserted, a legal parameter of a configured Flint is stored, is counted as an event, and leaves an audit entry that carries a single
word's value; without CAL_EN_N it answers E_SEALED and stores nothing. Conventions of the model: log entries 6, 7, 36, 38. -/
def Obligations.MetrologyParameters : Prop :=
  (∀ (s : State) (m tag : Nat) (c : Cmd) (b : List Nat),
     (∀ r, s.metReady m tag 0x38 c → fld (c.metBody.getD 0 0) 0 2 = 0 → s.fl.records.getLast? = some r →
       exec (.metRead m tag) s = .next ((s.metTaken m c).metAnswer s.fl.km c sOk (leWords 32 r.2) c.metCtr)) ∧
     (s.cmdIn m tag 0x38 0 = some c → s.mpRuns = true → s.mayStart m c = true → s.grant m c = none → s.fl.runs = true → s.fl.metOk c = false → exec (.metRead m tag) s = .next ((s.setPhase m c 1 []).metAnswer s.fl.km c eAuth [] c.metCtr)) ∧
     (∀ q k, s.metReady m tag 0x3B c → c.metBody = [q, k] → 1 ≤ q → s.fl.auditNext ≤ q + 4096 → 1 ≤ k → k ≤ 6 →
       ∃ (t : State) (ws : List W32), exec (.metLogRead m tag) s = .next (t.metAnswer s.fl.km c sOk ws c.metCtr) ∧ ws.length = 1 + 8 * k ∧
         (∀ a, s.fl.audit.find? (fun x => x.seq == q) = some a → (ws.drop 1).take 8 = leWords 8 a.bytes) ∧
         t.fl.acked = s.fl.acked ∧ t.fl.audit = s.fl.audit ∧ (∀ j ∈ s.fl.readSeqs, j ∈ t.fl.readSeqs) ∧ (∀ a ∈ s.fl.audit, q ≤ a.seq → a.seq < q + k → a.seq ∈ t.fl.readSeqs)) ∧
     (∀ q, s.metReady m tag 0x3C c → c.metBody = q :: b → q ∈ s.fl.readSeqs → s.fl.invasive = false →
       exec (.metLogAck m tag) s = .next (((s.metTaken m c).withFl fun f => { f with acked := max f.acked q, readSeqs := f.readSeqs.filter fun j => decide (q < j) }).metAnswer s.fl.km c sOk
         [w32 (s.fl.auditNext - 1 - max s.fl.acked q)] c.metCtr))) ∧
  (∀ (s : State) (m tag w : Nat) (vals : List Nat) (c : Cmd), s.metReady m tag 0x39 c → c.metBody = w :: vals → paramId c = fld w 0 16 →
     paramWords (fld w 0 16) = some vals.length → fld w 16 4 = vals.length → paramAlone (fld w 0 16) vals = true → s.fl.p.conf = true →
     (s.fl.p.put (fld w 0 16) vals).legal = true → (s.fl.p.put (fld w 0 16) vals).conf = true →
     (s.fl.calEn = true → s.fl.invasive = false → s.fl.full = false →
       exec (.metParamSet m tag) s = .next ((((s.metTaken m c).withFl fun f =>
         { f with p := f.p.put (fld w 0 16) vals, dirty := true }).change 1 vals.length (fld w 0 16)
           (if vals.length = 1 then vals.getD 0 0 else (crc32c (wordsBytes (vals.map w32))).toNat)).metAnswer s.fl.km c sOk [w32 (s.fl.events + 1)] c.metCtr)) ∧
     (s.fl.calEn = false → exec (.metParamSet m tag) s = .next ((s.metTaken m c).metAnswer s.fl.km c eSealed [] c.metCtr)))

/-- R321, R322, R343: TARE clears, takes the rounded G of a stable load, or takes a preset; ZERO on a stable load near z0 leaves its z for the next
boundary; KEY_GENERATION installs the next generation with its counter at 0. Each takes effect without an audit entry. R335, R336: with CAL_EN_N
asserted START opens a calibration, CAPTURE on a stable load stores a point, ABORT discards the points, and COMMIT of at least two rising points
stores the curve in ascending order as an event; without CAL_EN_N a step answers E_SEALED. Conventions of the model: log entries 6, 7, 29, 36, 37,
38. -/
def Obligations.WeighingAndCalibration : Prop :=
  (∀ (s : State) (m tag w x : Nat) (c : Cmd), s.metReady m tag 0x39 c →
     (paramId c = 0x0100 → fld w 16 4 = 2 → s.fl.calibrated = true → s.fl.p.tareLimit ≠ 0 →
       (c.metBody = [w, 0, x] → exec (.tare m tag) s =
         .next (((s.metTaken m c).withFl fun f => { f with tare := 0, preset := false, dirty := true }).metAnswer s.fl.km c sOk [w32 s.fl.events] c.metCtr)) ∧
       (c.metBody = [w, 1, x] → s.fl.steady = true → 0 < s.fl.G → s.fl.G ≤ s.fl.p.tareLimit → exec (.tare m tag) s =
         .next (((s.metTaken m c).withFl fun f => { f with tare := roundTo f.G f.p.d, preset := false, dirty := true }).metAnswer s.fl.km c sOk [w32 s.fl.events] c.metCtr)) ∧
       (c.metBody = [w, 2, x] → x ≠ 0 → x % s.fl.p.d = 0 → x ≤ s.fl.p.tareLimit → exec (.tare m tag) s =
         .next (((s.metTaken m c).withFl fun f => { f with tare := (x : Nat), preset := true, dirty := true }).metAnswer s.fl.km c sOk [w32 s.fl.events] c.metCtr))) ∧
     (paramId c = 0x0101 → c.metBody = [w, 1] → fld w 16 4 = 1 → s.fl.calibrated = true → s.fl.steady = true →
       |s.fl.u * 2 ^ 32 - s.fl.z0| * 1000 ≤ ((s.fl.p.max * s.fl.p.zeroSet * 2 ^ 32 : Nat) : Int) →
       exec (.zero m tag) s = .next (((s.metTaken m c).withFl fun f => { f with zPend := some (f.u * 2 ^ 32), dirty := true }).metAnswer s.fl.km c sOk
         [w32 s.fl.events] c.metCtr)) ∧
     (paramId c = 0x0102 → c.metBody = [w, (s.fl.kmGen + 1) % 2 ^ 32] → fld w 16 4 = 1 → s.fl.invasive = false →
       exec (.keyGeneration m tag) s = .next (((s.metTaken m c).withFl fun f => { f with kmGen := f.kmGen + 1, kmCtr := 0 }).metAnswer s.fl.km c sOk
         [w32 s.fl.events] c.metCtr))) ∧
  (∀ (s : State) (m tag volts : Nat) (c : Cmd) (pts : List (Nat × Int × Int)), s.metReady m tag 0x3A c → c.metBody ≠ [] →
     fld (c.metBody.getD 0 0) 2 3 ≤ 4 →
     (s.fl.calEn = true → calStep c = 0 → s.fl.p.conf = true → s.fl.cal = none →
       exec (.metCalStart m tag) s = .next (((s.metTaken m c).withFl fun f => { f with cal := some [] }).metAnswer s.fl.km c sOk
         [0, 0, w32 s.fl.events] c.metCtr)) ∧
     (s.fl.calEn = false → calStep c = 0 → exec (.metCalStart m tag) s = .next ((s.metTaken m c).metAnswer s.fl.km c eSealed [] c.metCtr)) ∧
     (s.fl.calEn = true → calStep c = 1 → s.fl.cal = some pts → s.fl.steady = true → -2000000000 ≤ signed 32 (c.metBody.getD 1 0) →
       signed 32 (c.metBody.getD 1 0) ≤ 2000000000 →
       let win := s.fl.win.take (s.fl.windowLen s.fl.use.p.time)
       let p := rneDiv ((win.map fun w => w.2).sum) (max win.length 1)
       let pts' := setKey pts (fld (c.metBody.getD 0 0) 2 3) (p, signed 32 (c.metBody.getD 1 0))
       exec (.metCalCapture m tag) s = .next (((s.metTaken m c).withFl fun f => { f with cal := some pts' }).metAnswer s.fl.km c sOk
         [w32 pts'.length, BitVec.ofInt 32 p, w32 s.fl.events] c.metCtr)) ∧
     (s.fl.calEn = true → calStep c = 2 → s.fl.cal = some pts → 2 ≤ pts.length → s.fl.invasive = false → s.fl.full = false →
       rising (pts.foldl (fun l x => insPoint x.2 l) []) = true →
       ∃ t : State, exec (.metCalCommit m tag volts) s = .next (t.metAnswer s.fl.km c sOk [w32 pts.length, 0, w32 (s.fl.events + 1)] c.metCtr) ∧
         t.fl.curve = pts.foldl (fun l x => insPoint x.2 l) [] ∧ t.fl.sense = volts ∧ t.fl.cal = none ∧ t.fl.events = s.fl.events + 1 ∧
         t.fl.zClear = true ∧ t.fl.p = s.fl.p ∧ t.fl.auditNext = s.fl.auditNext + 1) ∧
     (s.fl.calEn = true → calStep c = 3 → s.fl.cal = some pts →
       exec (.metCalAbort m tag) s = .next (((s.metTaken m c).withFl fun f => { f with cal := none }).metAnswer s.fl.km c sOk
         [w32 pts.length, 0, w32 s.fl.events] c.metCtr)))

/-! ### Lantern and power commands (15_lantern.md, 16_power_states.md) -/

/-- R288, R358: a fetched legal model goes to Flint in chunks and a COMMIT; legal rules go in one message; each is answered as given. R358, R359,
R364, R449: chunks go to the buffer that is not active, which a model that waits for it leaves; a COMMIT of bytes with their CRC makes the model
pending; rules wait for the boundary; REPORT sends a STATUS frame; board data gathers until its last byte has come. A pending model becomes active at
the boundary. Conventions of the model: log entries 7, 30, 36, 44. -/
def Obligations.LanternLoading : Prop :=
  (∀ (s : State) (m tag : Nat) (c : Cmd) (data : List Byte),
     (s.ready m tag 0x3D c → hostField (c.word 0 + c.word 1 * 2 ^ 32) (c.word 2) 64 73728 = true → modelOk (padTo (c.word 2) data) (c.word 2) = true →
       exec (.lanModelLoad m tag data none) s = .next (((s.setPhase m c 1 []).sendChunks 0xF2 1 254 (padTo (c.word 2) data)).sendFlint 0xF2
         [2, w32 (c.word 2), crc32c (padTo (c.word 2) data)])) ∧
     (s.ready m tag 0x3E c → 1 ≤ fld (c.word 0) 5 4 → fld (c.word 0) 0 5 + fld (c.word 0) 5 4 ≤ 32 → c.words.length = 1 + 4 * fld (c.word 0) 5 4 →
       (∀ i < fld (c.word 0) 5 4, ruleOk (c.word (1 + 4 * i)) (c.word (2 + 4 * i)) (c.word (3 + 4 * i)) (c.word (4 + 4 * i)) = true) →
       exec (.lanRules m tag) s = .next ((s.sendFlint 0xF2 (w32 (3 + fld (c.word 0) 0 5 * 2 ^ 8 + fld (c.word 0) 5 4 * 2 ^ 13) :: c.words.drop 1)).finish m c
         sOk [] []))) ∧
  (∀ (s : State) (ctr : Nat) (body tag : List W32), s.kcReady 0xF2 body ctr tag →
     ((chunkOf body).1 + (chunkOf body).2.length ≤ 73728 → exec (.lanternChunk body ctr tag) s = .next ((s.kcTaken 0xF2 body ctr).withLan fun l =>
       { l with pending := false, bufs := upd l.bufs (1 - l.active) fun m => m.writeN (chunkOf body).1 (chunkOf body).2 })) ∧
     ((body.getD 1 0).toNat ≤ 73728 → crc32c ((s.fl.lan.bufs.getD (1 - s.fl.lan.active) []).readN 0 (body.getD 1 0).toNat) = body.getD 2 0 →
       exec (.lanternCommit body ctr tag) s = .next (((s.kcTaken 0xF2 body ctr).withLan fun l => { l with pending := true }).flintSay 0xF2 2 sOk
         [w32 (1 - s.fl.lan.active)])) ∧
     ((body.getD 1 0).toNat ≤ 73728 → crc32c ((s.fl.lan.bufs.getD (1 - s.fl.lan.active) []).readN 0 (body.getD 1 0).toNat) ≠ body.getD 2 0 →
       exec (.lanternCommit body ctr tag) s = .next ((s.kcTaken 0xF2 body ctr).flintSay 0xF2 2 eParam [])) ∧
     (fld (body.getD 0 0).toNat 13 4 = 1 → exec (.lanternRules body ctr tag) s = .next ((s.kcTaken 0xF2 body ctr).withLan fun l =>
       { l with
         next := l.next ++ [(fld (body.getD 0 0).toNat 8 5,
           { w0 := (body.getD 1 0).toNat, w1 := (body.getD 2 0).toNat, w2 := (body.getD 3 0).toNat, w3 := (body.getD 4 0).toNat })] })) ∧
     (s.fl.frames.length < 16 → ∃ u : State, exec (.lanternReport body ctr tag) s = .next u ∧
       u.fl.frames.map (fun f => (f.kind, f.payload)) = s.fl.frames.map (fun f => (f.kind, f.payload)) ++ [(2, s.fl.lan.status)]) ∧
     (∀ buf : Mem, buf = s.fl.boardBuf.writeN (chunkOf body).1 (chunkOf body).2 → (chunkOf body).1 + (chunkOf body).2.length ≤ 16384 →
       (chunkOf body).1 + (chunkOf body).2.length < byteFld (buf.readN 0 12) 8 4 →
       exec (.lanternBoard body ctr tag true) s = .next ((s.kcTaken 0xF2 body ctr).withFl fun f => { f with boardBuf := buf })) ∧
     (s.fl.lan.pending = true → s.fl.lan.boundary.1.active = 1 - s.fl.lan.active ∧ s.fl.lan.boundary.1.on = true ∧ s.fl.lan.boundary.1.pending = false))

/-- R289, R374: PWR_REQUEST names the target while none is in progress, a second one is held as pending, and a third answers E_BUSY; PWR_STATUS
changes nothing; R382: PAD_RELEASE releases the groups it names. R383 to R385: DVFS_SET of a point within the board's voltage limit joins the
changes, two at most; the oldest starts, takes effect, and exempts its clock monitor for two windows. Conventions of the model: log entries 39, 41. -/
def Obligations.PowerCommands : Prop :=
  (∀ (s : State) (m tag : Nat) (c : Cmd),
     (s.ready m tag 0x48 c → fld (c.word 0) 0 3 ≤ 3 → (fld (c.word 0) 0 3 = 3 → 1000 ≤ fld (c.word 1) 0 20 ∧ fld (c.word 1) 0 20 ≤ 1000000) → s.follows = false →
       (s.pw.target = none → fld (c.word 0) 0 3 ≠ s.pw.state → s.pw.abort = false → exec (.pwrRequest m tag) s = .next ((s.withPw fun p =>
         { p with target := some (fld (c.word 0) 0 3), ticks := wakeTicks (fld (c.word 1) 0 20), debugFollows := bitAt (c.word 2) 0 }).finish m c sOk [0] [])) ∧
       (∀ cur, s.pw.target = some cur → s.pw.pend = none → cur < fld (c.word 0) 0 3 → exec (.pwrRequest m tag) s = .next ((s.withPw fun p =>
         { p with
           pend := some (fld (c.word 0) 0 3), pendTicks := wakeTicks (fld (c.word 1) 0 20), pendFollows := bitAt (c.word 2) 0
           abort := false }).finish m c sOk [1] [])) ∧
       (∀ cur p, s.pw.target = some cur → s.pw.pend = some p → s.pw.abort = false → exec (.pwrRequest m tag) s = .next (s.finish m c eBusy [] []))) ∧
     (s.ready m tag 0x49 c → exec (.pwrStatus m tag) s =
       .next (s.finish m c sOk [w32 s.pwrWord, w32 s.pw.wakeCause, w32 s.pw.held, w32 s.pw.pointWord] [])) ∧
     (s.ready m tag 0x4A c → fld (c.word 0) 0 8 < 8 → exec (.padRelease m tag) s =
       .next ((s.withPw fun p => { p with held := without p.held (fld (c.word 0) 0 8) }).finish m c sOk [w32 (without s.pw.held (fld (c.word 0) 0 8))] []))) ∧
  (∀ (s : State) (m tag d p : Nat) (c : Cmd) (b : Board) (rest : List (Nat × Nat × Bool)),
     (s.ready m tag 0x4B c → s.dev.board = some b → fld (c.word 0) 0 2 < 3 → pointMv (fld (c.word 0) 0 2) (fld (c.word 0) 2 2) ≤ b.limits.getD (fld (c.word 0) 0 2) 0 →
       (s.follows = false ∨ fld (c.word 0) 0 2 ≠ 0) →
       (s.pw.dvfs.length < 2 → exec (.dvfsSet m tag) s = .next ((s.withPw fun x => { x with dvfs := x.dvfs ++ [(fld (c.word 0) 0 2, fld (c.word 0) 2 2, false)] }).finish m c
         sOk [w32 (bit (!s.pw.dvfs.isEmpty))] [])) ∧
       (2 ≤ s.pw.dvfs.length → exec (.dvfsSet m tag) s = .next (s.finish m c eBusy [] []))) ∧
     (s.dev.die = .serving → s.pw.state = 0 → s.pw.agreed.contains 9 = false → s.pw.dvfs = (d, p, false) :: rest → (∀ x ∈ rest, x.2.2 = false) →
       exec (.dvfsChangeStart none) s = .next (s.withPw fun x => { x with dvfs := (d, p, true) :: rest })) ∧
     (s.pw.dvfs = (d, p, true) :: rest → ∃ t : State, exec .dvfsChangeDone s = .next t ∧ t.pw.points = s.pw.points.set d p ∧ t.pw.dvfs = rest ∧
       t.fcu.failed = s.fcu.failed ∧ t.time = s.time))

/-! ### The pair (17_twin_and_faults.md) -/

/-- R395, R398, R422: TWIN_ATTACH of a configured, authentic twin of the other role attaches it in SOLO, with the device that holds contexts as
leader, else role A's; without an answer it is E_TWIN; TWIN_DETACH ends the pair. Conventions of the model: log entries 6, 7, 43. -/
def Obligations.TwinAttachment : Prop :=
  ∀ (s : State) (m tag : Nat) (c : Cmd) (t : TwinId),
    (s.ready m tag 0x50 c → s.tw.attached = false → s.lifecycle ≠ 0 →
      exec (.twinAttach m tag false none) s = .next (s.finish m c eTwin [] []) ∧
      (t.role ≠ s.role → (t.role = 1 ∨ t.role = 2) → ((s.dev.board.map fun b => b.twinId).getD 0 = 0 ∨ (s.dev.board.map fun b => b.twinId).getD 0 = t.id) →
        t.sigOk = true → s.twinLink = true →
        ∃ u : State, exec (.twinAttach m tag false (some t)) s = .next (u.finish m c sOk (w64 t.id ++ [w32 t.fw, w32 t.role]) []) ∧
          u.tw.attached = true ∧ u.tw.mode = .solo ∧ u.tw.id = t.id ∧ u.tw.txCtr = 0 ∧ u.tw.rxCtr = 0 ∧
          u.tw.leader = (if s.holdsCtx = t.holds then s.role == 1 else s.holdsCtx) ∧ u.ctxs = s.ctxs ∧ u.gal = s.gal ∧ u.geodes = s.geodes)) ∧
    (s.ready m tag 0x51 c →
      (s.tw.attached = true → ∃ u : State, exec (.twinDetach m tag false) s = .next (u.finish m c sOk [] []) ∧ u.tw.attached = false ∧ u.tw.mode = .none ∧
        u.tw.keyed = false ∧ u.fcu.holdTx = false ∧ u.ctxs = s.ctxs ∧ u.geodes = s.geodes) ∧
      (s.tw.attached = false → exec (.twinDetach m tag false) s = .next (s.finish m c eState [] [])))

/-- R290, R406: TWIN_MODE on the leader of an attached pair without running contexts changes the mode at once while the generator is stopped and at
the boundary while it runs; TWIN_SYNC starts the copy, which on the leader ends with the response of its duration, and with Pockets makes the pair
PAIRED. R397: an entry that names another command than the one waiting answers E_TWIN and records the divergence; the leader's failure status is the
follower's; the leader records the follower's report; a command without an entry answers E_TWIN after 10 ms. Conventions of the model: log entries 7,
33, 43. -/
def Obligations.TwinModesAndJournal : Prop :=
  (∀ (s : State) (m tag : Nat) (c : Cmd) (y : Sync),
     (s.ready m tag 0x52 c → fld (c.word 0) 0 2 ≠ 0 → s.tw.attached = true → s.tw.leader = true → s.ctxRunning = false →
       (fld (c.word 0) 0 2 = 1 → s.tw.fw = s.dev.fwVer) →
       (s.running = false → exec (.twinMode m tag false false none) s = .next ((s.setMode (.ofCode (fld (c.word 0) 0 2))).finish m c sOk [] [])) ∧
       (s.running = true → exec (.twinMode m tag false false none) s =
         .next ((s.withTw fun t => { t with modeNext := some (.ofCode (fld (c.word 0) 0 2)) }).setPhase m c 1 []))) ∧
     (s.ready m tag 0x53 c → (fld (c.word 0) 0 2 = 1 ∨ fld (c.word 0) 0 2 = 3) → s.tw.attached = true → s.tw.leader = true →
       exec (.twinSync m tag false) s =
         .next ((s.withTw fun t => { t with sync := some { pockets := bitAt (fld (c.word 0) 0 2) 1, start := s.mtime } }).setPhase m c 1 [])) ∧
     (s.mpRuns = true → s.tw.attached = true → s.galOpen = true → s.tw.leader = true → s.tw.sync = some y → y.phase = 0 → y.pockets = false →
       exec (.twinSyncGalleryDone none false) s = .next ((s.syncRead.answerFor 0x53 sOk [w32 (s.syncTime y)]).withTw fun t => { t with sync := none })) ∧
     (s.mpRuns = true → s.tw.attached = true → s.tw.leader = true → s.tw.sync = some y → y.phase = 2 → (∀ d ∈ s.geodes, d.firing = none) →
       ∃ u : State, exec (.pocketPhaseDone none) s = .next (u.answerFor 0x53 sOk [w32 (s.syncTime y)]) ∧ u.tw.mode = .paired ∧ u.tw.sync = none ∧
         u.tw.journalSeq = 0 ∧ u.geodes = s.geodes ∧ u.ctxs = s.ctxs)) ∧
  (∀ (s : State) (m sq op status tag : Nat) (crc : W32) (c : Cmd), s.mpRuns = true → s.tw.mode = .paired → s.twinLink = true →
     (s.tw.leader = true → exec (.journalEntry m sq op crc status [] []) s = .next (s.addRec 0x0307 0xFF 0xFF 0xFF 0xFF 0 [w32 m, w32 op])) ∧
     (s.tw.leader = false → s.tw.journalIn = [] → sq = s.tw.applied + 1 → s.tw.gone = [] → s.waitsEntry m = some c → s.mayStart m c = true →
       let u := s.withTw fun t => { t with applied := sq }
       ((op ≠ c.op ∨ crc ≠ crc32c (wordsBytes c.words)) → exec (.journalEntry m sq op crc status [] []) s =
         .next ((u.respond m c eTwin []).addRec 0x0307 0xFF 0xFF 0xFF 0xFF 0 [w32 m, w32 c.op])) ∧
       (op = c.op → crc = crc32c (wordsBytes c.words) → status ≠ sOk → exec (.journalEntry m sq op crc status [] []) s = .next (u.respond m c status [])) ∧
       (op = c.op → crc = crc32c (wordsBytes c.words) → status = sOk → exec (.journalEntry m sq op crc status [] []) s = .next (u.runAs m c [] []))) ∧
     (s.tw.leader = false → s.waitsEntry m = some c → c.tag = tag → (∀ e ∈ s.tw.journalIn, e.mbox ≠ m) →
       exec (.journalTimeout m tag) s = .next ((s.respond m c eTwin []).withTw fun t => { t with gone := t.gone ++ [m] })))

/-- R291, R408, R415, R416: FAULT_READ answers the oldest records, the FCU's first, and removes them; FAULT_CLEAR clears the causes named or none;
FAULT_INJECT notes the fault, which acts once its drips have passed. Conventions of the model: log entries 22, 32. -/
def Obligations.FaultCommands : Prop :=
  ∀ (s : State) (m tag : Nat) (c : Cmd) (r : FRec) (rest : List FRec),
    (s.ready m tag 0x54 c → fld (c.word 0) 0 2 = 1 →
      (s.fcuRecs = r :: rest → r.code ≠ 1 → exec (.faultRead m tag) s = .next (({ s with fcuRecs := rest } : State).finish m c sOk
        (w32 (1 + min 255 (rest.length + s.mpRecs.length) * 2 ^ 8) :: r.words) [])) ∧
      (s.fcuRecs = [] → s.mpRecs = r :: rest → r.code ≠ 1 → exec (.faultRead m tag) s = .next (({ s with mpRecs := rest } : State).finish m c sOk
        (w32 (1 + min 255 rest.length * 2 ^ 8) :: r.words) []))) ∧
    (s.ready m tag 0x55 c →
      ((∀ b, b ∈ [1, 2, 3, 4] → bitAt (c.word 0) b = true → s.causeHolds b = false) →
        ∃ u : State, exec (.faultClear m tag) s = .next (u.finish m c sOk [w32 u.faultStatus] []) ∧ u.fcu.mpHalt = s.fcu.mpHalt ∧
          u.fcu.clock = (s.fcu.clock && !bitAt (c.word 0) 2) ∧ u.fcu.twinSignal = (s.fcu.twinSignal && !bitAt (c.word 0) 3) ∧
          u.fcu.result = (s.fcu.result && !bitAt (c.word 0) 4) ∧ u.fcu.faultN = s.fcu.faultN) ∧
      (∀ b, b ∈ [1, 2, 3, 4] → bitAt (c.word 0) b = true → s.causeHolds b = true → exec (.faultClear m tag) s = .next (s.finish m c eState [] []))) ∧
    (s.ready m tag 0x56 c → injectable (fld (c.word 0) 0 16) = true → targetOk (fld (c.word 0) 0 16) (fld (c.word 1) 0 8) = true →
      (geodeCode (fld (c.word 0) 0 16) = true → s.retiredG (fld (c.word 1) 0 8) = false) →
      exec (.faultInject m tag) s = .next ((s.withDev fun d =>
        { d with injected := d.injected ++ [(fld (c.word 0) 0 16, fld (c.word 1) 0 8, fld (c.word 2) 0 8)] }).finish m c sOk [] [])) ∧
    (s.dev.injected = [(0x0501, tag, 0)] → s.dev.die = .serving → s.pw.state = 0 → s.fcu.mpHalt = false →
      ∃ u : State, exec .injectedFault s = .next u ∧ u.fcu.mpHalt = true ∧ u.fcu.faultN = true ∧ u.dev.injected = [])

/-- R393, R394, R411, R412: eight frames of one cause apply it: FAIL_SILENT signals raise TWIN_SIGNAL, HOLD holds the die in reset; the hold's end
lets it start; the survivor holds its twin, records the failover, and enters SOLO at the next boundary; an unannounced silence is recorded. R56,
R407, R409: the MP's heartbeat counts; a missed heartbeat and a lockstep divergence halt the MP and drive FAULT_N; a domain more than 12.5 % off its
count is a clock fault, and one within it ends the condition; without REFCLK25 no cycle is counted and Quartz stops (R23); R410: the MP writes HOLD
and RESULT. Conventions of the model: log entries 1, 22, 41. -/
def Obligations.AlertsAndWatches : Prop :=
  (∀ (s : State) (w : Nat),
     (s.alertsOn = true → fld w 8 8 = 0xA5 → fld w 4 4 = 15 - fld w 0 4 →
       exec (.alertFrame w) s = .next (s.withFcu fun f =>
         { f with runCause := fld w 0 4, runLen := if f.runCause = fld w 0 4 then min 8 (f.runLen + 1) else 1 })) ∧
     ((fld w 8 8 ≠ 0xA5 ∨ fld w 4 4 ≠ 15 - fld w 0 4) → exec (.alertFrame w) s = .next s) ∧
     (s.fcu.runLen = 8 → s.fcu.runCause ≠ s.fcu.rx →
       (s.fcu.runCause = 2 → s.dev.die ≠ .inReset → ∃ u : State, exec .alertCauseApplied s = .next u ∧ u.fcu.rx = 2 ∧ u.fcu.twinSignal = true ∧ u.fcu.faultN = s.fcu.faultN) ∧
       (s.fcu.runCause = 4 → ∃ u : State, exec .alertCauseApplied s = .next u ∧ u.fcu.rx = 4 ∧ u.fcu.held = true ∧ u.fcu.faultN = true ∧ u.dev.die = .inReset)) ∧
     (s.fcu.rx ≠ 0 → s.dev.die = .serving → s.tw.announced = false → s.mpRecs.length < 128 →
       ∃ u : State, exec .alertAbsent s = .next u ∧ u.fcu.rx = 0 ∧ u.mpRecs.length = s.mpRecs.length + 1) ∧
     (s.mpRuns = true → s.mayHold = true → s.fcu.holdTx = false → s.running = true → s.mpRecs.length < 127 →
       ∃ u : State, exec .twinFailover s = .next u ∧ u.fcu.holdTx = true ∧ u.tw.leader = true ∧ u.tw.soloNext = true ∧ u.tw.mode = s.tw.mode ∧
         (u.mpRecs.map fun r => r.code) = (s.mpRecs.map fun r => r.code) ++ [0x0401, 0x0402]) ∧
     (s.fcu.held = true → s.fcu.rx ≠ 4 → exec .holdEnd s = .next (s.withFcu fun f => { f with held := false, faultN := false }))) ∧
  (∀ (s : State) (count : Nat) (b : Bool),
     (s.mpRuns = true → ∃ u : State, exec .heartbeatTick s = .next u ∧ u.regValue 9 .heartbeat = (s.dev.heartbeat + 1) % 2 ^ 32) ∧
     ((s.dev.die = .starting ∨ s.dev.die = .serving) → s.pw.state = 0 → s.fcu.mpHalt = false → s.fcuRecs.length < 8 →
       (s.sec.dbgHalt = false → s.fcu.quiet.getD 5 0 = 0 → ∃ u : State, exec .heartbeatMiss s = .next u ∧ u.fcu.mpHalt = true ∧ u.fcu.faultN = true ∧ u.fcuRecs.length = s.fcuRecs.length + 1) ∧
       (s.sec.dbgHalt = true → exec .heartbeatMiss s = .next s) ∧
       (∃ u : State, exec .mpLockstepDiverge s = .next u ∧ u.fcu.mpHalt = true ∧ u.fcu.faultN = true ∧ u.fcuRecs.length = s.fcuRecs.length + 1)) ∧
     (s.receives = true → s.unwatched 0 = false → s.fcu.failed = 0 →
       (2240 ≤ count → count ≤ 2880 →
         exec (.clockMonitorWindow 0 count true) s = .next (s.withFcu fun f => { f with quiet := upd f.quiet 5 fun n => n - 1 })) ∧
       ((count < 2240 ∨ 2880 < count) → ∃ u : State, exec (.clockMonitorWindow 0 count true) s = .next u ∧ u.fcu.clock = true ∧ u.fcu.faultN = true ∧ u.fcu.failed = 1) ∧
       ∃ u : State, exec (.clockMonitorWindow 0 count false) s = .next u ∧ u.dev.refclk = false ∧ u.qtzRuns = false ∧ u.fcu.clock = true ∧ u.fcu.faultN = true) ∧
     (s.mpRuns = true → b ≠ s.fcu.holdTx → (b = true → s.mayHold = true) →
       ∃ u : State, exec (.fcuHoldWrite b) s = .next u ∧ u.fcu = { s.fcu with holdTx := b }) ∧
     (s.mpRuns = true → exec (.fcuResultWrite b) s = .next (s.withFcu fun f => { f with result := b })))

/-! ### Lifecycle, firmware and debug (18_security_and_debug.md) -/

/-- R292, R425, R427, R429, R430, R436, R348: the host's commands whose checks pass go to Flint in the messages that carry them and wait for its
answer; a firmware whose floor is met starts at once and locks. R432, R436, R437: Flint answers STATE with its lifecycle, levels, floor and version;
CHALLENGE ends the die's session and holds one challenge, which the next UNLOCK consumes; an UNLOCK in time for it, with a good signature, opens a
session with the next number and leaves an audit entry. Conventions of the model: log entries 6, 7, 30, 36, 42, 44. -/
def Obligations.SecurityCommands : Prop :=
  (∀ (s : State) (m tag : Nat) (c : Cmd) (data : List Byte),
     (s.ready m tag 0x58 c → hostRange (c.word 1 + c.word 2 * 2 ^ 32) (c.word 3) 128 4096 = true → (lifePayload s.lifecycle (fld (c.word 0) 0 3)).isSome = true →
       s.sec.cdLevel = 0 → s.sec.flLevel = 0 → exec (.lifecycleAdvance m tag data none) s = .next (((debugChunks (padTo (c.word 3) data)).foldl
         (fun s b => s.sendFlint 0xF6 b) (s.setPhase m c 1 [])).sendFlint 0xF6 [6, w32 (fld (c.word 0) 0 3), w32 (c.word 3)])) ∧
     (s.ready m tag 0x59 c → fld (c.word 0) 0 2 = 1 → fld (c.word 0) 2 1 = 1 →
       exec (.debugChallenge m tag) s = .next ((s.setPhase m c 1 []).sendFlint 0xF6 [2, 5])) ∧
     (s.ready m tag 0x59 c → fld (c.word 0) 0 2 = 2 → fld (c.word 0) 2 1 = 1 → s.lifecycle = 3 → exec (.debugChallenge m tag) s = .next (s.finish m c eSealed [] [])) ∧
     (s.ready m tag 0x5A c → (∀ x, s.sec.chal = some x → x = (fld (c.word 0) 0 2, fld (c.word 0) 2 1)) →
       (fld (c.word 0) 2 1 = 0 → fld (c.word 0) 0 2 = 2 → s.tw.mode ≠ .paired ∧ s.tw.modeNext ≠ some .paired) → exec (.debugUnlock m tag) s =
       .next ((s.setPhase m c 1 []).sendFlint 0xF6 ([3, w32 (fld (c.word 0) 0 2 + fld (c.word 0) 2 1 * 4)] ++ c.words.drop 1))) ∧
     (s.ready m tag 0x5B c → hostRange (c.word 1 + c.word 2 * 2 ^ 32) (c.word 3) 1024 229376 = true → fwTarget c = 0 → s.dev.phase = 0 →
       imageForm (padTo (c.word 3) data) 0 (c.word 3) = true → imageKeyOk (padTo (c.word 3) data) s.lifecycle = true → imageBodyOk (padTo (c.word 3) data) (c.word 3) = true →
       s.dev.floor ≤ byteFld (padTo (c.word 3) data) 8 4 → byteFld (padTo (c.word 3) data) 12 4 ≤ s.dev.floor →
       ∃ u : State, exec (.fwUpdateMp m tag data none true) s = .next (u.respond m c sOk [w32 (byteFld (padTo (c.word 3) data) 8 4)]) ∧ u.dev.phase = 1 ∧
         u.dev.fwVer = byteFld (padTo (c.word 3) data) 8 4 ∧ u.sec.fwLock = true ∧ u.mbx = s.mbx ∧ u.fl = s.fl) ∧
     (s.ready m tag 0x5B c → hostRange (c.word 1 + c.word 2 * 2 ^ 32) (c.word 3) 1024 524288 = true → fwTarget c = 1 → s.sec.flLevel ≠ 2 →
       byteFld (padTo (c.word 3) data) 16 4 = c.word 3 →
       exec (.fwUpdateFlint m tag data none) s = .next ((s.setPhase m c 1 []).sendChunks 0xF5 0 254 (padTo (c.word 3) data)))) ∧
  (∀ (s : State) (rtc : Nat) (w : W32) (ch : Chal), s.fl.runs = true →
     (s.fl.sessions = [] → exec .debugMsgState s = .next ((s.takeFlint 0xF6 [1]).dbgSay 1 sOk
       [w32 (s.fl.lifecycle + s.fl.level * 2 ^ 6), w32 s.fl.floor, w32 s.fl.version])) ∧
     (∃ (u : State) (nonce : List W32), exec (.debugMsgChallenge [2, w] rtc) s = .next (u.dbgSay 2 sOk (idWords u ++ nonce)) ∧ nonce.length = 8 ∧
       u.fl.chal = some ⟨fld w.toNat 0 2, fld w.toNat 2 1, max s.fl.rtc rtc, leNat (wordsBytes nonce)⟩ ∧
       ∀ x ∈ u.fl.sessions, x.1 ≠ fld w.toNat 2 1) ∧
     (s.fl.chal = some ch → max s.fl.rtc rtc ≤ ch.ticks + 60 * 32768 → ch.level = fld w.toNat 0 2 → ch.die = fld w.toNat 2 1 → ch.die = 1 →
       s.fl.invasive = false → s.fl.unacked + 2 ≤ 4096 →
       (∃ u : State, exec (.debugMsgUnlock [3, w] true rtc) s = .next (u.dbgSay 3 sOk [w32 (s.fl.session + 1)]) ∧ u.fl.chal = none ∧
         u.fl.session = s.fl.session + 1 ∧ u.fl.sessions = s.fl.sessions ++ [(1, ch.level, s.fl.session + 1)] ∧ u.fl.level = ch.level ∧
         u.fl.auditNext = s.fl.auditNext + 1) ∧
       (∃ u : State, exec (.debugMsgUnlock [3, w] false rtc) s = .next (u.dbgSay 3 eAuth []) ∧ u.fl.chal = none ∧ u.fl.sessions = s.fl.sessions)) ∧
     (∀ (ctr : Nat) (tag : List W32), s.kcReady 0xF6 [4, w] ctr tag → exec (.debugMsgEnd [4, w] ctr tag) s =
       .next (((s.kcTaken 0xF6 [4, w] ctr).endSession (fld w.toNat 0 1) (fld w.toNat 4 3)).dbgSay 4 sOk [])))

/-- R425 to R430, R422, R348: authorisation data gathers at Flint; a legal, signed BLANK to DEVELOP transition installs the keys and the lifecycle
state in all three copies; FLOOR never lowers the floor; SIGN signs the ephemeral link key, between this device's identifier and the twin's, with the
device's private key; image data gathers until its last byte has come. Conventions of the model: log entries 6, 7, 30, 31, 36, 44. -/
def Obligations.FlintSecurityMessages : Prop :=
  ∀ (s : State) (tgt len : Nat) (t : State) (ws body : List W32), s.fl.runs = true →
    ((debugChunk body).1 + (debugChunk body).2.length ≤ 4096 → exec (.debugMsgChunk body) s = .next ((s.takeFlint 0xF6 body).withFl fun f =>
      { f with auth := f.auth.writeN (debugChunk body).1 (debugChunk body).2 })) ∧
    (advance tgt len true true (s.takeFlint 0xF6 [6, w32 tgt, w32 len]) = .ok (t, ws) → tgt < 8 → len < 2 ^ 32 →
      exec (.debugMsgAdvance [6, w32 tgt, w32 len] true true) s = .next (t.dbgSay 6 sOk ws) ∧ t.fl.lifecycle = tgt ∧ ws = [w32 tgt] ∧
        t.fl.auditNext = s.fl.auditNext + 1 ∧ t.fl.curve = s.fl.curve) ∧
    (imageForm (wordsBytes ((body.drop 1).take 32)) 0 (byteFld (wordsBytes ((body.drop 1).take 32)) 16 4) = true →
      imageKeyOk (wordsBytes ((body.drop 1).take 32)) s.fl.lifecycle = true → s.fl.invasive = false →
      ∃ u : State, exec (.debugMsgFloor body true) s = .next (u.dbgSay 7 sOk [w32 u.fl.floor]) ∧
        u.fl.floor = max s.fl.floor (byteFld (wordsBytes ((body.drop 1).take 32)) 12 4)) ∧
    (∀ (ctr : Nat) (tag : List W32),
      (s.kcReady 0xF6 body ctr tag → s.fl.secret = true → ∃ (u : State) (k : List W32), k.length = 8 ∧ u.fl = (s.kcTaken 0xF6 body ctr).fl ∧
        exec (.debugMsgSign body ctr tag) s = .next (u.dbgSay 8 sOk (leWords 16 (ecdsaWith deviceKey (nonceOf k) (linkText body))))) ∧
      (s.kcReady 0xF6 body ctr tag → s.fl.secret = false → exec (.debugMsgSign body ctr tag) s = .next ((s.kcTaken 0xF6 body ctr).dbgSay 8 eAuth [])) ∧
      (s.kcReady 0xF5 body ctr tag → ∀ img : Mem, img = s.fl.image.writeN (chunkOf body).1 (chunkOf body).2 → (chunkOf body).1 + (chunkOf body).2.length ≤ 524288 →
        (chunkOf body).1 + (chunkOf body).2.length < byteFld (img.readN 16 4) 0 4 →
        exec (.firmware body ctr tag true) s = .next ((s.kcTaken 0xF5 body ctr).withFl fun f => { f with image := img })))

/-! ### Flint (14_flint_metrology.md) -/

/-- R40, R41: a timing message re-aligns the drop schedule at once, and a drop cut short is skipped; without one the schedule goes on in holdover.
Conventions of the model: log entries 7, 30, 36, 44. -/
def Obligations.FlintTiming : Prop :=
  ∀ (s : State) (count len drops stamp ctr rtc : Nat) (tag : List W32), count < 2 ^ 64 → len < 2 ^ 32 → drops < 2 ^ 32 → stamp < 2 ^ 128 → s.fl.runs = true →
    (s.fl.kcOk 0xF1 (timingBody count len drops stamp) ctr tag = true → (s.fl.entering ≠ some 3) →
      ∃ u : State, exec (.timing (timingBody count len drops stamp) ctr tag rtc) s = .next u ∧ u.fl.timed = true ∧ u.fl.drip = count ∧ u.fl.len = len ∧
        u.fl.drops = drops ∧ u.fl.start = (stampUnits stamp : Nat) ∧ u.fl.holdover = false ∧
        u.fl.next = (if s.fl.timed = true ∧ s.fl.drip = count then s.fl.next else 0) ∧ u.fl.rtc = max s.fl.rtc rtc ∧ u.fl.kcCtr = some ctr ∧
        u.fl.tare = s.fl.tare ∧ u.fl.z = s.fl.z ∧ u.fl.frames = s.fl.frames) ∧
    (s.fl.kcOk 0xF1 (timingBody count len drops stamp) ctr tag = false → exec (.timing (timingBody count len drops stamp) ctr tag rtc) s =
      .next ((s.takeFlint 0xF1 (timingBody count len drops stamp)).flintSay 0xF1 (fld count 0 8) eAuth [])) ∧
    (s.fl.timed = true → s.fl.next = 0 → exec .timingHoldover s = .next (s.withFl fun f => { f with holdover := true }))

/-- R318 to R325: the end of a drop takes as each channel's code the rounded mean of the conversions that completed in it, or the last one, the u, G
and stability that the weighing gives, N as G less the tare, and begins the next drop, of the next drip after the last; parameters, curve, trail and
counter stay. R327, R329, R330: a due record without comparison is signed; its signing writes it to MRAM under the next number and sends it to a
receiver that is there; an INVASIVE session loses it. Conventions of the model: log entries 6, 28, 31, 36, 37. -/
def Obligations.FlintDropAndRecords : Prop :=
  (∀ (s : State) (codes : List (List Int)) (volts : Nat), s.fl.weighs = true → s.fl.timed = true → s.fl.hiber = false →
     ∃ u : State, exec (.flintDropSample codes volts [] false) s = .next u ∧ u.fl.codes = s.fl.newCodes codes ∧ u.fl.pos = s.fl.pos + 1 ∧
       u.fl.u = (s.fl.weigh (s.fl.newCodes codes) (s.fl.outOfRange codes) volts).u ∧
       u.fl.G = (s.fl.weigh (s.fl.newCodes codes) (s.fl.outOfRange codes) volts).G ∧
       u.fl.stable = (s.fl.weigh (s.fl.newCodes codes) (s.fl.outOfRange codes) volts).stable ∧
       (s.fl.next + 1 < s.fl.drops → u.fl.next = s.fl.next + 1 ∧ u.fl.drip = s.fl.drip) ∧
       (s.fl.drops ≤ s.fl.next + 1 → u.fl.next = 0 ∧ u.fl.drip = s.fl.drip + 1 ∧ u.fl.start = s.fl.start + (s.fl.len * 2 ^ 32 : Nat)) ∧
       u.fl.p = s.fl.p ∧ u.fl.curve = s.fl.curve ∧ u.fl.kmCtr = s.fl.kmCtr ∧ u.fl.audit = s.fl.audit ∧ u.geodes = s.geodes ∧
       (s.pw.target = none → u.mbx = s.mbx) ∧ (s.fl.use.conf = true → (s.fl.weigh (s.fl.newCodes codes) (s.fl.outOfRange codes) volts).net = u.fl.G - s.fl.use.tare)) ∧
  (∀ (s : State) (r : Ready) (rest : List Ready),
     (s.fl.ready = r :: rest → r.compared = false →
       exec .weightRecordDecision s = .next (s.withFl fun f => { f with ready := rest, signing := f.signing ++ [r] })) ∧
     (s.fl.ready = r :: rest → r.compared = true → ((s.fl.recent.find? fun x => x.pos == r.at').bind fun x => x.cmp) = none → s.fl.pos < r.at' + 3 →
       exec .weightRecordDecision s = .next s) ∧
     (s.fl.signing = r :: rest →
       (s.fl.invasive = true → exec .weightRecordSigned s = .next (s.withFl fun f => { f with signing := rest })) ∧
       (s.fl.invasive = false → s.fl.records.length < 4096 →
         ∃ (u : State) (b : List Byte), exec .weightRecordSigned s = .next u ∧ u.fl.records = s.fl.records ++ [(s.fl.recNext, b)] ∧
           u.fl.recNext = s.fl.recNext + 1 ∧ u.fl.signing = rest ∧ b.length = 128 ∧ b = s.fl.recordBytes r ++ ecdsa deviceKey (s.fl.recordBytes r) ∧
           (s.receives = true → u.fl.frames.map (fun f => (f.kind, f.payload)) = s.fl.frames.map (fun f => (f.kind, f.payload)) ++ [(4, b)]))))

/-- R344, R345, R326, R421: the first HELLO after a reset gives a fresh KC; MODE sets the mode; a certificate of another device that chains to the
root derives KP; a notice of a drop that is not completed waits for it; the MP hands the twin's notice on. Conventions of the model: log entries 6,
7, 30, 31, 36, 44. -/
def Obligations.FlintKeysAndPair : Prop :=
  ∀ (s : State) (ctr : Nat) (body tag : List W32),
    (s.fl.runs = true → s.fl.hello = false → s.toFlint.contains (0xF0, []) = true →
      ∃ (u : State) (salt : List Byte), exec .hello s = .next (u.flintSay 0xF0 0 0 (leWords 8 u.fl.kcKey)) ∧ salt.length = 32 ∧ u.fl.hello = true ∧
        u.fl.kc = s.fl.secret ∧ (s.fl.secret = true → u.fl.kcKey = kcOf salt) ∧ u.fl.kcCtr = none ∧ u.toFlint = s.toFlint.erase (0xF0, [])) ∧
    (s.kcReady 0xF7 body ctr tag →
      exec (.modeMsg body ctr tag) s = .next ((s.kcTaken 0xF7 body ctr).withFl fun f => { f with mode := .ofCode (fld (body.getD 0 0).toNat 0 2) })) ∧
    (s.kcReady 0xF4 body ctr tag →
      (s.fl.secret = true → exec (.pairCertificate body ctr tag true) s = .next ((s.kcTaken 0xF4 body ctr).withFl fun f =>
        if certId (wordsBytes body) = deviceId then { f with kp := false } else { f with kp := true, kpKey := kpOf (wordsBytes body), kpTx := 0, kpRx := 0 })) ∧
      exec (.pairCertificate body ctr tag false) s = .next ((s.kcTaken 0xF4 body ctr).withFl fun f => { f with kp := false }) ∧
      (s.fl.active = true → s.fl.use.cal = true → body.drop 5 = macWords s.fl.kpKey (body.take 5) → s.fl.kpRx < (body.getD 4 0).toNat → s.fl.dropsBack (body.getD 0 0).toNat (body.getD 1 0).toNat ≤ 2 →
        exec (.pairTwinCmp body ctr tag) s = .next ((s.kcTaken 0xF4 body ctr).withFl fun f =>
          { f with kpRx := (body.getD 4 0).toNat }.notice (body.getD 0 0).toNat (body.getD 1 0).toNat (signed 32 (body.getD 3 0).toNat))) ∧
      (body.drop 5 ≠ macWords s.fl.kpKey (body.take 5) → exec (.pairTwinCmp body ctr tag) s = .next (s.kcTaken 0xF4 body ctr))) ∧
    (s.mpRuns = true → s.tw.attached = true → s.twinLink = true →
      ∃ u : State, exec (.twinCmpRelay body) s = .next u ∧ u.toFlint = s.toFlint ++ [(0xF4, body)] ∧ u.fl = s.fl ∧ u.tw = s.tw)

/-- R373, R380, R381: ENTER is acknowledged, after the latch for HIBERNATE; COMMIT makes Flint watch its sources, and for HIBERNATE discard the
samples and Lantern events it has not sent (R17); ABORT and RUNNING end that, and after HIBERNATE RUNNING hands the carried time and the wake bits
over. R337, R350, R366, R388: CAL_EN_N's edges open and end calibration; the reset that an INVASIVE session's end causes keeps MRAM and the RTC; a
brown-out in HIBERNATE is remembered; a wake advances the RTC by a period and counts in HIBERNATE, where it is skipped while the last one still runs
(R268). Conventions of the model: log entries 1, 7, 36, 37, 42, 44. -/
def Obligations.FlintPowerAndResets : Prop :=
  (∀ (s : State) (ctr rtc : Nat) (body tag : List W32), s.kcReady 0xF3 body ctr tag →
     (fld (body.getD 0 0).toNat 8 2 = 1 → exec (.powerEnter body ctr tag rtc) s =
       .next ((((s.kcTaken 0xF3 body ctr).rtcAt rtc).withFl fun f => { f with entering := some 1 }).flintSay 0xF3 1 sOk [])) ∧
     (fld (body.getD 0 0).toNat 8 2 = 3 → body.length = 2 → exec (.powerEnter body ctr tag rtc) s =
       .next (((s.kcTaken 0xF3 body ctr).rtcAt rtc).withFl fun f => { f with entering := some 3, period := (body.getD 1 0).toNat, carry := none })) ∧
     (s.fl.entering = some 3 → ∃ u : State, exec (.powerCommit body ctr tag) s = .next u ∧ u.fl.hiber = true ∧ u.fl.ldoLow = true ∧
       u.fl.timed = false ∧ u.fl.entering = none ∧ u.fl.pst = 2 ∧ u.fl.chal = none ∧ u.fl.frames = s.fl.frames.filter fun f => decide (3 ≤ f.kind)) ∧
     (s.fl.entering = some 2 → s.raised 2 = 0 → ∃ u : State, exec (.powerCommit body ctr tag) s = .next u ∧ u.fl.committed = true ∧ u.fl.entering = none ∧
       u.fl.pst = 1 ∧ u.fl.hiber = s.fl.hiber) ∧
     exec (.powerAbort body ctr tag) s =
       .next (((s.kcTaken 0xF3 body ctr).withFl fun f => { f with entering := none, committed := false }).flintSay 0xF3 3 sOk []) ∧
     (s.fl.hiber = false → exec (.powerRunning body ctr tag rtc) s =
       .next (((s.kcTaken 0xF3 body ctr).withFl fun f => { f with committed := false, entering := none, pst := 0 }).flintSay 0xF3 4 sOk [])) ∧
     (s.fl.hiber = true → ∃ u : State, exec (.powerRunning body ctr tag rtc) s = .next u ∧ u.fl.hiber = false ∧ u.fl.ldoLow = false ∧ u.fl.pst = 0 ∧
       u.fl.frames.length = s.fl.frames.length + 2)) ∧
  (∀ (s : State) (codes : List (List Int)) (volts : Nat),
     exec .calEnNAsserted s = .next (s.withFl fun f => { f with calEn := true }) ∧
     exec .calEnNDeasserted s = .next (s.withFl fun f => { f with calEn := false, cal := none }) ∧
     (s.fl.up = true → s.fl.resetDue = true → s.fl.sessions = [] → ∃ u : State, exec .flintReset s = .next u ∧ u.fl.up = true ∧ u.fl.p = s.fl.p ∧
       u.fl.curve = s.fl.curve ∧ u.fl.audit = s.fl.audit ∧ u.fl.records = s.fl.records ∧ u.fl.rtc = s.fl.rtc ∧ u.fl.resetDue = false ∧ u.fl.tare = 0 ∧
       u.fl.zset = false ∧ u.fl.kc = false ∧ u.fl.cal = none ∧ u.fl.pos = 0 ∧ u.fl.lan = {} ∧ (s.fl.helper = true → u.fl.secret = s.fl.secret) ∧ u.geodes = s.geodes ∧ u.mbx = s.mbx) ∧
     (s.fl.up = true → ∃ u : State, exec .brownout s = .next u ∧ u.fl.brown = s.fl.hiber ∧ u.fl.ldoLow = false ∧ u.fl.curve = s.fl.curve ∧ u.fl.rtc = s.fl.rtc) ∧
     (s.fl.weighs = true → s.fl.timed = false → s.fl.period ≠ 0 → (s.fl.hiber = true → s.fl.lan.left ≤ s.fl.period * 93750) →
       ∃ u : State, exec (.rtcWake codes volts []) s = .next u ∧ u.fl.rtc = s.fl.rtc + s.fl.period ∧ u.fl.lan.wakes = s.fl.lan.wakes + bit s.fl.hiber ∧
         u.fl.lan.left ≠ 0 ∧ u.fl.pos = s.fl.pos + 1) ∧
     (s.fl.weighs = true → s.fl.timed = false → s.fl.period ≠ 0 → s.fl.hiber = true → s.fl.period * 93750 < s.fl.lan.left →
       exec (.rtcWake codes volts []) s = .next ((s.withFl fun f => { f with rtc := f.rtc + f.period }).withLan fun l =>
         { l with left := s.fl.lan.left - s.fl.period * 93750, skipped := l.skipped + 1 })))

/-! ### The conduit (10_streams.md) -/

/-- R243, R244, R330, R346, R248: the frame that Flint sends next leaves its buffer; a SAMPLE or LANTERN_EVENT updates the sequence number of its
source and feeds the streams of that source alone; a frame whose CRC is wrong is counted and lost; a RECORD frame sends its event on mailboxes 0 and
1; a metrology answer waits for its relay; RTC_LATCH sets Quartz after HIBERNATE with quality CARRIED; the leader's copy updates its sequence number
at the follower and feeds the streams of its source alone; a late copy is stood in for once. Conventions of the model: log entries 35, 36, 44. -/
def Obligations.ConduitFrames : Prop :=
  ∀ (s : State) (raw : List Byte) (f : Frame), s.receives = true →
    (parseFrame raw = none → (∀ g, nextFrame s.fl.frames = some g → g.kind = 1) → ∃ u : State, exec (.sampleFrame raw false) s = .next u ∧ u.conduit.crcErr = s.conduit.crcErr + 1 ∧ u.streams = s.streams ∧
      u.geodes = s.geodes) ∧
    (parseFrame raw = some f → nextFrame s.fl.frames = some f →
      (∀ upset, f.kind = 1 → s.follows = false → ∃ u : State, exec (.sampleFrame raw upset) s = .next u ∧
        u = ((s.withFl fun d => { d with frames := d.frames.erase f }).acceptFrame f upset).disagree f ∧ u.fl.frames = s.fl.frames.erase f ∧
        u.conduit.last = setKey s.conduit.last (1, f.source) f.seq ∧ ∀ i, i ∉ s.fedBy 1 f.source → u.stream i = s.stream i) ∧
      (∀ upset, f.kind = 2 → s.follows = false → ∃ u : State, exec (.lanternEvent raw upset) s = .next u ∧
        u = (s.withFl fun d => { d with frames := d.frames.erase f }).acceptFrame f upset ∧ u.fl.frames = s.fl.frames.erase f ∧
        u.conduit.last = setKey s.conduit.last (2, f.source) f.seq ∧ ∀ i, i ∉ s.fedBy 2 f.source → u.stream i = s.stream i) ∧
      (f.kind = 1 → s.fedBy 1 f.source = [] → s.tw.mode ≠ .paired → f.source ≠ 0 →
        ∃ u : State, exec (.sampleFrame raw false) s = .next u ∧ u.conduit = { s.conduit with last := setKey s.conduit.last (1, f.source) f.seq } ∧
          u.streams = s.streams ∧ u.fl.frames = s.fl.frames.erase f) ∧
      (f.kind = 2 → s.fedBy 2 f.source = [] → s.tw.mode ≠ .paired →
        ∃ u : State, exec (.lanternEvent raw false) s = .next u ∧ u.conduit = { s.conduit with last := setKey s.conduit.last (2, f.source) f.seq } ∧
          u.streams = s.streams ∧ u.fl.frames = s.fl.frames.erase f) ∧
      (f.kind = 4 → exec (.recordFrame raw) s = .next ((((s.withFl fun d => { d with frames := d.frames.erase f }).event 0 0x30 0 0
        [w32 (leNat ((f.payload.drop 4).take 4))]).event 1 0x30 0 0 [w32 (leNat ((f.payload.drop 4).take 4))]))) ∧
      (f.kind = 3 → s.conduit.stale = [] → isMet (fld ((leWords (f.payload.length / 4) f.payload).getD 0 0).toNat 24 8) = true →
        ∃ u : State, exec (.mailboxResponse raw) s = .next u ∧ u.conduit.answers = s.conduit.answers ++ [leWords (f.payload.length / 4) f.payload] ∧
          u.mbx = s.mbx ∧ u.fl.frames = s.fl.frames.erase f) ∧
      (f.kind = 5 → s.dev.fromHib = true → s.dev.phase ≠ 0 → ∃ u : State, exec (.rtcLatch raw) s = .next u ∧ u.time.quality = .carried ∧
        u.time.now = stampUnits (leNat ((f.payload.drop 28).take 16)) % timeMod ∧ u.dev.fromHib = false ∧ u.conduit.rtc = some (leNat ((f.payload.drop 28).take 16)))) ∧
    (∀ (kind src sq lost ts : Nat) (payload : List Byte) (poison : Bool), s.follows = true → s.twinLink = true → (kind = 1 ∨ kind = 2) →
      (∃ u : State, exec (.conduitCopy kind src sq lost ts payload poison) s = .next u ∧ getKey u.conduit.lead (kind, src) = some sq ∧
        u.conduit.last = s.conduit.last ∧ (kind = 1 → getKey u.conduit.copyTs src = some ts) ∧ u.fl = s.fl ∧ ∀ i, i ∉ s.fedBy kind src → u.stream i = s.stream i) ∧
      (seqGap (getKey s.conduit.lead (kind, src)) sq = 0 → s.conduit.stood = [] → exec (.conduitCopy kind src sq 0 ts payload poison) s = .next (State.feedAll
        { s with conduit :=
          { s.conduit with
            lead := setKey s.conduit.lead (kind, src) sq, copyTs := if kind = 1 then setKey s.conduit.copyTs src ts else s.conduit.copyTs } } kind src ts payload poison))) ∧
    (∀ (src sq ts : Nat) (payload : List Byte), s.follows = true → s.twinLink = true → s.fedBy 1 src = [] →
      (s.conduit.stood = [] → ∃ u : State, exec (.conduitCopy 1 src sq 0 ts payload false) s = .next u ∧ getKey u.conduit.lead (1, src) = some sq ∧
        getKey u.conduit.copyTs src = some ts ∧ u.streams = s.streams ∧ u.geodes = s.geodes) ∧
      (getKey s.conduit.due src = some ts → getKey s.conduit.copyTs src = none →
        ∃ u : State, exec (.twinLate src ts) s = .next u ∧ u.conduit.stood = s.conduit.stood ++ [(src, ts)] ∧ getKey u.conduit.copyTs src = some ts))

/-! ### Quartz (02_drip_and_time.md) -/

/-- R44: a read of `QTZ_NOW_FRAC` or `DRIP_COUNT_LO` by one of the nine requesters latches the time, or the drip count, for that requester and for no
other; a read of a latched register returns what that requester's latching read left, and changes nothing. -/
def Obligations.QuartzLatches : Prop :=
  ∀ (s : State) (r : Nat), r < 9 → s.time.latches.length = 9 →
    (∃ t : State, exec (.qtzNowFracRead r) s = .next t ∧
      t.regValue r .qtzNowNs = s.time.now / 2 ^ 32 % 1000000000 ∧
      t.regValue r .qtzNowSecLo = s.time.now / 2 ^ 32 / 1000000000 % 2 ^ 32 ∧ t.regValue r .qtzNowSecHi = s.time.now / 2 ^ 32 / 1000000000 / 2 ^ 32 % 2 ^ 16 ∧
      t.regValue r .dripCountHi = s.regValue r .dripCountHi ∧
      (∀ q, q ≠ r → t.regValue q .qtzNowNs = s.regValue q .qtzNowNs ∧ t.regValue q .qtzNowSecLo = s.regValue q .qtzNowSecLo ∧
        t.regValue q .qtzNowSecHi = s.regValue q .qtzNowSecHi ∧ t.regValue q .dripCountHi = s.regValue q .dripCountHi) ∧
      t.time.now = s.time.now ∧ t.drip = s.drip) ∧
    (∃ t : State, exec (.dripCountLoRead r) s = .next t ∧ t.regValue r .dripCountHi = s.drip.count / 2 ^ 32 % 2 ^ 32 ∧
      t.regValue r .qtzNowNs = s.regValue r .qtzNowNs ∧
      (∀ q, q ≠ r → t.regValue q .dripCountHi = s.regValue q .dripCountHi ∧ t.regValue q .qtzNowNs = s.regValue q .qtzNowNs ∧
        t.regValue q .qtzNowSecLo = s.regValue q .qtzNowSecLo ∧ t.regValue q .qtzNowSecHi = s.regValue q .qtzNowSecHi) ∧
      t.time.now = s.time.now ∧ t.drip = s.drip) ∧
    (s.readReg r .qtzNowNs).1 = s ∧ (s.readReg r .qtzNowSecLo).1 = s ∧ (s.readReg r .qtzNowSecHi).1 = s ∧ (s.readReg r .dripCountHi).1 = s

/-- R43: a read of `QTZ_STATUS` returns the quality and `PPS_NEW`, which only the MP's read clears, and reads of the time and the drip count return
their low words; a write of `QTZ_STEP` has effect from the MP only, and moves the time by a signed number of ns in the next QTZ cycle. R45: an edge
on PPS_IN is captured to the ns, unless it comes less than 500 ms after the last accepted one, a step between them left out of account. R48: the next
edge of an enabled PPS_OUT is a rise at a whole second plus the offset, or the fall after the width. R46: an edge left without an offset takes the
extrapolated one; 2.5 s after the last edge that yielded an e a disciplined clock falls to HOLDOVER. The servo's rate is an open value within its
limit (log entry 6). Conventions of the model: log entries 1, 2, 6, 8, 10. -/
def Obligations.QuartzEvents : Prop :=
  ∀ s : State,
    (∀ r, ∃ t : State, exec (.qtzStatusRead r) s = .next t ∧ t.readData = s.time.quality.code + 4 * bit s.time.ppsNew ∧
      t.time = { s.time with ppsNew := if r = 8 then false else s.time.ppsNew } ∧ t.drip = s.drip) ∧
    (∀ r, (∃ t : State, exec (.qtzNowFracRead r) s = .next t ∧ t.readData = s.time.now % 2 ^ 32) ∧
      ∃ t : State, exec (.dripCountLoRead r) s = .next t ∧ t.readData = s.drip.count % 2 ^ 32) ∧
    (∀ r v, r ≠ 8 → exec (.qtzStepWrite r v) s = .next s) ∧
    (∀ v : W32, s.qtzRuns = true → ∃ t : State, exec (.qtzStepWrite 8 v) s = .next t ∧ t.time.step = 0 ∧ t.mtime = (s.mtime + 1) % 2 ^ 64 ∧
      t.time.now = ((((s.time.now : Int) + v.toInt * 2 ^ 32) % (timeMod : Int) + (4 * 2 ^ 32 + s.time.rate)) % (timeMod : Int)).toNat ∧
      t.drip.start = (if s.drip.phase = .stopped then s.drip.start else s.drip.start + v.toInt * 2 ^ 32) ∧ t.drip.count = s.drip.count) ∧
    (∀ ph, ph < 4 → s.qtzRuns = true →
      (∀ x, s.time.ppsMark = some x → (((s.ns + ph) * nsU : Nat) : Int) < x + (500000000 * nsU : Nat) → exec (.ppsInEdge ph) s = .next s) ∧
      ((∀ x, s.time.ppsMark = some x → x + (500000000 * nsU : Nat) ≤ (((s.ns + ph) * nsU : Nat) : Int)) →
        ∃ t : State, exec (.ppsInEdge ph) s = .next t ∧ t.time.ppsNew = true ∧ t.time.ppsCap = s.ns + ph ∧ t.time.now = s.time.now ∧
          t.time.ppsMark = some (((s.ns + ph) * nsU : Nat) : Int) ∧ (⟨s.ns + ph, ((s.ns + ph) * nsU : Nat), false, false⟩ : Edge) ∈ t.time.edges ∧ t.time.quality = s.time.quality ∧ t.drip = s.drip)) ∧
    (s.qtzRuns = true → s.time.ppsOut = false → s.time.ppsOutEn = true → s.time.quality ≠ .unset → bitAt s.pw.held 0 = false →
      exec .ppsOutEdge s = .next ((s.advanceTo (nextRise s.ns s.time.ppsOutOffset * nsU)).withTime fun t => { t with ppsOut := true }) ∧
      (∃ k : Int, nextRise s.ns s.time.ppsOutOffset = k * giga + s.time.ppsOutOffset) ∧
      (s.ns : Int) ≤ nextRise s.ns s.time.ppsOutOffset ∧ nextRise s.ns s.time.ppsOutOffset < s.ns + giga) ∧
    (s.qtzRuns = true → s.time.ppsOut = true →
      exec .ppsOutEdge s = .next ((s.advanceTo ((lastRise s.ns s.time.ppsOutOffset + s.time.ppsOutWidth) * nsU)).withTime fun t => { t with ppsOut := false })) ∧
    (s.mpRuns = true →
      (s.time.edges = [] → s.time.quality = .disciplined → (∀ x, s.time.lastE = some x → x + (2500000000 * nsU : Nat) ≤ (s.time.now : Int)) →
        exec .timeServoSecond s = .next (s.withTime fun t => { t with quality := .holdover, good := 0 })) ∧
      (∀ (e : Edge) (a : TimeAdj) (off : Int), s.time.edges = [e] → e.done = false → s.recentEdge e = true → s.time.adj = some a →
        a.extrapolate (nearSec e.ns) = some off → |edgeErr e.ns off| ≤ 100 * 1000 * 2 ^ 16 →
        ∃ t : State, exec .timeServoSecond s = .next t ∧ t.time.edges = [{ e with done := true }] ∧ -3435973 ≤ t.time.rate ∧ t.time.rate ≤ 3435973 ∧
          t.time.now = s.time.now ∧ t.time.quality ≠ .unset ∧
          t.time.good = if |edgeErr e.ns off| < 1000 * 2 ^ 16 then s.time.goodAfter (nearSec e.ns) else 0))

/-! ### Drips, the boundary work and the exchange (02_drip_and_time.md, 10_streams.md, 17_twin_and_faults.md) -/

/-- R30, R27, R28, R29: a drip boundary while the generator runs adds 1 to the count, makes a waiting change the schedule in force, and starts the
drip at the nominal end of the last; in ROOST and TORPOR only that and the timing message happen. R27: a drop start moves to the next drop. R265,
R267: each boundary adds its work to those due, and the boundary work takes the oldest and freezes the stream counters. R399: a packet whose check
fails is discarded; R422: a packet that fails its authentication is a link failure. R379: an exit from ROOST or TORPOR records the wake, and then
(R76) the accesses that the host link holds complete. Conventions of the model: log entries 1, 7, 19, 20, 45. -/
def Obligations.DripBoundaries : Prop :=
  ∀ s : State,
    (∀ reads kats retired, s.drip.phase = .running → s.qtzRuns = true → s.pw.state ≠ 0 →
      ∃ t : State, exec (.dripBoundary reads kats retired) s = .next t ∧ t.drip.count = s.drip.count + 1 ∧ t.drip.drop = 0 ∧
        (s.time.step = 0 → t.drip.start = s.drip.start + s.drip.len * nsU) ∧
        (s.time.step ≠ 0 → s.time.now < s.nextBoundary → t.drip.start = s.drip.start + s.drip.len * nsU + s.time.step * nsU) ∧ t.pw.passed = s.pw.passed + 1 ∧ t.cic = s.cic ∧ t.streams = s.streams ∧
        (s.drip.pend = none → t.drip.len = s.drip.base ∧ t.drip.drops = s.drip.drops ∧ t.geodes = s.geodes) ∧
        (∀ p, s.drip.pend = some p → p.skip = false → t.drip.base = p.len ∧ t.drip.drops = p.drops ∧ (t.drip.len : Int) = (((p.len : Int) + p.trim).toNat : Nat) ∧
          t.drip.pend = none)) ∧
    (∀ reads kats retired, s.drip.phase = .running → s.qtzRuns = true → s.pw.state = 0 → s.mpRuns = true →
      ∃ t : State, exec (.dripBoundary reads kats retired) s = .next t ∧ t.drip.count = s.drip.count + 1 ∧ t.dev.workDue = s.dev.workDue ++ [s.drip.count + 1]) ∧
    (s.drip.phase = .running → s.qtzRuns = true → s.pw.state = 0 → s.drip.drop + 1 < s.drip.drops →
      ∃ t : State, exec .dropStart s = .next t ∧ t.drip.drop = s.drip.drop + 1 ∧ t.drip.count = s.drip.count ∧ t.geodes = s.geodes ∧
        t.cic = s.cic.map fun c => { c with pending := c.pending ||| 2 }) ∧
    (∀ d rest, s.mpRuns = true → s.dev.workDue = d :: rest → s.tw.sent = [] →
      ∃ t : State, exec .boundaryWork s = .next t ∧ t.dev.workDue = rest ∧ t.mbx = s.mbx ∧ t.gal = s.gal ∧
        t.streams = s.streams.map fun x => if x.state = 0 then x else { x with snap := x.cnt, snapCrc := s.conduit.crcErr, snapState := x.state }) ∧
    (∀ raw named, s.tw.attached = true → s.receives = true → s.twinLink = true →
      (parsePacket raw s.stamp = none → exec (.exchangePacketReceive raw named) s = .next s) ∧
      (∀ p, parsePacket raw s.stamp = some p → s.dev.workDue ≠ [] →
        exec (.exchangePacketReceive raw named) s =
          .next (s.withTw fun t => { t with recv := (t.recv ++ [p]).drop (t.recv.length + 1 - 4), named := named }))) ∧
    (∀ k : SentPk, s.mpRuns = true → s.tw.attached = true → s.tw.sent = [k] → k.done = false → s.tw.recv = [] → s.tw.missed = 0 →
      exec .exchangeTimeout s = .next (s.withTw fun t => { t with missed := 1, sent := [{ k with done := true }]
                                                                  mine := t.mine.filter fun w => w.since != k.drip })) ∧
    (s.mpRuns = true → s.tw.attached = true → s.tw.missed = 0 →
      exec .twinPacketAuthFail s = .next ((s.withTw fun t => { t with missed := 2 }).linkDown)) ∧
    (∀ reads, (s.pw.state = 1 ∨ s.pw.state = 2) → s.pw.seen = 2 ^ 5 → s.pw.levels = 0 →
      ∃ t : State, exec (.exitRoostTorpor reads) s = .next t.pwrEvent.releaseHost ∧ t.pw.state = 0 ∧ t.pw.wakeCause = 2 ^ 5 + s.pw.state * 2 ^ 16 ∧
        t.pw.outcome = 1 ∧ t.pw.passed = 0 ∧ t.tw.announced = false ∧ (s.pw.passed = 0 → t.geodes = s.geodes ∧ t.drip = s.drip))

/-! ### Power states (16_power_states.md) -/

/-- R370 to R374: when every block is at rest the handshake asks blocks 2 to 12 in order and waits for Flint, and Flint's acknowledgement makes the
entry ready; a block that is still at work when its wait ends refuses with its number and cause, and every block that agreed restarts. R372, R390:
the follower runs its handshake from block 2. R373, R382: the commit enters the state and latches the pads for TORPOR and HIBERNATE, the strobe
commits the follower. R369: HIBERNATE keeps nothing of the compute die. Conventions of the model: log entries 39, 42, 45. -/
def Obligations.PowerEntry : Prop :=
  ∀ (s : State) (t : Nat),
    (s.dev.die = .serving → s.pw.state = 0 → s.pw.target = some t → 1 ≤ t → t ≤ 3 → s.pw.asking = none → s.pw.ready = false → s.pw.agreed = [] → s.tw.mode ≠ .paired →
      s.blocksIdle t →
      ∃ u : State, exec (.powerHandshakeStart []) s = .next u ∧ u.pw.asking = some 12 ∧ u.pw.agreed = [11, 10, 9, 8, 7, 6, 5, 4, 3, 2] ∧ u.pw.flintAck = false ∧
        u.pw.state = 0 ∧ u.pw.target = some t ∧ u.geodes = s.geodes ∧ u.gal = s.gal ∧ u.mbx = s.mbx) ∧
    (s.pw.target = some t → s.pw.asking = some 12 → s.pw.flintAck = true → (t = 3 → s.conduit.rtc.isSome = true) → s.raised t = 0 → s.pw.abort = false →
      exec (.blockAnswer [] 0) s = .next (s.withPw fun p => { p with asking := none, agreed := 12 :: p.agreed, ready := true })) ∧
    (∀ cause, cause ≠ 0 → s.pw.target = some t → s.pw.asking = some 1 → s.pw.abort = false →
      exec (.blockAnswer [] cause) s = .next ((s.withPw fun p => { p with pend := none }).rollback 2 1 cause)) ∧
    (s.pw.target = some t → s.pw.asking = some 3 → s.outstanding ≠ [] → s.pw.abort = false →
      exec (.blockDelayTimeout []) s = .next ((s.withPw fun p => { p with pend := none }).rollback 2 3 3)) ∧
    (s.follows = true → s.dev.die = .serving → s.pw.state = 0 → s.pw.target = none → 1 ≤ t → t ≤ 3 → s.blocksIdle t → ∀ ticks df,
      ∃ u : State, exec (.followerHandshake t ticks df []) s = .next u ∧ u.pw.target = some t ∧ u.pw.follower = true ∧ u.pw.ticks = ticks ∧ u.pw.debugFollows = df ∧
        u.pw.asking = some 12 ∧ u.tw.announced = true ∧ u.geodes = s.geodes ∧ u.gal = s.gal) ∧
    (s.pw.target = some t → (t = 1 ∨ t = 2) → s.pw.ready = true → (∀ b ∈ s.mbx, b.cmd = []) → s.raised t = 0 → s.pw.pend = none →
      (∃ u : State, exec (if s.pw.follower then Instr.sbSync else .entryCommit) s = .next u ∧ u.pw.state = t ∧ u.pw.target = none ∧ u.pw.outcome = 1 ∧ u.pw.block = 0 ∧
        u.pw.agreed = [] ∧ u.pw.held = (if t = 2 then s.pw.held ||| 7 else s.pw.held) ∧ u.geodes = s.geodes ∧ u.gal = s.gal ∧ u.ctxs = s.ctxs)) ∧
    (s.pw.target = some 3 → s.pw.ready = true → (∀ b ∈ s.mbx, b.cmd = []) → s.raised 3 = 0 →
      (∃ u : State, exec (if s.pw.follower then Instr.sbSync else .hibernateEntry) s = .next u ∧ u.pw.state = 3 ∧ u.pw.held = s.pw.held ||| 7 ∧ u.dev.die = .inReset ∧
        u.geodes = State.reset.geodes ∧ u.gal = State.reset.gal ∧ u.ctxs = State.reset.ctxs ∧ u.mbx = State.reset.mbx ∧ u.fcuRecs = [] ∧ u.fl.hiber = true ∧ u.fl.mode = .none))

/-- R375 to R378: a wake source that rises is held, unless it is masked; during an entry it aborts the entry with its bit in `WAKE_CAUSE` and cause
0x0F, and in ROOST and TORPOR a host access is seen by the controller at once. R376: a pin raises its source by the mode of the board record. R375:
TCK wakes only in DEVELOP. R381: an exit from HIBERNATE records the sources and powers the compute die. Conventions of the model: log entries 1, 39,
42. -/
def Obligations.Wakes : Prop :=
  ∀ s : State,
    (∀ src, s.fl.up = true → src ∈ [1, 6, 7, 9, 10] → bitAt s.pw.masked src = false →
      (s.pw.target = none → s.pw.state = 0 → exec (.wake src) s = .next (s.withPw fun p => { p with levels := setBit p.levels src })) ∧
      (∀ t, s.pw.target = some t → t ≤ 2 → s.pw.state = 0 → s.pw.levels = 0 → s.pw.edges = 0 → src ∈ [1, 6, 7] → s.pw.reached = none → s.fl.lan.wakeRule = 0 →
        ∃ u : State, exec (.wake src) s = .next u ∧ u.pw.target = none ∧ u.pw.pend = none ∧ u.pw.agreed = [] ∧ u.pw.state = 0 ∧ u.pw.outcome = 3 ∧ u.pw.cause = 0x0F ∧
          u.pw.wakeCause = 2 ^ src ∧ u.geodes = s.geodes ∧ u.ctxs = s.ctxs)) ∧
    (∀ src, s.fl.up = true → src ∈ [1, 6, 7, 9, 10] → bitAt s.pw.masked src = true → exec (.wake src) s = .next s) ∧
    (∀ pin level, s.fl.up = true → pin < 4 → s.pw.target = none → s.pw.state = 0 → bitAt s.pw.masked (2 + pin) = false → s.pinMode pin = 4 →
      exec (.wakePin pin level) s = .next (s.withPw fun p =>
        { p with
          pins := if level then setBit p.pins pin else clearBit p.pins pin
          levels := if level then setBit p.levels (2 + pin) else clearBit p.levels (2 + pin)
          masked := if level then p.masked else clearBit p.masked (2 + pin) })) ∧
    (∀ pin level, s.fl.up = true → s.pinMode pin = 0 →
      exec (.wakePin pin level) s = .next (s.withPw fun p => { p with pins := if level then setBit p.pins pin else clearBit p.pins pin })) ∧
    ((s.pw.state = 1 ∨ s.pw.state = 2) → s.pw.target = none → bitAt s.pw.masked 6 = false → s.fl.committed = false →
      ∃ u : State, exec .hostAccessWake s = .next u ∧ bitAt u.pw.levels 6 = true ∧ bitAt u.pw.seen 6 = true ∧ u.pw.state = s.pw.state ∧ u.mbx = s.mbx) ∧
    (s.fl.lifecycle ≠ 1 → exec .tckWake s = .next s) ∧
    (s.fl.lifecycle = 1 → s.pw.state = 3 → s.pw.target = none → exec .tckWake s = .next (s.withPw fun p => { p with edges := setBit p.edges 8 })) ∧
    (s.fl.up = true → bitAt s.pw.masked 7 = false → s.pw.target = none → s.pw.state = 0 →
      exec (.sbWake true) s = .next (s.withPw fun p => { p with levels := setBit p.levels 7 }) ∧
      exec (.sbWake false) s = .next (s.withPw fun p => { p with levels := clearBit p.levels 7, masked := clearBit p.masked 7 })) ∧
    (s.pw.state = 3 → s.raised 3 ≠ 0 → bitAt (s.raised 3) 8 = false →
      exec .hibernateExit s = .next (((s.withFl fun f => { f with wakeBits := s.raised 3, ldoLow := false }).withPw fun p => { p with state := 0 }).withDev fun d =>
        { d with fromHib := true }))

/-- R386: each power sample enters the mean of the last 1,000, and a junction trip is over once every junction is below 115 °C. R387: above the
allowance a second ends with one reduction, of the context that the rule names, and an event; at 105 °C the limit takes the lowest points and 1/16
budgets, and at 115 °C the FCU gates ARITH and drives FAULT_N. Conventions of the model: log entries 40, 46. -/
def Obligations.PowerLimits : Prop :=
  ∀ s : State,
    (∀ p temps, s.mpRuns = true → s.pw.limit = false →
      ∃ u : State, exec (.powerSample p temps) s = .next u ∧ u.pw.samples = (p :: s.pw.samples).take 1000 ∧ u.pw.mean = u.pw.samples.sum / u.pw.samples.length ∧
        u.pw.temps = temps ∧ u.fcu.trip = (s.fcu.trip && !(temps.all fun t => decide (t < 115))) ∧ u.pw.points = s.pw.points ∧ u.pw.halved = s.pw.halved ∧ u.ctxs = s.ctxs) ∧
    (∀ twin a c, s.allowance = some a → s.tw.mode ≠ .paired → s.mpRuns = true → s.pw.limit = false → a < s.pw.mean → s.nextReduced = some c → c < s.pw.halved.length →
      ∃ u : State, exec (.throttle twin) s = .next (u.throttleEvent s.pw.mean) ∧ u.pw.steps = c :: s.pw.steps ∧ u.pw.halved.getD c 0 = s.pw.halved.getD c 0 + 1 ∧
        u.pw.points = s.pw.points ∧ ∀ k, k ≠ c → u.pw.halved.getD k 0 = s.pw.halved.getD k 0) ∧
    (∀ twin a, s.allowance = some a → s.tw.mode ≠ .paired → s.mpRuns = true → s.pw.limit = false → a < s.pw.mean → s.nextReduced = none → s.pw.points.getD 0 0 = 2 →
      exec (.throttle twin) s = .next ((s.withPw fun p => { p with steps := 24 :: p.steps, points := upd p.points 0 fun x => x - 1 }).throttleEvent s.pw.mean)) ∧
    (∀ sensor temp, s.mpRuns = true → 105 ≤ temp → s.pw.limit = false →
      ∃ u : State, exec (.thermalLimit sensor temp) s = .next u ∧ u.pw.limit = true ∧ u.pw.saved = s.pw.points ∧ u.pw.savedHalved = s.pw.halved ∧
        u.pw.points = [0, s.pw.points.getD 1 0, 0] ∧ u.pw.halved = List.replicate 24 4 ∧ u.gal = s.gal) ∧
    (∀ sensor temp, s.dev.die ≠ .inReset → 115 ≤ temp → s.fcu.trip = false →
      ∃ u : State, exec (.thermalTrip sensor temp) s = .next u ∧ u.fcu.trip = true ∧ u.fcu.clock = true ∧ u.fcu.faultN = true ∧ bitAt u.fcu.failed 1 = true ∧
        u.mayFire = false ∧ u.geodes = s.geodes ∧ u.gal = s.gal)

/-! ### Power, resets and start (19_startup.md) -/

/-- R443, R454, R459, R460: RST_N low, or a rail below its range, in ACTIVE, ROOST or TORPOR resets the compute die: it loses the Gallery, the
Geodes, the mailboxes and Quartz, the FCU store stays, Flint sees the reset and awaits a MODE message; in HIBERNATE and OFF nothing happens. R444:
the loss of the always-on supply leaves OFF, and its return starts Flint with its secret. R81, R445: a start applies the self-test's result to each
Geode (one faulty Vein takes the spare, two retire it) (R14: a UCIe module that fails to train stays down) and asks Flint for its state; without an
answer it reaches BOOT all the same, and an unlocked PLL stops it and drives FAULT_N. R446: once the Gallery root key is written, firmware fills the
Gallery with zeros, tests every Geode and reaches CALIBRATED. Conventions of the model: log entries 1, 4, 42. -/
def Obligations.StartAndResets : Prop :=
  ∀ s : State,
    (s.pw.state ≤ 2 →
      (∃ t : State, exec .rstNLow s = .next t ∧ t.dev.die = .inReset ∧ t.dev.rstN = false ∧ t.dev.rails = s.dev.rails ∧ t.gal = State.reset.gal ∧
        t.geodes = State.reset.geodes ∧ t.mbx = State.reset.mbx ∧ t.time = State.reset.time ∧ t.fcuRecs = s.fcuRecs ∧ t.fl.mode = .none ∧ t.fl.hello = false ∧
        t.fl.p = s.fl.p) ∧
      (∃ t : State, exec .railUndervoltage s = .next t ∧ t.dev.die = .inReset ∧ t.dev.rails = false ∧ t.dev.rstN = s.dev.rstN ∧ t.gal = State.reset.gal ∧
        t.fcuRecs = s.fcuRecs ∧ t.fl.mode = .none)) ∧
    (3 ≤ s.pw.state → exec .rstNLow s = .next s ∧ exec .railUndervoltage s = .next s) ∧
    (s.dev.aon = true → ∃ t : State, exec .aonPowerDown s = .next t ∧ t.pw.state = 4 ∧ t.dev.aon = false ∧ t.dev.die = .inReset ∧ t.fl.up = false ∧ t.fcuRecs = [] ∧
      t.fl.p = s.fl.p ∧ t.fl.records = s.fl.records) ∧
    (∀ puf, s.dev.aon = false → s.fl.helper = true →
      ∃ t : State, exec (.aonPowerUp puf) s = .next t ∧ t.dev.aon = true ∧ t.fl.up = true ∧ t.fl.secret = puf ∧ t.pw = {} ∧ t.fl.p = s.fl.p ∧ t.fl.records = s.fl.records) ∧
    (∀ veins down, s.dev.die = .inReset → s.pw.state = 0 → s.fcu.held = false → s.fl.up = true → s.dev.refclk = true →
      ∃ t : State, exec (.computeDieStart veins down) s = .next t ∧ t.dev.die = .starting ∧ (∀ k, k ∈ t.dev.down ↔ k ∈ down ∧ k < 3) ∧ t.toFlint = s.toFlint ++ [(0xF6, [1])] ∧ t.geodes.length = 32 ∧
        (∀ g < 32, (t.geode g).spareUsed = decide (veins.getD g 0 = 1) ∧ (t.geode g).retired = decide (2 ≤ veins.getD g 0)) ∧ t.gal = s.gal) ∧
    (s.dev.die = .starting → exec .flintStateTimeout s = .next (s.withDev fun d => { d with die := .serving, phase := 0, stateLost := true })) ∧
    (∀ domain count, s.dev.die = .starting → domain ≤ 4 →
      ∃ t : State, exec (.pllLockTimeout domain count) s = .next t ∧ t.dev.die = .noPll ∧ t.fcu.clock = true ∧ t.fcu.faultN = true ∧ bitAt t.fcu.failed domain = true) ∧
    (s.mpRuns = true → s.dev.phase = 1 → s.sec.galSet.length = 8 → s.dev.fromHib = false → s.geodes.length = 32 → (∀ d ∈ s.geodes, d.retired = false ∧ d.spareUsed = false) →
      ∃ t : State, exec (.firmwareSelfCalibration []) s = .next t ∧ t.dev.phase = 2 ∧ t.gal.initDone = true ∧ (∀ a, t.gal.mem.read a = 0) ∧ t.gal.scrubEn = true ∧
        t.toFlint = s.toFlint ∧ t.mpRecs = s.mpRecs ∧
        ∀ g < 32, (t.geode g).kat.done = true ∧ (t.geode g).kat.fail = false ∧ (t.geode g).retired = false) ∧
    (∀ errs, s.mpRuns = true → exec (.mpSramScrub errs) s = .next (s.withSec fun d => { d with sramErr := (d.sramErr ++ errs).filter fun e => e.2 == 2 }))

/-! ### The debug port (18_security_and_debug.md) -/

/-- R431, R434, R441: on the compute die in ACTIVE a read needs OBSERVE and a write or a control operation needs INVASIVE, else DENIED; outside
ACTIVE the answer is POWERDOWN. A read delivers the bytes of a Pocket, of MP SRAM or of the Gallery's store, a protected slab as it is stored (R208),
once the Gallery is filled (R212); a write changes them; halt, resume and step act on their target. R435: a mailbox 3 access reaches the host's
registers. R433: TRST_N leaves sessions alone. R439, R440: `DBG_CTRL.END` ends the session, a key word of the Gallery is taken while the set is open,
and the lock stays. What a Flint read delivers is an open value (log entries 6 and 38). Conventions of the model: log entries 25, 38, 47, 49. -/
def Obligations.DebugPort : Prop :=
  ∀ s : State,
    (s.dev.die ≠ .inReset → s.pw.state = 0 →
      (s.sec.cdLevel = 0 → ∀ a, exec (.dapRead 0 a) s = .next (s.dapAck 0 2 none)) ∧
      (s.sec.cdLevel < 2 → ∀ a v t, exec (.dapWrite 0 a v) s = .next (s.dapAck 0 2 none) ∧ exec (.dapHalt 0 t) s = .next (s.dapAck 0 2 none) ∧
        exec (.dapResume 0 t) s = .next (s.dapAck 0 2 none) ∧ exec (.dapStep 0 t) s = .next (s.dapAck 0 2 none)) ∧
      (1 ≤ s.sec.cdLevel →
        (∀ g o, g < 32 → o < 2 ^ 21 → s.retiredG g = false → exec (.dapRead 0 (0x9000000000 + g * 2 ^ 21 + o)) s = .next (s.dapAck 0 0 (some (leNat ((s.geode g).pocket.readN o 4))))) ∧
        (∀ o, o < 262144 → exec (.dapRead 0 (0xA000000000 + o)) s = .next (s.dapAck 0 0 (some (leNat (s.sec.sram.readN o 4))))) ∧
        (∀ p, p < 512 * 2 ^ 20 →
          (s.galOpen = false → exec (.dapRead 0 (0x8000000000 + p)) s = .next (s.dapAck 0 1 none)) ∧
          (s.galOpen = true → exec (.dapRead 0 (0x8000000000 + p)) s = .next ((s.galEcc p 4 0).dapAck 0 0 (some (leNat
            (if ((s.galEcc p 4 0).gal.slab (p / 2 ^ 20)).state = .prot then (List.range 4).map fun i => (s.galEcc p 4 0).storedByte (p / 2 ^ 20) (p % 2 ^ 20 + i)
            else (s.galEcc p 4 0).gal.mem.readN p 4))))))) ∧
      (2 ≤ s.sec.cdLevel →
        (∀ o v, o < 262144 →
          exec (.dapWrite 0 (0xA000000000 + o) v) s = .next ((s.withSec fun d => { d with sram := d.sram.writeN o (leBytes 4 v.toNat) }).dapAck 0 0 none)) ∧
        (∀ p v, p < 512 * 2 ^ 20 → s.galOpen = true → (s.gal.slab (p / 2 ^ 20)).state = .prot → exec (.dapWrite 0 (0x8000000000 + p) v) s = .next (s.dapAck 0 4 none)) ∧
        (∀ g, g < 32 → g < s.geodes.length →
          (∃ t : State, exec (.dapHalt 0 (16 + g)) s = .next (t.dapAck 0 0 none) ∧ (t.geode g).halted = true ∧ t.sec = s.sec) ∧
          (∃ t : State, exec (.dapResume 0 (16 + g)) s = .next (t.dapAck 0 0 none) ∧ (t.geode g).halted = false ∧ t.sec = s.sec) ∧
          (∃ t : State, exec (.dapStep 0 (16 + g)) s = .next (t.dapAck 0 0 none) ∧ (t.geode g).step = (s.geode g).halted ∧ (t.geode g).halted = (s.geode g).halted)) ∧
        (∃ t : State, exec (.dapHalt 0 0) s = .next (t.dapAck 0 0 none) ∧ t.sec.dbgHalt = true ∧ t.mpRuns = false ∧ t.geodes = s.geodes) ∧
        (∀ t, 9 ≤ t → t < 16 ∨ 48 ≤ t → exec (.dapHalt 0 t) s = .next (s.dapAck 0 4 none))) ∧
      (s.sec.cdLevel ≠ 0 → ∃ t : State, exec (.dapEnd 0) s = .next (t.dapAck 0 0 none) ∧ t.sec.cdLevel = 0 ∧ t.sec.dbgHalt = false ∧ t.sec.halts = [] ∧
        ∀ d ∈ t.geodes, d.halted = false)) ∧
    (s.dev.die ≠ .inReset → s.pw.state = 2 → ∀ a, exec (.dapRead 0 a) s = .next (s.dapAck 0 3 none)) ∧
    (s.dev.die ≠ .inReset → s.pw.state = 0 → ∀ (v : W32) upset,
      exec (.mbx3Access true 0 v upset) s =
        .next (((s.withSec fun d => { d with tap := d.tap.set 0 9 }).withMbx 3 fun b => b.putCmd v upset).withSec fun d => { d with mbx3Ack := 0 }) ∧
      ∃ t : State, exec (.mbx3Access false 1 v upset) s = .next t ∧ t.sec.mbx3Data = (s.mb 3).cmd.length ∧ t.sec.mbx3Ack = 0 ∧ t.mbx = s.mbx) ∧
    exec .trstN s = .next (s.withSec fun d => { d with tap := [2, 2] }) ∧
    (s.sec.cdLevel ≠ 0 → ∃ t : State, exec .dbgCtrlEnd s = .next t ∧ t.sec.cdLevel = 0 ∧ t.sec.dbgHalt = false ∧ t.toFlint = s.toFlint ++ [(0xF6, [w32 4, w32 32])]) ∧
    (∀ n w, n < 8 →
      (s.sec.galSet.length ≠ 8 → ∃ t : State, exec (.secGalKeyWrite n w) s = .next t ∧ t.sec.galKey = s.sec.galKey.set n w ∧ n ∈ t.sec.galSet ∧ t.gal = s.gal) ∧
      (s.sec.galSet.length = 8 → ∃ t : State, exec (.secGalKeyWrite n w) s = .next t ∧ t.sec = s.sec ∧ t.gal = s.gal)) ∧
    exec .fwLockWrite s = .next (s.withSec fun d => { d with fwLock := true })

/-! ### Application cores, the Shelf and the interrupt controllers (13_application_cores.md) -/

/-- R293, R295, R296: an access that the core's PMP does not let through (log entry 50), outside every region, or outside the slab set, is an access
fault. R303, R304: a load that hits a Shelf sector returns its bytes, and a store that hits makes it dirty; memory behind the Shelf is unchanged. An
access that is not cached goes to memory at once, and poison is an access fault. R298, R299: LR reserves a sector, SC stores only under the
reservation, an AMO returns the old value and stores the new, and a store by another requester ends the reservation; an atomic access to a region
that is not cacheable faults. R300: FENCE writes the requester's gathered stores; CBO.CLEAN writes a dirty sector back, CBO.FLUSH and CBO.INVAL drop
it too, CBO.ZERO fills it with zeros. Conventions of the model: log entries 8, 23, 26, 50. -/
def Obligations.CoreAccesses : Prop :=
  ∀ (s : State) (req addr n : Nat) (p : Place) (x : Sector),
    s.coreRuns req = true → req < s.cores.length → 1 ≤ n → addr % 64 + n ≤ 64 → s.gal.initDone = true → (∀ d ∈ s.shelf.dets, d.gather = none) →
    ((s.core req).pmpOk addr n false = false → req < 8 → ∀ err ext, exec (.coreLoad req addr n err ext) s = .next ((s.stepped req).accessFault req)) ∧
    (s.coreTarget req addr n false = .fault → ∀ err ext, exec (.coreLoad req addr n err ext) s = .next ((s.stepped req).accessFault req)) ∧
    (∀ data ext, data.length = n → s.coreTarget req addr n true = .fault → exec (.coreStore req addr data ext) s = .next ((s.stepped req).accessFault req)) ∧
    (∀ r, s.coreTarget req addr n false = .dev (some r) 0 true → mayRead req r = true → ∀ err ext,
      ∃ t : State, exec (.coreLoad req addr n err ext) s = .next t ∧ t.readData = s.regValue req r % 2 ^ (8 * n)) ∧
    (∀ err ext, s.coreTarget req addr n false = .mem (false, p.2) false →
      (((s.stepped req).galReadP p.2 n).2.2 = false →
        exec (.coreLoad req addr n err ext) s = .next (((s.stepped req).galReadP p.2 n).1.give req (leNat ((s.stepped req).galReadP p.2 n).2.1))) ∧
      (((s.stepped req).galReadP p.2 n).2.2 = true → exec (.coreLoad req addr n err ext) s = .next (((s.stepped req).galReadP p.2 n).1.accessFault req))) ∧
    (s.shelf.state = .enabled → s.shelf.sector p = some x → x.err = 0 → x.poison = [] → x.data.length = 64 → p.2 % 64 + n ≤ 64 → ∀ ext,
      (s.coreTarget req addr n false = .mem p true →
        ∃ t : State, exec (.coreLoad req addr n 0 ext) s = .next t ∧ (t.core req).result = leNat ((x.data.drop (p.2 % 64)).take n) ∧ (t.core req).faulted = false ∧
          t.gal = s.gal ∧ t.host = s.host ∧ t.shelf.lines = s.shelf.lines ∧ ∀ k, k ≠ req → t.core k = s.core k) ∧
      (∀ data, data.length = n → s.coreTarget req addr n true = .mem p true →
        ∃ t : State, exec (.coreStore req addr data ext) s = .next t ∧ t.gal = s.gal ∧ t.host = s.host ∧
          (∃ y, t.shelf.sector p = some y ∧ y.dirty = true ∧ y.data = splice x.data (p.2 % 64) data) ∧
          ∀ k, k ≠ req → (s.core k).res = some (p.1, secOf p.2) → (t.core k).res = none) ∧
      (n = 4 → addr % 4 = 0 → s.shelf.waits p = false → s.shelf.evicted p = none → ∀ v,
        let old := leNat ((x.data.drop (p.2 % 64)).take 4)
        (s.coreTarget req addr 4 false = .mem p true →
          ∃ t : State, exec (.coreAmo req addr 4 0 v ext) s = .next t ∧ (t.core req).res = some (p.1, secOf p.2) ∧ (t.core req).result = old ∧ t.gal = s.gal ∧
            t.shelf.lines = s.shelf.lines) ∧
        (s.coreTarget req addr 4 true = .mem p true →
          ((s.core req).res = some (p.1, secOf p.2) →
            ∃ t : State, exec (.coreAmo req addr 4 1 v ext) s = .next t ∧ (t.core req).res = none ∧ (t.core req).result = 0 ∧
              ∃ y, t.shelf.sector p = some y ∧ y.data = splice x.data (p.2 % 64) (leBytes 4 v)) ∧
          ((s.core req).res ≠ some (p.1, secOf p.2) →
            ∃ t : State, exec (.coreAmo req addr 4 1 v ext) s = .next t ∧ (t.core req).res = none ∧ (t.core req).result = 1 ∧ t.shelf = s.shelf ∧ t.gal = s.gal) ∧
          ∃ t : State, exec (.coreAmo req addr 4 3 v ext) s = .next t ∧ (t.core req).result = old ∧
            ∃ y, t.shelf.sector p = some y ∧ y.dirty = true ∧ y.data = splice x.data (p.2 % 64) (leBytes 4 ((old + v % 2 ^ 32) % 2 ^ 32)))) ∧
      (s.coreTarget req (secOf addr) 64 false = .mem p true → s.shelf.waits p = false → s.shelf.evicted p = none → x.dirty = true →
        exec (.cboClean req addr) s =
          .next (((s.stepped req).writeBack p.1 (secOf p.2) x).withShelf fun h => h.updHeld p fun y => { y with dirty := false }) ∧
        (∃ t : State, exec (.cboFlush req addr) s = .next t ∧ t.shelf.sector p = none ∧ t.gal = ((s.stepped req).writeBack p.1 (secOf p.2) x).gal) ∧
        (∃ t : State, exec (.cboInval req addr) s = .next t ∧ t.shelf.sector p = none ∧ t.gal = ((s.stepped req).writeBack p.1 (secOf p.2) x).gal)) ∧
      (s.coreTarget req (secOf addr) 64 true = .mem p true → p.2 % 64 = 0 → s.shelf.waits p = false → s.shelf.evicted p = none →
        ∃ t : State, exec (.cboZero req addr) s = .next t ∧ t.gal = s.gal ∧ ∃ y, t.shelf.sector p = some y ∧ y.dirty = true ∧ y.data = List.replicate 64 0)) ∧
    (∀ op v ext, s.coreTarget req addr 4 (op != 0) = .mem p false → exec (.coreAmo req addr 4 op v ext) s = .next ((s.stepped req).accessFault req)) ∧
    ((∀ m ∈ s.shelf.misses, m.req ≠ req) → exec (.fence req) s = .next (s.stepped req))

/-- R303, R304: a load miss of the Gallery that is filled brings its sector into the Shelf and hands the bytes over. R307: a write-back is issued,
and when it is done its line's dirty sectors are in memory and its entry is gone. R309: a Shelf that is disabled drains, may be enabled again before
the drain ends, and at the drain's end, which waits for every store miss, holds nothing; enabled from there it starts empty. R311 to R313: a write of
`CIC_IPI` sets the IPI bit of every block it names and of no other; the MP ORs context changes into a core's doorbell, which shows as a source; the
machine timer of a core is pending when `MTIME` has reached its compare value. Conventions of the model: log entries 26, 45. -/
def Obligations.ShelfAndInterrupts : Prop :=
  (∀ (s : State) (k : Nat),
     (∀ (x : Miss) (n : Nat) (ext : List Byte), s.shelf.misses[k]? = some x → x.host = false → x.load = some n → x.req < s.cores.length → s.galOpen = true → s.shelf.state = .enabled →
       s.shelf.line (false, x.addr) = none → s.shelf.evicted (false, x.addr) = none → s.shelf.evict.length < 8 → x.addr % 64 + n ≤ 64 → 1 ≤ n →
       (s.galReadP (secOf x.addr) 64).2.2 = false →
       ∃ t : State, exec (.shelfMissFill k ext) s = .next t ∧ t.shelf.misses = s.shelf.misses.eraseIdx k ∧
         (t.core x.req).result = leNat (((s.galReadP (secOf x.addr) 64).2.1.drop (x.addr % 64)).take n) ∧ (t.core x.req).faulted = false ∧
         ∃ y, t.shelf.sector (false, x.addr) = some y ∧ y.dirty = false ∧ y.data = (s.galReadP (secOf x.addr) 64).2.1) ∧
     (∀ (e : EvEntry) (ext : List Byte), s.shelf.evict[k]? = some e →
       (∃ t : State, exec (.evictionWritebackDone k true ext) s = .next t ∧ t.shelf.evict[k]? = some { e with issued := true } ∧ t.gal = s.gal) ∧
       (e.issued = true → s.backOpen e.host = true → e.merged = false → e.held = [] →
         exec (.evictionWritebackDone k false ext) s = .next ((s.cleanLine e.host e.addr).withShelf fun h => { h with evict := h.evict.eraseIdx k }))) ∧
     (s.shelf.state = .enabled → exec .shelfDisable s = .next (s.withShelf fun h => { h with state := .draining })) ∧
     (s.shelf.state = .draining → exec .shelfEnable s = .next (s.withShelf fun h => { h with state := .enabled })) ∧
     (s.shelf.state = .disabled →
       exec .shelfEnable s = .next (s.withShelf fun h => { h with state := .enabled, lines := [], plru := [], evict := [] })) ∧
     (s.shelf.state = .draining → (∀ x ∈ s.shelf.misses, x.store = none) →
       ∃ t : State, exec .shelfDrainDone s = .next t ∧ t.shelf.state = .disabled ∧ t.shelf.lines = [] ∧ t.shelf.evict = [] ∧ t.geodes = s.geodes)) ∧
  (∀ s : State, s.cic.length = 9 →
     (∀ req v, req < 9 → ∃ t : State, exec (.cicIpi req v) s = .next t ∧ t.cores = s.cores ∧
       ∀ k < 9, t.cic.getD k {} = if bitAt v k then { s.cic.getD k {} with pending := (s.cic.getD k {}).pending ||| 8 } else s.cic.getD k {}) ∧
     (∀ h v, h < 8 → ∃ t : State, exec (.doorbell h v) s = .next t ∧ (t.cic.getD h {}).doorbell = ((s.cic.getD h {}).doorbell ||| fld v 0 24) ∧
       (t.cic.getD h {}).pending = (s.cic.getD h {}).pending ∧ (∀ k, k ≠ h → t.cic.getD k {} = s.cic.getD k {}) ∧
       (fld v 0 24 ≠ 0 → t.regValue h (.cicPending h) = (s.cic.getD h {}).pending + 4)) ∧
     (∀ h, exec (.machineTimer h) s = .next (s.withCore h fun c => { c with timer := decide (c.cmp ≤ s.mtime) })))

/-! ### Queues and firings (04_geode_engine.md) -/

/-- R97 to R99: the slot that the rule chooses begins a firing with the limit its register holds, and the switch is charged: 2 cycles for the slot
that fired last, 6 for another; a slot that may not fire begins none. R102: of two RUN slots that name one input queue the higher one faults. R99:
reaching the limit, which the cycles of a COMMIT stalled on a full list do not count towards, is a program fault. R225: the MP records a halted
slot's fault, empties the slot and starts the context towards HALTED. R82: after the firing that found a faulty Vein the spare takes its place, and a
second one retires the Geode. Conventions of the model: log entries 1, 13, 17, 45. -/
def Obligations.Firings : Prop :=
  ∀ (s : State) (g i : Nat), g < s.geodes.length → i < (s.geode g).slots.length →
    (s.choice g = some i → (s.geode g).conflict = none → (s.geode g).firing = none →
      ∃ t : State, exec (.firingStart g i) s = .next t ∧ (t.firing g).map (fun f => (f.slot, f.drip, f.limit, f.cycles)) =
          some (i, s.drip.count, (s.slot g i).limit, if (s.geode g).fired = true ∧ (s.geode g).lastSlot = i then 2 else 6) ∧
        (t.slot g i).used = (s.slot g i).used + (if (s.geode g).fired = true ∧ (s.geode g).lastSlot = i then 2 else 6) ∧
        (t.geode g).queues = (s.geode g).queues ∧ (∀ h, h ≠ g → t.geode h = s.geode h) ∧ t.gal = s.gal) ∧
    (s.canFire g i = false → (s.geode g).conflict = none → exec (.firingStart g i) s = .next s) ∧
    (∀ j, (s.geode g).firing = none → (s.geode g).conflict = some j → exec (.firingStart g i) s = .next (s.progFault g j 0x11 (s.slot g j).pc)) ∧
    (∀ f, s.firing g = some f → f.limit ≠ 0 → s.arithRuns = true → s.commitFull g = false →
      exec (.firingLimit g) s = .next ((s.charge g (f.limit + f.stalled - f.cycles)).progFault g f.slot 0x0E (s.fsl g).pc)) ∧
    ((s.slot g i).state = .halted →
      ∃ t : State, exec (.programFaultHandling g i) s = .next t ∧ (t.slot g i).state = .empty ∧ (t.slot g i).prog = [] ∧ (t.slot g i).cause = 0 ∧
        ((s.slot g i).ctx < s.ctxs.length → (t.ctx (s.slot g i).ctx).halting = true ∧ (g, i) ∈ (t.ctx (s.slot g i).ctx).vacated)) ∧
    ((s.geode g).veinPending = 1 → (s.geode g).firing = none → s.arithRuns = true →
      ∃ t : State, exec (.veinRepairDone g) s = .next t ∧ (t.geode g).spareUsed = true ∧ (t.geode g).veinPending = 0 ∧ (t.geode g).tiles = [] ∧ (t.geode g).retired = (s.geode g).retired) ∧
    (∀ k, (s.geode g).firing = none → 2 ≤ (s.geode g).veinCount 0 + k → ((s.faultyVeins g k).geode g).retired = true ∧ bitAt ((s.faultyVeins g k).geode g).fault.toNat 1 = true ∧
      ∀ j < (s.geode g).slots.length, j < 4 → ((s.faultyVeins g k).slot g j).state = .empty)

/-- R94 to R96, R100, R105, R106: a released block of a bound output queue becomes visible, as it is, behind the blocks released before it in its
peer queue, and a parity error of the switch poisons it; a credit that is due reaches the producer. R100: a marker at the head of a queue is taken,
and one marker of the slot goes to every output queue. R224: a discarded queue is empty. R128: a Gallery write of a MOVE completes, and its bytes are
in memory then, or in a BACKGROUND slot with the next COMMIT. Conventions of the model: log entries 1, 13, 17, 19, 45. -/
def Obligations.QueueEvents : Prop :=
  ∀ (s : State) (g q : Nat), g < s.geodes.length → (s.geode g).queues.length = 24 → q < 24 →
    (∀ (e : Entry) (rest : List Entry) (pg pq : Nat), 16 ≤ q → (s.queue g q).entries = e :: rest → (s.queue g q).bind = 2 → (s.queue g q).peer = pg → (s.queue g q).peerQ = pq →
      pg ≠ g → pg < s.geodes.length → pq < (s.geode pg).queues.length → e.released = true → e.marker = false → e.ue = false → s.arithRuns = true → (s.geode g).retired = false → (s.geode pg).retired = false → (s.queue g q).waiting = [] →
      let after (x : Entry) : List Entry := (s.queue pg pq).entries.filter (fun y => y.released) ++ x :: (s.queue pg pq).entries.filter fun y => !y.released
      (∃ t : State, exec (.blockArrival g q false) s = .next t ∧ (t.queue g q).entries = rest ∧ (t.queue pg pq).entries = after e ∧
        ∀ h, h ≠ g → h ≠ pg → t.geode h = s.geode h) ∧
      (∃ t : State, exec (.blockArrival g q true) s = .next t ∧ (t.queue g q).entries = rest ∧
        (t.queue pg pq).entries = after { e with poison := true, bad := true })) ∧
    (1 ≤ (s.queue g q).creditDue → s.arithRuns = true →
      ∃ t : State, exec (.creditReturn g q) s = .next t ∧ (t.queue g q).credit = min 32 ((s.queue g q).credit + 1) ∧ (t.queue g q).creditDue = (s.queue g q).creditDue - 1 ∧
        (t.queue g q).entries = (s.queue g q).entries ∧ ∀ p, p ≠ q → t.queue g p = s.queue g p) ∧
    (∀ slot m rest, (s.geode g).firing = none → (s.geode g).retired = false → (s.geode g).halted = false → s.arithRuns = true → (s.slot g slot).state = .run → (s.slot g slot).cls ≠ .background → slot < 4 → (s.geode g).slots.length = 4 →
      q < 16 → (s.slot g slot).ins = [q] → (s.slot g slot).outs = [] → (s.queue g q).entries = m :: rest → m.marker = true → m.released = true → (s.queue g q).waiting = [] →
      ∃ t : State, exec (.markerHandling g slot q) s = .next t ∧
        (t.queue g q).entries = rest.filter fun e => !(!e.marker && e.released && e.origin == near64 s.drip.count m.origin % 2 ^ 32)) ∧
    ((s.geode g).runNames q = false →
      ∃ t : State, exec (.queueDiscard g q) s = .next t ∧ (t.queue g q).entries = [] ∧ (t.queue g q).held = [] ∧ (t.queue g q).waiting = []) ∧
    ((s.geode g).runNames q = true → exec (.queueDiscard g q) s = .next s) ∧
    (∀ (slot : Nat) (w : GalWrite), s.galOpen = true → (s.slot g slot).writes = [w] → w.done = false →
      ((s.slot g slot).cls = .background → exec (.moveGalleryWriteDone g slot 0) s = .next (s.withSlot g slot fun sl => sl.complete 0 sl.micro w)) ∧
      ((s.slot g slot).cls ≠ .background → w.store = true → w.enc = none → slot < (s.geode g).slots.length →
        ∃ t : State, exec (.moveGalleryWriteDone g slot 0) s = .next t ∧ (t.slot g slot).writes = [] ∧
          t.gal = (s.galWrite (s.slot g slot).ctx w.addr w.bytes w.poison).gal))

/-- R103: a slot goes from LOADED to RUN when its queues are bound and have legal quotas, from RUN to LOADED at once between firings, and to EMPTY
from LOADED or HALTED, which clears its program and registers; any other write is ignored. R402: a self-test begins at once between firings and waits
for the end of a firing otherwise, and its end shows the unit that failed; R83, R402: a retirement fires no slot again. R87: a scrub read corrects
and counts a correctable error. Conventions of the model: log entries 1, 18, 45. -/
def Obligations.SlotAndGeodeControl : Prop :=
  ∀ (s : State) (g i : Nat), g < s.geodes.length → i < (s.geode g).slots.length → i < 4 → (s.geode g).firing = none →
    ((s.slot g i).state = .loaded → (s.geode g).queuesReady (s.slot g i) = true → ((s.geode g).withSlot i fun sl => { sl with state := .run }).conflict = none →
      exec (.slotStateWrite g i 2) s = .next (s.withSlot g i fun sl => { sl with state := .run })) ∧
    ((s.slot g i).state = .loaded → (s.geode g).queuesReady (s.slot g i) = false → exec (.slotStateWrite g i 2) s = .next s) ∧
    ((s.slot g i).state = .run → exec (.slotStateWrite g i 1) s = .next (s.withSlot g i fun sl => { sl with state := .loaded })) ∧
    ((s.slot g i).state = .run → exec (.slotStateWrite g i 0) s = .next s) ∧
    ((s.slot g i).state = .halted → exec (.slotStateWrite g i 2) s = .next s) ∧
    (((s.slot g i).state = .loaded ∨ (s.slot g i).state = .halted) →
      ∃ t : State, exec (.slotStateWrite g i 0) s = .next t ∧ (t.slot g i).state = .empty ∧ (t.slot g i).prog = [] ∧ (t.slot g i).s = List.replicate 32 0 ∧
        (t.slot g i).a = List.replicate 16 0 ∧ (t.slot g i).v = List.replicate 16 {} ∧ (t.slot g i).pc = 0 ∧ (t.slot g i).cause = 0 ∧ ∀ k, k ≠ i → t.slot g k = s.slot g k) ∧
    ((s.geode g).kat.busy = false → (s.geode g).retired = false →
      ∃ t : State, exec (.katStart g) s = .next t ∧ (t.geode g).kat.busy = true ∧ (t.geode g).kat.done = false ∧ (t.geode g).slots = (s.geode g).slots ∧ ∀ k, t.canFire g k = false) ∧
    ((s.geode g).kat.busy = true → s.arithRuns = true → (s.geode g).kat.latent = none →
      (∃ t : State, exec (.katDone g none) s = .next t ∧ (t.geode g).kat.busy = false ∧ (t.geode g).kat.done = true ∧ (t.geode g).kat.fail = false) ∧
      ∀ u, u ≤ 4 → ∃ t : State, exec (.katDone g (some u)) s = .next t ∧ (t.geode g).kat.done = true ∧ (t.geode g).kat.fail = true ∧ (t.geode g).kat.unit = u) ∧
    ((s.geode g).retired = false →
      ∃ t : State, exec (.geodeRetire g) s = .next t ∧ (t.geode g).retired = true ∧ (∀ k, t.canFire g k = false) ∧ (t.geode g).queues = (s.geode g).queues) ∧
    (∀ word, s.arithRuns = true → (s.geode g).ce = [] → (s.geode g).ue = [] → (s.geode g).scrub + 1 < 32768 →
      (∃ t : State, exec (.pocketScrub g 0 word) s = .next t ∧ (t.geode g).scrub = (s.geode g).scrub + 1 ∧ (t.geode g).pocket = (s.geode g).pocket ∧
        (t.geode g).fault = (s.geode g).fault ∧ (t.geode g).ceCount = (s.geode g).ceCount) ∧
      ∃ t : State, exec (.pocketScrub g 1 word) s = .next t ∧ (t.geode g).ce = [] ∧ (t.geode g).ceCount = min 65535 ((s.geode g).ceCount + 1) ∧
        (t.geode g).fault = (s.geode g).fault ||| 4 ∧ (t.geode g).pocket = (s.geode g).pocket)

/-! ### Instructions of a Geode (05_stage_programs.md, 06_arithmetic.md) -/

/-- R117: executing an opcode that is not assigned is a program fault with cause 0x01. R118, R119: NOP has no effect; SETI, ADDI, ADD, SUB, MULI,
ALUI and RDSPEC write S[D], modulo 2^32, and S0 ignores the write (R111); ALUI with F 6 or 7 and RDSPEC 12 to 15 are cause 0x02. Conventions of the
model: log entries 13, 17, 46. -/
def Obligations.ScalarInstructions : Prop :=
  (∀ (s : State) (g t op : Nat),
     ¬ (op ≤ 0x11 ∨ (0x20 ≤ op ∧ op ≤ 0x2C) ∨ op = 0x30 ∨ op = 0x31 ∨ (0x40 ≤ op ∧ op ≤ 0x43) ∨ (0x50 ≤ op ∧ op ≤ 0x53) ∨ op = 0x60 ∨ op = 0x61) →
     s.faults g t op 0x01 (.unassignedOpcode g t)) ∧
  (∀ (s : State) (g t : Nat),
     let w := s.instrAt g
     let j := s.sreg g (fld w 46 5)
     let k := s.sreg g (fld w 41 5)
     let imm : W32 := BitVec.ofNat 32 (fld w 0 32)
     let sets (op : Nat) (i : Instr) (v : W32) : Prop := s.does g t op i fun u => u.setS g (fld w 51 5) v
     s.does g t 0x00 (.nop g t) id ∧
     sets 0x03 (.seti g t) imm ∧
     sets 0x04 (.addi g t) (j + imm) ∧
     sets 0x05 (.add g t) (j + k) ∧
     sets 0x06 (.sub g t) (j - k) ∧
     sets 0x07 (.muli g t) (j * imm) ∧
     (fld w 38 3 = 0 → sets 0x08 (.alui g t) (j &&& imm)) ∧
     (fld w 38 3 = 1 → sets 0x08 (.alui g t) (j ||| imm)) ∧
     (fld w 38 3 = 2 → sets 0x08 (.alui g t) (j ^^^ imm)) ∧
     (fld w 38 3 = 3 → sets 0x08 (.alui g t) (j <<< fld w 0 5)) ∧
     (fld w 38 3 = 4 → sets 0x08 (.alui g t) (j >>> fld w 0 5)) ∧
     (fld w 38 3 = 5 → sets 0x08 (.alui g t) (j.sshiftRight (fld w 0 5))) ∧
     (6 ≤ fld w 38 3 → s.faults g t 0x08 0x02 (.alui g t)) ∧
     (∀ v, (s.spend g t).special g (fld w 0 4) = .ok v → sets 0x09 (.rdspec g t) (BitVec.ofNat 32 v)) ∧
     (s.special g 0 = .ok g ∧ s.special g 1 = .ok (s.fslot g) ∧ s.special g 2 = .ok (s.fsl g).ctx ∧ s.special g 3 = .ok (s.fsl g).cls.code ∧ s.special g 4 = .ok s.drip.drop ∧
       s.special g 6 = .ok (s.drip.count % 2 ^ 32) ∧ s.special g 9 = .ok ((s.fsl g).size * 65536) ∧ s.special g 10 = .ok s.drip.drops) ∧
     (12 ≤ fld w 0 4 → s.faults g t 0x09 0x02 (.rdspec g t)) ∧
     (∀ u : State, ∀ v, u.setS g 0 v = u ∧ u.sreg g 0 = 0))

/-- R118: LOOP counts S[D] down and branches while the result is not 0; BR branches; BCMP branches as F compares; a target at or beyond the count is
cause 0x03. ASET and TSET write an A register or a word of a descriptor; SLD reads an aligned Pocket word, and a misaligned address or a poisoned
word is cause 0x0D. Conventions of the model: log entries 13, 46. -/
def Obligations.FlowAndAddressing : Prop :=
  ∀ (s : State) (g t : Nat),
    let w := s.instrAt g
    let d := s.sreg g (fld w 51 5)
    let j := s.sreg g (fld w 46 5)
    let k := s.sreg g (fld w 41 5)
    let p := fld w 0 10
    let a := (s.areg g (fld w 46 5) + fld w 0 32) % 2 ^ 32
    let base := (s.fsl g).base * 2 ^ 16
    let r := (s.spend g t).pocketRead g (base + a) 4
    let compares (b : Bool) : Prop := (b = true → s.jumps g t 0x0C p (.bcmp g t) id) ∧ (b = false → s.does g t 0x0C (.bcmp g t) id)
    (d - 1 ≠ 0 → s.jumps g t 0x0A p (.loopI g t) fun u => u.setS g (fld w 51 5) (d - 1)) ∧
    (d - 1 = 0 → s.does g t 0x0A (.loopI g t) fun u => u.setS g (fld w 51 5) 0) ∧
    s.jumps g t 0x0B p (.br g t) id ∧
    ((s.fsl g).prog.length ≤ p → s.faults g t 0x0B 0x03 (.br g t)) ∧
    (fld w 38 3 = 0 → compares (decide (j = k))) ∧
    (fld w 38 3 = 1 → compares (decide (j ≠ k))) ∧
    (fld w 38 3 = 2 → compares (decide (j.toInt < k.toInt))) ∧
    (fld w 38 3 = 3 → compares (decide (k.toInt ≤ j.toInt))) ∧
    (fld w 38 3 = 4 → compares (decide (j.toNat < k.toNat))) ∧
    (fld w 38 3 = 5 → compares (decide (k.toNat ≤ j.toNat))) ∧
    (6 ≤ fld w 38 3 → s.faults g t 0x0C 0x02 (.bcmp g t)) ∧
    (fld w 51 5 < 16 → s.does g t 0x0D (.aset g t) fun u => u.setA g (fld w 51 5) (j.toNat + fld w 0 32)) ∧
    (16 ≤ fld w 51 5 → s.faults g t 0x0D 0x02 (.aset g t)) ∧
    (fld w 38 3 < 4 → s.does g t 0x0E (.tset g t) fun u =>
      u.withFsl g fun sl => { sl with t := upd sl.t (fld w 51 5) fun x => setWord x (fld w 38 3) j }) ∧
    (4 ≤ fld w 38 3 → s.faults g t 0x0E 0x02 (.tset g t)) ∧
    (fld w 46 5 < 16 → a % 4 = 0 → a + 4 ≤ (s.fsl g).window →
      (r.2.2 = false → s.does g t 0x0F (.sld g t) fun _ => r.1.setS g (fld w 51 5) (BitVec.ofNat 32 (leNat r.2.1))) ∧
      (r.2.2 = true → s.issues g t 0x0F = true → exec (.sld g t) s = .next (r.1.progFault g (s.fslot g) 0x0D (s.fsl g).pc))) ∧
    (fld w 46 5 < 16 → a % 4 ≠ 0 → s.faults g t 0x0F 0x0D (.sld g t)) ∧
    (fld w 46 5 < 16 → a % 4 = 0 → (s.fsl g).window < a + 4 → s.faults g t 0x0F 0x08 (.sld g t)) ∧
    (16 ≤ fld w 46 5 → s.faults g t 0x0F 0x02 (.sld g t)) ∧
    (∀ (x : W128) (f h : Nat) (v : W32), f < 4 → h < 4 → fld (setWord x f v).toNat (32 * h) 32 = if h = f then v.toNat else fld x.toNat (32 * h) 32)

/-- R111, R114: an instruction that only writes S, A or T registers leaves the V registers, the program, the trackers and the signatures of its slot,
the Pocket and the queues of its Geode, every other slot and Geode, the Gallery, the contexts and the mailboxes as they were. Conventions of the
model: log entries 13, 46. -/
def Obligations.RegisterInstructionsFrame : Prop :=
  ∀ (s u : State) (g t op : Nat) (i : Instr), s.issues g t op = true → (s.fsl g).pc + 1 < (s.fsl g).prog.length →
    (op, i) ∈ [(0x00, Instr.nop g t), (0x03, .seti g t), (0x04, .addi g t), (0x05, .add g t), (0x06, .sub g t), (0x07, .muli g t), (0x0D, .aset g t), (0x0E, .tset g t), (0x50, .scaleGet g t), (0x61, .sigRead g t)] →
    exec i s = .next u → (u.firing g).isSome = true →
    (u.fsl g).v = (s.fsl g).v ∧ (u.fsl g).prog = (s.fsl g).prog ∧ (u.fsl g).trk = (s.fsl g).trk ∧ (u.fsl g).acc = (s.fsl g).acc ∧ (u.fsl g).obs = (s.fsl g).obs ∧
      (op ≠ 0x0D → (u.fsl g).a = (s.fsl g).a) ∧ (op ≠ 0x0E → (u.fsl g).t = (s.fsl g).t) ∧ ((op = 0x0D ∨ op = 0x0E) → (u.fsl g).s = (s.fsl g).s) ∧
      (∀ k, k ≠ fld (s.instrAt g) 51 5 → (u.fsl g).s.getD k 0 = (s.fsl g).s.getD k 0) ∧
      (u.geode g).pocket = (s.geode g).pocket ∧ (u.geode g).queues = (s.geode g).queues ∧ (u.geode g).tiles = (s.geode g).tiles ∧
      (∀ k, k ≠ s.fslot g → u.slot g k = s.slot g k) ∧ (∀ h, h ≠ g → u.geode h = s.geode h) ∧
      u.gal = s.gal ∧ u.ctxs = s.ctxs ∧ u.mbx = s.mbx ∧ u.time = s.time ∧ u.drip = s.drip

/-- R118, R96, R115: a YIELD of a REALTIME or ELASTIC slot whose drip no boundary has crossed ends the firing, releases its blocks, and resumes where
it says; a resume point at or beyond the count is cause 0x03. COMMIT has no effect in such a slot; in a BACKGROUND slot it releases, saves the
registers and the next PC, adds the micro-step's signature to the context's list and counts the micro-step, as the last instruction before its cause
0x04. Conventions of the model: log entries 14, 15, 17, 46. -/
def Obligations.YieldAndCommit : Prop :=
  ∀ (s : State) (g t : Nat) (f : Firing), s.firing g = some f → g < s.geodes.length → f.slot < (s.geode g).slots.length → (s.geode g).retirePending = false →
    let w := s.instrAt g
    let n := (s.fsl g).prog.length
    let p := if bitAt w 10 then fld w 0 10 else if (s.fsl g).pc + 1 = n then 0 else (s.fsl g).pc + 1
    (s.issues g t 0x01 = true → (s.fsl g).writes = [] → p < n → (s.fsl g).cls ≠ .background → f.missed = [] → f.crossed = false → f.veinFaults = 0 →
      ∃ u : State, exec (.yieldI g t) s = .next u ∧ u.firing g = none ∧ (u.slot g f.slot).pc = p ∧ (u.slot g f.slot).prog = (s.fsl g).prog ∧
        (∀ q ∈ (s.fsl g).outs, ∀ e ∈ (u.queue g q).entries, e.released = true ∨ e.slot ≠ f.slot) ∧ (∀ h, h ≠ g → u.geode h = s.geode h) ∧ u.gal = s.gal) ∧
    ((s.fsl g).writes = [] → n ≤ p → s.faults g t 0x01 0x03 (.yieldI g t)) ∧
    ((s.fsl g).cls ≠ .background → s.does g t 0x02 (.commit g t) id) ∧
    (s.issues g t 0x02 = true → (s.fsl g).cls = .background → (s.ctx (s.fsl g).ctx).bg.length < 16 → (s.fsl g).ctx < s.ctxs.length → (s.fsl g).writes = [] → (s.fsl g).pc + 1 < n →
      (s.fsl g).outs = [] → (s.fsl g).ins = [] → (s.ctx (s.fsl g).ctx).bg = [] → f.slot < 4 →
      ∃ u : State, exec (.commit g t) s = .next u ∧ (u.slot g f.slot).micro = (s.fsl g).micro + 1 ∧ (u.slot g f.slot).pc = (s.fsl g).pc + 1 ∧
        (u.slot g f.slot).saved = { s := (s.fsl g).s, a := (s.fsl g).a, pc := (s.fsl g).pc + 1, eCount := 0 } ∧ (u.slot g f.slot).acc = [] ∧ (u.slot g f.slot).eCount = 0 ∧
        (u.ctx (s.fsl g).ctx).bg = [{ micro := (s.fsl g).micro, sig := (s.fsl g).accOf (s.fsl g).micro }] ∧ (u.firing g).isSome = true ∧ u.gal = s.gal) ∧
    (s.issues g t 0x02 = true → (s.fsl g).cls = .background → (s.ctx (s.fsl g).ctx).bg.length < 16 → (s.fsl g).writes = [] → (s.fsl g).pc + 1 = n → f.slot < 4 → f.veinFaults = 0 →
      ∃ u : State, exec (.commit g t) s = .next u ∧ (u.slot g f.slot).micro = (s.fsl g).micro + 1 ∧ (u.slot g f.slot).state = .halted ∧ (u.slot g f.slot).cause = 4)

/-- R123, R124, R145: the vector instructions write V[D] lane by lane from V[J], V[K] and V[L], with poison where a source has it; a FN value that
the table does not list is cause 0x02. Conventions of the model: log entries 6, 12, 16, 46. -/
def Obligations.VectorArithmetic : Prop :=
  ∀ (s : State) (g t : Nat),
    let w := s.instrAt g
    let a := s.vreg g (fld w 48 4)
    let b := s.vreg g (fld w 44 4)
    let c := s.vreg g (fld w 40 4)
    let x := s.vreg g (fld w 52 4)
    let fn := fld w 36 4
    let imm : W32 := BitVec.ofNat 32 (fld w 0 32)
    let sets (op : Nat) (i : Instr) (l : List W32) (bad : Bool) : Prop := s.does g t op i fun u => u.setV g (fld w 52 4) ⟨l, bad⟩
    let zip (f : W32 → W32 → W32) : List W32 := List.zipWith f a.lanes b.lanes
    let all (v : W32) : List W32 := List.replicate 64 v
    ((List.range 6).map vopFn = [some fAdd, some fSub, some fMul, some fMax, some fMin, some fGt] ∧
      (List.range 8).map vunFn = [some fExp, some fRsqrt, some fRecip, some fRelu, some fAbs, some fNeg, some fSigmoid, some fCopy]) ∧
    (∀ f, vopFn fn = some f → sets 0x22 (.vop g t) (zip f) (a.poison || b.poison) ∧ sets 0x23 (.vopi g t) (a.lanes.map fun y => f y imm) a.poison) ∧
    (6 ≤ fn → s.faults g t 0x22 0x02 (.vop g t) ∧ s.faults g t 0x23 0x02 (.vopi g t)) ∧
    sets 0x24 (.vfma g t) (zip3 fFma a.lanes b.lanes c.lanes) (a.poison || b.poison || c.poison) ∧
    (∀ f, vunFn fn = some f → sets 0x25 (.vun g t) (a.lanes.map f) a.poison) ∧
    (8 ≤ fn → s.faults g t 0x25 0x02 (.vun g t)) ∧
    sets 0x26 (.vexpsub g t) (zip fun y z => fExp (fSub y z)) (a.poison || b.poison) ∧
    (fn = 0 → sets 0x27 (.vred g t) (all (treeRed fAdd a.lanes)) a.poison) ∧
    (fn = 1 → sets 0x27 (.vred g t) (all (treeRed fMax a.lanes)) a.poison) ∧
    (fn = 2 → sets 0x27 (.vred g t) (all (treeRed fAdd (a.lanes.map fun y => fMul y y))) a.poison) ∧
    (3 ≤ fn → s.faults g t 0x27 0x02 (.vred g t)) ∧
    (fn = 0 → sets 0x28 (.vbcast g t) (all (fCopy (a.lanes.getD (fld w 0 6) 0))) a.poison) ∧
    (fn = 1 → sets 0x28 (.vbcast g t) (all (fCopy (s.sreg g (fld w 0 5)))) false) ∧
    (2 ≤ fn → s.faults g t 0x28 0x02 (.vbcast g t) ∧ s.faults g t 0x2C 0x02 (.vcvt g t)) ∧
    s.does g t 0x29 (.vsel g t) (fun u => u.setV g (fld w 52 4)
      ⟨zip3 selLane a.lanes b.lanes c.lanes, a.poison || b.poison || c.poison⟩) ∧
    (fld w 52 4 ≠ 15 → s.does g t 0x2A (.vmoments g t) fun u =>
      (u.setV g (fld w 52 4) ⟨all (moments a.lanes imm).1, a.poison⟩).setV g (fld w 52 4 + 1) ⟨all (moments a.lanes imm).2, a.poison⟩) ∧
    (fld w 52 4 = 15 → s.faults g t 0x2A 0x02 (.vmoments g t)) ∧
    (fld w 0 5 ≤ 26 →
      let r := List.zipWith (fun (y : W32 × W32) (z : W32 × W32) => adamw ((range' (fld w 0 5) 6).map (s.sreg g)) y.1 y.2 z.1 z.2) (a.lanes.zip b.lanes) (c.lanes.zip x.lanes)
      let bad := a.poison || b.poison || c.poison || x.poison
      s.does g t 0x2B (.vadamw g t) fun u =>
        ((u.setV g (fld w 44 4) ⟨r.map fun y => y.1, bad⟩).setV g (fld w 40 4) ⟨r.map fun y => y.2.1, bad⟩).setV g (fld w 52 4) ⟨r.map fun y => y.2.2, bad⟩) ∧
    (26 < fld w 0 5 → s.faults g t 0x2B 0x02 (.vadamw g t)) ∧
    (fn = 0 → sets 0x2C (.vcvt g t) (a.lanes.map i32ToF32) a.poison) ∧
    (fn = 1 → sets 0x2C (.vcvt g t) (a.lanes.map f32ToI32) a.poison)

/-- R123: VLD brings 64 elements of the type that FN names from the slot's Pocket window into V[D] as FP32, and VST stores V[D] as 64 elements,
rounded to nearest without tracker scaling; POST advances A[J]; outside the window both are cause 0x08. Conventions of the model: log entries 13, 16,
46. -/
def Obligations.VectorMemory : Prop :=
  ∀ (s : State) (g t : Nat) (ty : EType),
    let w := s.instrAt g
    let j := fld w 48 4
    let a := s.areg g j + fld w 0 21
    let n := 64 * ty.size
    let at' := (s.fsl g).base * 2 ^ 16 + a
    let r := (s.spend g t).pocketRead g at' n
    let x := s.vreg g (fld w 52 4)
    let post (u : State) : State := if bitAt w 35 then u.setA g j (u.areg g j + n) else u
    EType.ofCode (fld w 36 4) = some ty →
    (a + n ≤ (s.fsl g).window →
      s.does g t 0x20 (.vld g t) (fun _ => post (r.1.setV g (fld w 52 4) ⟨(elemsOf ty.size 64 r.2.1).map (elemF32 ty), r.2.2⟩)) ∧
      (bitAt w 33 = false → bitAt w 34 = false →
        s.does g t 0x21 (.vst g t) fun u => post (u.pocketWrite g at' (elemBytes ty (x.lanes.map fun y => encodeNum ty none (valRaw y))) x.poison))) ∧
    ((s.fsl g).window < a + n → s.faults g t 0x20 0x08 (.vld g t) ∧ s.faults g t 0x21 0x08 (.vst g t))

/-- R129 to R131: QSKIP takes N entries; QPOP copies the payloads of N entries into the Pocket at the stride of the queue's format, or into V
registers as FP32; QPUSH adds N entries that carry the Pocket's bytes; QFWD adds the marker popped last. The status word of what was popped stands in
the S register that the instruction names. A queue that the slot does not name is cause 0x07, and N of 0 or above 32 cause 0x0C. Conventions of the
model: log entries 13, 17, 46. -/
def Obligations.QueueInstructions : Prop :=
  ∀ (s : State) (g t : Nat),
    let w := s.instrAt g
    let q := fld w 51 5
    let n := fld w 40 6
    let sd := fld w 30 5
    let st := fmtStride (s.queue g q).fmt
    let aj := fld w 47 4
    let post (u : State) : State := if bitAt w 46 then u.setA g aj (u.areg g aj + n * st) else u
    (q < 16 → bitAt (s.fsl g).qin q = true → 1 ≤ n → n ≤ 32 → ∀ u es, State.popN n (s.spend g t) g q = .ok (u, es) →
      s.does g t 0x42 (.qskip g t) (fun _ => (post u).setS g sd (qStatus es)) ∧
      (bitAt w 39 = false → (s.queue g q).fmt < 4 → s.areg g aj + n * st ≤ (s.fsl g).window → ∀ v, u.storeEntries g (s.areg g aj) st es = .ok v →
        s.does g t 0x40 (.qpop g t) (fun _ => (post v).setS g sd (qStatus es))) ∧
      (∀ ty, bitAt w 39 = true → EType.ofCode (fld w 23 3) = some ty → fmtFits ty false (s.queue g q).fmt = true → fld w 35 4 + n ≤ 16 → (s.queue g q).fmt < 4 →
        s.does g t 0x40 (.qpop g t) (fun _ => (post (u.loadEntries g (fld w 35 4) ty es)).setS g sd (qStatus es)))) ∧
    (16 ≤ q → q < 24 → bitAt (s.fsl g).qout (q - 16) = true →
      (1 ≤ n → n ≤ 32 → bitAt w 39 = false → (s.queue g q).fmt < 4 → ∀ u, State.pushPocket g q st n (s.spend g t) (s.areg g aj) = .ok u →
        s.does g t 0x41 (.qpush g t) (fun _ => post u)) ∧
      (n = 1 → ∀ f m, s.firing g = some f → f.lastMarker = some m → m.marker = true →
        s.does g t 0x43 (.qfwd g t) fun u => post (u.withQueue g q fun x => x.pushMarker { m with ts := s.stamp, released := false, slot := s.fslot g })) ∧
      (n = 1 → ∀ f, s.firing g = some f → f.lastMarker = none → s.faults g t 0x43 0x12 (.qfwd g t))) ∧
    ((q < 16 ∧ bitAt (s.fsl g).qin q = true ∧ (n = 0 ∨ 32 < n)) → s.faults g t 0x40 0x0C (.qpop g t) ∧ s.faults g t 0x42 0x0C (.qskip g t)) ∧
    ((16 ≤ q ∨ bitAt (s.fsl g).qin q = false) → s.faults g t 0x40 0x07 (.qpop g t) ∧ s.faults g t 0x42 0x07 (.qskip g t)) ∧
    ((q < 16 ∨ 24 ≤ q) → s.faults g t 0x41 0x07 (.qpush g t) ∧ s.faults g t 0x43 0x07 (.qfwd g t))

/-- R132, R133: SCALE.GET reads the scale in force of the tracker named; SCALE.SET takes a positive normal number, at once and for every entry, and
anything else is cause 0x13; SCALE.OBSERVE notes the largest magnitude of a register that carries no poison; SCALE.HOLD holds or frees the tracker.
SIG.FOLD folds the blocks of a raw Pocket region into the slot's signature; SIG.READ reads it. Conventions of the model: log entries 12, 13, 17, 46. -/
def Obligations.ScaleAndSignature : Prop :=
  ∀ (s : State) (g t : Nat),
    let w := s.instrAt g
    let k := fld w 44 2
    let v := s.sreg g (fld w 46 5)
    let x := s.vreg g (fld w 40 4)
    let now := if (s.fsl g).cls = .background then (s.fsl g).micro else s.curOrigin g
    let sr := (s.sreg g (fld w 41 5)).toNat
    let sb := (s.sreg g (fld w 36 5)).toNat
    s.does g t 0x50 (.scaleGet g t) (fun u => u.setS g (fld w 51 5) (((s.fsl g).trk.getD k {}).scaleFor (s.fsl g).cls (s.curOrigin g))) ∧
    (posNormal v = true → s.does g t 0x51 (.scaleSet g t) fun u => u.withFsl g fun sl =>
      { sl with trk := upd sl.trk k fun y => { y with scale := v, entries := [], past := [] }, obs := sl.obs.filter fun o => o.1 != k }) ∧
    (posNormal v = false → s.faults g t 0x51 0x13 (.scaleSet g t)) ∧
    (x.poison = true → s.does g t 0x52 (.scaleObserve g t) id) ∧
    (x.poison = false → s.does g t 0x52 (.scaleObserve g t) fun u => u.withFsl g fun sl => sl.observe k now (x.lanes.map valRaw)) ∧
    s.does g t 0x53 (.scaleHold g t) (fun u => u.withFsl g fun sl => { sl with trk := upd sl.trk k fun y => { y with held := bitAt w 51 } }) ∧
    (∀ d u, readDesc (s.treg g (fld w 51 5)) = .ok d → fld w 20 16 ≠ 0 → fld w 12 8 ≠ 0 → d.loc = .pocket → d.coded = false →
      (s.spend g t).sigFold g d (region (fld sr 0 16) (fld sb 0 16) (fld w 20 16) (fld w 12 8)) = .ok u → s.does g t 0x60 (.sigFold g t) fun _ => u) ∧
    s.does g t 0x61 (.sigRead g t) (fun u => u.setS g (fld w 51 5) ((s.fsl g).accOf now))

/-- R112, R120 to R122: a MATMUL of one row, FP8 and without partial sums or epilogue, over raw Pocket tensors writes 64 results, each the dot
product of the row of X with a column of the weight tile (a row of it for MATMUL.T), converted to TY's type, into TY's row; M of 0 is cause 0x0C.
R125, R126: a MOVE of one raw block copies it from one Pocket tensor to another, and MOVE.ZERO writes zeros there; an empty region is cause 0x0C.
Conventions of the model: log entries 13, 16, 17, 46. -/
def Obligations.ArrayAndMoves : Prop :=
  ∀ (s s1 s2 : State) (g t : Nat) (tile : Tile) (dw dx dy : Desc) (b : Blk),
    let w := s.instrAt g
    let ts := s.treg g (fld w 51 5)
    let sc := (s.sreg g (fld w 31 5)).toNat
    let sr := (s.sreg g (fld w 26 5)).toNat
    let a (op : Nat) : MatArgs := ⟨fld w 51 5, fld w 46 5, dw, dx, dy, none, fld sc 0 16, fld sc 16 16, fld sr 0 16, fld sr 16 16, 0, 0, fld w 17 4, fld w 13 4, false, 1, op == 0x11⟩
    let pocket8 (d : Desc) : Prop := d.loc = .pocket ∧ d.coded = false ∧ d.trkEn = false
    (∀ op i, (op, i) ∈ [(0x10, Instr.matmul g t none), (0x11, .matmulT g t none)] → fld w 56 8 = op →
      readDesc ts = .ok dw → readDesc (s.treg g (fld w 46 5)) = .ok dx → readDesc (s.treg g (fld w 41 5)) = .ok dy → pocket8 dw → pocket8 dx → pocket8 dy →
      dw.etype = .e4m3 → dx.etype = .e4m3 → dy.etype = .fp32 → fld w 24 2 = 0 → fld w 21 3 = 0 → bitAt w 12 = false → fld w 0 12 = 1 →
      (s.spend g t).tile g (a op) = .ok (s1, tile) → tile.poison = false → s1.tensorBlk g 1 (fld w 46 5) dx (fld sr 0 16) (fld sc 0 16) = .ok (s2, b) → b.poison = false →
      ((s2.firing g).map fun f => f.veinPoison) = some false → fld sr 16 16 < dy.rows → fld sc 16 16 < dy.cols → dy.base + fld sr 16 16 * dy.stride + fld sc 16 16 * 256 + 256 ≤ (s2.fsl g).window →
      s.does g t op i fun _ => s2.pocketWrite g ((s2.fsl g).base * 2 ^ 16 + (dy.base + fld sr 16 16 * dy.stride + fld sc 16 16 * 256))
        ((List.range 64).flatMap fun k => leBytes 4 (encodeNum .fp32 none (valRaw (matElem .e4m3 .e4m3 b.elems (tile.cols.getD k []) b.ex 0)))) false) ∧
    (fld w 24 2 ≠ 3 → fld w 21 3 < 6 → fld w 0 12 = 0 → s.faults g t 0x10 0x0C (.matmul g t none) ∧ s.faults g t 0x11 0x0C (.matmulT g t none)) ∧
    (readDesc ts = .ok dx → readDesc (s.treg g (fld w 46 5)) = .ok dy → pocket8 dx → pocket8 dy → dx.etype = dy.etype → fld w 10 2 = 0 → fld w 20 16 = 1 → fld w 12 8 = 1 →
      let rr := (s.sreg g (fld w 41 5)).toNat
      let bb := (s.sreg g (fld w 36 5)).toNat
      (s.spend g t).tensorBlk g 2 (fld w 51 5) dx (fld rr 0 16) (fld bb 0 16) = .ok (s1, b) → fld rr 16 16 < dy.rows → fld bb 16 16 < dy.cols →
      (s1.fsl g).window = (s.fsl g).window → (s1.fsl g).base = (s.fsl g).base → dy.rawAt (fld rr 16 16) (fld bb 16 16) + (elemBytes dy.etype b.elems).length ≤ (s.fsl g).window →
      s.does g t 0x30 (.moveI g t) fun _ => s1.pocketWrite g ((s.fsl g).base * 2 ^ 16 + dy.rawAt (fld rr 16 16) (fld bb 16 16)) (elemBytes dy.etype b.elems) b.poison) ∧
    (readDesc (s.treg g (fld w 46 5)) = .ok dy → pocket8 dy → fld w 10 2 = 0 → fld w 20 16 = 1 → fld w 12 8 = 1 →
      let rr := (s.sreg g (fld w 41 5)).toNat
      let bb := (s.sreg g (fld w 36 5)).toNat
      fld rr 16 16 < dy.rows → fld bb 16 16 < dy.cols → dy.rawAt (fld rr 16 16) (fld bb 16 16) + dy.etype.blockBytes ≤ (s.fsl g).window →
      s.does g t 0x31 (.moveZero g t) fun u =>
        u.pocketWrite g ((s.fsl g).base * 2 ^ 16 + dy.rawAt (fld rr 16 16) (fld bb 16 16)) (List.replicate dy.etype.blockBytes 0) false) ∧
    (fld w 10 2 ≠ 3 → fld w 20 16 = 0 → s.faults g t 0x30 0x0C (.moveI g t) ∧ s.faults g t 0x31 0x0C (.moveZero g t))

/-- R165, R166, R168: the canonical block of any 64 patterns of 8 bits, or of 32 of 16 bits, expands to the same patterns, and it has 2 to 66 bytes;
a block of +0 alone has 2. -/
def Obligations.CalciteRoundTrip : Prop :=
  ∀ (bf : Bool) (xs : List Nat), xs.length = (if bf then 32 else 64) → (∀ x ∈ xs, x < (if bf then 65536 else 256)) →
    calDecode bf (calEncode bf xs).length (calEncode bf xs) = .ok xs ∧ 2 ≤ (calEncode bf xs).length ∧ (calEncode bf xs).length ≤ 66 ∧
      ((∀ x ∈ xs, x = 0) → (calEncode bf xs).length = 2)

/-! ### The legal event counter (14_flint_metrology.md) -/

/-- R338: the event counter increments by 1 on an accepted legally relevant parameter change, a calibration commit and an accepted Flint firmware
update; no other command changes it, and no step resets it; a change that would pass 2^32 − 1 answers E_FULL. -/
def Obligations.EventCounter : Prop :=
  (∀ s t : State, step s = .next t →
     t.fl.events = s.fl.events ∨
     (t.fl.events = s.fl.events + 1 ∧ s.fl.events < 2 ^ 32 - 1 ∧
       ((∃ m tag, s.pending.head? = some (.metParamSet m tag)) ∨ (∃ m tag v, s.pending.head? = some (.metCalCommit m tag v)) ∨
         ∃ body ctr tag ok, s.pending.head? = some (.firmware body ctr tag ok)))) ∧
  (∀ (s t : State) (b : List Nat) (ws : List W32),
     (metParamSet b s = .ok (t, ws) → t.fl.events = s.fl.events + 1 ∧ metParamSet b (s.withFl fun f => { f with events := 2 ^ 32 - 1 }) = .error eFull) ∧
     (∀ volts, metCalCommit volts b s = .ok (t, ws) →
       t.fl.events = s.fl.events + 1 ∧ metCalCommit volts b (s.withFl fun f => { f with events := 2 ^ 32 - 1 }) = .error eFull) ∧
     (∀ (img : List Byte) (len : Nat), flintImage img len true s = .ok (t, ws) →
       t.fl.events = s.fl.events + 1 ∧ flintImage img len true (s.withFl fun f => { f with events := 2 ^ 32 - 1 }) = .error eFull))
end

