-- ==== Sys2Proof/Laws/Mem.lean ====
section
/-!
SUPPORT. The sparse memory: every operation keeps the canonical form, a read after a write gives the byte written, and a
write leaves every other byte alone.
-/
namespace Sys2Proof.Machine

theorem Mem.wfFrom_mono {m : Mem} {a b : Nat} (h : m.wfFrom b = true) (hab : a ≤ b) : m.wfFrom a = true := by
  cases m with
  | nil => rfl
  | cons c t =>
    obtain ⟨k, v⟩ := c
    simp only [Mem.wfFrom, Bool.and_eq_true, decide_eq_true_eq] at h ⊢
    exact ⟨⟨by omega, h.1.2⟩, h.2⟩

/-- A byte below every entry reads as 0. -/
theorem Mem.read_below {m : Mem} {lo a : Nat} (h : m.wfFrom lo = true) (ha : a < lo) : m.read a = 0 := by
  cases m with
  | nil => rfl
  | cons c t =>
    obtain ⟨k, v⟩ := c
    simp only [Mem.wfFrom, Bool.and_eq_true, decide_eq_true_eq] at h
    have : a ≠ k := by omega
    have h2 : a < k := by omega
    simp [Mem.read, this, h2]

theorem Mem.write_wfFrom {m : Mem} {lo a : Nat} {b : Byte} (h : m.wfFrom lo = true) (ha : lo ≤ a) : (m.write a b).wfFrom lo = true := by
  induction m generalizing lo with
  | nil => unfold Mem.write; split <;> simp_all [Mem.wfFrom]
  | cons c t ih =>
    obtain ⟨k, v⟩ := c
    simp only [Mem.wfFrom, Bool.and_eq_true, decide_eq_true_eq] at h
    obtain ⟨⟨h1, h2⟩, h3⟩ := h
    unfold Mem.write
    split
    · subst a
      split
      · exact Mem.wfFrom_mono h3 (by omega)
      · simp_all [Mem.wfFrom]
    · split
      · split
        · simp_all [Mem.wfFrom]
        · rename_i hb
          simp only [Mem.wfFrom, Bool.and_eq_true, decide_eq_true_eq, bne_iff_ne, ne_eq]
          exact ⟨⟨ha, hb⟩, ⟨by omega, by simpa using h2⟩, h3⟩
      · simp only [Mem.wfFrom, Bool.and_eq_true, decide_eq_true_eq]
        exact ⟨⟨h1, h2⟩, ih h3 (by omega)⟩

theorem Mem.write_wf {m : Mem} {a : Nat} {b : Byte} (h : m.wf = true) : (m.write a b).wf = true := Mem.write_wfFrom h (Nat.zero_le a)

theorem Mem.writeN_wf {m : Mem} {a : Nat} {bs : List Byte} (h : m.wf = true) : (m.writeN a bs).wf = true := by
  induction bs generalizing m a with
  | nil => exact h
  | cons b t ih => exact ih (Mem.write_wf h)

theorem Mem.filter_wfFrom {m : Mem} {lo : Nat} {p : Host.Cell → Bool} (h : m.wfFrom lo = true) : Mem.wfFrom lo (m.filter p) = true := by
  induction m generalizing lo with
  | nil => rfl
  | cons c t ih =>
    obtain ⟨k, v⟩ := c
    simp only [Mem.wfFrom, Bool.and_eq_true, decide_eq_true_eq] at h
    rw [List.filter_cons]
    split
    · simp only [Mem.wfFrom, Bool.and_eq_true, decide_eq_true_eq]
      exact ⟨h.1, ih h.2⟩
    · exact ih (Mem.wfFrom_mono h.2 (by omega))

theorem Mem.filter_wf {m : Mem} {p : Host.Cell → Bool} (h : m.wf = true) : Mem.wf (m.filter p) = true := Mem.filter_wfFrom h

theorem Mem.clear_wf {m : Mem} {a n : Nat} (h : m.wf = true) : (m.clear a n).wf = true := Mem.filter_wf h

theorem Mem.nil_wf : Mem.wf [] = true := rfl

theorem Mem.read_write_from {m : Mem} {lo a x : Nat} {b : Byte} (h : m.wfFrom lo = true) (ha : lo ≤ a) :
    (m.write a b).read x = if x = a then b else m.read x := by
  induction m generalizing lo with
  | nil =>
    unfold Mem.write
    split <;> by_cases hx : x = a <;> simp_all [Mem.read]
  | cons c t ih =>
    obtain ⟨k, v⟩ := c
    simp only [Mem.wfFrom, Bool.and_eq_true, decide_eq_true_eq] at h
    obtain ⟨⟨h1, h2⟩, h3⟩ := h
    unfold Mem.write
    split
    · subst a
      by_cases hb : b = 0
      · simp only [hb, if_true]
        by_cases hx : x = k
        · subst hx; simp [Mem.read_below h3 (by omega : x < x + 1)]
        · by_cases hx2 : x < k
          · rw [Mem.read_below h3 (by omega)]; simp [Mem.read, hx, hx2]
          · simp [Mem.read, hx, hx2]
      · simp only [hb, if_false, Mem.read]
        by_cases hx : x = k <;> simp [hx]
    · rename_i hak
      split
      · rename_i hlt
        by_cases hb : b = 0
        · simp only [hb, if_true]
          by_cases hx : x = a
          · subst hx; simp [Mem.read, hak, hlt]
          · simp [hx]
        · simp only [hb, if_false]
          by_cases hx : x = a
          · subst hx; simp [Mem.read]
          · by_cases hx2 : x < a
            · have : x ≠ k := by omega
              have : x < k := by omega
              simp [Mem.read, *]
            · simp [Mem.read, hx, hx2]
      · rename_i hlt
        by_cases hxk : x = k
        · subst hxk
          have : ¬ x = a := fun e => hak e.symm
          simp [Mem.read, this]
        · by_cases hxk2 : x < k
          · have : ¬ x = a := by omega
            simp [Mem.read, hxk, hxk2, this]
          · simp only [Mem.read, hxk, hxk2, if_false]
            exact ih h3 (by omega)

/-- A read after a write of one byte. -/
theorem Mem.read_write {m : Mem} {a x : Nat} {b : Byte} (h : m.wf = true) : (m.write a b).read x = if x = a then b else m.read x :=
  Mem.read_write_from h (Nat.zero_le a)

/-- A read after a write of several bytes. -/
theorem Mem.read_writeN {m : Mem} {a x : Nat} {bs : List Byte} (h : m.wf = true) :
    (m.writeN a bs).read x = if a ≤ x ∧ x < a + bs.length then bs.getD (x - a) 0 else m.read x := by
  induction bs generalizing m a with
  | nil =>
    have : ¬(a ≤ x ∧ x < a + ([] : List Byte).length) := by simp only [List.length_nil]; omega
    simp only [Mem.writeN, this, if_false]
  | cons b t ih =>
    rw [Mem.writeN, ih (Mem.write_wf h), Mem.read_write h]
    by_cases hx : x = a
    · subst hx; simp
    · by_cases h1 : a + 1 ≤ x ∧ x < a + 1 + t.length
      · have e : x - a = (x - (a + 1)) + 1 := by omega
        have h2 : a ≤ x ∧ x < a + (b :: t).length := by simp only [List.length_cons]; omega
        simp only [h1, h2, and_self, if_true]
        rw [e, List.getD_cons_succ]
      · have h2 : ¬(a ≤ x ∧ x < a + (b :: t).length) := by simp only [List.length_cons]; omega
        simp only [h1, h2, if_false, hx]

theorem Mem.read_clear_from {m : Mem} {lo a n x : Nat} (h : m.wfFrom lo = true) :
    (m.clear a n).read x = if a ≤ x ∧ x < a + n then 0 else m.read x := by
  induction m generalizing lo with
  | nil => simp [Mem.clear, Mem.read]
  | cons c t ih =>
    obtain ⟨k, v⟩ := c
    simp only [Mem.wfFrom, Bool.and_eq_true, decide_eq_true_eq] at h
    have ih' := ih h.2
    have ht : (Mem.clear t a n).wfFrom (k + 1) = true := Mem.filter_wfFrom h.2
    by_cases hk : a ≤ k ∧ k < a + n
    · have e : Mem.clear ((k, v) :: t) a n = Mem.clear t a n := by simp [Mem.clear, hk.1, hk.2]
      rw [e, ih']
      by_cases hx : x = k
      · subst hx; simp [hk]
      · by_cases hxk : x < k
        · simp [Mem.read, hx, hxk, Mem.read_below h.2 (by omega : x < k + 1)]
        · simp [Mem.read, hx, hxk]
    · have e : Mem.clear ((k, v) :: t) a n = (k, v) :: Mem.clear t a n := by
        simp only [Mem.clear, List.filter_cons]
        have : (!(decide (a ≤ k) && decide (k < a + n))) = true := by simp; omega
        simp [this]
      rw [e]
      by_cases hx : x = k
      · subst hx; simp [Mem.read, hk]
      · by_cases hxk : x < k
        · simp [Mem.read, hx, hxk]
        · simp only [Mem.read, hx, hxk, if_false]; exact ih'

/-- A read after a range has been cleared. -/
theorem Mem.read_clear {m : Mem} {a n x : Nat} (h : m.wf = true) : (m.clear a n).read x = if a ≤ x ∧ x < a + n then 0 else m.read x :=
  Mem.read_clear_from h

/-- Two memories in canonical form that read alike are equal. -/
theorem Mem.eq_of_read {m n : Mem} {lo : Nat} (hm : m.wfFrom lo = true) (hn : n.wfFrom lo = true) (h : ∀ a, m.read a = n.read a) : m = n := by
  induction m generalizing n lo with
  | nil =>
    cases n with
    | nil => rfl
    | cons c t =>
      obtain ⟨k, v⟩ := c
      simp only [Mem.wfFrom, Bool.and_eq_true, decide_eq_true_eq, bne_iff_ne] at hn
      have := h k
      simp [Mem.read] at this
      exact absurd this.symm hn.1.2
  | cons c t ih =>
    obtain ⟨k, v⟩ := c
    have hm0 := hm
    simp only [Mem.wfFrom, Bool.and_eq_true, decide_eq_true_eq, bne_iff_ne] at hm
    cases n with
    | nil =>
      have := h k
      simp [Mem.read] at this
      exact absurd this hm.1.2
    | cons c' t' =>
      obtain ⟨k', v'⟩ := c'
      simp only [Mem.wfFrom, Bool.and_eq_true, decide_eq_true_eq, bne_iff_ne] at hn
      have hk : k = k' := by
        rcases Nat.lt_trichotomy k k' with hlt | he | hgt
        · have := h k
          have n1 : k ≠ k' := by omega
          simp [Mem.read, n1, hlt] at this
          exact absurd this hm.1.2
        · exact he
        · have := h k'
          have n1 : k' ≠ k := by omega
          simp [Mem.read, n1, hgt] at this
          exact absurd this.symm hn.1.2
      subst hk
      have hv : v = v' := by simpa [Mem.read] using h k
      subst hv
      have : t = t' := by
        refine ih hm.2 hn.2 fun a => ?_
        by_cases ha : a < k + 1
        · rw [Mem.read_below hm.2 ha, Mem.read_below hn.2 ha]
        · have := h a
          have n1 : a ≠ k := by omega
          have n2 : ¬ a < k := by omega
          simpa [Mem.read, n1, n2] using this
      rw [this]

end Sys2Proof.Machine
end

