-- ==== Sys2Proof/Laws/State.lean ====
section
/-!
SUPPORT. One lemma per field and update of State, each true by unfolding: an update changes its own field, and every other field reads as
before.
-/
namespace Sys2Proof.Machine

/-! ### withMbx -/

@[simp] theorem State.withMbx_time (s : State) (m : Nat) (f : Mbx → Mbx) : (s.withMbx m f).time = s.time := rfl
@[simp] theorem State.withMbx_drip (s : State) (m : Nat) (f : Mbx → Mbx) : (s.withMbx m f).drip = s.drip := rfl
@[simp] theorem State.withMbx_mtime (s : State) (m : Nat) (f : Mbx → Mbx) : (s.withMbx m f).mtime = s.mtime := rfl
@[simp] theorem State.withMbx_mbx (s : State) (m : Nat) (f : Mbx → Mbx) : (s.withMbx m f).mbx = upd s.mbx m f := rfl
@[simp] theorem State.withMbx_geodes (s : State) (m : Nat) (f : Mbx → Mbx) : (s.withMbx m f).geodes = s.geodes := rfl
@[simp] theorem State.withMbx_gal (s : State) (m : Nat) (f : Mbx → Mbx) : (s.withMbx m f).gal = s.gal := rfl
@[simp] theorem State.withMbx_ctxs (s : State) (m : Nat) (f : Mbx → Mbx) : (s.withMbx m f).ctxs = s.ctxs := rfl
@[simp] theorem State.withMbx_mpRecs (s : State) (m : Nat) (f : Mbx → Mbx) : (s.withMbx m f).mpRecs = s.mpRecs := rfl
@[simp] theorem State.withMbx_fcuRecs (s : State) (m : Nat) (f : Mbx → Mbx) : (s.withMbx m f).fcuRecs = s.fcuRecs := rfl
@[simp] theorem State.withMbx_role (s : State) (m : Nat) (f : Mbx → Mbx) : (s.withMbx m f).role = s.role := rfl
@[simp] theorem State.withMbx_recSeq (s : State) (m : Nat) (f : Mbx → Mbx) : (s.withMbx m f).recSeq = s.recSeq := rfl
@[simp] theorem State.withMbx_recLost (s : State) (m : Nat) (f : Mbx → Mbx) : (s.withMbx m f).recLost = s.recLost := rfl
@[simp] theorem State.withMbx_dev (s : State) (m : Nat) (f : Mbx → Mbx) : (s.withMbx m f).dev = s.dev := rfl
@[simp] theorem State.withMbx_streams (s : State) (m : Nat) (f : Mbx → Mbx) : (s.withMbx m f).streams = s.streams := rfl
@[simp] theorem State.withMbx_conduit (s : State) (m : Nat) (f : Mbx → Mbx) : (s.withMbx m f).conduit = s.conduit := rfl
@[simp] theorem State.withMbx_cores (s : State) (m : Nat) (f : Mbx → Mbx) : (s.withMbx m f).cores = s.cores := rfl
@[simp] theorem State.withMbx_cic (s : State) (m : Nat) (f : Mbx → Mbx) : (s.withMbx m f).cic = s.cic := rfl
@[simp] theorem State.withMbx_shelf (s : State) (m : Nat) (f : Mbx → Mbx) : (s.withMbx m f).shelf = s.shelf := rfl
@[simp] theorem State.withMbx_pw (s : State) (m : Nat) (f : Mbx → Mbx) : (s.withMbx m f).pw = s.pw := rfl
@[simp] theorem State.withMbx_tw (s : State) (m : Nat) (f : Mbx → Mbx) : (s.withMbx m f).tw = s.tw := rfl
@[simp] theorem State.withMbx_fcu (s : State) (m : Nat) (f : Mbx → Mbx) : (s.withMbx m f).fcu = s.fcu := rfl
@[simp] theorem State.withMbx_sec (s : State) (m : Nat) (f : Mbx → Mbx) : (s.withMbx m f).sec = s.sec := rfl
@[simp] theorem State.withMbx_fl (s : State) (m : Nat) (f : Mbx → Mbx) : (s.withMbx m f).fl = s.fl := rfl
@[simp] theorem State.withMbx_host (s : State) (m : Nat) (f : Mbx → Mbx) : (s.withMbx m f).host = s.host := rfl
@[simp] theorem State.withMbx_toFlint (s : State) (m : Nat) (f : Mbx → Mbx) : (s.withMbx m f).toFlint = s.toFlint := rfl
@[simp] theorem State.withMbx_readData (s : State) (m : Nat) (f : Mbx → Mbx) : (s.withMbx m f).readData = s.readData := rfl
@[simp] theorem State.withMbx_free (s : State) (m : Nat) (f : Mbx → Mbx) : (s.withMbx m f).free = s.free := rfl
@[simp] theorem State.withMbx_pending (s : State) (m : Nat) (f : Mbx → Mbx) : (s.withMbx m f).pending = s.pending := rfl

/-! ### withGeode -/

@[simp] theorem State.withGeode_time (s : State) (g : Nat) (f : Geode → Geode) : (s.withGeode g f).time = s.time := rfl
@[simp] theorem State.withGeode_drip (s : State) (g : Nat) (f : Geode → Geode) : (s.withGeode g f).drip = s.drip := rfl
@[simp] theorem State.withGeode_mtime (s : State) (g : Nat) (f : Geode → Geode) : (s.withGeode g f).mtime = s.mtime := rfl
@[simp] theorem State.withGeode_mbx (s : State) (g : Nat) (f : Geode → Geode) : (s.withGeode g f).mbx = s.mbx := rfl
@[simp] theorem State.withGeode_geodes (s : State) (g : Nat) (f : Geode → Geode) : (s.withGeode g f).geodes = upd s.geodes g f := rfl
@[simp] theorem State.withGeode_gal (s : State) (g : Nat) (f : Geode → Geode) : (s.withGeode g f).gal = s.gal := rfl
@[simp] theorem State.withGeode_ctxs (s : State) (g : Nat) (f : Geode → Geode) : (s.withGeode g f).ctxs = s.ctxs := rfl
@[simp] theorem State.withGeode_mpRecs (s : State) (g : Nat) (f : Geode → Geode) : (s.withGeode g f).mpRecs = s.mpRecs := rfl
@[simp] theorem State.withGeode_fcuRecs (s : State) (g : Nat) (f : Geode → Geode) : (s.withGeode g f).fcuRecs = s.fcuRecs := rfl
@[simp] theorem State.withGeode_role (s : State) (g : Nat) (f : Geode → Geode) : (s.withGeode g f).role = s.role := rfl
@[simp] theorem State.withGeode_recSeq (s : State) (g : Nat) (f : Geode → Geode) : (s.withGeode g f).recSeq = s.recSeq := rfl
@[simp] theorem State.withGeode_recLost (s : State) (g : Nat) (f : Geode → Geode) : (s.withGeode g f).recLost = s.recLost := rfl
@[simp] theorem State.withGeode_dev (s : State) (g : Nat) (f : Geode → Geode) : (s.withGeode g f).dev = s.dev := rfl
@[simp] theorem State.withGeode_streams (s : State) (g : Nat) (f : Geode → Geode) : (s.withGeode g f).streams = s.streams := rfl
@[simp] theorem State.withGeode_conduit (s : State) (g : Nat) (f : Geode → Geode) : (s.withGeode g f).conduit = s.conduit := rfl
@[simp] theorem State.withGeode_cores (s : State) (g : Nat) (f : Geode → Geode) : (s.withGeode g f).cores = s.cores := rfl
@[simp] theorem State.withGeode_cic (s : State) (g : Nat) (f : Geode → Geode) : (s.withGeode g f).cic = s.cic := rfl
@[simp] theorem State.withGeode_shelf (s : State) (g : Nat) (f : Geode → Geode) : (s.withGeode g f).shelf = s.shelf := rfl
@[simp] theorem State.withGeode_pw (s : State) (g : Nat) (f : Geode → Geode) : (s.withGeode g f).pw = s.pw := rfl
@[simp] theorem State.withGeode_tw (s : State) (g : Nat) (f : Geode → Geode) : (s.withGeode g f).tw = s.tw := rfl
@[simp] theorem State.withGeode_fcu (s : State) (g : Nat) (f : Geode → Geode) : (s.withGeode g f).fcu = s.fcu := rfl
@[simp] theorem State.withGeode_sec (s : State) (g : Nat) (f : Geode → Geode) : (s.withGeode g f).sec = s.sec := rfl
@[simp] theorem State.withGeode_fl (s : State) (g : Nat) (f : Geode → Geode) : (s.withGeode g f).fl = s.fl := rfl
@[simp] theorem State.withGeode_host (s : State) (g : Nat) (f : Geode → Geode) : (s.withGeode g f).host = s.host := rfl
@[simp] theorem State.withGeode_toFlint (s : State) (g : Nat) (f : Geode → Geode) : (s.withGeode g f).toFlint = s.toFlint := rfl
@[simp] theorem State.withGeode_readData (s : State) (g : Nat) (f : Geode → Geode) : (s.withGeode g f).readData = s.readData := rfl
@[simp] theorem State.withGeode_free (s : State) (g : Nat) (f : Geode → Geode) : (s.withGeode g f).free = s.free := rfl
@[simp] theorem State.withGeode_pending (s : State) (g : Nat) (f : Geode → Geode) : (s.withGeode g f).pending = s.pending := rfl

/-! ### withSlot -/

@[simp] theorem State.withSlot_time (s : State) (g i : Nat) (f : Slot → Slot) : (s.withSlot g i f).time = s.time := rfl
@[simp] theorem State.withSlot_drip (s : State) (g i : Nat) (f : Slot → Slot) : (s.withSlot g i f).drip = s.drip := rfl
@[simp] theorem State.withSlot_mtime (s : State) (g i : Nat) (f : Slot → Slot) : (s.withSlot g i f).mtime = s.mtime := rfl
@[simp] theorem State.withSlot_mbx (s : State) (g i : Nat) (f : Slot → Slot) : (s.withSlot g i f).mbx = s.mbx := rfl
@[simp] theorem State.withSlot_geodes (s : State) (g i : Nat) (f : Slot → Slot) : (s.withSlot g i f).geodes = upd s.geodes g fun d => d.withSlot i f := rfl
@[simp] theorem State.withSlot_gal (s : State) (g i : Nat) (f : Slot → Slot) : (s.withSlot g i f).gal = s.gal := rfl
@[simp] theorem State.withSlot_ctxs (s : State) (g i : Nat) (f : Slot → Slot) : (s.withSlot g i f).ctxs = s.ctxs := rfl
@[simp] theorem State.withSlot_mpRecs (s : State) (g i : Nat) (f : Slot → Slot) : (s.withSlot g i f).mpRecs = s.mpRecs := rfl
@[simp] theorem State.withSlot_fcuRecs (s : State) (g i : Nat) (f : Slot → Slot) : (s.withSlot g i f).fcuRecs = s.fcuRecs := rfl
@[simp] theorem State.withSlot_role (s : State) (g i : Nat) (f : Slot → Slot) : (s.withSlot g i f).role = s.role := rfl
@[simp] theorem State.withSlot_recSeq (s : State) (g i : Nat) (f : Slot → Slot) : (s.withSlot g i f).recSeq = s.recSeq := rfl
@[simp] theorem State.withSlot_recLost (s : State) (g i : Nat) (f : Slot → Slot) : (s.withSlot g i f).recLost = s.recLost := rfl
@[simp] theorem State.withSlot_dev (s : State) (g i : Nat) (f : Slot → Slot) : (s.withSlot g i f).dev = s.dev := rfl
@[simp] theorem State.withSlot_streams (s : State) (g i : Nat) (f : Slot → Slot) : (s.withSlot g i f).streams = s.streams := rfl
@[simp] theorem State.withSlot_conduit (s : State) (g i : Nat) (f : Slot → Slot) : (s.withSlot g i f).conduit = s.conduit := rfl
@[simp] theorem State.withSlot_cores (s : State) (g i : Nat) (f : Slot → Slot) : (s.withSlot g i f).cores = s.cores := rfl
@[simp] theorem State.withSlot_cic (s : State) (g i : Nat) (f : Slot → Slot) : (s.withSlot g i f).cic = s.cic := rfl
@[simp] theorem State.withSlot_shelf (s : State) (g i : Nat) (f : Slot → Slot) : (s.withSlot g i f).shelf = s.shelf := rfl
@[simp] theorem State.withSlot_pw (s : State) (g i : Nat) (f : Slot → Slot) : (s.withSlot g i f).pw = s.pw := rfl
@[simp] theorem State.withSlot_tw (s : State) (g i : Nat) (f : Slot → Slot) : (s.withSlot g i f).tw = s.tw := rfl
@[simp] theorem State.withSlot_fcu (s : State) (g i : Nat) (f : Slot → Slot) : (s.withSlot g i f).fcu = s.fcu := rfl
@[simp] theorem State.withSlot_sec (s : State) (g i : Nat) (f : Slot → Slot) : (s.withSlot g i f).sec = s.sec := rfl
@[simp] theorem State.withSlot_fl (s : State) (g i : Nat) (f : Slot → Slot) : (s.withSlot g i f).fl = s.fl := rfl
@[simp] theorem State.withSlot_host (s : State) (g i : Nat) (f : Slot → Slot) : (s.withSlot g i f).host = s.host := rfl
@[simp] theorem State.withSlot_toFlint (s : State) (g i : Nat) (f : Slot → Slot) : (s.withSlot g i f).toFlint = s.toFlint := rfl
@[simp] theorem State.withSlot_readData (s : State) (g i : Nat) (f : Slot → Slot) : (s.withSlot g i f).readData = s.readData := rfl
@[simp] theorem State.withSlot_free (s : State) (g i : Nat) (f : Slot → Slot) : (s.withSlot g i f).free = s.free := rfl
@[simp] theorem State.withSlot_pending (s : State) (g i : Nat) (f : Slot → Slot) : (s.withSlot g i f).pending = s.pending := rfl

/-! ### withQueue -/

@[simp] theorem State.withQueue_time (s : State) (g q : Nat) (f : Queue → Queue) : (s.withQueue g q f).time = s.time := rfl
@[simp] theorem State.withQueue_drip (s : State) (g q : Nat) (f : Queue → Queue) : (s.withQueue g q f).drip = s.drip := rfl
@[simp] theorem State.withQueue_mtime (s : State) (g q : Nat) (f : Queue → Queue) : (s.withQueue g q f).mtime = s.mtime := rfl
@[simp] theorem State.withQueue_mbx (s : State) (g q : Nat) (f : Queue → Queue) : (s.withQueue g q f).mbx = s.mbx := rfl
@[simp] theorem State.withQueue_geodes (s : State) (g q : Nat) (f : Queue → Queue) : (s.withQueue g q f).geodes = upd s.geodes g fun d => d.withQueue q f := rfl
@[simp] theorem State.withQueue_gal (s : State) (g q : Nat) (f : Queue → Queue) : (s.withQueue g q f).gal = s.gal := rfl
@[simp] theorem State.withQueue_ctxs (s : State) (g q : Nat) (f : Queue → Queue) : (s.withQueue g q f).ctxs = s.ctxs := rfl
@[simp] theorem State.withQueue_mpRecs (s : State) (g q : Nat) (f : Queue → Queue) : (s.withQueue g q f).mpRecs = s.mpRecs := rfl
@[simp] theorem State.withQueue_fcuRecs (s : State) (g q : Nat) (f : Queue → Queue) : (s.withQueue g q f).fcuRecs = s.fcuRecs := rfl
@[simp] theorem State.withQueue_role (s : State) (g q : Nat) (f : Queue → Queue) : (s.withQueue g q f).role = s.role := rfl
@[simp] theorem State.withQueue_recSeq (s : State) (g q : Nat) (f : Queue → Queue) : (s.withQueue g q f).recSeq = s.recSeq := rfl
@[simp] theorem State.withQueue_recLost (s : State) (g q : Nat) (f : Queue → Queue) : (s.withQueue g q f).recLost = s.recLost := rfl
@[simp] theorem State.withQueue_dev (s : State) (g q : Nat) (f : Queue → Queue) : (s.withQueue g q f).dev = s.dev := rfl
@[simp] theorem State.withQueue_streams (s : State) (g q : Nat) (f : Queue → Queue) : (s.withQueue g q f).streams = s.streams := rfl
@[simp] theorem State.withQueue_conduit (s : State) (g q : Nat) (f : Queue → Queue) : (s.withQueue g q f).conduit = s.conduit := rfl
@[simp] theorem State.withQueue_cores (s : State) (g q : Nat) (f : Queue → Queue) : (s.withQueue g q f).cores = s.cores := rfl
@[simp] theorem State.withQueue_cic (s : State) (g q : Nat) (f : Queue → Queue) : (s.withQueue g q f).cic = s.cic := rfl
@[simp] theorem State.withQueue_shelf (s : State) (g q : Nat) (f : Queue → Queue) : (s.withQueue g q f).shelf = s.shelf := rfl
@[simp] theorem State.withQueue_pw (s : State) (g q : Nat) (f : Queue → Queue) : (s.withQueue g q f).pw = s.pw := rfl
@[simp] theorem State.withQueue_tw (s : State) (g q : Nat) (f : Queue → Queue) : (s.withQueue g q f).tw = s.tw := rfl
@[simp] theorem State.withQueue_fcu (s : State) (g q : Nat) (f : Queue → Queue) : (s.withQueue g q f).fcu = s.fcu := rfl
@[simp] theorem State.withQueue_sec (s : State) (g q : Nat) (f : Queue → Queue) : (s.withQueue g q f).sec = s.sec := rfl
@[simp] theorem State.withQueue_fl (s : State) (g q : Nat) (f : Queue → Queue) : (s.withQueue g q f).fl = s.fl := rfl
@[simp] theorem State.withQueue_host (s : State) (g q : Nat) (f : Queue → Queue) : (s.withQueue g q f).host = s.host := rfl
@[simp] theorem State.withQueue_toFlint (s : State) (g q : Nat) (f : Queue → Queue) : (s.withQueue g q f).toFlint = s.toFlint := rfl
@[simp] theorem State.withQueue_readData (s : State) (g q : Nat) (f : Queue → Queue) : (s.withQueue g q f).readData = s.readData := rfl
@[simp] theorem State.withQueue_free (s : State) (g q : Nat) (f : Queue → Queue) : (s.withQueue g q f).free = s.free := rfl
@[simp] theorem State.withQueue_pending (s : State) (g q : Nat) (f : Queue → Queue) : (s.withQueue g q f).pending = s.pending := rfl

/-! ### withCtx -/

@[simp] theorem State.withCtx_time (s : State) (c : Nat) (f : Ctx → Ctx) : (s.withCtx c f).time = s.time := rfl
@[simp] theorem State.withCtx_drip (s : State) (c : Nat) (f : Ctx → Ctx) : (s.withCtx c f).drip = s.drip := rfl
@[simp] theorem State.withCtx_mtime (s : State) (c : Nat) (f : Ctx → Ctx) : (s.withCtx c f).mtime = s.mtime := rfl
@[simp] theorem State.withCtx_mbx (s : State) (c : Nat) (f : Ctx → Ctx) : (s.withCtx c f).mbx = s.mbx := rfl
@[simp] theorem State.withCtx_geodes (s : State) (c : Nat) (f : Ctx → Ctx) : (s.withCtx c f).geodes = s.geodes := rfl
@[simp] theorem State.withCtx_gal (s : State) (c : Nat) (f : Ctx → Ctx) : (s.withCtx c f).gal = s.gal := rfl
@[simp] theorem State.withCtx_ctxs (s : State) (c : Nat) (f : Ctx → Ctx) : (s.withCtx c f).ctxs = upd s.ctxs c f := rfl
@[simp] theorem State.withCtx_mpRecs (s : State) (c : Nat) (f : Ctx → Ctx) : (s.withCtx c f).mpRecs = s.mpRecs := rfl
@[simp] theorem State.withCtx_fcuRecs (s : State) (c : Nat) (f : Ctx → Ctx) : (s.withCtx c f).fcuRecs = s.fcuRecs := rfl
@[simp] theorem State.withCtx_role (s : State) (c : Nat) (f : Ctx → Ctx) : (s.withCtx c f).role = s.role := rfl
@[simp] theorem State.withCtx_recSeq (s : State) (c : Nat) (f : Ctx → Ctx) : (s.withCtx c f).recSeq = s.recSeq := rfl
@[simp] theorem State.withCtx_recLost (s : State) (c : Nat) (f : Ctx → Ctx) : (s.withCtx c f).recLost = s.recLost := rfl
@[simp] theorem State.withCtx_dev (s : State) (c : Nat) (f : Ctx → Ctx) : (s.withCtx c f).dev = s.dev := rfl
@[simp] theorem State.withCtx_streams (s : State) (c : Nat) (f : Ctx → Ctx) : (s.withCtx c f).streams = s.streams := rfl
@[simp] theorem State.withCtx_conduit (s : State) (c : Nat) (f : Ctx → Ctx) : (s.withCtx c f).conduit = s.conduit := rfl
@[simp] theorem State.withCtx_cores (s : State) (c : Nat) (f : Ctx → Ctx) : (s.withCtx c f).cores = s.cores := rfl
@[simp] theorem State.withCtx_cic (s : State) (c : Nat) (f : Ctx → Ctx) : (s.withCtx c f).cic = s.cic := rfl
@[simp] theorem State.withCtx_shelf (s : State) (c : Nat) (f : Ctx → Ctx) : (s.withCtx c f).shelf = s.shelf := rfl
@[simp] theorem State.withCtx_pw (s : State) (c : Nat) (f : Ctx → Ctx) : (s.withCtx c f).pw = s.pw := rfl
@[simp] theorem State.withCtx_tw (s : State) (c : Nat) (f : Ctx → Ctx) : (s.withCtx c f).tw = s.tw := rfl
@[simp] theorem State.withCtx_fcu (s : State) (c : Nat) (f : Ctx → Ctx) : (s.withCtx c f).fcu = s.fcu := rfl
@[simp] theorem State.withCtx_sec (s : State) (c : Nat) (f : Ctx → Ctx) : (s.withCtx c f).sec = s.sec := rfl
@[simp] theorem State.withCtx_fl (s : State) (c : Nat) (f : Ctx → Ctx) : (s.withCtx c f).fl = s.fl := rfl
@[simp] theorem State.withCtx_host (s : State) (c : Nat) (f : Ctx → Ctx) : (s.withCtx c f).host = s.host := rfl
@[simp] theorem State.withCtx_toFlint (s : State) (c : Nat) (f : Ctx → Ctx) : (s.withCtx c f).toFlint = s.toFlint := rfl
@[simp] theorem State.withCtx_readData (s : State) (c : Nat) (f : Ctx → Ctx) : (s.withCtx c f).readData = s.readData := rfl
@[simp] theorem State.withCtx_free (s : State) (c : Nat) (f : Ctx → Ctx) : (s.withCtx c f).free = s.free := rfl
@[simp] theorem State.withCtx_pending (s : State) (c : Nat) (f : Ctx → Ctx) : (s.withCtx c f).pending = s.pending := rfl

/-! ### withGal -/

@[simp] theorem State.withGal_time (s : State) (f : Gallery → Gallery) : (s.withGal f).time = s.time := rfl
@[simp] theorem State.withGal_drip (s : State) (f : Gallery → Gallery) : (s.withGal f).drip = s.drip := rfl
@[simp] theorem State.withGal_mtime (s : State) (f : Gallery → Gallery) : (s.withGal f).mtime = s.mtime := rfl
@[simp] theorem State.withGal_mbx (s : State) (f : Gallery → Gallery) : (s.withGal f).mbx = s.mbx := rfl
@[simp] theorem State.withGal_geodes (s : State) (f : Gallery → Gallery) : (s.withGal f).geodes = s.geodes := rfl
@[simp] theorem State.withGal_gal (s : State) (f : Gallery → Gallery) : (s.withGal f).gal = f s.gal := rfl
@[simp] theorem State.withGal_ctxs (s : State) (f : Gallery → Gallery) : (s.withGal f).ctxs = s.ctxs := rfl
@[simp] theorem State.withGal_mpRecs (s : State) (f : Gallery → Gallery) : (s.withGal f).mpRecs = s.mpRecs := rfl
@[simp] theorem State.withGal_fcuRecs (s : State) (f : Gallery → Gallery) : (s.withGal f).fcuRecs = s.fcuRecs := rfl
@[simp] theorem State.withGal_role (s : State) (f : Gallery → Gallery) : (s.withGal f).role = s.role := rfl
@[simp] theorem State.withGal_recSeq (s : State) (f : Gallery → Gallery) : (s.withGal f).recSeq = s.recSeq := rfl
@[simp] theorem State.withGal_recLost (s : State) (f : Gallery → Gallery) : (s.withGal f).recLost = s.recLost := rfl
@[simp] theorem State.withGal_dev (s : State) (f : Gallery → Gallery) : (s.withGal f).dev = s.dev := rfl
@[simp] theorem State.withGal_streams (s : State) (f : Gallery → Gallery) : (s.withGal f).streams = s.streams := rfl
@[simp] theorem State.withGal_conduit (s : State) (f : Gallery → Gallery) : (s.withGal f).conduit = s.conduit := rfl
@[simp] theorem State.withGal_cores (s : State) (f : Gallery → Gallery) : (s.withGal f).cores = s.cores := rfl
@[simp] theorem State.withGal_cic (s : State) (f : Gallery → Gallery) : (s.withGal f).cic = s.cic := rfl
@[simp] theorem State.withGal_shelf (s : State) (f : Gallery → Gallery) : (s.withGal f).shelf = s.shelf := rfl
@[simp] theorem State.withGal_pw (s : State) (f : Gallery → Gallery) : (s.withGal f).pw = s.pw := rfl
@[simp] theorem State.withGal_tw (s : State) (f : Gallery → Gallery) : (s.withGal f).tw = s.tw := rfl
@[simp] theorem State.withGal_fcu (s : State) (f : Gallery → Gallery) : (s.withGal f).fcu = s.fcu := rfl
@[simp] theorem State.withGal_sec (s : State) (f : Gallery → Gallery) : (s.withGal f).sec = s.sec := rfl
@[simp] theorem State.withGal_fl (s : State) (f : Gallery → Gallery) : (s.withGal f).fl = s.fl := rfl
@[simp] theorem State.withGal_host (s : State) (f : Gallery → Gallery) : (s.withGal f).host = s.host := rfl
@[simp] theorem State.withGal_toFlint (s : State) (f : Gallery → Gallery) : (s.withGal f).toFlint = s.toFlint := rfl
@[simp] theorem State.withGal_readData (s : State) (f : Gallery → Gallery) : (s.withGal f).readData = s.readData := rfl
@[simp] theorem State.withGal_free (s : State) (f : Gallery → Gallery) : (s.withGal f).free = s.free := rfl
@[simp] theorem State.withGal_pending (s : State) (f : Gallery → Gallery) : (s.withGal f).pending = s.pending := rfl

/-! ### withTime -/

@[simp] theorem State.withTime_time (s : State) (f : TimeSt → TimeSt) : (s.withTime f).time = f s.time := rfl
@[simp] theorem State.withTime_drip (s : State) (f : TimeSt → TimeSt) : (s.withTime f).drip = s.drip := rfl
@[simp] theorem State.withTime_mtime (s : State) (f : TimeSt → TimeSt) : (s.withTime f).mtime = s.mtime := rfl
@[simp] theorem State.withTime_mbx (s : State) (f : TimeSt → TimeSt) : (s.withTime f).mbx = s.mbx := rfl
@[simp] theorem State.withTime_geodes (s : State) (f : TimeSt → TimeSt) : (s.withTime f).geodes = s.geodes := rfl
@[simp] theorem State.withTime_gal (s : State) (f : TimeSt → TimeSt) : (s.withTime f).gal = s.gal := rfl
@[simp] theorem State.withTime_ctxs (s : State) (f : TimeSt → TimeSt) : (s.withTime f).ctxs = s.ctxs := rfl
@[simp] theorem State.withTime_mpRecs (s : State) (f : TimeSt → TimeSt) : (s.withTime f).mpRecs = s.mpRecs := rfl
@[simp] theorem State.withTime_fcuRecs (s : State) (f : TimeSt → TimeSt) : (s.withTime f).fcuRecs = s.fcuRecs := rfl
@[simp] theorem State.withTime_role (s : State) (f : TimeSt → TimeSt) : (s.withTime f).role = s.role := rfl
@[simp] theorem State.withTime_recSeq (s : State) (f : TimeSt → TimeSt) : (s.withTime f).recSeq = s.recSeq := rfl
@[simp] theorem State.withTime_recLost (s : State) (f : TimeSt → TimeSt) : (s.withTime f).recLost = s.recLost := rfl
@[simp] theorem State.withTime_dev (s : State) (f : TimeSt → TimeSt) : (s.withTime f).dev = s.dev := rfl
@[simp] theorem State.withTime_streams (s : State) (f : TimeSt → TimeSt) : (s.withTime f).streams = s.streams := rfl
@[simp] theorem State.withTime_conduit (s : State) (f : TimeSt → TimeSt) : (s.withTime f).conduit = s.conduit := rfl
@[simp] theorem State.withTime_cores (s : State) (f : TimeSt → TimeSt) : (s.withTime f).cores = s.cores := rfl
@[simp] theorem State.withTime_cic (s : State) (f : TimeSt → TimeSt) : (s.withTime f).cic = s.cic := rfl
@[simp] theorem State.withTime_shelf (s : State) (f : TimeSt → TimeSt) : (s.withTime f).shelf = s.shelf := rfl
@[simp] theorem State.withTime_pw (s : State) (f : TimeSt → TimeSt) : (s.withTime f).pw = s.pw := rfl
@[simp] theorem State.withTime_tw (s : State) (f : TimeSt → TimeSt) : (s.withTime f).tw = s.tw := rfl
@[simp] theorem State.withTime_fcu (s : State) (f : TimeSt → TimeSt) : (s.withTime f).fcu = s.fcu := rfl
@[simp] theorem State.withTime_sec (s : State) (f : TimeSt → TimeSt) : (s.withTime f).sec = s.sec := rfl
@[simp] theorem State.withTime_fl (s : State) (f : TimeSt → TimeSt) : (s.withTime f).fl = s.fl := rfl
@[simp] theorem State.withTime_host (s : State) (f : TimeSt → TimeSt) : (s.withTime f).host = s.host := rfl
@[simp] theorem State.withTime_toFlint (s : State) (f : TimeSt → TimeSt) : (s.withTime f).toFlint = s.toFlint := rfl
@[simp] theorem State.withTime_readData (s : State) (f : TimeSt → TimeSt) : (s.withTime f).readData = s.readData := rfl
@[simp] theorem State.withTime_free (s : State) (f : TimeSt → TimeSt) : (s.withTime f).free = s.free := rfl
@[simp] theorem State.withTime_pending (s : State) (f : TimeSt → TimeSt) : (s.withTime f).pending = s.pending := rfl

/-! ### withDev -/

@[simp] theorem State.withDev_time (s : State) (f : Dev → Dev) : (s.withDev f).time = s.time := rfl
@[simp] theorem State.withDev_drip (s : State) (f : Dev → Dev) : (s.withDev f).drip = s.drip := rfl
@[simp] theorem State.withDev_mtime (s : State) (f : Dev → Dev) : (s.withDev f).mtime = s.mtime := rfl
@[simp] theorem State.withDev_mbx (s : State) (f : Dev → Dev) : (s.withDev f).mbx = s.mbx := rfl
@[simp] theorem State.withDev_geodes (s : State) (f : Dev → Dev) : (s.withDev f).geodes = s.geodes := rfl
@[simp] theorem State.withDev_gal (s : State) (f : Dev → Dev) : (s.withDev f).gal = s.gal := rfl
@[simp] theorem State.withDev_ctxs (s : State) (f : Dev → Dev) : (s.withDev f).ctxs = s.ctxs := rfl
@[simp] theorem State.withDev_mpRecs (s : State) (f : Dev → Dev) : (s.withDev f).mpRecs = s.mpRecs := rfl
@[simp] theorem State.withDev_fcuRecs (s : State) (f : Dev → Dev) : (s.withDev f).fcuRecs = s.fcuRecs := rfl
@[simp] theorem State.withDev_role (s : State) (f : Dev → Dev) : (s.withDev f).role = s.role := rfl
@[simp] theorem State.withDev_recSeq (s : State) (f : Dev → Dev) : (s.withDev f).recSeq = s.recSeq := rfl
@[simp] theorem State.withDev_recLost (s : State) (f : Dev → Dev) : (s.withDev f).recLost = s.recLost := rfl
@[simp] theorem State.withDev_dev (s : State) (f : Dev → Dev) : (s.withDev f).dev = f s.dev := rfl
@[simp] theorem State.withDev_streams (s : State) (f : Dev → Dev) : (s.withDev f).streams = s.streams := rfl
@[simp] theorem State.withDev_conduit (s : State) (f : Dev → Dev) : (s.withDev f).conduit = s.conduit := rfl
@[simp] theorem State.withDev_cores (s : State) (f : Dev → Dev) : (s.withDev f).cores = s.cores := rfl
@[simp] theorem State.withDev_cic (s : State) (f : Dev → Dev) : (s.withDev f).cic = s.cic := rfl
@[simp] theorem State.withDev_shelf (s : State) (f : Dev → Dev) : (s.withDev f).shelf = s.shelf := rfl
@[simp] theorem State.withDev_pw (s : State) (f : Dev → Dev) : (s.withDev f).pw = s.pw := rfl
@[simp] theorem State.withDev_tw (s : State) (f : Dev → Dev) : (s.withDev f).tw = s.tw := rfl
@[simp] theorem State.withDev_fcu (s : State) (f : Dev → Dev) : (s.withDev f).fcu = s.fcu := rfl
@[simp] theorem State.withDev_sec (s : State) (f : Dev → Dev) : (s.withDev f).sec = s.sec := rfl
@[simp] theorem State.withDev_fl (s : State) (f : Dev → Dev) : (s.withDev f).fl = s.fl := rfl
@[simp] theorem State.withDev_host (s : State) (f : Dev → Dev) : (s.withDev f).host = s.host := rfl
@[simp] theorem State.withDev_toFlint (s : State) (f : Dev → Dev) : (s.withDev f).toFlint = s.toFlint := rfl
@[simp] theorem State.withDev_readData (s : State) (f : Dev → Dev) : (s.withDev f).readData = s.readData := rfl
@[simp] theorem State.withDev_free (s : State) (f : Dev → Dev) : (s.withDev f).free = s.free := rfl
@[simp] theorem State.withDev_pending (s : State) (f : Dev → Dev) : (s.withDev f).pending = s.pending := rfl

/-! ### withPw -/

@[simp] theorem State.withPw_time (s : State) (f : Pw → Pw) : (s.withPw f).time = s.time := rfl
@[simp] theorem State.withPw_drip (s : State) (f : Pw → Pw) : (s.withPw f).drip = s.drip := rfl
@[simp] theorem State.withPw_mtime (s : State) (f : Pw → Pw) : (s.withPw f).mtime = s.mtime := rfl
@[simp] theorem State.withPw_mbx (s : State) (f : Pw → Pw) : (s.withPw f).mbx = s.mbx := rfl
@[simp] theorem State.withPw_geodes (s : State) (f : Pw → Pw) : (s.withPw f).geodes = s.geodes := rfl
@[simp] theorem State.withPw_gal (s : State) (f : Pw → Pw) : (s.withPw f).gal = s.gal := rfl
@[simp] theorem State.withPw_ctxs (s : State) (f : Pw → Pw) : (s.withPw f).ctxs = s.ctxs := rfl
@[simp] theorem State.withPw_mpRecs (s : State) (f : Pw → Pw) : (s.withPw f).mpRecs = s.mpRecs := rfl
@[simp] theorem State.withPw_fcuRecs (s : State) (f : Pw → Pw) : (s.withPw f).fcuRecs = s.fcuRecs := rfl
@[simp] theorem State.withPw_role (s : State) (f : Pw → Pw) : (s.withPw f).role = s.role := rfl
@[simp] theorem State.withPw_recSeq (s : State) (f : Pw → Pw) : (s.withPw f).recSeq = s.recSeq := rfl
@[simp] theorem State.withPw_recLost (s : State) (f : Pw → Pw) : (s.withPw f).recLost = s.recLost := rfl
@[simp] theorem State.withPw_dev (s : State) (f : Pw → Pw) : (s.withPw f).dev = s.dev := rfl
@[simp] theorem State.withPw_streams (s : State) (f : Pw → Pw) : (s.withPw f).streams = s.streams := rfl
@[simp] theorem State.withPw_conduit (s : State) (f : Pw → Pw) : (s.withPw f).conduit = s.conduit := rfl
@[simp] theorem State.withPw_cores (s : State) (f : Pw → Pw) : (s.withPw f).cores = s.cores := rfl
@[simp] theorem State.withPw_cic (s : State) (f : Pw → Pw) : (s.withPw f).cic = s.cic := rfl
@[simp] theorem State.withPw_shelf (s : State) (f : Pw → Pw) : (s.withPw f).shelf = s.shelf := rfl
@[simp] theorem State.withPw_pw (s : State) (f : Pw → Pw) : (s.withPw f).pw = f s.pw := rfl
@[simp] theorem State.withPw_tw (s : State) (f : Pw → Pw) : (s.withPw f).tw = s.tw := rfl
@[simp] theorem State.withPw_fcu (s : State) (f : Pw → Pw) : (s.withPw f).fcu = s.fcu := rfl
@[simp] theorem State.withPw_sec (s : State) (f : Pw → Pw) : (s.withPw f).sec = s.sec := rfl
@[simp] theorem State.withPw_fl (s : State) (f : Pw → Pw) : (s.withPw f).fl = s.fl := rfl
@[simp] theorem State.withPw_host (s : State) (f : Pw → Pw) : (s.withPw f).host = s.host := rfl
@[simp] theorem State.withPw_toFlint (s : State) (f : Pw → Pw) : (s.withPw f).toFlint = s.toFlint := rfl
@[simp] theorem State.withPw_readData (s : State) (f : Pw → Pw) : (s.withPw f).readData = s.readData := rfl
@[simp] theorem State.withPw_free (s : State) (f : Pw → Pw) : (s.withPw f).free = s.free := rfl
@[simp] theorem State.withPw_pending (s : State) (f : Pw → Pw) : (s.withPw f).pending = s.pending := rfl

/-! ### withTw -/

@[simp] theorem State.withTw_time (s : State) (f : Tw → Tw) : (s.withTw f).time = s.time := rfl
@[simp] theorem State.withTw_drip (s : State) (f : Tw → Tw) : (s.withTw f).drip = s.drip := rfl
@[simp] theorem State.withTw_mtime (s : State) (f : Tw → Tw) : (s.withTw f).mtime = s.mtime := rfl
@[simp] theorem State.withTw_mbx (s : State) (f : Tw → Tw) : (s.withTw f).mbx = s.mbx := rfl
@[simp] theorem State.withTw_geodes (s : State) (f : Tw → Tw) : (s.withTw f).geodes = s.geodes := rfl
@[simp] theorem State.withTw_gal (s : State) (f : Tw → Tw) : (s.withTw f).gal = s.gal := rfl
@[simp] theorem State.withTw_ctxs (s : State) (f : Tw → Tw) : (s.withTw f).ctxs = s.ctxs := rfl
@[simp] theorem State.withTw_mpRecs (s : State) (f : Tw → Tw) : (s.withTw f).mpRecs = s.mpRecs := rfl
@[simp] theorem State.withTw_fcuRecs (s : State) (f : Tw → Tw) : (s.withTw f).fcuRecs = s.fcuRecs := rfl
@[simp] theorem State.withTw_role (s : State) (f : Tw → Tw) : (s.withTw f).role = s.role := rfl
@[simp] theorem State.withTw_recSeq (s : State) (f : Tw → Tw) : (s.withTw f).recSeq = s.recSeq := rfl
@[simp] theorem State.withTw_recLost (s : State) (f : Tw → Tw) : (s.withTw f).recLost = s.recLost := rfl
@[simp] theorem State.withTw_dev (s : State) (f : Tw → Tw) : (s.withTw f).dev = s.dev := rfl
@[simp] theorem State.withTw_streams (s : State) (f : Tw → Tw) : (s.withTw f).streams = s.streams := rfl
@[simp] theorem State.withTw_conduit (s : State) (f : Tw → Tw) : (s.withTw f).conduit = s.conduit := rfl
@[simp] theorem State.withTw_cores (s : State) (f : Tw → Tw) : (s.withTw f).cores = s.cores := rfl
@[simp] theorem State.withTw_cic (s : State) (f : Tw → Tw) : (s.withTw f).cic = s.cic := rfl
@[simp] theorem State.withTw_shelf (s : State) (f : Tw → Tw) : (s.withTw f).shelf = s.shelf := rfl
@[simp] theorem State.withTw_pw (s : State) (f : Tw → Tw) : (s.withTw f).pw = s.pw := rfl
@[simp] theorem State.withTw_tw (s : State) (f : Tw → Tw) : (s.withTw f).tw = f s.tw := rfl
@[simp] theorem State.withTw_fcu (s : State) (f : Tw → Tw) : (s.withTw f).fcu = s.fcu := rfl
@[simp] theorem State.withTw_sec (s : State) (f : Tw → Tw) : (s.withTw f).sec = s.sec := rfl
@[simp] theorem State.withTw_fl (s : State) (f : Tw → Tw) : (s.withTw f).fl = s.fl := rfl
@[simp] theorem State.withTw_host (s : State) (f : Tw → Tw) : (s.withTw f).host = s.host := rfl
@[simp] theorem State.withTw_toFlint (s : State) (f : Tw → Tw) : (s.withTw f).toFlint = s.toFlint := rfl
@[simp] theorem State.withTw_readData (s : State) (f : Tw → Tw) : (s.withTw f).readData = s.readData := rfl
@[simp] theorem State.withTw_free (s : State) (f : Tw → Tw) : (s.withTw f).free = s.free := rfl
@[simp] theorem State.withTw_pending (s : State) (f : Tw → Tw) : (s.withTw f).pending = s.pending := rfl

/-! ### withFcu -/

@[simp] theorem State.withFcu_time (s : State) (f : Fcu → Fcu) : (s.withFcu f).time = s.time := rfl
@[simp] theorem State.withFcu_drip (s : State) (f : Fcu → Fcu) : (s.withFcu f).drip = s.drip := rfl
@[simp] theorem State.withFcu_mtime (s : State) (f : Fcu → Fcu) : (s.withFcu f).mtime = s.mtime := rfl
@[simp] theorem State.withFcu_mbx (s : State) (f : Fcu → Fcu) : (s.withFcu f).mbx = s.mbx := rfl
@[simp] theorem State.withFcu_geodes (s : State) (f : Fcu → Fcu) : (s.withFcu f).geodes = s.geodes := rfl
@[simp] theorem State.withFcu_gal (s : State) (f : Fcu → Fcu) : (s.withFcu f).gal = s.gal := rfl
@[simp] theorem State.withFcu_ctxs (s : State) (f : Fcu → Fcu) : (s.withFcu f).ctxs = s.ctxs := rfl
@[simp] theorem State.withFcu_mpRecs (s : State) (f : Fcu → Fcu) : (s.withFcu f).mpRecs = s.mpRecs := rfl
@[simp] theorem State.withFcu_fcuRecs (s : State) (f : Fcu → Fcu) : (s.withFcu f).fcuRecs = s.fcuRecs := rfl
@[simp] theorem State.withFcu_role (s : State) (f : Fcu → Fcu) : (s.withFcu f).role = s.role := rfl
@[simp] theorem State.withFcu_recSeq (s : State) (f : Fcu → Fcu) : (s.withFcu f).recSeq = s.recSeq := rfl
@[simp] theorem State.withFcu_recLost (s : State) (f : Fcu → Fcu) : (s.withFcu f).recLost = s.recLost := rfl
@[simp] theorem State.withFcu_dev (s : State) (f : Fcu → Fcu) : (s.withFcu f).dev = s.dev := rfl
@[simp] theorem State.withFcu_streams (s : State) (f : Fcu → Fcu) : (s.withFcu f).streams = s.streams := rfl
@[simp] theorem State.withFcu_conduit (s : State) (f : Fcu → Fcu) : (s.withFcu f).conduit = s.conduit := rfl
@[simp] theorem State.withFcu_cores (s : State) (f : Fcu → Fcu) : (s.withFcu f).cores = s.cores := rfl
@[simp] theorem State.withFcu_cic (s : State) (f : Fcu → Fcu) : (s.withFcu f).cic = s.cic := rfl
@[simp] theorem State.withFcu_shelf (s : State) (f : Fcu → Fcu) : (s.withFcu f).shelf = s.shelf := rfl
@[simp] theorem State.withFcu_pw (s : State) (f : Fcu → Fcu) : (s.withFcu f).pw = s.pw := rfl
@[simp] theorem State.withFcu_tw (s : State) (f : Fcu → Fcu) : (s.withFcu f).tw = s.tw := rfl
@[simp] theorem State.withFcu_fcu (s : State) (f : Fcu → Fcu) : (s.withFcu f).fcu = f s.fcu := rfl
@[simp] theorem State.withFcu_sec (s : State) (f : Fcu → Fcu) : (s.withFcu f).sec = s.sec := rfl
@[simp] theorem State.withFcu_fl (s : State) (f : Fcu → Fcu) : (s.withFcu f).fl = s.fl := rfl
@[simp] theorem State.withFcu_host (s : State) (f : Fcu → Fcu) : (s.withFcu f).host = s.host := rfl
@[simp] theorem State.withFcu_toFlint (s : State) (f : Fcu → Fcu) : (s.withFcu f).toFlint = s.toFlint := rfl
@[simp] theorem State.withFcu_readData (s : State) (f : Fcu → Fcu) : (s.withFcu f).readData = s.readData := rfl
@[simp] theorem State.withFcu_free (s : State) (f : Fcu → Fcu) : (s.withFcu f).free = s.free := rfl
@[simp] theorem State.withFcu_pending (s : State) (f : Fcu → Fcu) : (s.withFcu f).pending = s.pending := rfl

/-! ### withSec -/

@[simp] theorem State.withSec_time (s : State) (f : Sec → Sec) : (s.withSec f).time = s.time := rfl
@[simp] theorem State.withSec_drip (s : State) (f : Sec → Sec) : (s.withSec f).drip = s.drip := rfl
@[simp] theorem State.withSec_mtime (s : State) (f : Sec → Sec) : (s.withSec f).mtime = s.mtime := rfl
@[simp] theorem State.withSec_mbx (s : State) (f : Sec → Sec) : (s.withSec f).mbx = s.mbx := rfl
@[simp] theorem State.withSec_geodes (s : State) (f : Sec → Sec) : (s.withSec f).geodes = s.geodes := rfl
@[simp] theorem State.withSec_gal (s : State) (f : Sec → Sec) : (s.withSec f).gal = s.gal := rfl
@[simp] theorem State.withSec_ctxs (s : State) (f : Sec → Sec) : (s.withSec f).ctxs = s.ctxs := rfl
@[simp] theorem State.withSec_mpRecs (s : State) (f : Sec → Sec) : (s.withSec f).mpRecs = s.mpRecs := rfl
@[simp] theorem State.withSec_fcuRecs (s : State) (f : Sec → Sec) : (s.withSec f).fcuRecs = s.fcuRecs := rfl
@[simp] theorem State.withSec_role (s : State) (f : Sec → Sec) : (s.withSec f).role = s.role := rfl
@[simp] theorem State.withSec_recSeq (s : State) (f : Sec → Sec) : (s.withSec f).recSeq = s.recSeq := rfl
@[simp] theorem State.withSec_recLost (s : State) (f : Sec → Sec) : (s.withSec f).recLost = s.recLost := rfl
@[simp] theorem State.withSec_dev (s : State) (f : Sec → Sec) : (s.withSec f).dev = s.dev := rfl
@[simp] theorem State.withSec_streams (s : State) (f : Sec → Sec) : (s.withSec f).streams = s.streams := rfl
@[simp] theorem State.withSec_conduit (s : State) (f : Sec → Sec) : (s.withSec f).conduit = s.conduit := rfl
@[simp] theorem State.withSec_cores (s : State) (f : Sec → Sec) : (s.withSec f).cores = s.cores := rfl
@[simp] theorem State.withSec_cic (s : State) (f : Sec → Sec) : (s.withSec f).cic = s.cic := rfl
@[simp] theorem State.withSec_shelf (s : State) (f : Sec → Sec) : (s.withSec f).shelf = s.shelf := rfl
@[simp] theorem State.withSec_pw (s : State) (f : Sec → Sec) : (s.withSec f).pw = s.pw := rfl
@[simp] theorem State.withSec_tw (s : State) (f : Sec → Sec) : (s.withSec f).tw = s.tw := rfl
@[simp] theorem State.withSec_fcu (s : State) (f : Sec → Sec) : (s.withSec f).fcu = s.fcu := rfl
@[simp] theorem State.withSec_sec (s : State) (f : Sec → Sec) : (s.withSec f).sec = f s.sec := rfl
@[simp] theorem State.withSec_fl (s : State) (f : Sec → Sec) : (s.withSec f).fl = s.fl := rfl
@[simp] theorem State.withSec_host (s : State) (f : Sec → Sec) : (s.withSec f).host = s.host := rfl
@[simp] theorem State.withSec_toFlint (s : State) (f : Sec → Sec) : (s.withSec f).toFlint = s.toFlint := rfl
@[simp] theorem State.withSec_readData (s : State) (f : Sec → Sec) : (s.withSec f).readData = s.readData := rfl
@[simp] theorem State.withSec_free (s : State) (f : Sec → Sec) : (s.withSec f).free = s.free := rfl
@[simp] theorem State.withSec_pending (s : State) (f : Sec → Sec) : (s.withSec f).pending = s.pending := rfl

/-! ### withFl -/

@[simp] theorem State.withFl_time (s : State) (f : Flint → Flint) : (s.withFl f).time = s.time := rfl
@[simp] theorem State.withFl_drip (s : State) (f : Flint → Flint) : (s.withFl f).drip = s.drip := rfl
@[simp] theorem State.withFl_mtime (s : State) (f : Flint → Flint) : (s.withFl f).mtime = s.mtime := rfl
@[simp] theorem State.withFl_mbx (s : State) (f : Flint → Flint) : (s.withFl f).mbx = s.mbx := rfl
@[simp] theorem State.withFl_geodes (s : State) (f : Flint → Flint) : (s.withFl f).geodes = s.geodes := rfl
@[simp] theorem State.withFl_gal (s : State) (f : Flint → Flint) : (s.withFl f).gal = s.gal := rfl
@[simp] theorem State.withFl_ctxs (s : State) (f : Flint → Flint) : (s.withFl f).ctxs = s.ctxs := rfl
@[simp] theorem State.withFl_mpRecs (s : State) (f : Flint → Flint) : (s.withFl f).mpRecs = s.mpRecs := rfl
@[simp] theorem State.withFl_fcuRecs (s : State) (f : Flint → Flint) : (s.withFl f).fcuRecs = s.fcuRecs := rfl
@[simp] theorem State.withFl_role (s : State) (f : Flint → Flint) : (s.withFl f).role = s.role := rfl
@[simp] theorem State.withFl_recSeq (s : State) (f : Flint → Flint) : (s.withFl f).recSeq = s.recSeq := rfl
@[simp] theorem State.withFl_recLost (s : State) (f : Flint → Flint) : (s.withFl f).recLost = s.recLost := rfl
@[simp] theorem State.withFl_dev (s : State) (f : Flint → Flint) : (s.withFl f).dev = s.dev := rfl
@[simp] theorem State.withFl_streams (s : State) (f : Flint → Flint) : (s.withFl f).streams = s.streams := rfl
@[simp] theorem State.withFl_conduit (s : State) (f : Flint → Flint) : (s.withFl f).conduit = s.conduit := rfl
@[simp] theorem State.withFl_cores (s : State) (f : Flint → Flint) : (s.withFl f).cores = s.cores := rfl
@[simp] theorem State.withFl_cic (s : State) (f : Flint → Flint) : (s.withFl f).cic = s.cic := rfl
@[simp] theorem State.withFl_shelf (s : State) (f : Flint → Flint) : (s.withFl f).shelf = s.shelf := rfl
@[simp] theorem State.withFl_pw (s : State) (f : Flint → Flint) : (s.withFl f).pw = s.pw := rfl
@[simp] theorem State.withFl_tw (s : State) (f : Flint → Flint) : (s.withFl f).tw = s.tw := rfl
@[simp] theorem State.withFl_fcu (s : State) (f : Flint → Flint) : (s.withFl f).fcu = s.fcu := rfl
@[simp] theorem State.withFl_sec (s : State) (f : Flint → Flint) : (s.withFl f).sec = s.sec := rfl
@[simp] theorem State.withFl_fl (s : State) (f : Flint → Flint) : (s.withFl f).fl = f s.fl := rfl
@[simp] theorem State.withFl_host (s : State) (f : Flint → Flint) : (s.withFl f).host = s.host := rfl
@[simp] theorem State.withFl_toFlint (s : State) (f : Flint → Flint) : (s.withFl f).toFlint = s.toFlint := rfl
@[simp] theorem State.withFl_readData (s : State) (f : Flint → Flint) : (s.withFl f).readData = s.readData := rfl
@[simp] theorem State.withFl_free (s : State) (f : Flint → Flint) : (s.withFl f).free = s.free := rfl
@[simp] theorem State.withFl_pending (s : State) (f : Flint → Flint) : (s.withFl f).pending = s.pending := rfl

/-! ### withLan -/

@[simp] theorem State.withLan_time (s : State) (f : Lan → Lan) : (s.withLan f).time = s.time := rfl
@[simp] theorem State.withLan_drip (s : State) (f : Lan → Lan) : (s.withLan f).drip = s.drip := rfl
@[simp] theorem State.withLan_mtime (s : State) (f : Lan → Lan) : (s.withLan f).mtime = s.mtime := rfl
@[simp] theorem State.withLan_mbx (s : State) (f : Lan → Lan) : (s.withLan f).mbx = s.mbx := rfl
@[simp] theorem State.withLan_geodes (s : State) (f : Lan → Lan) : (s.withLan f).geodes = s.geodes := rfl
@[simp] theorem State.withLan_gal (s : State) (f : Lan → Lan) : (s.withLan f).gal = s.gal := rfl
@[simp] theorem State.withLan_ctxs (s : State) (f : Lan → Lan) : (s.withLan f).ctxs = s.ctxs := rfl
@[simp] theorem State.withLan_mpRecs (s : State) (f : Lan → Lan) : (s.withLan f).mpRecs = s.mpRecs := rfl
@[simp] theorem State.withLan_fcuRecs (s : State) (f : Lan → Lan) : (s.withLan f).fcuRecs = s.fcuRecs := rfl
@[simp] theorem State.withLan_role (s : State) (f : Lan → Lan) : (s.withLan f).role = s.role := rfl
@[simp] theorem State.withLan_recSeq (s : State) (f : Lan → Lan) : (s.withLan f).recSeq = s.recSeq := rfl
@[simp] theorem State.withLan_recLost (s : State) (f : Lan → Lan) : (s.withLan f).recLost = s.recLost := rfl
@[simp] theorem State.withLan_dev (s : State) (f : Lan → Lan) : (s.withLan f).dev = s.dev := rfl
@[simp] theorem State.withLan_streams (s : State) (f : Lan → Lan) : (s.withLan f).streams = s.streams := rfl
@[simp] theorem State.withLan_conduit (s : State) (f : Lan → Lan) : (s.withLan f).conduit = s.conduit := rfl
@[simp] theorem State.withLan_cores (s : State) (f : Lan → Lan) : (s.withLan f).cores = s.cores := rfl
@[simp] theorem State.withLan_cic (s : State) (f : Lan → Lan) : (s.withLan f).cic = s.cic := rfl
@[simp] theorem State.withLan_shelf (s : State) (f : Lan → Lan) : (s.withLan f).shelf = s.shelf := rfl
@[simp] theorem State.withLan_pw (s : State) (f : Lan → Lan) : (s.withLan f).pw = s.pw := rfl
@[simp] theorem State.withLan_tw (s : State) (f : Lan → Lan) : (s.withLan f).tw = s.tw := rfl
@[simp] theorem State.withLan_fcu (s : State) (f : Lan → Lan) : (s.withLan f).fcu = s.fcu := rfl
@[simp] theorem State.withLan_sec (s : State) (f : Lan → Lan) : (s.withLan f).sec = s.sec := rfl
@[simp] theorem State.withLan_fl (s : State) (f : Lan → Lan) : (s.withLan f).fl = { s.fl with lan := f s.fl.lan } := rfl
@[simp] theorem State.withLan_host (s : State) (f : Lan → Lan) : (s.withLan f).host = s.host := rfl
@[simp] theorem State.withLan_toFlint (s : State) (f : Lan → Lan) : (s.withLan f).toFlint = s.toFlint := rfl
@[simp] theorem State.withLan_readData (s : State) (f : Lan → Lan) : (s.withLan f).readData = s.readData := rfl
@[simp] theorem State.withLan_free (s : State) (f : Lan → Lan) : (s.withLan f).free = s.free := rfl
@[simp] theorem State.withLan_pending (s : State) (f : Lan → Lan) : (s.withLan f).pending = s.pending := rfl

/-! ### withShelf -/

@[simp] theorem State.withShelf_time (s : State) (f : Shelf → Shelf) : (s.withShelf f).time = s.time := rfl
@[simp] theorem State.withShelf_drip (s : State) (f : Shelf → Shelf) : (s.withShelf f).drip = s.drip := rfl
@[simp] theorem State.withShelf_mtime (s : State) (f : Shelf → Shelf) : (s.withShelf f).mtime = s.mtime := rfl
@[simp] theorem State.withShelf_mbx (s : State) (f : Shelf → Shelf) : (s.withShelf f).mbx = s.mbx := rfl
@[simp] theorem State.withShelf_geodes (s : State) (f : Shelf → Shelf) : (s.withShelf f).geodes = s.geodes := rfl
@[simp] theorem State.withShelf_gal (s : State) (f : Shelf → Shelf) : (s.withShelf f).gal = s.gal := rfl
@[simp] theorem State.withShelf_ctxs (s : State) (f : Shelf → Shelf) : (s.withShelf f).ctxs = s.ctxs := rfl
@[simp] theorem State.withShelf_mpRecs (s : State) (f : Shelf → Shelf) : (s.withShelf f).mpRecs = s.mpRecs := rfl
@[simp] theorem State.withShelf_fcuRecs (s : State) (f : Shelf → Shelf) : (s.withShelf f).fcuRecs = s.fcuRecs := rfl
@[simp] theorem State.withShelf_role (s : State) (f : Shelf → Shelf) : (s.withShelf f).role = s.role := rfl
@[simp] theorem State.withShelf_recSeq (s : State) (f : Shelf → Shelf) : (s.withShelf f).recSeq = s.recSeq := rfl
@[simp] theorem State.withShelf_recLost (s : State) (f : Shelf → Shelf) : (s.withShelf f).recLost = s.recLost := rfl
@[simp] theorem State.withShelf_dev (s : State) (f : Shelf → Shelf) : (s.withShelf f).dev = s.dev := rfl
@[simp] theorem State.withShelf_streams (s : State) (f : Shelf → Shelf) : (s.withShelf f).streams = s.streams := rfl
@[simp] theorem State.withShelf_conduit (s : State) (f : Shelf → Shelf) : (s.withShelf f).conduit = s.conduit := rfl
@[simp] theorem State.withShelf_cores (s : State) (f : Shelf → Shelf) : (s.withShelf f).cores = s.cores := rfl
@[simp] theorem State.withShelf_cic (s : State) (f : Shelf → Shelf) : (s.withShelf f).cic = s.cic := rfl
@[simp] theorem State.withShelf_shelf (s : State) (f : Shelf → Shelf) : (s.withShelf f).shelf = f s.shelf := rfl
@[simp] theorem State.withShelf_pw (s : State) (f : Shelf → Shelf) : (s.withShelf f).pw = s.pw := rfl
@[simp] theorem State.withShelf_tw (s : State) (f : Shelf → Shelf) : (s.withShelf f).tw = s.tw := rfl
@[simp] theorem State.withShelf_fcu (s : State) (f : Shelf → Shelf) : (s.withShelf f).fcu = s.fcu := rfl
@[simp] theorem State.withShelf_sec (s : State) (f : Shelf → Shelf) : (s.withShelf f).sec = s.sec := rfl
@[simp] theorem State.withShelf_fl (s : State) (f : Shelf → Shelf) : (s.withShelf f).fl = s.fl := rfl
@[simp] theorem State.withShelf_host (s : State) (f : Shelf → Shelf) : (s.withShelf f).host = s.host := rfl
@[simp] theorem State.withShelf_toFlint (s : State) (f : Shelf → Shelf) : (s.withShelf f).toFlint = s.toFlint := rfl
@[simp] theorem State.withShelf_readData (s : State) (f : Shelf → Shelf) : (s.withShelf f).readData = s.readData := rfl
@[simp] theorem State.withShelf_free (s : State) (f : Shelf → Shelf) : (s.withShelf f).free = s.free := rfl
@[simp] theorem State.withShelf_pending (s : State) (f : Shelf → Shelf) : (s.withShelf f).pending = s.pending := rfl

/-! ### withStream -/

@[simp] theorem State.withStream_time (s : State) (i : Nat) (f : Stream → Stream) : (s.withStream i f).time = s.time := rfl
@[simp] theorem State.withStream_drip (s : State) (i : Nat) (f : Stream → Stream) : (s.withStream i f).drip = s.drip := rfl
@[simp] theorem State.withStream_mtime (s : State) (i : Nat) (f : Stream → Stream) : (s.withStream i f).mtime = s.mtime := rfl
@[simp] theorem State.withStream_mbx (s : State) (i : Nat) (f : Stream → Stream) : (s.withStream i f).mbx = s.mbx := rfl
@[simp] theorem State.withStream_geodes (s : State) (i : Nat) (f : Stream → Stream) : (s.withStream i f).geodes = s.geodes := rfl
@[simp] theorem State.withStream_gal (s : State) (i : Nat) (f : Stream → Stream) : (s.withStream i f).gal = s.gal := rfl
@[simp] theorem State.withStream_ctxs (s : State) (i : Nat) (f : Stream → Stream) : (s.withStream i f).ctxs = s.ctxs := rfl
@[simp] theorem State.withStream_mpRecs (s : State) (i : Nat) (f : Stream → Stream) : (s.withStream i f).mpRecs = s.mpRecs := rfl
@[simp] theorem State.withStream_fcuRecs (s : State) (i : Nat) (f : Stream → Stream) : (s.withStream i f).fcuRecs = s.fcuRecs := rfl
@[simp] theorem State.withStream_role (s : State) (i : Nat) (f : Stream → Stream) : (s.withStream i f).role = s.role := rfl
@[simp] theorem State.withStream_recSeq (s : State) (i : Nat) (f : Stream → Stream) : (s.withStream i f).recSeq = s.recSeq := rfl
@[simp] theorem State.withStream_recLost (s : State) (i : Nat) (f : Stream → Stream) : (s.withStream i f).recLost = s.recLost := rfl
@[simp] theorem State.withStream_dev (s : State) (i : Nat) (f : Stream → Stream) : (s.withStream i f).dev = s.dev := rfl
@[simp] theorem State.withStream_streams (s : State) (i : Nat) (f : Stream → Stream) : (s.withStream i f).streams = upd s.streams i f := rfl
@[simp] theorem State.withStream_conduit (s : State) (i : Nat) (f : Stream → Stream) : (s.withStream i f).conduit = s.conduit := rfl
@[simp] theorem State.withStream_cores (s : State) (i : Nat) (f : Stream → Stream) : (s.withStream i f).cores = s.cores := rfl
@[simp] theorem State.withStream_cic (s : State) (i : Nat) (f : Stream → Stream) : (s.withStream i f).cic = s.cic := rfl
@[simp] theorem State.withStream_shelf (s : State) (i : Nat) (f : Stream → Stream) : (s.withStream i f).shelf = s.shelf := rfl
@[simp] theorem State.withStream_pw (s : State) (i : Nat) (f : Stream → Stream) : (s.withStream i f).pw = s.pw := rfl
@[simp] theorem State.withStream_tw (s : State) (i : Nat) (f : Stream → Stream) : (s.withStream i f).tw = s.tw := rfl
@[simp] theorem State.withStream_fcu (s : State) (i : Nat) (f : Stream → Stream) : (s.withStream i f).fcu = s.fcu := rfl
@[simp] theorem State.withStream_sec (s : State) (i : Nat) (f : Stream → Stream) : (s.withStream i f).sec = s.sec := rfl
@[simp] theorem State.withStream_fl (s : State) (i : Nat) (f : Stream → Stream) : (s.withStream i f).fl = s.fl := rfl
@[simp] theorem State.withStream_host (s : State) (i : Nat) (f : Stream → Stream) : (s.withStream i f).host = s.host := rfl
@[simp] theorem State.withStream_toFlint (s : State) (i : Nat) (f : Stream → Stream) : (s.withStream i f).toFlint = s.toFlint := rfl
@[simp] theorem State.withStream_readData (s : State) (i : Nat) (f : Stream → Stream) : (s.withStream i f).readData = s.readData := rfl
@[simp] theorem State.withStream_free (s : State) (i : Nat) (f : Stream → Stream) : (s.withStream i f).free = s.free := rfl
@[simp] theorem State.withStream_pending (s : State) (i : Nat) (f : Stream → Stream) : (s.withStream i f).pending = s.pending := rfl

/-! ### withCore -/

@[simp] theorem State.withCore_time (s : State) (h : Nat) (f : Core → Core) : (s.withCore h f).time = s.time := rfl
@[simp] theorem State.withCore_drip (s : State) (h : Nat) (f : Core → Core) : (s.withCore h f).drip = s.drip := rfl
@[simp] theorem State.withCore_mtime (s : State) (h : Nat) (f : Core → Core) : (s.withCore h f).mtime = s.mtime := rfl
@[simp] theorem State.withCore_mbx (s : State) (h : Nat) (f : Core → Core) : (s.withCore h f).mbx = s.mbx := rfl
@[simp] theorem State.withCore_geodes (s : State) (h : Nat) (f : Core → Core) : (s.withCore h f).geodes = s.geodes := rfl
@[simp] theorem State.withCore_gal (s : State) (h : Nat) (f : Core → Core) : (s.withCore h f).gal = s.gal := rfl
@[simp] theorem State.withCore_ctxs (s : State) (h : Nat) (f : Core → Core) : (s.withCore h f).ctxs = s.ctxs := rfl
@[simp] theorem State.withCore_mpRecs (s : State) (h : Nat) (f : Core → Core) : (s.withCore h f).mpRecs = s.mpRecs := rfl
@[simp] theorem State.withCore_fcuRecs (s : State) (h : Nat) (f : Core → Core) : (s.withCore h f).fcuRecs = s.fcuRecs := rfl
@[simp] theorem State.withCore_role (s : State) (h : Nat) (f : Core → Core) : (s.withCore h f).role = s.role := rfl
@[simp] theorem State.withCore_recSeq (s : State) (h : Nat) (f : Core → Core) : (s.withCore h f).recSeq = s.recSeq := rfl
@[simp] theorem State.withCore_recLost (s : State) (h : Nat) (f : Core → Core) : (s.withCore h f).recLost = s.recLost := rfl
@[simp] theorem State.withCore_dev (s : State) (h : Nat) (f : Core → Core) : (s.withCore h f).dev = s.dev := rfl
@[simp] theorem State.withCore_streams (s : State) (h : Nat) (f : Core → Core) : (s.withCore h f).streams = s.streams := rfl
@[simp] theorem State.withCore_conduit (s : State) (h : Nat) (f : Core → Core) : (s.withCore h f).conduit = s.conduit := rfl
@[simp] theorem State.withCore_cores (s : State) (h : Nat) (f : Core → Core) : (s.withCore h f).cores = upd s.cores h f := rfl
@[simp] theorem State.withCore_cic (s : State) (h : Nat) (f : Core → Core) : (s.withCore h f).cic = s.cic := rfl
@[simp] theorem State.withCore_shelf (s : State) (h : Nat) (f : Core → Core) : (s.withCore h f).shelf = s.shelf := rfl
@[simp] theorem State.withCore_pw (s : State) (h : Nat) (f : Core → Core) : (s.withCore h f).pw = s.pw := rfl
@[simp] theorem State.withCore_tw (s : State) (h : Nat) (f : Core → Core) : (s.withCore h f).tw = s.tw := rfl
@[simp] theorem State.withCore_fcu (s : State) (h : Nat) (f : Core → Core) : (s.withCore h f).fcu = s.fcu := rfl
@[simp] theorem State.withCore_sec (s : State) (h : Nat) (f : Core → Core) : (s.withCore h f).sec = s.sec := rfl
@[simp] theorem State.withCore_fl (s : State) (h : Nat) (f : Core → Core) : (s.withCore h f).fl = s.fl := rfl
@[simp] theorem State.withCore_host (s : State) (h : Nat) (f : Core → Core) : (s.withCore h f).host = s.host := rfl
@[simp] theorem State.withCore_toFlint (s : State) (h : Nat) (f : Core → Core) : (s.withCore h f).toFlint = s.toFlint := rfl
@[simp] theorem State.withCore_readData (s : State) (h : Nat) (f : Core → Core) : (s.withCore h f).readData = s.readData := rfl
@[simp] theorem State.withCore_free (s : State) (h : Nat) (f : Core → Core) : (s.withCore h f).free = s.free := rfl
@[simp] theorem State.withCore_pending (s : State) (h : Nat) (f : Core → Core) : (s.withCore h f).pending = s.pending := rfl

/-! ### withCic -/

@[simp] theorem State.withCic_time (s : State) (h : Nat) (f : Cic → Cic) : (s.withCic h f).time = s.time := rfl
@[simp] theorem State.withCic_drip (s : State) (h : Nat) (f : Cic → Cic) : (s.withCic h f).drip = s.drip := rfl
@[simp] theorem State.withCic_mtime (s : State) (h : Nat) (f : Cic → Cic) : (s.withCic h f).mtime = s.mtime := rfl
@[simp] theorem State.withCic_mbx (s : State) (h : Nat) (f : Cic → Cic) : (s.withCic h f).mbx = s.mbx := rfl
@[simp] theorem State.withCic_geodes (s : State) (h : Nat) (f : Cic → Cic) : (s.withCic h f).geodes = s.geodes := rfl
@[simp] theorem State.withCic_gal (s : State) (h : Nat) (f : Cic → Cic) : (s.withCic h f).gal = s.gal := rfl
@[simp] theorem State.withCic_ctxs (s : State) (h : Nat) (f : Cic → Cic) : (s.withCic h f).ctxs = s.ctxs := rfl
@[simp] theorem State.withCic_mpRecs (s : State) (h : Nat) (f : Cic → Cic) : (s.withCic h f).mpRecs = s.mpRecs := rfl
@[simp] theorem State.withCic_fcuRecs (s : State) (h : Nat) (f : Cic → Cic) : (s.withCic h f).fcuRecs = s.fcuRecs := rfl
@[simp] theorem State.withCic_role (s : State) (h : Nat) (f : Cic → Cic) : (s.withCic h f).role = s.role := rfl
@[simp] theorem State.withCic_recSeq (s : State) (h : Nat) (f : Cic → Cic) : (s.withCic h f).recSeq = s.recSeq := rfl
@[simp] theorem State.withCic_recLost (s : State) (h : Nat) (f : Cic → Cic) : (s.withCic h f).recLost = s.recLost := rfl
@[simp] theorem State.withCic_dev (s : State) (h : Nat) (f : Cic → Cic) : (s.withCic h f).dev = s.dev := rfl
@[simp] theorem State.withCic_streams (s : State) (h : Nat) (f : Cic → Cic) : (s.withCic h f).streams = s.streams := rfl
@[simp] theorem State.withCic_conduit (s : State) (h : Nat) (f : Cic → Cic) : (s.withCic h f).conduit = s.conduit := rfl
@[simp] theorem State.withCic_cores (s : State) (h : Nat) (f : Cic → Cic) : (s.withCic h f).cores = s.cores := rfl
@[simp] theorem State.withCic_cic (s : State) (h : Nat) (f : Cic → Cic) : (s.withCic h f).cic = upd s.cic h f := rfl
@[simp] theorem State.withCic_shelf (s : State) (h : Nat) (f : Cic → Cic) : (s.withCic h f).shelf = s.shelf := rfl
@[simp] theorem State.withCic_pw (s : State) (h : Nat) (f : Cic → Cic) : (s.withCic h f).pw = s.pw := rfl
@[simp] theorem State.withCic_tw (s : State) (h : Nat) (f : Cic → Cic) : (s.withCic h f).tw = s.tw := rfl
@[simp] theorem State.withCic_fcu (s : State) (h : Nat) (f : Cic → Cic) : (s.withCic h f).fcu = s.fcu := rfl
@[simp] theorem State.withCic_sec (s : State) (h : Nat) (f : Cic → Cic) : (s.withCic h f).sec = s.sec := rfl
@[simp] theorem State.withCic_fl (s : State) (h : Nat) (f : Cic → Cic) : (s.withCic h f).fl = s.fl := rfl
@[simp] theorem State.withCic_host (s : State) (h : Nat) (f : Cic → Cic) : (s.withCic h f).host = s.host := rfl
@[simp] theorem State.withCic_toFlint (s : State) (h : Nat) (f : Cic → Cic) : (s.withCic h f).toFlint = s.toFlint := rfl
@[simp] theorem State.withCic_readData (s : State) (h : Nat) (f : Cic → Cic) : (s.withCic h f).readData = s.readData := rfl
@[simp] theorem State.withCic_free (s : State) (h : Nat) (f : Cic → Cic) : (s.withCic h f).free = s.free := rfl
@[simp] theorem State.withCic_pending (s : State) (h : Nat) (f : Cic → Cic) : (s.withCic h f).pending = s.pending := rfl

/-! ### withDrip -/

@[simp] theorem State.withDrip_time (s : State) (f : DripSt → DripSt) : (s.withDrip f).time = s.time := rfl
@[simp] theorem State.withDrip_drip (s : State) (f : DripSt → DripSt) : (s.withDrip f).drip = f s.drip := rfl
@[simp] theorem State.withDrip_mtime (s : State) (f : DripSt → DripSt) : (s.withDrip f).mtime = s.mtime := rfl
@[simp] theorem State.withDrip_mbx (s : State) (f : DripSt → DripSt) : (s.withDrip f).mbx = s.mbx := rfl
@[simp] theorem State.withDrip_geodes (s : State) (f : DripSt → DripSt) : (s.withDrip f).geodes = s.geodes := rfl
@[simp] theorem State.withDrip_gal (s : State) (f : DripSt → DripSt) : (s.withDrip f).gal = s.gal := rfl
@[simp] theorem State.withDrip_ctxs (s : State) (f : DripSt → DripSt) : (s.withDrip f).ctxs = s.ctxs := rfl
@[simp] theorem State.withDrip_mpRecs (s : State) (f : DripSt → DripSt) : (s.withDrip f).mpRecs = s.mpRecs := rfl
@[simp] theorem State.withDrip_fcuRecs (s : State) (f : DripSt → DripSt) : (s.withDrip f).fcuRecs = s.fcuRecs := rfl
@[simp] theorem State.withDrip_role (s : State) (f : DripSt → DripSt) : (s.withDrip f).role = s.role := rfl
@[simp] theorem State.withDrip_recSeq (s : State) (f : DripSt → DripSt) : (s.withDrip f).recSeq = s.recSeq := rfl
@[simp] theorem State.withDrip_recLost (s : State) (f : DripSt → DripSt) : (s.withDrip f).recLost = s.recLost := rfl
@[simp] theorem State.withDrip_dev (s : State) (f : DripSt → DripSt) : (s.withDrip f).dev = s.dev := rfl
@[simp] theorem State.withDrip_streams (s : State) (f : DripSt → DripSt) : (s.withDrip f).streams = s.streams := rfl
@[simp] theorem State.withDrip_conduit (s : State) (f : DripSt → DripSt) : (s.withDrip f).conduit = s.conduit := rfl
@[simp] theorem State.withDrip_cores (s : State) (f : DripSt → DripSt) : (s.withDrip f).cores = s.cores := rfl
@[simp] theorem State.withDrip_cic (s : State) (f : DripSt → DripSt) : (s.withDrip f).cic = s.cic := rfl
@[simp] theorem State.withDrip_shelf (s : State) (f : DripSt → DripSt) : (s.withDrip f).shelf = s.shelf := rfl
@[simp] theorem State.withDrip_pw (s : State) (f : DripSt → DripSt) : (s.withDrip f).pw = s.pw := rfl
@[simp] theorem State.withDrip_tw (s : State) (f : DripSt → DripSt) : (s.withDrip f).tw = s.tw := rfl
@[simp] theorem State.withDrip_fcu (s : State) (f : DripSt → DripSt) : (s.withDrip f).fcu = s.fcu := rfl
@[simp] theorem State.withDrip_sec (s : State) (f : DripSt → DripSt) : (s.withDrip f).sec = s.sec := rfl
@[simp] theorem State.withDrip_fl (s : State) (f : DripSt → DripSt) : (s.withDrip f).fl = s.fl := rfl
@[simp] theorem State.withDrip_host (s : State) (f : DripSt → DripSt) : (s.withDrip f).host = s.host := rfl
@[simp] theorem State.withDrip_toFlint (s : State) (f : DripSt → DripSt) : (s.withDrip f).toFlint = s.toFlint := rfl
@[simp] theorem State.withDrip_readData (s : State) (f : DripSt → DripSt) : (s.withDrip f).readData = s.readData := rfl
@[simp] theorem State.withDrip_free (s : State) (f : DripSt → DripSt) : (s.withDrip f).free = s.free := rfl
@[simp] theorem State.withDrip_pending (s : State) (f : DripSt → DripSt) : (s.withDrip f).pending = s.pending := rfl

end Sys2Proof.Machine
end

