-- ==== Sys2Proof/Laws/Run.lean ====
section
/-!
SUPPORT. What the shared operations of commands do, said once: an accepted command that is ready runs its body; an issued
instruction has its body's effect and moves the program counter; reads of an updated table.
-/
namespace Sys2Proof.Machine

/-! ### Tables -/

@[simp] theorem upd_length {α : Type} (l : List α) (i : Nat) (f : α → α) : (upd l i f).length = l.length := by simp [upd]

theorem upd_getD_self {α : Type} {l : List α} {i : Nat} {f : α → α} {d : α} (h : i < l.length) : (upd l i f).getD i d = f (l.getD i d) := by
  simp [upd, List.getD, h]

theorem upd_getD_ne {α : Type} {l : List α} {i j : Nat} {f : α → α} {d : α} (h : i ≠ j) : (upd l i f).getD j d = l.getD j d := by
  simp [upd, List.getD, h]

theorem upd_ge {α : Type} {l : List α} {i : Nat} {f : α → α} (h : l.length ≤ i) : upd l i f = l := by
  simp [upd, List.modify_eq_self h]

/-! ### Mailbox commands -/

theorem State.run_ready {s s' : State} {m tag op : Nat} {c : Cmd} {body : Cmd → State → Answer} {ws : List W32} {ch : List Nat}
    (h : s.ready m tag op c) (hb : body c s = .ok (s', ws, ch)) : s.run m tag op body = .next (s'.finish m c sOk ws ch) := by
  obtain ⟨h1, h2, h3, h4, h5⟩ := h
  simp [State.run, State.runBody, h1, h2, h3, h4, h5, hb]

theorem State.run_rejects {s : State} {m tag op e : Nat} {c : Cmd} {body : Cmd → State → Answer} {ws : List W32}
    (h : s.ready m tag op c) (hb : body c s = .error (e, ws)) : s.run m tag op body = .next (s.finish m c e ws []) := by
  obtain ⟨h1, h2, h3, h4, h5⟩ := h
  simp [State.run, State.runBody, h1, h2, h3, h4, h5, hb]

theorem State.begin_ready {s s' : State} {m tag op : Nat} {c : Cmd} {body : Cmd → State → Begun}
    (h : s.ready m tag op c) (hb : body c s = .ok s') : s.begin m tag op body = .next s' := by
  obtain ⟨h1, h2, h3, h4, h5⟩ := h
  simp [State.begin, State.beginBody, h1, h2, h3, h4, h5, hb]

theorem need_true (e : Nat) : need true e = .ok () := rfl

/-- A check that passes goes on. -/
theorem need_bind {α : Type} {b : Bool} {e : Nat} {f : Unit → Except (Nat × List W32) α} (h : b = true) : (need b e >>= f) = f () := by
  subst h; rfl

/-- A check that fails rejects with its status and no payload (R275). -/
theorem need_bind_false {α : Type} {b : Bool} {e : Nat} {f : Unit → Except (Nat × List W32) α} (h : b = false) :
    (need b e >>= f) = .error (e, []) := by
  subst h; rfl

/-! ### Instructions -/

theorem State.issue_spec {s s' : State} {g t op : Nat} {p : Nat → Bool} {body : Nat → State → Res (State × Flow)} {fl : Flow}
    (h : s.issues g t op = true) (hp : p op = true) (hb : body (s.instrAt g) (s.spend g t) = .ok (s', fl)) :
    s.issue g t p body = s'.advance g (s.fsl g).pc fl := by
  unfold State.issues at h
  unfold State.issue
  split at h
  · cases h
  · rename_i f hf
    simp only [hf]
    simp only [Bool.and_eq_true, Bool.or_eq_true, Bool.not_eq_true', decide_eq_true_eq, beq_iff_eq] at h
    obtain ⟨⟨⟨⟨⟨h0, h1⟩, h2⟩, h3⟩, h4⟩, h5⟩ := h
    have e1 : ((s.geode g).halted && !(s.geode g).step) = false := by
      rcases h1 with h1 | h1 <;> simp [h1]
    have e2 : ¬ (s.fsl g).prog.length ≤ (s.fsl g).pc := by omega
    have e3 : ¬ (f.limit ≠ 0 ∧ f.limit + (f.stalled + if s.commitFull g then t else 0) ≤ f.cycles + t) := by omega
    have e4 : p (fld ((s.fsl g).prog.getD (s.fsl g).pc 0).toNat 56 8) = true := by
      have : fld ((s.fsl g).prog.getD (s.fsl g).pc 0).toNat 56 8 = op := h3
      rw [this]; exact hp
    simp only [State.instrAt] at hb
    have e5 : (!s.arithRuns || ((s.geode g).halted && !(s.geode g).step) || !p (fld ((s.fsl g).prog.getD (s.fsl g).pc 0).toNat 56 8) ||
        decide ((s.fsl g).prog.length ≤ (s.fsl g).pc)) = false := by
      rw [h0, e1, e4, decide_eq_false e2]; rfl
    rw [e5]
    simp only [Bool.false_eq_true, if_false, h4, e3, hb]

/-- An instruction that goes on to the next one. -/
theorem State.issue_next {s s' : State} {g t op : Nat} {p : Nat → Bool} {body : Nat → State → Res (State × Flow)}
    (h : s.issues g t op = true) (hp : p op = true) (hb : body (s.instrAt g) (s.spend g t) = .ok (s', .next))
    (hl : (s'.fsl g).prog.length = (s.fsl g).prog.length) (hn : (s.fsl g).pc + 1 < (s.fsl g).prog.length) :
    s.issue g t p body = s'.goTo g ((s.fsl g).pc + 1) := by
  rw [State.issue_spec h hp hb]
  have : ¬ (s'.fsl g).prog.length ≤ (s.fsl g).pc + 1 := by omega
  simp [State.advance, this, State.goTo]

/-! ### The firing slot -/

/-- A change of the firing slot that keeps its program keeps the program's length. -/
theorem State.withFsl_prog (s : State) (g : Nat) (f : Slot → Slot) (hf : ∀ x, (f x).prog = x.prog) :
    ((s.withFsl g f).fsl g).prog = (s.fsl g).prog := by
  have hfir : ∀ x : Geode, (x.withSlot (s.fslot g) f).firing = x.firing := fun _ => rfl
  have key : (s.withFsl g f).fslot g = s.fslot g := by
    unfold State.fslot State.firing State.withFsl State.withSlot State.geode
    simp only [State.withGeode_geodes]
    by_cases hg : g < s.geodes.length
    · rw [upd_getD_self hg]; rfl
    · rw [upd_ge (Nat.not_lt.mp hg)]
  unfold State.fsl
  rw [key]
  unfold State.slot State.geode State.withFsl State.withSlot
  simp only [State.withGeode_geodes]
  by_cases hg : g < s.geodes.length
  · rw [upd_getD_self hg]
    unfold Geode.slot Geode.withSlot
    by_cases hi : s.fslot g < (s.geodes.getD g {}).slots.length
    · rw [upd_getD_self hi, hf]
    · rw [upd_ge (Nat.not_lt.mp hi)]
  · rw [upd_ge (Nat.not_lt.mp hg)]

/-- A change of Geode `g` that keeps its firing's slot and its slots' programs keeps the program. -/
theorem State.withGeode_prog (s : State) (g : Nat) (f : Geode → Geode) (h1 : ∀ d, ((f d).firing.map fun x => x.slot) = d.firing.map fun x => x.slot)
    (h2 : ∀ d i, ((f d).slot i).prog = (d.slot i).prog) : ((s.withGeode g f).fsl g).prog = (s.fsl g).prog := by
  unfold State.fsl State.slot State.fslot State.firing State.geode
  simp only [State.withGeode_geodes]
  by_cases hg : g < s.geodes.length
  · rw [upd_getD_self hg, h1, h2]
  · rw [upd_ge (Nat.not_lt.mp hg)]

theorem State.withFiring_prog (s : State) (g : Nat) (f : Firing → Firing) (h : ∀ x, (f x).slot = x.slot) :
    ((s.withFiring g f).fsl g).prog = (s.fsl g).prog := by
  apply State.withGeode_prog
  · intro d; cases d.firing <;> simp [h]
  · intro d i; rfl

theorem State.spend_prog (s : State) (g t : Nat) : ((s.spend g t).fsl g).prog = (s.fsl g).prog := by
  have h1 := State.withGeode_prog ((s.charge g t).withFiring g fun f => { f with stalled := f.stalled + if s.commitFull g then t else 0 }) g
    (fun d => { d with step := false, calLog0 := if s.fcu.mpHalt then d.calLog0 else d.calLog0 &&& 0x7FFFFFFF }) (fun _ => rfl) (fun _ _ => rfl)
  have h0 := State.withFiring_prog (s.charge g t) g (fun f => { f with stalled := f.stalled + if s.commitFull g then t else 0 }) (fun _ => rfl)
  have h2 := State.withFiring_prog (s.withFsl g fun sl => { sl with used := sl.used + t }) g (fun f => { f with cycles := f.cycles + t }) (fun _ => rfl)
  have h3 := State.withFsl_prog s g (fun sl => { sl with used := sl.used + t }) (fun _ => rfl)
  exact h1.trans (h0.trans (h2.trans h3))

theorem State.setS_prog (s : State) (g i : Nat) (v : W32) : ((s.setS g i v).fsl g).prog = (s.fsl g).prog := by
  unfold State.setS
  split
  · rfl
  · exact State.withFsl_prog _ _ _ (by intro x; rfl)

theorem State.setV_prog (s : State) (g i : Nat) (v : VReg) : ((s.setV g i v).fsl g).prog = (s.fsl g).prog :=
  State.withFsl_prog _ _ _ (by intro x; rfl)

theorem State.setA_prog (s : State) (g i v : Nat) : ((s.setA g i v).fsl g).prog = (s.fsl g).prog :=
  State.withFsl_prog _ _ _ (by intro x; rfl)

end Sys2Proof.Machine
end

