-- ==== Sys2Proof/Laws/Objects.lean ====
section
/-!
SUPPORT. Reads of one object after an update of an object; updates that change nothing; what a message to a mailbox leaves alone; and which
updates keep the tables and the memories; what a relayed metrology command answers.
-/
namespace Sys2Proof.Machine

/-! ### Updates of a list -/

theorem upd_congr {α : Type} {l : List α} {i : Nat} {f g : α → α} {d : α} (h : f (l.getD i d) = g (l.getD i d)) : upd l i f = upd l i g := by
  by_cases hi : i < l.length
  · apply List.ext_getElem
    · simp
    · intro n h1 h2
      simp only [upd, List.getElem_modify]
      split
      · rename_i e; subst e
        simpa [List.getD, hi] using h
      · rfl
  · rw [upd_ge (Nat.not_lt.mp hi), upd_ge (Nat.not_lt.mp hi)]

theorem upd_same {α : Type} {l : List α} {i : Nat} {f : α → α} {d : α} (h : f (l.getD i d) = l.getD i d) : upd l i f = l := by
  rw [upd_congr (g := id) (d := d) h]
  simp [upd]

theorem upd_all {α : Type} {l : List α} {i : Nat} {f : α → α} {p : α → Bool} (hl : l.all p = true) (hf : ∀ x, p x = true → p (f x) = true) :
    (upd l i f).all p = true := by
  rw [List.all_eq_true] at hl ⊢
  intro x hx
  obtain ⟨n, hn, rfl⟩ := List.getElem_of_mem hx
  simp only [upd, List.getElem_modify]
  split
  · exact hf _ (hl _ (List.getElem_mem _))
  · exact hl _ (List.getElem_mem _)

theorem upd_upd {α : Type} (l : List α) (i : Nat) (f g : α → α) : upd (upd l i f) i g = upd l i fun x => g (f x) := by
  apply List.ext_getElem
  · simp
  · intro n h1 h2
    simp only [upd, List.getElem_modify]
    split <;> rfl

/-! ### Mailboxes -/

theorem State.mb_withMbx_self {s : State} {i : Nat} {f : Mbx → Mbx} (h : i < s.mbx.length) : (s.withMbx i f).mb i = f (s.mb i) :=
  upd_getD_self h

theorem State.mb_withMbx_ne {s : State} {i j : Nat} {f : Mbx → Mbx} (h : i ≠ j) : (s.withMbx i f).mb j = s.mb j := upd_getD_ne h

theorem State.withMbx_congr {s : State} {i : Nat} {f g : Mbx → Mbx} (h : f (s.mb i) = g (s.mb i)) : s.withMbx i f = s.withMbx i g := by
  unfold State.withMbx
  rw [upd_congr h]

theorem State.withMbx_same {s : State} {i : Nat} {f : Mbx → Mbx} (h : f (s.mb i) = s.mb i) : s.withMbx i f = s := by
  unfold State.withMbx
  rw [upd_same h]

theorem State.withMbx_withMbx (s : State) (i : Nat) (f g : Mbx → Mbx) : (s.withMbx i f).withMbx i g = s.withMbx i fun x => g (f x) := by
  unfold State.withMbx
  simp only [upd_upd]

/-! ### Geodes -/

theorem State.geode_withGeode_self {s : State} {i : Nat} {f : Geode → Geode} (h : i < s.geodes.length) : (s.withGeode i f).geode i = f (s.geode i) :=
  upd_getD_self h

theorem State.geode_withGeode_ne {s : State} {i j : Nat} {f : Geode → Geode} (h : i ≠ j) : (s.withGeode i f).geode j = s.geode j := upd_getD_ne h

theorem State.withGeode_congr {s : State} {i : Nat} {f g : Geode → Geode} (h : f (s.geode i) = g (s.geode i)) : s.withGeode i f = s.withGeode i g := by
  unfold State.withGeode
  rw [upd_congr h]

theorem State.withGeode_same {s : State} {i : Nat} {f : Geode → Geode} (h : f (s.geode i) = s.geode i) : s.withGeode i f = s := by
  unfold State.withGeode
  rw [upd_same h]

theorem State.withGeode_withGeode (s : State) (i : Nat) (f g : Geode → Geode) : (s.withGeode i f).withGeode i g = s.withGeode i fun x => g (f x) := by
  unfold State.withGeode
  simp only [upd_upd]

/-! ### Contexts -/

theorem State.ctx_withCtx_self {s : State} {i : Nat} {f : Ctx → Ctx} (h : i < s.ctxs.length) : (s.withCtx i f).ctx i = f (s.ctx i) :=
  upd_getD_self h

theorem State.ctx_withCtx_ne {s : State} {i j : Nat} {f : Ctx → Ctx} (h : i ≠ j) : (s.withCtx i f).ctx j = s.ctx j := upd_getD_ne h

theorem State.withCtx_congr {s : State} {i : Nat} {f g : Ctx → Ctx} (h : f (s.ctx i) = g (s.ctx i)) : s.withCtx i f = s.withCtx i g := by
  unfold State.withCtx
  rw [upd_congr h]

theorem State.withCtx_same {s : State} {i : Nat} {f : Ctx → Ctx} (h : f (s.ctx i) = s.ctx i) : s.withCtx i f = s := by
  unfold State.withCtx
  rw [upd_same h]

theorem State.withCtx_withCtx (s : State) (i : Nat) (f g : Ctx → Ctx) : (s.withCtx i f).withCtx i g = s.withCtx i fun x => g (f x) := by
  unfold State.withCtx
  simp only [upd_upd]

/-! ### Streams -/

theorem State.stream_withStream_self {s : State} {i : Nat} {f : Stream → Stream} (h : i < s.streams.length) : (s.withStream i f).stream i = f (s.stream i) :=
  upd_getD_self h

theorem State.stream_withStream_ne {s : State} {i j : Nat} {f : Stream → Stream} (h : i ≠ j) : (s.withStream i f).stream j = s.stream j := upd_getD_ne h

theorem State.withStream_congr {s : State} {i : Nat} {f g : Stream → Stream} (h : f (s.stream i) = g (s.stream i)) : s.withStream i f = s.withStream i g := by
  unfold State.withStream
  rw [upd_congr h]

theorem State.withStream_same {s : State} {i : Nat} {f : Stream → Stream} (h : f (s.stream i) = s.stream i) : s.withStream i f = s := by
  unfold State.withStream
  rw [upd_same h]

theorem State.withStream_withStream (s : State) (i : Nat) (f g : Stream → Stream) : (s.withStream i f).withStream i g = s.withStream i fun x => g (f x) := by
  unfold State.withStream
  simp only [upd_upd]

/-! ### Cores -/

theorem State.core_withCore_self {s : State} {i : Nat} {f : Core → Core} (h : i < s.cores.length) : (s.withCore i f).core i = f (s.core i) :=
  upd_getD_self h

theorem State.core_withCore_ne {s : State} {i j : Nat} {f : Core → Core} (h : i ≠ j) : (s.withCore i f).core j = s.core j := upd_getD_ne h

theorem State.withCore_congr {s : State} {i : Nat} {f g : Core → Core} (h : f (s.core i) = g (s.core i)) : s.withCore i f = s.withCore i g := by
  unfold State.withCore
  rw [upd_congr h]

theorem State.withCore_same {s : State} {i : Nat} {f : Core → Core} (h : f (s.core i) = s.core i) : s.withCore i f = s := by
  unfold State.withCore
  rw [upd_same h]

theorem State.withCore_withCore (s : State) (i : Nat) (f g : Core → Core) : (s.withCore i f).withCore i g = s.withCore i fun x => g (f x) := by
  unfold State.withCore
  simp only [upd_upd]

/-! ### Slots and queues -/

theorem Geode.slot_withSlot_self {d : Geode} {i : Nat} {f : Slot → Slot} (h : i < d.slots.length) : (d.withSlot i f).slot i = f (d.slot i) :=
  upd_getD_self h

theorem Geode.slot_withSlot_ne {d : Geode} {i j : Nat} {f : Slot → Slot} (h : i ≠ j) : (d.withSlot i f).slot j = d.slot j := upd_getD_ne h

theorem Geode.queue_withQueue_self {d : Geode} {i : Nat} {f : Queue → Queue} (h : i < d.queues.length) : (d.withQueue i f).queue i = f (d.queue i) :=
  upd_getD_self h

theorem Geode.queue_withQueue_ne {d : Geode} {i j : Nat} {f : Queue → Queue} (h : i ≠ j) : (d.withQueue i f).queue j = d.queue j := upd_getD_ne h

theorem State.slot_withGeode_ne {s : State} {g h i : Nat} {f : Geode → Geode} (hg : g ≠ h) : (s.withGeode g f).slot h i = s.slot h i := by
  unfold State.slot
  rw [State.geode_withGeode_ne hg]

theorem State.slot_withGeode_self {s : State} {g i : Nat} {f : Geode → Geode} (hg : g < s.geodes.length) : (s.withGeode g f).slot g i = (f (s.geode g)).slot i := by
  unfold State.slot
  rw [State.geode_withGeode_self hg]

theorem State.queue_withGeode_ne {s : State} {g h i : Nat} {f : Geode → Geode} (hg : g ≠ h) : (s.withGeode g f).queue h i = s.queue h i := by
  unfold State.queue
  rw [State.geode_withGeode_ne hg]

theorem State.queue_withGeode_self {s : State} {g i : Nat} {f : Geode → Geode} (hg : g < s.geodes.length) :
    (s.withGeode g f).queue g i = (f (s.geode g)).queue i := by
  unfold State.queue
  rw [State.geode_withGeode_self hg]

theorem State.slot_withSlot_self {s : State} {g i : Nat} {f : Slot → Slot} (hg : g < s.geodes.length) (hi : i < (s.geode g).slots.length) :
    (s.withSlot g i f).slot g i = f (s.slot g i) := (State.slot_withGeode_self hg).trans (Geode.slot_withSlot_self hi)

theorem State.slot_withSlot_ne {s : State} {g h i j : Nat} {f : Slot → Slot} (hne : g ≠ h ∨ i ≠ j) : (s.withSlot g i f).slot h j = s.slot h j := by
  by_cases hg : g = h
  · subst hg
    by_cases hl : g < s.geodes.length
    · exact (State.slot_withGeode_self hl).trans (Geode.slot_withSlot_ne (hne.resolve_left fun h => h rfl))
    · unfold State.withSlot State.withGeode
      rw [upd_ge (Nat.not_lt.mp hl)]
  · exact State.slot_withGeode_ne hg

theorem State.queue_withQueue_self {s : State} {g i : Nat} {f : Queue → Queue} (hg : g < s.geodes.length) (hi : i < (s.geode g).queues.length) :
    (s.withQueue g i f).queue g i = f (s.queue g i) := (State.queue_withGeode_self hg).trans (Geode.queue_withQueue_self hi)

theorem State.queue_withQueue_ne {s : State} {g h i j : Nat} {f : Queue → Queue} (hne : g ≠ h ∨ i ≠ j) : (s.withQueue g i f).queue h j = s.queue h j := by
  by_cases hg : g = h
  · subst hg
    by_cases hl : g < s.geodes.length
    · exact (State.queue_withGeode_self hl).trans (Geode.queue_withQueue_ne (hne.resolve_left fun h => h rfl))
    · unfold State.withQueue State.withGeode
      rw [upd_ge (Nat.not_lt.mp hl)]
  · exact State.queue_withGeode_ne hg

/-! ### Slabs -/

theorem Gallery.slab_withSlab_self {d : Gallery} {i : Nat} {f : Slab → Slab} (h : i < d.slabs.length) : (d.withSlab i f).slab i = f (d.slab i) :=
  upd_getD_self h

theorem Gallery.slab_withSlab_ne {d : Gallery} {i j : Nat} {f : Slab → Slab} (h : i ≠ j) : (d.withSlab i f).slab j = d.slab j := upd_getD_ne h

/-! ### Messages of a mailbox -/

theorem Mbx.hold_spec (b : Mbx) (m : OutMsg) : (b.hold m).cmd = b.cmd ∧ (b.hold m).part = b.part ∧ (b.hold m).out = b.out ∧ (b.hold m).cmdHeld = b.cmdHeld := by
  unfold Mbx.hold
  split
  · exact ⟨rfl, rfl, rfl, rfl⟩
  · exact ⟨rfl, rfl, rfl, rfl⟩

theorem Mbx.send_spec (b : Mbx) (m : OutMsg) : (b.send m).cmd = b.cmd ∧ (b.send m).part = b.part ∧ (b.send m).out = b.out ∧ (b.send m).cmdHeld = b.cmdHeld := by
  unfold Mbx.send
  split
  · exact ⟨rfl, rfl, rfl, rfl⟩
  · exact Mbx.hold_spec b m

theorem State.event_spec {s : State} {m : Nat} (h : m < s.mbx.length) (code tag n : Nat) (ws : List W32) :
    ((s.event m code tag n ws).mb m).cmd = (s.mb m).cmd ∧ ((s.event m code tag n ws).mb m).part = (s.mb m).part ∧
      ((s.event m code tag n ws).mb m).out = (s.mb m).out := by
  unfold State.event State.send
  rw [State.mb_withMbx_self h]
  exact ⟨(Mbx.send_spec _ _).1, (Mbx.send_spec _ _).2.1, (Mbx.send_spec _ _).2.2.1⟩

/-! ### Tables and memories -/

/-- An updated table satisfies what every entry satisfied, if the update keeps it. -/
theorem upd_all_of {α : Type} {l : List α} {i : Nat} {f : α → α} {p : α → Bool} (h : l.all p = true) (hf : ∀ x, p x = true → p (f x) = true) :
    (upd l i f).all p = true := by
  rw [List.all_eq_true] at h ⊢
  intro x hx
  unfold upd at hx
  obtain ⟨j, hj, rfl⟩ := List.getElem_of_mem hx
  rw [List.getElem_modify]
  split
  · exact hf _ (h _ (List.getElem_mem _))
  · exact h _ (List.getElem_mem _)

theorem State.withGeode_tables {s : State} {g : Nat} {f : Geode → Geode} (h : s.tables = true) (hf : ∀ d, d.tables = true → (f d).tables = true) :
    (s.withGeode g f).tables = true := by
  have kept : (s.geodes.all Geode.tables) = true → ((upd s.geodes g f).all Geode.tables) = true := fun ht => upd_all_of ht hf
  simp only [State.tables, Bool.and_eq_true, State.withGeode, upd_length] at h ⊢
  simp_all only [and_self]

theorem State.withMbx_tables {s : State} {m : Nat} {f : Mbx → Mbx} : (s.withMbx m f).tables = s.tables := by
  simp [State.tables, State.withMbx]

theorem State.withGeode_memWf {s : State} {g : Nat} {f : Geode → Geode} (h : s.memWf = true)
    (hf : ∀ d, d.pocket.wf = true → (f d).pocket.wf = true) : (s.withGeode g f).memWf = true := by
  have kept : (s.geodes.all fun d => d.pocket.wf) = true → ((upd s.geodes g f).all fun d => d.pocket.wf) = true := fun hp =>
    upd_all_of hp hf
  simp only [State.memWf, Bool.and_eq_true, State.withGeode] at h ⊢
  simp_all only [and_self]

theorem State.withMbx_memWf {s : State} {m : Nat} {f : Mbx → Mbx} : (s.withMbx m f).memWf = s.memWf := rfl

/-! ### A metrology command -/

/-- A relayed metrology command whose body Flint accepts is answered with that body's state and words. -/
theorem State.metRun_ok {s t : State} {m tag op : Nat} {sel : Cmd → Bool} {c : Cmd} {body : List Nat → State → MetAns} {ws : List W32}
    (h : s.metReady m tag op c) (hs : sel c = true) (hb : body c.metBody (s.metTaken m c) = .ok (t, ws)) :
    s.metRun m tag op sel body = .next (t.metAnswer s.fl.km c sOk ws c.metCtr) := by
  obtain ⟨h1, h2, h3, h4, h5, h6⟩ := h
  simp only [State.metTaken, Cmd.metBody, Cmd.metCtr] at hb
  simp only [State.metRun, h1, hs, h2, h3, h4, h5, h6, Bool.not_true, Bool.or_false, Bool.false_eq_true, if_false, hb]
  rfl

/-- A relayed metrology command that Flint's rules refuse is answered with the status and no words; its counter stays consumed. -/
theorem State.metRun_refused {s : State} {m tag op : Nat} {sel : Cmd → Bool} {c : Cmd} {body : List Nat → State → MetAns} {e : Nat}
    (h : s.metReady m tag op c) (hs : sel c = true) (hb : body c.metBody (s.metTaken m c) = .error e) :
    s.metRun m tag op sel body = .next ((s.metTaken m c).metAnswer s.fl.km c e [] c.metCtr) := by
  obtain ⟨h1, h2, h3, h4, h5, h6⟩ := h
  simp only [State.metTaken, Cmd.metBody, Cmd.metCtr] at hb
  simp only [State.metRun, h1, hs, h2, h3, h4, h5, h6, Bool.not_true, Bool.or_false, Bool.false_eq_true, if_false, hb]
  rfl

end Sys2Proof.Machine
end

