-- ==== Sys2Proof/WellFormed.lean ====
section
/-!
DEFINITION. Well-formed commands: every index operand names an object that exists (R5).
-/
namespace Sys2Proof

/-- The index operands of a register of a Geode: slots and queues (R104). -/
def GReg.bounds : GReg → List (Nat × Nat)
  | .slotCtrl i | .slotBudget i | .slotUsed i | .slotWindow i | .slotLimit i | .slotPocket i | .slotQmask i | .slotFault i => [(i, 4)]
  | .qCfg q | .qStatus q | .qCtrl q => [(q, 24)]
  | _ => []

/-- The index operands of a register: mailboxes (R56), Geodes (R104), Gallery channels (R211), CIC blocks (R313), words of KG (R439). -/
def Reg.bounds : Reg → List (Nat × Nat)
  | .mbxCmdData m | .mbxCmdCount m | .mbxRspData m | .mbxRspCount m | .mbxCtrl m | .mbxStatus m => [(m, 8)]
  | .gd g r => (g, 32) :: r.bounds
  | .galCe k | .galUe k | .galErr k => [(k, 32)]
  | .cicPending b | .cicEnable b | .cicDrips b | .cicDoorbell b | .cicIpi b | .cicCfg b => [(b, 9)]
  | .mtimecmp b => [(b, 8)]
  | .secGalKey n => [(n, 8)]
  | _ => []

/-- The index operands of a command, each with the number of objects of its kind: Geodes, slots, queues, mailboxes, requesters, tags,
streams, cores, contexts, Gallery channels, wake pins, dies. -/
def Instr.bounds : Instr → List (Nat × Nat)
  | .mbxCmdDataWrite m _ _ => [(m, 8)]
  | .mbxRspDataRead m _ => [(m, 8)]
  | .cmdFlush m => [(m, 8)]
  | .rspFlush m => [(m, 8)]
  | .cmdHeldClear m => [(m, 8)]
  | .faultCtrlRelease => []
  | .windowAccessRejected _ _ _ _ => []
  | .registerWrite who r _ => (who, 10) :: r.bounds
  | .clearingRead who r => (who, 10) :: r.bounds
  | .mpAcceptCommand => []
  | .cmdPayloadTimeout m => [(m, 8)]
  | .heldMessageWrite m => [(m, 8)]
  | .flintResponseRelay m tag => [(m, 8), (tag, 256)]
  | .metrologyTimeout m tag => [(m, 8), (tag, 256)]
  | .identify m tag => [(m, 8), (tag, 256)]
  | .boardRecord m tag _ _ _ => [(m, 8), (tag, 256)]
  | .getStatus m tag => [(m, 8), (tag, 256)]
  | .setDripStart m tag => [(m, 8), (tag, 256)]
  | .setDrip m tag => [(m, 8), (tag, 256)]
  | .timeSet m tag => [(m, 8), (tag, 256)]
  | .timeAdjust m tag => [(m, 8), (tag, 256)]
  | .timeRead m tag => [(m, 8), (tag, 256)]
  | .ppsConfig m tag => [(m, 8), (tag, 256)]
  | .slabAlloc m tag => [(m, 8), (tag, 256)]
  | .slabAllocShare m tag => [(m, 8), (tag, 256)]
  | .slabFree m tag => [(m, 8), (tag, 256)]
  | .slabZeroed _ => []
  | .slabProtect m tag => [(m, 8), (tag, 256)]
  | .dmaIn m tag => [(m, 8), (tag, 256)]
  | .dmaOut m tag => [(m, 8), (tag, 256)]
  | .dmaTransferDone m tag _ _ => [(m, 8), (tag, 256)]
  | .imageLoad m tag => [(m, 8), (tag, 256)]
  | .imageVerify m tag => [(m, 8), (tag, 256)]
  | .indexBuild m tag => [(m, 8), (tag, 256)]
  | .scrubConfig m tag => [(m, 8), (tag, 256)]
  | .ctxCreate m tag => [(m, 8), (tag, 256)]
  | .ctxBind m tag => [(m, 8), (tag, 256)]
  | .ctxStart m tag => [(m, 8), (tag, 256)]
  | .ctxStop m tag => [(m, 8), (tag, 256)]
  | .ctxStopComplete ctx => [(ctx, 24)]
  | .ctxCheckpointSave m tag => [(m, 8), (tag, 256)]
  | .ctxCheckpointRestore m tag => [(m, 8), (tag, 256)]
  | .ctxDestroy m tag _ => [(m, 8), (tag, 256)]
  | .streamOpen m tag => [(m, 8), (tag, 256)]
  | .streamClose m tag _ => [(m, 8), (tag, 256)]
  | .streamStat m tag => [(m, 8), (tag, 256)]
  | .metRead m tag => [(m, 8), (tag, 256)]
  | .metParamSet m tag => [(m, 8), (tag, 256)]
  | .tare m tag => [(m, 8), (tag, 256)]
  | .zero m tag => [(m, 8), (tag, 256)]
  | .keyGeneration m tag => [(m, 8), (tag, 256)]
  | .metCalStart m tag => [(m, 8), (tag, 256)]
  | .metCalCapture m tag => [(m, 8), (tag, 256)]
  | .metCalCommit m tag _ => [(m, 8), (tag, 256)]
  | .metCalAbort m tag => [(m, 8), (tag, 256)]
  | .metLogRead m tag => [(m, 8), (tag, 256)]
  | .metLogAck m tag => [(m, 8), (tag, 256)]
  | .lanModelLoad m tag _ _ => [(m, 8), (tag, 256)]
  | .lanRules m tag => [(m, 8), (tag, 256)]
  | .pwrRequest m tag => [(m, 8), (tag, 256)]
  | .pwrStatus m tag => [(m, 8), (tag, 256)]
  | .padRelease m tag => [(m, 8), (tag, 256)]
  | .dvfsSet m tag => [(m, 8), (tag, 256)]
  | .dvfsChangeStart _ => []
  | .dvfsChangeDone => []
  | .twinAttach m tag _ _ => [(m, 8), (tag, 256)]
  | .twinDetach m tag _ => [(m, 8), (tag, 256)]
  | .twinMode m tag _ _ _ => [(m, 8), (tag, 256)]
  | .twinSync m tag _ => [(m, 8), (tag, 256)]
  | .twinSyncGalleryDone _ _ => []
  | .faultRead m tag => [(m, 8), (tag, 256)]
  | .faultClear m tag => [(m, 8), (tag, 256)]
  | .faultInject m tag => [(m, 8), (tag, 256)]
  | .injectedFault => []
  | .lifecycleAdvance m tag _ _ => [(m, 8), (tag, 256)]
  | .debugChallenge m tag => [(m, 8), (tag, 256)]
  | .debugUnlock m tag => [(m, 8), (tag, 256)]
  | .fwUpdateMp m tag _ _ _ => [(m, 8), (tag, 256)]
  | .fwUpdateFlint m tag _ _ => [(m, 8), (tag, 256)]
  | .journalEntry m _ _ _ _ _ _ => [(m, 8)]
  | .journalTimeout m tag => [(m, 8), (tag, 256)]
  | .dripBoundary _ _ _ => []
  | .dropStart => []
  | .boundaryWork => []
  | .exchangePacketReceive _ _ => []
  | .exchangeTimeout => []
  | .twinPacketAuthFail => []
  | .qtzStepWrite req _ => [(req, 9)]
  | .qtzNowFracRead req => [(req, 9)]
  | .dripCountLoRead req => [(req, 9)]
  | .qtzStatusRead req => [(req, 9)]
  | .ppsInEdge phase => [(phase, 4)]
  | .ppsOutEdge => []
  | .timeServoSecond => []
  | .timing _ _ _ _ => []
  | .timingHoldover => []
  | .flintDropSample _ _ _ _ => []
  | .weightRecordDecision => []
  | .weightRecordSigned => []
  | .hello => []
  | .modeMsg _ _ _ => []
  | .pairCertificate _ _ _ _ => []
  | .pairTwinCmp _ _ _ => []
  | .firmware _ _ _ _ => []
  | .lanternChunk _ _ _ => []
  | .lanternCommit _ _ _ => []
  | .lanternRules _ _ _ => []
  | .lanternReport _ _ _ => []
  | .lanternBoard _ _ _ _ => []
  | .powerEnter _ _ _ _ => []
  | .powerCommit _ _ _ => []
  | .powerAbort _ _ _ => []
  | .powerRunning _ _ _ _ => []
  | .debugMsgState => []
  | .debugMsgChallenge _ _ => []
  | .debugMsgUnlock _ _ _ => []
  | .debugMsgEnd _ _ _ => []
  | .debugMsgChunk _ => []
  | .debugMsgAdvance _ _ _ => []
  | .debugMsgFloor _ _ => []
  | .debugMsgSign _ _ _ => []
  | .sampleFrame _ _ => []
  | .lanternEvent _ _ => []
  | .mailboxResponse _ => []
  | .recordFrame _ => []
  | .rtcLatch _ => []
  | .conduitCopy _ _ _ _ _ _ _ => []
  | .twinLate _ _ => []
  | .cameraTile _ _ _ _ _ _ _ => []
  | .ingestBlockDeliver strm _ => [(strm, 64)]
  | .ringEntryWrite strm => [(strm, 64)]
  | .ringWriteIndexUpdate strm => [(strm, 64)]
  | .ringReadIndexRead strm _ => [(strm, 64)]
  | .hostLinkReject strm => [(strm, 64)]
  | .firingStart g slot => [(g, 32), (slot, 4)]
  | .markerHandling g slot q => [(g, 32), (slot, 4), (q, 24)]
  | .blockArrival g q _ => [(g, 32), (q, 24)]
  | .creditReturn g q => [(g, 32), (q, 24)]
  | .firingLimit g => [(g, 32)]
  | .programFaultHandling g slot => [(g, 32), (slot, 4)]
  | .veinRepairDone g => [(g, 32)]
  | .nop g _ => [(g, 32)]
  | .yieldI g _ => [(g, 32)]
  | .commit g _ => [(g, 32)]
  | .seti g _ => [(g, 32)]
  | .addi g _ => [(g, 32)]
  | .add g _ => [(g, 32)]
  | .sub g _ => [(g, 32)]
  | .muli g _ => [(g, 32)]
  | .alui g _ => [(g, 32)]
  | .rdspec g _ => [(g, 32)]
  | .loopI g _ => [(g, 32)]
  | .br g _ => [(g, 32)]
  | .bcmp g _ => [(g, 32)]
  | .aset g _ => [(g, 32)]
  | .tset g _ => [(g, 32)]
  | .sld g _ => [(g, 32)]
  | .matmul g _ _ => [(g, 32)]
  | .matmulT g _ _ => [(g, 32)]
  | .vld g _ => [(g, 32)]
  | .vst g _ => [(g, 32)]
  | .vop g _ => [(g, 32)]
  | .vopi g _ => [(g, 32)]
  | .vfma g _ => [(g, 32)]
  | .vun g _ => [(g, 32)]
  | .vexpsub g _ => [(g, 32)]
  | .vred g _ => [(g, 32)]
  | .vbcast g _ => [(g, 32)]
  | .vsel g _ => [(g, 32)]
  | .vmoments g _ => [(g, 32)]
  | .vadamw g _ => [(g, 32)]
  | .vcvt g _ => [(g, 32)]
  | .moveI g _ => [(g, 32)]
  | .moveZero g _ => [(g, 32)]
  | .moveGalleryWriteDone g slot _ => [(g, 32), (slot, 4)]
  | .qpop g _ => [(g, 32)]
  | .qpush g _ => [(g, 32)]
  | .qskip g _ => [(g, 32)]
  | .qfwd g _ => [(g, 32)]
  | .scaleGet g _ => [(g, 32)]
  | .scaleSet g _ => [(g, 32)]
  | .scaleObserve g _ => [(g, 32)]
  | .scaleHold g _ => [(g, 32)]
  | .sigFold g _ => [(g, 32)]
  | .sigRead g _ => [(g, 32)]
  | .slotStateWrite g slot _ => [(g, 32), (slot, 4)]
  | .queueDiscard g q => [(g, 32), (q, 24)]
  | .katStart g => [(g, 32)]
  | .katDone g _ => [(g, 32)]
  | .geodeRetire g => [(g, 32)]
  | .pocketScrub g _ _ => [(g, 32)]
  | .galleryInit => []
  | .galleryInitDone => []
  | .patrolScrub ch _ _ => [(ch, 32)]
  | .coreLoad req _ _ _ _ => [(req, 9)]
  | .coreStore req _ _ _ => [(req, 9)]
  | .coreAmo req _ _ _ _ _ => [(req, 9)]
  | .fence req => [(req, 9)]
  | .cboClean req _ => [(req, 9)]
  | .cboFlush req _ => [(req, 9)]
  | .cboInval req _ => [(req, 9)]
  | .cboZero req _ => [(req, 9)]
  | .shelfMissFill _ _ => []
  | .evictionWritebackDone _ _ _ => []
  | .shelfDisable => []
  | .shelfEnable => []
  | .shelfDrainDone => []
  | .cicIpi req _ => [(req, 9)]
  | .doorbell h _ => [(h, 8)]
  | .machineTimer h => [(h, 8)]
  | .powerHandshakeStart _ => []
  | .blockAnswer _ _ => []
  | .blockDelayTimeout _ => []
  | .entryCommit => []
  | .hibernateEntry => []
  | .sbSync => []
  | .wake _ => []
  | .wakePin pin _ => [(pin, 4)]
  | .hostAccessWake => []
  | .tckWake => []
  | .sbWake _ => []
  | .exitRoostTorpor _ => []
  | .hibernateExit => []
  | .rtcWake _ _ _ => []
  | .powerSample _ _ => []
  | .throttle _ => []
  | .thermalLimit _ _ => []
  | .thermalTrip _ _ => []
  | .brownout => []
  | .flintReset => []
  | .calEnNAsserted => []
  | .calEnNDeasserted => []
  | .heartbeatTick => []
  | .heartbeatMiss => []
  | .mpLockstepDiverge => []
  | .clockMonitorWindow _ _ _ => []
  | .alertFrame _ => []
  | .alertCauseApplied => []
  | .alertAbsent => []
  | .twinFailover => []
  | .holdEnd => []
  | .fcuHoldWrite _ => []
  | .fcuResultWrite _ => []
  | .aonPowerUp _ => []
  | .rstNLow => []
  | .railUndervoltage => []
  | .computeDieStart _ _ => []
  | .firmwareSelfCalibration _ => []
  | .dapRead die _ => [(die, 2)]
  | .dapWrite die _ _ => [(die, 2)]
  | .dapHalt die _ => [(die, 2)]
  | .dapResume die _ => [(die, 2)]
  | .dapStep die _ => [(die, 2)]
  | .dapEnd die => [(die, 2)]
  | .mbx3Access _ _ _ _ => []
  | .trstN => []
  | .dbgCtrlEnd => []
  | .secGalKeyWrite n _ => [(n, 8)]
  | .fwLockWrite => []
  | .unassignedOpcode g _ => [(g, 32)]
  | .protectionConversionDone _ => []
  | .indexBuildDone m tag => [(m, 8), (tag, 256)]
  | .imageVerifyDone m tag => [(m, 8), (tag, 256)]
  | .pocketPhaseDone _ => []
  | .followerHandshake _ _ _ _ => []
  | .twinCmpRelay _ => []
  | .flintStateTimeout => []
  | .pllLockTimeout _ _ => []
  | .mpSramScrub _ => []
  | .aonPowerDown => []

/-- Every index operand lies in its range. -/
def Instr.wf (i : Instr) : Bool := i.bounds.all fun b => decide (b.1 < b.2)

end Sys2Proof
end

