-- ==== Sys2Proof/Tests/Slice0.lean ====
section
/-!
SUPPORT. Tests: ill-formed commands are refused; each statement, applied to a concrete state, gives a concrete result (its hypotheses are
met together there); small steps with results from the manual.
-/
namespace Sys2Proof.Tests
set_option Elab.async false
open Sys2Proof.Machine

/-! ### Helpers -/

/-- The state after a command. -/
def after (c : Instr) (s : State) : State := match exec c s with
  | .next t => t
  | _ => s

theorem after_eq {c : Instr} {s t : State} (h : exec c s = .next t) : after c s = t := by simp [after, h]

/-- A board record with nothing in it. -/
def plain : Board :=
  { serial := 1, twinId := 0, role := 0, cameras := 0, loadCell := false, coresStart := false, ppsLow := false, tdoHiz := false, refPpm := 0
    rtcPpm := 0, timeBound := 0, allowance := 0, wakeModes := List.replicate 10 0, limits := [], alarm := 0, entry := 0
    lanRoles := List.replicate 32 0, windows := [], sensors := [] }

/-- A device in phase CALIBRATED whose lifecycle state is OPERATE. -/
def on : State :=
  { State.reset with
    dev := { State.reset.dev with die := .serving, phase := 2, proto := 3, board := some plain }
    sec := { State.reset.sec with lifecycle := 2, lcValid := true }
    fl := { State.reset.fl with life := List.replicate 3 0x502 } }

/-- A command with some payload words. -/
def cmd (op : Nat) (ws : List Nat) : Cmd := { tag := 7, op := op, header := 0, words := ws.map w32, seq := 1 }

/-- The command waits on mailbox 0, accepted. -/
def given (s : State) (c : Cmd) : State := s.withMbx 0 fun b => { b with out := [c] }

theorem next_of {c : Instr} {s : State} (h : (match exec c s with | .next _ => true | _ => false) = true) : exec c s = .next (after c s) := by
  unfold after
  split at h
  · rename_i e; rw [e]
  · cases h

/-- The CRC-32C register, each byte's value computed before the next one is taken (for the kernel). -/
def crcNow (c : Nat) : List Byte → Nat
  | [] => c
  | b :: l => Nat.casesOn (motive := fun _ => Nat) (crc32cByte 8 (c ^^^ b.toNat)) (crcNow 0 l) (fun n => crcNow (n + 1) l)

theorem crcNow_cons (c : Nat) (b : Byte) (l : List Byte) : crcNow c (b :: l) = crcNow (crc32cByte 8 (c ^^^ b.toNat)) l := by
  have h : ∀ n : Nat, Nat.casesOn (motive := fun _ => Nat) n (crcNow 0 l) (fun n => crcNow (n + 1) l) = crcNow n l := by
    intro n; cases n <;> rfl
  exact h _

theorem crcNow_eq (l : List Byte) : ∀ c, crc32cGo c l = crcNow c l := by
  induction l with
  | nil => exact fun _ => rfl
  | cons b l ih => exact fun c => (ih _).trans (crcNow_cons c b l).symm

theorem crc32c_eq (l : List Byte) : crc32c l = BitVec.ofNat 32 (crcNow 0xFFFFFFFF l ^^^ 0xFFFFFFFF) := by simp only [crc32c, crcNow_eq]

/-- The CRC-16 register, in the same way. -/
def crc16Now (c : Nat) : List Byte → Nat
  | [] => c
  | b :: l => Nat.casesOn (motive := fun _ => Nat) (crc16Byte 8 (c ^^^ (b.toNat * 256))) (crc16Now 0 l) (fun n => crc16Now (n + 1) l)

theorem crc16_go (l : List Byte) : ∀ c, l.foldl (fun c b => crc16Byte 8 (c ^^^ (b.toNat * 256))) c = crc16Now c l := by
  induction l with
  | nil => intro c; rfl
  | cons b l ih =>
    intro c
    simp only [List.foldl_cons, crc16Now, ih]
    generalize crc16Byte 8 (c ^^^ (b.toNat * 256)) = n
    cases n <;> rfl

theorem crc16_eq (l : List Byte) : crc16 l = crc16Now 0xFFFF l := crc16_go l _

/-- A KC, and the tag of a message under it (R345). -/
def key5 : List Byte := List.replicate 32 5
def kcTag (kind : Nat) (body : List W32) : List W32 := macWords key5 (framing kind body :: body)

theorem kc_ready {s : State} {kind : Nat} {body : List W32} {ctr : Nat}
    (h : s.fl.runs = true ∧ s.fl.kc = true ∧ (s.fl.kcCtr.map fun n => decide (n < ctr)).getD true = true) (hk : s.fl.kcKey = key5) :
    s.kcReady kind body ctr (kcTag kind body) := by
  refine ⟨h.1, ?_⟩
  simp only [Flint.kcOk, hk, kcTag, h.2.1, h.2.2, beq_self_eq_true, Bool.and_true]

/-! ### The step and the register window -/
def wordIn : InWord := ⟨5, false⟩
def sFull : State := on.withMbx 3 fun b => { b with cmd := List.replicate 64 ⟨0, false⟩, out := [cmd 0x12 []], part := some { header := w32 0x12070000, words := [wordIn] } }
def sHold : State := sFull.withMbx 3 fun b => { b with cmdHeld := true }
def rsp5 : OutMsg := ⟨false, 7, [w32 5, w32 6]⟩
def evt9 : OutMsg := ⟨true, 0, [w32 9]⟩
def sRsp : State := on.withMbx 3 fun b => { b with rsp := [rsp5, evt9] }
def sEvt : State := on.withMbx 3 fun b => { b with rsp := [evt9] }
def sStep : State := { on with pending := [.brownout] }
def sOffMp : State := { sRsp with fcu := { sRsp.fcu with mpHalt := true } }
def hdr : W32 := w32 (0x13070000 + 3 * 2 ^ 10)
def sAcc : State := on.withMbx 2 fun b => { b with cmd := [⟨hdr, false⟩, ⟨1, false⟩, ⟨2, false⟩, ⟨3, false⟩, ⟨4, false⟩] }
def restAcc : List InWord := [⟨1, false⟩, ⟨2, false⟩, ⟨3, false⟩, ⟨4, false⟩]
def part5 : Partial := { header := w32 0x12070000, words := [wordIn] }
def part6 : Partial := { header := w32 0x12070000, words := [wordIn], late := true }
def sLate : State := on.withMbx 3 fun b => { b with rsp := [rsp5], part := some part6 }
def sLateFull : State := on.withMbx 3 fun b => { b with rsp := List.replicate 32 rsp5, part := some part5 }
def sHeld : State := on.withMbx 3 fun b => { b with held := [rsp5], out := [{ cmd 0x12 [] with phase := answered }] }
def cMet : Cmd := { cmd 0x38 [0, 1,2,3,4,5,6] with phase := 1 }
def sMet : State := on.withMbx 0 fun b => { b with out := [cMet] }
def ansMet : List W32 := [2, 3, 4, 5, 6]
def sTorpor : State := { on with pw := { on.pw with state := 1 } }
def sMetAns : State := { sMet with conduit := { sMet.conduit with answers := [w32 0x38070000 :: ansMet] } }
/-! ### Device and time commands -/
def cBadStart : Cmd := cmd 0x04 [4, 249999, 1, 0, 0, 0, 0]
def sBadStart : State := given on cBadStart
def cBadSet : Cmd := cmd 0x04 [1, 250000, 251, 0, 0, 0, 0]
def sBadSet : State := given on cBadSet
def onHold : State := on.withTime fun t => { t with quality := .holdover, now := 5 * nsU }
def cStart : Cmd := cmd 0x04 [5, 250000, 1, 0, 100005, 0, 0]
def sStart : State := given onHold cStart
def onRun : State := onHold.withDrip fun d => { d with phase := .running, count := 3, base := 1000000, len := 1000000, drops := 2, start := 0 }
def cLen : Cmd := cmd 0x04 [1, 2000000, 4, 0, 0, 0, 0]
def sLen : State := given onRun cLen
def sLenSoon : State := given (onRun.withTime fun t => { t with now := 990001 * nsU }) cLen
def cTrim : Cmd := cmd 0x04 [2, 0, 0, 20, 0, 0, 0]
def sTrim : State := given onRun cTrim
def cTimeSet : Cmd := cmd 0x10 [7, 999999999, 2, 0x10001]
def sTimeSet : State := given onRun cTimeSet
def cRead : Cmd := cmd 0x12 []
def sRead : State := given onRun cRead
def cPps : Cmd := cmd 0x13 [1, 500000000, 1000]
def sPps : State := given onRun cPps
def cAdj : Cmd := cmd 0x11 [10000000 * 2 ^ 6, 0, 0, 0, 4]
def sAdj : State := given onRun cAdj
def edge4 : Edge := { ns := 4 * giga + 3, mark := (4 * giga + 3) * 2 ^ 32 }
def sEdge : State := given (onRun.withTime fun t => { t with now := (6 * giga) * nsU, edges := [edge4] }) cAdj
def cIdent : Cmd := cmd 0x01 [0x0301]
def sIdent : State := given on cIdent
def cIdentNo : Cmd := cmd 0x01 [0x0201]
def sIdentNo : State := given on cIdentNo
def sIdent5 : State := on.withMbx 5 fun b => { b with out := [cIdent] }
def cStatus : Cmd := cmd 0x03 []
def sStatus : State := given on cStatus
/-- A board record with nothing but the fields that must not be zero (R447). -/
def recBytes : List Byte :=
  leBytes 4 0x47584252 ++ leBytes 4 1 ++ leBytes 4 512 ++ leBytes 20 0 ++ leBytes 4 1 ++ leBytes 4 0x00010001 ++ leBytes 4 1000 ++ leBytes 4 200 ++
    leBytes 8 (600 + 650 * 2 ^ 16 + 600 * 2 ^ 32) ++ List.replicate 456 0
def recBoard : Board := (parseBoard 0 recBytes 512).getD plain
def cBoard : Cmd := cmd 0x02 [4096, 0, 512]
def sBoard : State := given (({ on with fl := { on.fl with secret := false } } : State).withDev fun d => { d with board := none }) cBoard
def sBoard2 : State := given on cBoard
/-! ### The Gallery and contexts -/
/-- Context 1 maps slabs 5 (owned) and 6 (shared) at indices 0 and 1. -/
def onCtx : State := (on.withCtx 1 fun x => { x with state := .created, map := [(0, ⟨5, true, false⟩), (1, ⟨6, false, false⟩)] }).withGal fun g =>
  { (g.withSlab 5 fun y => { y with state := .owned, owner := 1 }).withSlab 6 fun y => { y with state := .owned, owner := 2 } with initDone := true }
def cAlloc : Cmd := cmd 0x18 [0x1001, 511, 1, 0, 0]
def sAlloc : State := given onCtx cAlloc
def cShare : Cmd := cmd 0x18 [0x0102, 3, 1, 1, 0]
def sShare : State := given (onCtx.withCtx 2 fun x => { x with state := .created }) cShare
def cFree : Cmd := cmd 0x19 [1, 0, 1]
def sFree : State := given onCtx cFree
def cFreeShare : Cmd := cmd 0x19 [1, 1, 1]
def sFreeShare : State := given onCtx cFreeShare
def owned5 : MapEnt := ⟨5, true, false⟩
def shared6 : MapEnt := ⟨6, false, false⟩
def cFreeing : Cmd := { cFree with phase := 1, note := [5] }
def sZeroing : State := given ((onCtx.withCtx 1 fun x => { x with map := [(1, shared6)] }).withGal fun g => g.withSlab 5 fun y => { y with state := .zeroing }) cFreeing
def cProtect : Cmd := cmd 0x1A [1, 0, 1]
def sProtect : State := given ({ onCtx with sec := { onCtx.sec with galSet := List.range 8 } } : State) cProtect
def cProtecting : Cmd := { cProtect with phase := 1, note := [5] }
def sConvert : State := given (onCtx.withGal fun g => g.withSlab 5 fun y => { y with converting := true }) cProtecting
/-- Context 1 is assigned to mailbox 4. -/
def cIn : Cmd := cmd 0x1B [1, 4096, 0, 0, 4]
def sIn : State := given onCtx cIn
def cOut : Cmd := cmd 0x1C [1, 4096, 0, 0, 4]
def sOut : State := given onCtx cOut
def cLoad : Cmd := cmd 0x1D [1, 4096, 0, 0, 4, 9, 1]
def sLoad : State := given onCtx cLoad
def cVerify : Cmd := cmd 0x1E [1, 0, 16, 0, 0, 0, 0]
def sVerify : State := given onCtx cVerify
def cVerifyT : Cmd := cmd 0x1E [0x101, 0, 0, 0, 16, 64, 0]
def sVerifyT : State := given onCtx cVerifyT
def cVerifyI : Cmd := cmd 0x1E [0x201, 0, 840, 0, 0, 0, 0]
def sVerifyI : State := given onCtx cVerifyI
def cIndex : Cmd := cmd 0x1F [1, 0, 64, 64]
def sIndex : State := given onCtx cIndex
def going (s : State) (c : Cmd) : State := given s { c with phase := 1 }
def cInG : Cmd := { cIn with phase := 1 }
def cOutG : Cmd := { cOut with phase := 1 }
def cVerifyG : Cmd := { cVerify with phase := 1 }
def cIndexG : Cmd := { cIndex with phase := 1 }
def data4 : List Byte := [1, 2, 3, 4]
def sInG : State := given onCtx cInG
def sOutG : State := given (onCtx.withGal fun g => { g with mem := g.mem.writeN (galAt 5 0) data4 }) cOutG
def sVerifyG : State := given onCtx cVerifyG
def sIndexG : State := given onCtx cIndexG
def groupZ : List Byte := (calPack 1 0 [calEncode false (List.replicate 64 0)]).1
def cIndex1 : Cmd := { cmd 0x1F [1, 0, 64, 1] with phase := 1 }
def sIndex1 : State := given (onCtx.withGal fun g => { g with mem := g.mem.writeN (galAt 5 0) groupZ }) cIndex1
def sIndexT : State := (sIndex1.walk false false 1 0 64 1).1
def sPois1 : State := sIndex1.withGal fun g => { g with poison := [galAt 5 0 / 8] }
def sPoisT : State := (sPois1.walk false false 1 0 64 1).1
def cScrub : Cmd := cmd 0x20 [1 + 64 * 2]
def sScrub : State := given onCtx cScrub
def sInit : State := on.withGal fun g => { g with initBusy := true, mem := [⟨5, 1⟩], poison := [3], ue := [4], badTag := [1] }
def sPatrol : State := on.withGal fun g => { g with scrubEn := true, initDone := true, scrubPos := 131070 }
def sPatrolEnd : State := sPatrol.withGal fun g => { g with scrubPos := 131071, passes := 8190 }
def cCreate : Cmd := cmd 0x28 [1 + 2 * 2 ^ 5 + 3 * 2 ^ 8 + 256 * 2 ^ 12 + 4 * 2 ^ 21, 0, 0x80000001, 9, 0, 4096, 1, 8192]
def sCreate : State := given on cCreate
def cCreateK : Cmd := cmd 0x28 [1 + 1 * 2 ^ 12, 5, 1, 0, 0, 0, 0, 0]
def sCreateK : State := given on cCreateK
def cDestroy : Cmd := cmd 0x2D [1]
def sDestroy : State := given onCtx cDestroy
def sDestroyE : State := given (onCtx.withCtx 1 fun x => { x with map := [(1, shared6)] }) cDestroy
/-! ### Contexts and streams -/
/-- A stage program image with one instruction and one input and one output queue, for every class (R108). -/
def image0 : List Byte :=
  leBytes 4 0x47445047 ++ leBytes 4 0x10001 ++ leBytes 1 2 ++ leBytes 1 7 ++ leBytes 2 1 ++ leBytes 1 1 ++ List.replicate 3 0 ++ leBytes 2 8 ++
    List.replicate 30 0 ++ leBytes 2 8 ++ List.replicate 14 0 ++ leBytes 4 840
def image (crc : Nat) : List Byte := image0 ++ leBytes 4 crc ++ List.replicate 768 0
/-- The image with its Check field. -/
def imageB : List Byte := image 1343138701
def onImg : State := (onCtx.withGal fun g => { g with mem := g.mem.writeN (galAt 5 0) imageB }).withCtx 1 fun x => { x with mask := 3, limit := 9 }
def cBind : Cmd := cmd 0x29 [1 + 1 * 2 ^ 5 + 2 * 2 ^ 10, 0, 0xFF00, 2, 0 + 2 * 2 ^ 5 + 0 * 2 ^ 7 + 17 * 2 ^ 12, 16 + 2 * 2 ^ 5 + 0 * 2 ^ 7 + 3 * 2 ^ 12]
def sBind : State := given onImg cBind
def cBindW : Cmd := cmd 0x29 [1 + 1 * 2 ^ 5 + 2 * 2 ^ 10 + 2 ^ 12 + 3 * 2 ^ 13, 0, 0xFF00, 0]
def sBindW : State := given (onImg.withSlot 1 3 fun sl => { sl with state := .loaded, ctx := 1, base := 7, size := 4 }) cBindW
def sBindN : State := given onImg cBindW
def onBound : State := ((onCtx.withSlot 1 2 fun sl => { sl with state := .loaded, ctx := 1, base := 7, size := 4, qin := 1, qout := 1 }).withQueue 1 0 fun q =>
  { q with bind := 1 }).withQueue 1 16 fun q => { q with bind := 1 }
def cCtxStart : Cmd := cmd 0x2A [1]
def sCtxStart : State := given onBound cCtxStart
def sCtxStartRun : State := given ({ onBound with drip := onRun.drip } : State) cCtxStart
def onGoing : State := (onBound.withSlot 1 2 fun sl => { sl with state := .run }).withCtx 1 fun x => { x with state := .running }
def cStop : Cmd := cmd 0x2B [1]
def sStop : State := given onBound cStop
def sStopRun : State := given ({ onGoing with drip := onRun.drip } : State) cStop
def sStopped : State := onGoing.withCtx 1 fun x => { x with stopping := true, stopArmed := true }
def sHalted : State := onGoing.withCtx 1 fun x => { x with halting := true, stopArmed := true }
def onStop : State := (on.withGal fun g => { g with initDone := true }).withCtx 1 fun x => { x with state := .stopped, ckAddr := 4096, ckSize := 8192 }
def cSave : Cmd := cmd 0x2C [1]
def sSave : State := given onStop cSave
def sSaveNo : State := given (onStop.withCtx 1 fun x => { x with ckSize := 64 }) cSave
def cSaveG : Cmd := { cSave with phase := 1 }
def sSaveG : State := given onStop cSaveG
def cRestore : Cmd := cmd 0x2C [0x101]
def sRestore : State := given (onStop.withCtx 1 fun x => { x with state := .created }) cRestore
def cRestoreG : Cmd := { cRestore with phase := 1 }
def sRestoreG : State := given (onStop.withCtx 1 fun x => { x with state := .created }) cRestoreG
/-- Output queue 16 of Geode 0, named by an image of context 1 and not bound. -/
def onOut : State := ((on.withCtx 1 fun x => { x with state := .created, mask := 1 }).withSlot 0 2 fun sl =>
  { sl with state := .loaded, ctx := 1, qout := 1 }).withQueue 0 16 fun q => { q with quota := 1 }
def cOpen : Cmd := cmd 0x2E [3 + 4 * 2 ^ 6 + 1 * 2 ^ 9 + 1 * 2 ^ 11, 0, 0, 0x10000, 0, 4096, 1, 16 * 2 ^ 5]
def sOpen : State := given onOut cOpen
def cOpenO : Cmd := cmd 0x2E [3 + 5 * 2 ^ 6 + 0 * 2 ^ 9 + 1 * 2 ^ 11, 0, 256 + 1 * 2 ^ 16, 0x10000, 0, 4096, 1, 16 * 2 ^ 5]
def sOpenO : State := given onOut cOpenO
def onStrm : State := (onOut.withStream 3 fun x => { x with state := 1, kind := 4, cls := .elastic, ctx := 1, queues := [(0, 16)], ring := 0x10000, size := 4096 }).withQueue 0 16 fun q => { q with bind := 1, peer := 3, credit := 32 }
def cClose : Cmd := cmd 0x2F [3]
def sClose : State := given onStrm cClose
def cStat : Cmd := cmd 0x30 [0x103]
def sStat : State := given onStrm cStat

def cam5 : State := on.withStream 2 fun x => { x with state := 1, kind := 0, ctx := 1, camera := 5, mode := 1, queues := [(0, 0)], tiles := 4 }
def camFull : State := cam5.withStream 2 fun x => { x with tilesIn := [{ units := 16, got := 16, drip := some 0 }] }
def block1 : List Nat := List.replicate 192 1
def row1 : List Byte := List.replicate 64 1
def mica1 : Mica := { rows := [row1], poison := false, dest := 0 }
def tile1 : TileIn := { units := 1, got := 1, drip := some 0, blocks := [mica1] }
def sDeliver : State := ((cam5.withStream 2 fun x => { x with tilesIn := [tile1] }).withCtx 1 fun x => { x with state := .running }).withQueue 0 0 fun q => { q with bind := 1 }
def block2 : Entry := { payload := row1, origin := 3 }
def sRing : State := (onStrm.withQueue 0 16 fun q => { q with entries := [block2] }).withCtx 1 fun x => { x with state := .running }
def sRead1 : State := onStrm.withStream 3 fun x => { x with entry := 96, wIdx := 41, rIdx := 0 }
def sIdx : State := onStrm.withStream 3 fun x => { x with idxDue := true, wIdx := 5 }
/-! ### Metrology -/
/-- Flint is configured and calibrated, with a metrology key and a stable load. -/
def onMet : State := on.withFl fun f =>
  { f with
    metOwner := some [], calEn := true, curve := [(0, 0), (1000, 1000)], stable := true, G := 55, u := 7, win := [(55, 200), (55, 203)], records := [(1, List.replicate 128 3)]
    p := { f.p with max := 10000, d := 10, tareLimit := 500 }, audit := [⟨1, 0, 0, 1, 0, 0, 0⟩, ⟨2, 0, 0, 1, 0, 0, 0⟩], auditNext := 3, readSeqs := [1, 2] }
/-- KM of the installed empty owner key (R417). -/
def metKey : List Byte := hkdf (ecdhX deviceKey []) deviceId (ascii (gx32 ++ [0x4D, 0x45, 0x54]) ++ leBytes 4 0)
/-- A metrology command with counter 4 and its tag. -/
def met (op : Nat) (body : List Nat) : Cmd :=
  { cmd op [] with words := (body ++ [4]).map w32 ++ macWords metKey ((cmd op []).header :: (body ++ [4]).map w32) }

theorem met_ok {f : Flint} {op : Nat} {body : List Nat} (hk : f.km = some metKey) (hc : f.kmCtr < 4) : f.metOk (met op body) = true := by
  have key : ∀ (h : W32) (l m : List W32), m.length = 4 → m = macWords metKey (h :: (l ++ [w32 4])) →
      f.metOk { cmd op [] with header := h, words := (l ++ [w32 4]) ++ m } = true := by
    intro h l m hm e
    have h1 : ((l ++ [w32 4]) ++ m).length - 4 = (l ++ [w32 4]).length := by simp [hm]
    have h2 : ((l ++ [w32 4]) ++ m).length - 5 = l.length := by simp [hm]
    have h4 : (w32 4).toNat = 4 := by decide
    have h5 : (((l ++ [w32 4]) ++ m).getD l.length 0) = w32 4 := by simp [List.getD]
    simp only [Flint.metOk, hk, h1, h2, h5, List.drop_left, List.take_left, ← e]
    simp [h4, hc]
  have := key (cmd op []).header (body.map w32) _ rfl rfl
  simpa [met] using this

theorem met_ready {s : State} {op : Nat} {body : List Nat} (hi : s.cmdIn 0 7 op 0 = some (met op body))
    (hs : s.mpRuns = true ∧ s.mayStart 0 (met op body) = true ∧ s.grant 0 (met op body) = none ∧ s.fl.runs = true)
    (hk : s.fl.km = some metKey) (hc : s.fl.kmCtr < 4) : s.metReady 0 7 op (met op body) :=
  ⟨hi, hs.1, hs.2.1, hs.2.2.1, hs.2.2.2, met_ok hk hc⟩
def cMetRead : Cmd := met 0x38 [0, 0]
def sMetRead : State := given onMet cMetRead
def sMetNoKey : State := sMetRead.withFl fun f => { f with metOwner := none }
def cLog : Cmd := met 0x3B [1, 2]
def sLog : State := given onMet cLog
def cAck : Cmd := met 0x3C [2]
def sAck : State := given onMet cAck
def cParam : Cmd := met 0x39 [1 * 2 ^ 16 + 3, 100]
def sParam : State := given onMet cParam
def cParamTr : Cmd := met 0x39 [4 * 2 ^ 16 + 10, 0x20000000, 0x60000000, 0x40000000, 0x40000000]
def sParamTr : State := given onMet cParamTr
def sParamNo : State := sParam.withFl fun f => { f with calEn := false }
def tareCmd (op x : Nat) : Cmd := met 0x39 [131328, op, x]
def cTare0 : Cmd := tareCmd 0 9
def cTare1 : Cmd := tareCmd 1 9
def cTare2 : Cmd := tareCmd 2 500
def sTare0 : State := given onMet cTare0
def sTare1 : State := given onMet cTare1
def sTare2 : State := given onMet cTare2
def cZero : Cmd := met 0x39 [0x10101, 1]
def sZero : State := given onMet cZero
def cKey : Cmd := met 0x39 [0x10102, 1]
def sKey : State := given onMet cKey
def points : List (Nat × Int × Int) := [(1, 500, 1000), (0, 0, 0)]
def calCmd (k point load : Nat) : Cmd := met 0x3A [k + 4 * point, load]
def onCal : State := onMet.withFl fun f => { f with cal := some points }
def cCal0 : Cmd := calCmd 0 0 0
def cCal1 : Cmd := calCmd 1 4 2000
def cCal2 : Cmd := calCmd 2 0 0
def cCal3 : Cmd := calCmd 3 0 0
def sCal0 : State := given onMet cCal0
def sCalNo : State := sCal0.withFl fun f => { f with calEn := false }
def sCal1 : State := given onCal cCal1
def sCal2 : State := given onCal cCal2
def sCal3 : State := given onCal cCal3
/-! ### Lantern, power and the pair -/
/-- A model of one layer with 16 inputs and 1 output (R355). -/
def model (crc : Nat) : List Byte :=
  leBytes 4 0x4C4E5447 ++ leBytes 4 (1 + 1 * 2 ^ 16 + 1 * 2 ^ 24) ++ leBytes 4 9 ++ leBytes 4 276 ++ leBytes 4 crc ++ List.replicate 108 0 ++
    leBytes 4 (16 + 1 * 2 ^ 16) ++ leBytes 4 0 ++ leBytes 4 256 ++ leBytes 4 272 ++ List.replicate 112 0 ++ List.replicate 20 1
def modelB : List Byte := model 2018292890
def cModel : Cmd := cmd 0x3D [4096, 0, 276]
def sModel : State := given on cModel
def cRules : Cmd := cmd 0x3E [31 + 1 * 2 ^ 5, 1 + 5 * 2 ^ 16, 0, 0, 0]
def sRules : State := given on cRules
def onKc : State := on.withFl fun f => { f with kc := true, kcKey := key5, kcCtr := some 4 }
def bodyChunk : List W32 := [0, 0x11]
def bodyOk : List W32 := [2, 1, 0x527D5351]
def bodyBad : List W32 := [2, 0, 5]
def bodyRule : List W32 := [0x2503, 1, 2, 3, 4]
def onLan : State := onKc.withLan fun l => { l with pending := true }
def bodyBoard : List W32 := [0x805, 512, 0]
def onLan2 : State := onKc.withFl fun f => { f with boardBuf := [⟨9, 2⟩] }
def bufBoard : Mem := (Mem.writeN [⟨9, 2⟩] 8 (wordsBytes [512]))
def bodyBoard1 : List W32 := [0x805, 512]
def pwrCmd (x t f : Nat) : Cmd := cmd 0x48 [x, t, f]
def cPwr : Cmd := pwrCmd 3 1000 1
def sPwr : State := given on cPwr
def sPwrHeld : State := given (on.withPw fun p => { p with target := some 1 }) cPwr
def sPwrBusy : State := given (on.withPw fun p => { p with target := some 1, pend := some 2 }) cPwr
def cPwrSt : Cmd := cmd 0x49 []
def sPwrSt : State := given on cPwrSt
def cPads : Cmd := cmd 0x4A [5]
def sPads : State := given (on.withPw fun p => { p with held := 7 }) cPads
def board9 : Board := { plain with limits := [900, 900, 900] }
def cDvfs : Cmd := cmd 0x4B [1 + 1 * 4]
def sDvfs : State := given (on.withDev fun d => { d with board := some board9 }) cDvfs
def sDvfs2 : State := sDvfs.withPw fun p => { p with dvfs := [(0, 1, false), (2, 1, false)] }
def sDvfsT : State := on.withPw fun p => { p with dvfs := [(0, 1, true), (2, 1, false)] }
def cAttach : Cmd := cmd 0x50 []
def onRole : State := { on with role := 1 }
def sAttach : State := given onRole cAttach
def twin2 : TwinId := { id := 77, fw := 5, role := 2, holds := true, sigOk := true, cert := [] }
def cDetach : Cmd := cmd 0x51 []
def onPair : State := (onRole.withGal fun g => { g with initDone := true }).withTw fun t => { t with attached := true, leader := true, mode := .paired, keyed := true, fw := 0 }
def sDetach : State := given onPair cDetach
def sDetach0 : State := given on cDetach
def cMode : Cmd := cmd 0x52 [2]
def sMode : State := given (onPair.withTw fun t => { t with mode := .solo }) cMode
def sModeRun : State := given ({ onPair with drip := onRun.drip } : State) cMode
def sync0 : Sync := { pockets := false, start := 0 }
def sync2 : Sync := { pockets := true, phase := 2, start := 0 }
def cSync : Cmd := cmd 0x53 [3]
def sSync : State := given onPair cSync
def cSyncing : Cmd := { cSync with phase := 1 }
def sSync0 : State := given ({ onPair with mtime := 5000, tw := { onPair.tw with sync := some sync0 } } : State) cSyncing
def sSync2 : State := given ({ onPair with mtime := 5000, tw := { onPair.tw with sync := some sync2, mode := .solo } } : State) cSyncing
def onFollow : State := onCtx.withTw fun t => { t with attached := true, leader := false, mode := .paired, applied := 4 }
def cFollow : Cmd := cmd 0x2B [1]
def sFollow : State := given onFollow cFollow
def crcFollow : W32 := crc32c (wordsBytes cFollow.words)
def rec1 : FRec := { code := 0x0203, role := 1, fcu := false, seq := 9, ts := 0, drip := 0 }
def rec2 : FRec := { rec1 with code := 0x0501, fcu := true }
def cFRead : Cmd := cmd 0x54 [1]
def sFRead : State := given ({ on with mpRecs := [rec1, rec1] } : State) cFRead
def sFReadF : State := given ({ on with fcuRecs := [rec2], mpRecs := [rec1] } : State) cFRead
def cClear : Cmd := cmd 0x55 [4]
def sClear : State := given (on.withFcu fun f => { f with clock := true, faultN := true }) cClear
def sClearNo : State := given (on.withFcu fun f => { f with clock := true, faultN := true, failed := 1 }) cClear
def cInject : Cmd := cmd 0x56 [0x0109, 31, 3]
def sInject : State := given ({ on with sec := { on.sec with lifecycle := 1 } } : State) cInject
def sInjected : State := on.withDev fun d => { d with injected := [(0x0501, 7, 0)] }
def sAlert (k : Nat) : State := on.withFcu fun f => { f with runCause := k, runLen := 8 }
def sAbsent : State := on.withFcu fun f => { f with rx := 2 }
def sSurvive : State := ({ onPair with drip := onRun.drip } : State).withFcu fun f => { f with rx := 2 }
def sHeldEnd : State := on.withFcu fun f => { f with held := true, faultN := true }
def sDbg : State := { on with sec := { on.sec with dbgHalt := true } }
/-! ### Security -/
def cLife : Cmd := cmd 0x58 [3, 4096, 0, 128]
def sLife : State := given on cLife
def cChal : Cmd := cmd 0x59 [1 + 4]
def sChal : State := given on cChal
def cChal2 : Cmd := cmd 0x59 [2 + 4]
def sChal2 : State := given ({ on with sec := { on.sec with lifecycle := 3 } } : State) cChal2
def cUnlock : Cmd := cmd 0x5A ((1 + 4) :: List.replicate 24 7)
def sUnlock : State := given ({ on with sec := { on.sec with chal := some (1, 1) } } : State) cUnlock
def cFw : Cmd := cmd 0x5B [0, 4096, 0, 1024]
/-- A firmware image header: target, version 9, floor 2, for every lifecycle state (R428). -/
def header (target floor : Nat) : List Byte :=
  leBytes 4 0x47584657 ++ leBytes 4 (1 + target * 2 ^ 16) ++ leBytes 4 9 ++ leBytes 4 floor ++ leBytes 4 1024 ++ leBytes 4 0 ++ leBytes 4 15 ++ List.replicate 100 0
/-- A whole image with 800 zero bytes of body and their SHA-384, as the standard gives it. -/
def imageOf (target floor : Nat) : List Byte :=
  (header target floor).take 64 ++ leBytes 48 0x1213EA54ADCFDB0B9E06E7C3EF70F982BC66C546BF46A795B5E7D24A8D8678E02FA06AF44F99CF2243F1E7ECB6BEC092 ++ List.replicate 912 0
def mpImage : List Byte := imageOf 0 2
def sFw : State := given (on.withDev fun d => { d with phase := 0, floor := 2 }) cFw
def cFwF : Cmd := cmd 0x5B [1, 4096, 0, 1024]
def sFwF : State := given on cFwF
def ch1 : Chal := ⟨1, 1, 100, 0⟩
def sChals : State := on.withFl fun f => { f with chal := some ch1, kc := true }
def sLateDbg : State := on.withFl fun f => { f with chal := some ch1, sessions := [(1, 1, 4), (0, 2, 5)], level := 1 }
def sKcEnd : State := { onKc with fl := { onKc.fl with sessions := [(1, 1, 4)] } }
def authB : List Byte := leBytes 4 0x47584C43 ++ leBytes 4 (1 + 1 * 2 ^ 16 + 2 * 2 ^ 24) ++ leBytes 4 0 ++ leBytes 4 0 ++ leBytes 2 64
def bodyAdv : List W32 := [6, 2, 128]
def sAdv : State := { onKc with fl := { onKc.fl with life := List.replicate 3 0x601, secret := false, auth := Mem.writeN [] 0 authB } }
def sAdvT : State := ((advance 2 192 true true (sAdv.takeFlint 0xF6 [6, w32 2, w32 192])).toOption.map fun x => x.1).getD sAdv
def bodyFloor : List W32 := 7 :: leWords 32 (header 0 5)
def sFloor : State := onKc.withFl fun f => { f with floor := 3 }
def imgFw : Mem := (header 1 0).zipIdx.foldl (fun m x => m) []
def sImg : State := onKc.withFl fun f => { f with image := Mem.writeN [] 0 (header 1 0) }
def bodyPart : List W32 := [0x8000, 0x11, 0x12]
def imgPart : Mem := (Mem.writeN [] 0 (header 1 0)).writeN 128 (wordsBytes [0x11, 0x12])
def sKeyed : State := onKc.withFl fun f => { f with secret := true }
def sNoSecret : State := onKc.withFl fun f => { f with secret := false }
def bodySign : List W32 := 8 :: List.replicate 64 3
def onTimed : State := onKc.withFl fun f => { f with timed := true, drip := 9, len := 1000000, drops := 4, next := 2, use := { f.use with p := onMet.fl.p, curve := [(0, 0), (1000, 1000)] } }
def stamp5 : Nat := 5 * 2 ^ 32
def sTimed0 : State := onTimed.withFl fun f => { f with next := 0 }
def sTimed3 : State := onTimed.withFl fun f => { f with next := 3 }
def codes0 : List (List Int) := [[100, 101], [], [300], [400]]
def ready0 : Ready := { at' := 4, ts := 5, flags := 3, gross := 50, tare := 0, net := 50, d := 10, events := 0, checksum := 0, window := 9, compared := false }
def ready1 : Ready := { ready0 with compared := true }
def sReady0 : State := on.withFl fun f => { f with ready := [ready0] }
def sReady1 : State := on.withFl fun f => { f with ready := [ready1], pos := 6 }
def sSign : State := on.withFl fun f => { f with signing := [ready0] }
def sSignI : State := on.withFl fun f => { f with signing := [ready0], level := 2 }
/-! ### Flint, conduit and Quartz -/
def sHello : State := { on with toFlint := [(0xF0, []), (0xF6, [1])] }
def bodyCmp0 : List W32 := [9, 1, 0, 40, 6]
def bodyCmp : List W32 := bodyCmp0 ++ macWords key5 bodyCmp0
def bodyMode : List W32 := [2]
def bodyCert : List W32 := List.replicate 90 3
def bodyCmpBad : List W32 := bodyCmp0 ++ List.replicate 4 0
def sPairFl : State := onTimed.withFl fun f => { f with kp := true, kpKey := key5, mode := .paired, kpRx := 5 }
def bodyEnter : List W32 := [0x101]
def bodyEnter3 : List W32 := [0x301, 32768]
def sEnter3 : State := onKc.withFl fun f => { f with entering := some 3 }
def sEnter2 : State := onKc.withFl fun f => { f with entering := some 2 }
def sHiber : State := onKc.withFl fun f => { f with hiber := true, ldoLow := true, period := 3277, pst := 2, carry := some (7, 3) }
def sResetDue : State := onTimed.withFl fun f => { f with resetDue := true, tare := 5, pos := 9 }
def sHiberL : State := sHiber.withLan fun l => { l with left := 400000000 }
def frm (kind src : Nat) (p : List Byte) : Frame := { kind := kind, source := src, seq := 5, ts := stamp5, payload := p }
def rawBad : List Byte := List.replicate 22 1
def f1 : Frame := frm 1 2 (List.replicate 32 1)
def f2 : Frame := frm 2 0 (List.replicate 32 1)
def f3 : Frame := frm 3 0 (wordsBytes [0x38070000, 5])
def f4 : Frame := frm 4 0 (List.replicate 128 1)
def f5 : Frame := frm 5 0 (List.replicate 44 1)
def raw1 : List Byte := f1.bytes
def raw2 : List Byte := f2.bytes
def raw3 : List Byte := f3.bytes
def raw4 : List Byte := f4.bytes
def raw5 : List Byte := f5.bytes
def sFrames (l : List Frame) : State := (on.withFl fun f => { f with frames := l }).withDev fun d => { d with fromHib := true }
def sFr1 : State := sFrames [f1]
def sFr2 : State := sFrames [f2, f1]
def sFr3 : State := sFrames [f1, f3]
def sFr4 : State := sFrames [f4, f1]
def sFr5 : State := sFrames [f5, f4]
def sTwinLate : State := { onFollow with conduit := { onFollow.conduit with due := [(1, 77)] } }
def sLatch : State := onRun.withTime fun t => { t with now := (12345 * giga + 678) * nsU + 0x80000001 }
def sSeen : State := onRun.withTime fun t => { t with ppsMark := some (3 * nsU), ppsCap := 3, quality := .disciplined, now := 500000002 * nsU }
def sPpsOn : State := onRun.withTime fun t => { t with ppsOutEn := true, ppsOutOffset := -5, ppsOutWidth := 1000 }
def sPpsUp : State := sPpsOn.withTime fun t => { t with ppsOut := true, now := giga * nsU }
def sServo0 : State := sSeen.withTime fun t => { t with now := 2500000003 * nsU }
def adj4 : TimeAdj := { sec := 3, offset := 3 * 2 ^ 16, rate := 0, rateValid := true }
def sServo : State := onRun.withTime fun t => { t with now := 6 * giga * nsU, edges := [edge4], adj := some adj4 }
/-! ### Drips, power and start -/
def inState (k : Nat) : State := onRun.withPw fun p => { p with state := k }
def change5 : DripChange := ⟨2000000, 4, 20, false⟩
def sBnd1 : State := (inState 1).withDrip fun d => { d with pend := some change5 }
def sBndStep : State := (inState 2).withTime fun t => { t with step := -7 }
def onTwin : State := { onPair with drip := onRun.drip, dev := { onPair.dev with workDue := [4] } }
def packet0 : List Byte := onTwin.packetBytes ⟨3, 5, [⟨1, 0, false, 2, 9⟩], false⟩
def packetP : Packet := ⟨3, 5, 0, 0, [⟨1, 0, false, 2, 9⟩], 0⟩
def packetBad : List Byte := [1]
def sent3 : SentPk := ⟨3, 5, [], false⟩
def sWaitPk : State := onPair.withTw fun t => { t with sent := [sent3], mine := [⟨⟨1, 0, false, 2, 9⟩, 3⟩] }
def sWoken : State := (inState 2).withPw fun p => { p with seen := 32 }
def onEntry (t : Nat) : State := onRun.withPw fun p => { p with target := some t }
def sAsk2 : State := onEntry 2
def sAsk3 : State := onEntry 3
def sAckE : State := (onEntry 2).withPw fun p => { p with asking := some 12, flintAck := true }
def sAck3 : State := { sAckE.withPw (fun p => { p with target := some 3 }) with conduit := { on.conduit with rtc := some 5 } }
def sAsk1 : State := (onEntry 2).withPw fun p => { p with asking := some 1 }
def sOutst : State := given ((onEntry 2).withPw fun p => { p with asking := some 3 }) cStatus
def sReadyE : State := (onEntry 2).withPw fun p => { p with ready := true }
def sReadyF : State := sReadyE.withPw fun p => { p with follower := true }
def sReady3 : State := sReadyE.withPw fun p => { p with target := some 3 }
def sMasked : State := on.withPw fun p => { p with masked := 64 }
def sPins : State := on.withFl fun f => { f with board := some { plain with wakeModes := [4, 0, 0, 0] } }
def sTck : State := (inState 3).withFl fun f => { f with life := List.replicate 3 0x601 }
def sHibW : State := (inState 3).withPw fun p => { p with edges := 4 }
def onHot : State := (onGoing.withDev fun d => { d with board := some { plain with allowance := 300 } }).withPw fun p => { p with mean := 301, points := [2, 3, 1] }
def onHot0 : State := onHot.withCtx 1 fun x => { x with state := .stopped }
def sOff : State := State.reset.withDev fun d => { d with aon := false }
def sStarting : State := State.reset.withDev fun d => { d with die := .starting }
def sFirm : State := { on.withDev (fun d => { d with phase := 1 }) with sec := { on.sec with galSet := List.range 8 } }
/-! ### Debug, cores, queues and slots -/
def onOpen : State := on.withGal fun g => { g with initDone := true }
def onObs : State := { onOpen with sec := { on.sec with cdLevel := 1, sram := [⟨9, 7⟩] } }
def onObsShut : State := { on with sec := { on.sec with cdLevel := 1 } }
def onInv : State := { onOpen with sec := { on.sec with cdLevel := 2, halts := [0, 3] }, geodes := upd on.geodes 3 fun d => { d with halted := true } }
def onObsProt : State := onObs.withGal fun g => g.withSlab 0 fun y => { y with state := .prot, epoch := 3 }
def sProtW : State := onInv.withGal fun g => g.withSlab 0 fun y => { y with state := .prot }
def sKeys : State := { on with sec := { on.sec with galSet := List.range 8 } }
/-- Core 0 runs; context 1 maps slab 5 at index 0; the Shelf holds the first line of the slab. -/
def sector1 : Sector := { valid := true, data := List.replicate 64 9 }
def line5 : Line := { set := 0, way := 0, host := false, addr := galAt 5 0, sectors := [sector1, {}, {}, {}] }
def onCore : State := { onCtx with cores := upd onCtx.cores 0 fun c => { c with reset := false } }
def onShelf : State := onCore.withShelf fun h => { h with lines := [line5] }
def place5 : Place := (false, galAt 5 0 + 8)
def place5a : Place := (false, galAt 5 0)
def cachedA : Nat := 0x1000000000 + 0x20000000 + 8
def plainA : Nat := 0x2000000000 + 0x20000000 + 8
def onUser : State := { onCore with cores := upd onCore.cores 0 fun c => { c with mode := 0 } }
def sPoisW : State := onCore.withGal fun g => { g with poison := [(galAt 5 0 + 8) / 8] }
def sRes : State := { onShelf with cores := upd onShelf.cores 0 fun c => { c with res := some (false, galAt 5 0) } }
def sector2 : Sector := { sector1 with dirty := true }
def sDirty : State := onCore.withShelf fun h => { h with lines := [{ line5 with sectors := [sector2, {}, {}, {}] }] }
def miss5 : Miss := { req := 0, host := false, addr := galAt 5 0 + 8, load := some 4 }
def sMiss : State := onCore.withShelf fun h => { h with misses := [miss5] }
def ev5 : EvEntry := { host := false, addr := galAt 5 0, sectors := [sector2, {}, {}, {}] }
def ev5i : EvEntry := { ev5 with issued := true }
def sEv : State := onCore.withShelf fun h => { h with evict := [ev5] }
def sEvI : State := onCore.withShelf fun h => { h with evict := [ev5i] }
def shelfIs (x : ShelfSt) : State := onShelf.withShelf fun h => { h with state := x }
/-- Geode 1: slot 2 is RUN with input queue 0, which holds a block, and output queue 16, and may fire. -/
def onFire : State := ((({ onGoing with drip := onRun.drip } : State).withSlot 1 2 fun sl => { sl with budget := 100, limit := 50, prog := [0, 0] }).withQueue 1 0 fun q =>
  { q with quota := 1, entries := [block2] }).withQueue 1 16 fun q => { q with quota := 1, credit := 32 }
def sFired : State := onFire.withGeode 1 fun d => { d with fired := true, lastSlot := 2 }
def sConflict : State := onFire.withSlot 1 3 fun sl => { sl with state := .run, ctx := 1, qin := 1 }
def firing2 : Firing := { slot := 2, drip := 3, limit := 50, cycles := 9 }
def onFiring : State := onFire.withGeode 1 fun d => { d with firing := some firing2 }
def sHaltS : State := onFire.withSlot 1 2 fun sl => { sl with state := .halted, cause := 5 }
def sVein : State := on.withGeode 1 fun d => { d with veinPending := 1 }
def sVein2 : State := on.withGeode 1 fun d => { d with veinPending := 1, spareUsed := true }
def sArrive : State := (on.withQueue 1 16 fun q => { q with bind := 2, peer := 4, peerQ := 3, entries := [block2, block2], creditDue := 2, credit := 31 }).withQueue 4 3 fun q => { q with bind := 2, peer := 1, peerQ := 16 }
def marker3 : Entry := { marker := true, origin := 3, count := 1 }
def sMark : State := (onFire.withQueue 1 0 fun q => { q with entries := [marker3, block2] }).withSlot 1 2 fun sl => { sl with qout := 0 }
def write1 : GalWrite := { addr := 16, bytes := [1, 2, 3, 4], poison := false, origin := 0, fold := false }
def sGalW : State := onBound.withSlot 1 2 fun sl => { sl with writes := [write1] }
def sGalWB : State := sGalW.withSlot 1 2 fun sl => { sl with cls := .background }
def sLoaded : State := sGalW.withSlot 1 2 fun sl => { sl with qin := 2, qout := 0, prog := [5] }
def sLoadedOk : State := sLoaded.withQueue 1 1 fun q => { q with bind := 1, quota := 32 }
def sRunS : State := sLoadedOk.withSlot 1 2 fun sl => { sl with state := .run }
def sKat : State := on.withGeode 1 fun d => { d with kat := { busy := true } }
/-! ### Instructions -/
def sRegs : List W32 := [0, 5, 0x80000000, 7, 0xFFFFFFFF] ++ List.replicate 27 1
/-- The instruction of slot 2 of Geode 1 at its program counter, in a firing. -/
def runs (op a : Nat) : State := (onFiring.withSlot 1 2 fun sl =>
  { sl with prog := [BitVec.ofNat 64 (op * 2 ^ 56 + a), 0, 0], s := sRegs, a := [64, 3] ++ List.replicate 14 0 }).withGeode 1 fun d => { d with pocket := Mem.writeN [] (7 * 65536 + 80) [1, 2, 3, 4] }
def djk (d j k f imm : Nat) : Nat := d * 2 ^ 51 + j * 2 ^ 46 + k * 2 ^ 41 + f * 2 ^ 38 + imm
def iUn : State := runs 0x12 0
def iNop : State := runs 0x00 0
def iSeti : State := runs 0x03 (djk 0 0 0 0 77)
def iAddi : State := runs 0x04 (djk 6 4 0 0 2)
def iAdd : State := runs 0x05 (djk 6 4 1 0 2)
def iSub : State := runs 0x06 (djk 1 1 4 0 2)
def iMuli : State := runs 0x07 (djk 6 4 0 0 0xFFFFFFFF)
def iAlu (f : Nat) : State := runs 0x08 (djk 6 2 0 f 33)
def iSpec (n : Nat) : State := runs 0x09 (djk 6 0 0 0 n)
def iLoop (d : Nat) : State := runs 0x0A (djk d 0 0 0 2)
def iBr (p : Nat) : State := runs 0x0B (djk 0 0 0 0 p)
def iCmp (f j k : Nat) : State := runs 0x0C (djk 0 j k f 2)
def iAset (d : Nat) : State := runs 0x0D (djk d 1 0 0 0xFFFFFFFF)
def iTset (f : Nat) : State := runs 0x0E (djk 31 2 0 f 0)
def iSld (j o : Nat) : State := runs 0x0F (djk 6 j 0 0 o)
def iSldP : State := (iSld 0 16).withGeode 1 fun d => { d with poison := [(7 * 65536 + 80) / 8] }
def iGet : State := runs 0x50 (djk 6 0 0 0 1)
def iSig : State := runs 0x61 (djk 6 1 0 0 0)
def f32 (k : Nat) : List W32 := (List.range 64).map fun i => w32 (0x3F800000 + k * 0x100000 * (i % 4))
/-- The instruction in a slot with vector registers, descriptors and a marker popped last. -/
def vruns (op a : Nat) : State := (runs op a).withSlot 1 2 fun sl =>
  { sl with v := [⟨f32 1, false⟩, ⟨f32 2, true⟩, ⟨f32 3, false⟩, ⟨f32 4, false⟩] ++ List.replicate 12 {} }
def vabc (d a b c fn imm : Nat) : Nat := d * 2 ^ 52 + a * 2 ^ 48 + b * 2 ^ 44 + c * 2 ^ 40 + fn * 2 ^ 36 + imm
def bgRun (s : State) : State := (s.withSlot 1 2 fun sl => { sl with cls := .background, qin := 0, qout := 0 })
def iYield : State := runs 0x01 0
def iYieldR : State := runs 0x01 (2 ^ 10 + 2)
def iYieldF : State := runs 0x01 (2 ^ 10 + 3)
def iCommit : State := runs 0x02 0
def iCommitB : State := bgRun (runs 0x02 0)
def iCommitEnd : State := iCommitB.withSlot 1 2 fun sl => { sl with prog := sl.prog.take 1 }
def iVop (fn : Nat) : State := vruns 0x22 (vabc 5 0 3 0 fn 0)
def iVopi (fn : Nat) : State := vruns 0x23 (vabc 5 1 3 0 fn 0x40000000)
def iVfma : State := vruns 0x24 (vabc 5 0 2 3 0 0)
def iVun (fn : Nat) : State := vruns 0x25 (vabc 5 0 2 3 fn 0)
def iVexp : State := vruns 0x26 (vabc 5 0 2 3 0 0)
def iVred (fn : Nat) : State := vruns 0x27 (vabc 5 0 2 3 fn 0)
def iVbc (fn : Nat) : State := vruns 0x28 (vabc 5 0 2 3 fn 2)
def iVsel : State := vruns 0x29 (vabc 5 0 2 3 0 0)
def iVmom (d : Nat) : State := vruns 0x2A (vabc d 0 2 3 0 0x3C800000)
def iVadam (i : Nat) : State := vruns 0x2B (vabc 5 0 2 3 0 i)
def iVcvt (fn : Nat) : State := vruns 0x2C (vabc 5 0 2 3 fn 0)
def mem (d j fn post o : Nat) : Nat := d * 2 ^ 52 + j * 2 ^ 48 + fn * 2 ^ 36 + post * 2 ^ 35 + o
def iVld (fn o : Nat) : State := vruns 0x20 (mem 5 0 fn 1 o)
def iVst (fn o : Nat) : State := vruns 0x21 (mem 0 0 fn 1 o)
def qop (q j post n v sd sv : Nat) (ty : Nat) : Nat := q * 2 ^ 51 + j * 2 ^ 47 + post * 2 ^ 46 + n * 2 ^ 40 + v * 2 ^ 39 + sv * 2 ^ 35 + sd * 2 ^ 30 + ty * 2 ^ 23
/-- A queue instruction in a firing whose last popped marker stands; queue 0 holds two blocks. -/
def qruns (op a : Nat) : State := ((runs op a).withQueue 1 0 fun q => { q with quota := 2, entries := [block2, block2] }).withGeode 1 fun d =>
  { d with firing := d.firing.map fun f => { f with lastMarker := some marker3 } }
def firingM : Firing := { firing2 with lastMarker := some marker3 }
def iSkip (q n : Nat) : State := qruns 0x42 (qop q 0 0 n 0 7 0 0)
def iPop (q n v : Nat) : State := qruns 0x40 (qop q 0 1 n v 7 3 0)
def iPush (q : Nat) : State := qruns 0x41 (qop q 0 1 1 0 7 0 0)
def iFwd (q : Nat) : State := qruns 0x43 (qop q 0 1 1 0 7 0 0)
def popped (s : State) (n q : Nat) : State := ((State.popN n (s.spend 1 4) 1 q).toOption.map fun x => x.1).getD s
def poppedE (s : State) (n q : Nat) : List Entry := ((State.popN n (s.spend 1 4) 1 q).toOption.map fun x => x.2).getD []
def sSkipU : State := popped (iSkip 0 1) 1 0
def esSkip : List Entry := poppedE (iSkip 0 1) 1 0
def sPopU : State := popped (iPop 0 2 0) 2 0
def esPop : List Entry := poppedE (iPop 0 2 0) 2 0
def sPopV : State := ((sPopU.storeEntries 1 64 64 esPop).toOption).getD sPopU
def sPopUV : State := popped (iPop 0 2 1) 2 0
def sPushU : State := ((State.pushPocket 1 16 64 1 ((iPush 16).spend 1 4) 64).toOption).getD sPopU
def iFwd0 : State := runs 0x43 (qop 16 0 1 1 0 7 0 0)
def iSet (j : Nat) : State := vruns 0x51 (j * 2 ^ 46 + 3 * 2 ^ 44)
def iSetOk : State := (iSet 6).withSlot 1 2 fun sl => { sl with s := sl.s.set 6 (w32 0x3F800000) }
def iObs (v : Nat) : State := vruns 0x52 (3 * 2 ^ 44 + v * 2 ^ 40)
def iHold : State := vruns 0x53 (1 * 2 ^ 51 + 2 * 2 ^ 44)
/-- A descriptor of a raw Pocket tensor (R112). -/
def desc (base ty rows cols stride : Nat) : W128 := BitVec.ofNat 128 (base + ty * 2 ^ 34 + rows * 2 ^ 48 + cols * 2 ^ 64 + stride * 2 ^ 80)
def truns (op a : Nat) (s2 s3 : Nat) : State := (vruns op a).withSlot 1 2 fun sl =>
  { sl with t := [desc 0 0 8 2 128, desc 4096 0 8 2 128, desc 8192 5 8 2 512, desc 16384 0 8 2 128] ++ List.replicate 28 0, s := (sl.s.set 2 (w32 s2)).set 3 (w32 s3) }
def iFold : State := truns 0x60 (0 * 2 ^ 51 + 2 * 2 ^ 41 + 3 * 2 ^ 36 + 1 * 2 ^ 20 + 1 * 2 ^ 12) 1 1
def descP : Desc := ⟨0, .pocket, .e4m3, false, false, 0, 8, 2, 128⟩
def sFoldU : State := (((iFold.spend 1 4).sigFold 1 descP [(1, 1)]).toOption).getD iFold
def iMatOp (op : Nat) : Nat := 0 * 2 ^ 51 + 1 * 2 ^ 46 + 2 * 2 ^ 41 + 2 * 2 ^ 31 + 3 * 2 ^ 26 + 1
def tile0 (tr : Bool) : Tile := ⟨2, 0, 0, 1, tr, .e4m3, List.replicate 64 (List.replicate 64 0x38), false⟩
def iMat (op : Nat) : State := ((truns op (iMatOp op) 0x00010000 0x00010002).withGeode 1 fun d =>
  { d with tiles := [tile0 (op == 0x11)], pocket := Mem.writeN [] (7 * 65536 + 4096 + 256) (List.replicate 64 0x38) })
def iMat0 : State := truns 0x10 (iMatOp 0x10 - 1) 0 0
def descX : Desc := ⟨4096, .pocket, .e4m3, false, false, 0, 8, 2, 128⟩
def descY : Desc := ⟨8192, .pocket, .fp32, false, false, 0, 8, 2, 512⟩
def argsM (tr : Bool) : MatArgs := ⟨0, 1, descP, descX, descY, none, 0, 1, 2, 1, 0, 0, 0, 0, false, 1, tr⟩
def iMatT : State := iMat 0x11
def iMatN : State := iMat 0x10
def mS1 (s : State) (tr : Bool) : State := (((s.spend 1 4).tile 1 (argsM tr)).toOption.map fun x => x.1).getD s
def mS2 (s : State) (tr : Bool) : State := (((mS1 s tr).tensorBlk 1 1 1 descX 2 0).toOption.map fun x => x.1).getD s
def mB (s : State) (tr : Bool) : Blk := (((mS1 s tr).tensorBlk 1 1 1 descX 2 0).toOption.map fun x => x.2).getD (badBlk .e4m3)
def iMove (n : Nat) : State := (truns 0x30 (1 * 2 ^ 51 + 3 * 2 ^ 46 + 2 * 2 ^ 41 + 3 * 2 ^ 36 + n * 2 ^ 20 + 1 * 2 ^ 12) 0x00030002 0x00010000).withGeode 1 fun d =>
  { d with pocket := Mem.writeN [] (7 * 65536 + 4096 + 256) (List.replicate 64 0x38) }
def iMove1 : State := iMove 1
def iMove0 : State := iMove 0
def descZ : Desc := ⟨16384, .pocket, .e4m3, false, false, 0, 8, 2, 128⟩
def vS1 : State := (((iMove1.spend 1 4).tensorBlk 1 2 1 descX 2 0).toOption.map fun x => x.1).getD iMove1
def vB : Blk := (((iMove1.spend 1 4).tensorBlk 1 2 1 descX 2 0).toOption.map fun x => x.2).getD (badBlk .e4m3)
def iZero : State := truns 0x31 (1 * 2 ^ 51 + 3 * 2 ^ 46 + 2 * 2 ^ 41 + 3 * 2 ^ 36 + 1 * 2 ^ 20 + 1 * 2 ^ 12) 0x00030002 0x00010000
def bytes64 (k : Nat) : List Nat := (List.range 64).map fun i => (i * k) % 256
def words32 (k : Nat) : List Nat := (List.range 32).map fun i => (i * k) % 65536

/-! ### Every hypothesis is met -/

theorem test_meets_StepKeepsMemories :
    sStep.memWf = true := by
  decide +kernel

theorem test_meets_StepKeepsTables :
    sStep.tables = true := by
  decide +kernel

theorem test_meets_ResetValues :
    0 < 8 := by
  decide +kernel

theorem test_meets_RegisterWindow :
    (on.winUp = true ∧ on.linkHolds = false ∧ (on.mb 3).cmdHeld = false ∧ (on.mb 3).cmd.length < 64) ∧
    (sFull.winUp = true ∧ sFull.linkHolds = false ∧ (sFull.mb 3).cmdHeld = false ∧ 64 ≤ (sFull.mb 3).cmd.length) ∧
    (sHold.winUp = true ∧ sHold.linkHolds = false ∧ (sHold.mb 3).cmdHeld = true) ∧
    ((on.mb 3).rsp = []) ∧
    (sRsp.winUp = true ∧ sRsp.linkHolds = false ∧ (sRsp.mb 3).rsp = [rsp5, evt9] ∧ rsp5.words = [5, 6]) ∧
    (sEvt.winUp = true ∧ sEvt.linkHolds = false ∧ (sEvt.mb 3).rsp = [evt9] ∧ evt9.words = [9]) ∧
    (3 < sFull.mbx.length ∧ sFull.mpRuns = true ∧ sFull.fcu.mpHalt = false ∧ sFull.fcu.clock = false ∧ sFull.fcu.twinSignal = false ∧ sFull.fcu.result
      = false) ∧
    (3 < sRsp.mbx.length ∧ sRsp.mpRuns = true ∧ sRsp.fcu.mpHalt = false ∧ sRsp.fcu.clock = false ∧ sRsp.fcu.twinSignal = false ∧ sRsp.fcu.result =
      false) ∧
    (sOffMp.winUp = true ∧ sOffMp.linkHolds = false ∧ 3 < sOffMp.mbx.length ∧ sOffMp.mpRuns = false) ∧
    (3 < on.mbx.length ∧ (4 ≠ 4 ∨ 32 % 4 ≠ 0 ∨ 20 ≤ 32 ∧ 32 < 64 ∨ 80 ≤ 32 ∧ 32 < 256 ∨ 512 ≤ 32)) ∧
    (sTorpor.dev.die ≠ Die.inReset ∧ sTorpor.dev.refclk = true ∧ sTorpor.hostLink = true ∧ (sTorpor.pw.state = 1 ∨ sTorpor.pw.state = 2)) := by
  refine ⟨?_, ?_, ?_, ?_, ?_, ?_, ?_, ?_, ?_, ?_, ?_⟩ <;> decide +kernel

theorem test_meets_RegisterAccessCodes :
    (on.mayAccess 8 = true ∧ on.winUp = true ∧ on.linkHolds = false ∧ bitAt 19088743 0 = true) ∧
    (bitAt 19088742 0 = false) := by
  refine ⟨?_, ?_⟩ <;> decide +kernel

theorem test_meets_CommandAcceptance :
    (2 < 8 ∧ sAcc.mbx.length = 8 ∧ sAcc.mpRuns = true ∧ sAcc.dev.workDue = [] ∧ sAcc.pw.agreed.contains 3 = false ∧ (List.find? (fun k => !(sAcc.mb
      k).skipped) (List.map (fun k => (sAcc.dev.rot + k) % 8) (List.range 8)) = some 2) ∧ (sAcc.mb 2).part = none ∧ (sAcc.mb 2).cmd = { w := hdr } ::
      restAcc ∧ fld (BitVec.toNat hdr) 10 6 ≠ 63 ∧ fld (BitVec.toNat hdr) 10 6 ≤ restAcc.length ∧ fld (BitVec.toNat hdr) 16 8 ≠ 0 ∧ (sAcc.mb
      2).tags.contains (fld (BitVec.toNat hdr) 16 8) = false ∧ sAcc.checks 2 hdr (List.take (fld (BitVec.toNat hdr) 10 6) restAcc) = none ∧ 0 ≠ 2) ∧
    (sFull.mpRuns = true ∧ (sFull.mb 3).part = some part5 ∧ part5.late = false ∧ (sFull.mb 3).rspCount < 64) ∧
    (sLate.mpRuns = true ∧ (sLate.mb 3).part = some part6 ∧ part6.late = true ∧ (sLate.mb 3).held = [] ∧ (sLate.mb 3).rspCount < 64) ∧
    (sLateFull.mpRuns = true ∧ (sLateFull.mb 3).part = some part5 ∧ 64 ≤ (sLateFull.mb 3).rspCount) ∧
    (sHeld.mpRuns = true ∧ (sHeld.mb 3).held = [rsp5] ∧ (sHeld.mb 3).rspCount + rsp5.words.length ≤ 64) ∧
    (sMet.mpRuns = true ∧ (List.find? (fun c => c.tag == 7 && isMet c.op && c.phase == 1) (sMet.mb 0).out = some cMet) ∧ sMet.metAnswered 0 7 = none) ∧
    (sMetAns.mpRuns = true ∧ isMet cMet.op = true ∧ fld (BitVec.toNat (w32 939982848)) 24 8 = cMet.op ∧ fld (BitVec.toNat (w32 939982848)) 16 8 =
      cMet.tag ∧ sMetAns.cmdIn 0 cMet.tag cMet.op 1 = some cMet ∧ sMetAns.conduit.answers = [w32 939982848 :: ansMet] ∧ cMet.counter = answerCounter
      (w32 939982848 :: ansMet) ∧ (sMetAns.mb 0).rspCount + (ansMet.length + 1) ≤ 64) := by
  refine ⟨?_, ?_, ?_, ?_, ?_, ?_, ?_⟩ <;> decide +kernel

theorem test_meets_DripLimits :
    (250 < 251) ∧
    (sBadStart.ready 0 7 4 cBadStart ∧ dripLegal ↑(fld (cBadStart.word 1) 0 26) ↑(fld (cBadStart.word 2) 0 9) = false ∧ bitAt (cBadStart.word 0) 2 =
      true) ∧
    (sBadSet.ready 0 7 4 cBadSet ∧ dripLegal ↑(fld (cBadSet.word 1) 0 26) ↑(fld (cBadSet.word 2) 0 9) = false ∧ bitAt (cBadSet.word 0) 2 = false ∧
      bitAt (cBadSet.word 0) 0 = true ∧ bitAt (cBadSet.word 0) 1 = false) := by
  refine ⟨?_, ?_, ?_⟩ <;> decide +kernel

theorem test_meets_DripScheduleChanges :
    (sStart.ready 0 7 4 cStart ∧ sStart.drip.phase = DripPhase.stopped ∧ bitAt (cStart.word 0) 2 = true ∧ bitAt (cStart.word 0) 0 = true ∧ bitAt
      (cStart.word 0) 1 = false ∧ dripLegal ↑(fld (cStart.word 1) 0 26) ↑(fld (cStart.word 2) 0 9) = true ∧ sStart.time.quality ≠ Quality.unset ∧
      cStart.word 4 < giga ∧ workFits (sStart.work 0 0) (fld (cStart.word 1) 0 26) = true ∧ sStart.time.now + 100000 * nsU ≤ (cStart.word 4 + giga *
      (cStart.word 5 + fld (cStart.word 6) 0 16 * 2 ^ 32)) * nsU ∧ (cStart.word 4 + giga * (cStart.word 5 + fld (cStart.word 6) 0 16 * 2 ^ 32)) * nsU
      ≤ sStart.time.now + giga * nsU) ∧
    (sLen.ready 0 7 4 cLen ∧ sLen.drip.phase = DripPhase.running ∧ bitAt (cLen.word 0) 2 = false ∧ bitAt (cLen.word 0) 0 = true ∧ bitAt (cLen.word 0)
      1 = false ∧ dripLegal ↑(fld (cLen.word 1) 0 26) ↑(fld (cLen.word 2) 0 9) = true ∧ workFits (sLen.work 0 0) (fld (cLen.word 1) 0 26) = true) ∧
    (sLenSoon.ready 0 7 4 cLen ∧ sLenSoon.drip.phase = DripPhase.running ∧ workFits (sLenSoon.work 0 0) (fld (cLen.word 1) 0 26) = true) ∧
    (sTrim.ready 0 7 4 cTrim ∧ sTrim.drip.phase = DripPhase.running ∧ bitAt (cTrim.word 0) 2 = false ∧ bitAt (cTrim.word 0) 0 = false ∧ bitAt
      (cTrim.word 0) 1 = true ∧ dripLegal ↑sTrim.drip.base ↑sTrim.drip.drops = true ∧ dripLegal (↑sTrim.drip.base + signed 32 (cTrim.word 3))
      ↑sTrim.drip.drops = true ∧ ↑sTrim.time.now + 10000 * ↑nsU ≤ sTrim.nextBoundary) := by
  refine ⟨?_, ?_, ?_, ?_⟩ <;> decide +kernel

theorem test_meets_TimeCommands :
    (sTimeSet.ready 0 7 16 cTimeSet ∧ cTimeSet.word 1 < giga ∧ sTimeSet.drip.phase ≠ DripPhase.stopped) ∧
    (sRead.ready 0 7 18 cRead) ∧
    (sPps.ready 0 7 19 cPps ∧ -500000000 ≤ signed 32 (cPps.word 1) ∧ signed 32 (cPps.word 1) ≤ 500000000 ∧ 1000 ≤ cPps.word 2 ∧ cPps.word 2 ≤
      500000000) ∧
    (sAdj.ready 0 7 17 cAdj ∧ -((giga * 2 ^ 16 : Nat) : Int) ≤ signed 64 (cAdj.word 0 + cAdj.word 1 * 2 ^ 32) ∧ signed 64 (cAdj.word 0 + cAdj.word 1 *
      2 ^ 32) ≤ ((giga * 2 ^ 16 : Nat) : Int) ∧ bitAt (cAdj.word 3) 0 = false ∧ sAdj.time.edges = []) ∧
    (sEdge.ready 0 7 17 cAdj) := by
  refine ⟨?_, ?_, ?_, ?_, ?_⟩ <;> decide +kernel

theorem test_meets_IdentificationAndBoard :
    (sIdent.ready 0 7 1 cIdent ∧ fld (cIdent.word 0) 0 8 ≤ 3 ∧ 3 ≤ fld (cIdent.word 0) 8 8) ∧
    (sIdentNo.ready 0 7 1 cIdentNo ∧ (3 < fld (cIdentNo.word 0) 0 8 ∨ fld (cIdentNo.word 0) 8 8 < 3)) ∧
    (5 ≠ 0 ∧ sIdent5.ready 5 7 1 cIdent) ∧
    (sStatus.ready 0 7 3 cStatus) ∧
    (sBoard.ready 0 7 2 cBoard ∧ sBoard.dev.phase ≠ 1 ∧ hostField (cBoard.word 0 + cBoard.word 1 * 2 ^ 32) (cBoard.word 2) 512 16384 = true ∧
      sBoard.dev.board = none ∧ parseBoard sBoard.devId (padTo (cBoard.word 2) recBytes) (cBoard.word 2) = some recBoard) ∧
    (sBoard2.ready 0 7 2 cBoard ∧ sBoard2.dev.phase ≠ 1 ∧ sBoard2.dev.board = some plain) := by
  refine ⟨?_, ?_, ?_, ?_, ?_, ?_⟩ <;> decide +kernel

theorem test_meets_SlabAllocation :
    (onCtx.pickSlabs 2 3 = some [128, 129, 130]) ∧
    (onCtx.pickSlabs 1 3 = some [0, 1, 2] ∧ 0 ∈ [0, 1, 2]) ∧
    (sAlloc.ready 0 7 24 cAlloc ∧ sAlloc.gal.slabs.length = 512 ∧ sAlloc.ctxs.length = 24 ∧ ctxField cAlloc < 24 ∧ countOk (fld (cAlloc.word 1) 0 9)
      (fld (cAlloc.word 2) 0 10) = true ∧ sAlloc.notFree (ctxField cAlloc) = true ∧ (∀ (i : ℕ), fld (cAlloc.word 1) 0 9 ≤ i → i < fld (cAlloc.word 1)
      0 9 + fld (cAlloc.word 2) 0 10 → (sAlloc.ctx (ctxField cAlloc)).ent i = none) ∧ bitAt (cAlloc.word 0) 8 = false ∧ fld (cAlloc.word 0) 12 4 ≠ 0 ∧
      sAlloc.gal.initDone = true ∧ sAlloc.pickSlabs (fld (cAlloc.word 0) 12 4) (fld (cAlloc.word 2) 0 10) = some [0] ∧ 0 ∈ [0] ∧ 1 ∉ [0] ∧ 0 < fld
      (cAlloc.word 2) 0 10 ∧ 0 ≠ ctxField cAlloc) ∧
    (sShare.ready 0 7 24 cShare ∧ sShare.gal.slabs.length = 512 ∧ sShare.ctxs.length = 24 ∧ ctxField cShare < 24 ∧ countOk (fld (cShare.word 1) 0 9)
      (fld (cShare.word 2) 0 10) = true ∧ sShare.notFree (ctxField cShare) = true ∧ (∀ (i : ℕ), fld (cShare.word 1) 0 9 ≤ i → i < fld (cShare.word 1)
      0 9 + fld (cShare.word 2) 0 10 → (sShare.ctx (ctxField cShare)).ent i = none) ∧ bitAt (cShare.word 0) 8 = true ∧ bitAt (cShare.word 0) 9 = false
      ∧ fld (cShare.word 3) 0 5 < 24 ∧ fld (cShare.word 3) 0 5 ≠ ctxField cShare ∧ (∀ k < fld (cShare.word 2) 0 10, ∃ e, (sShare.ctx (fld (cShare.word
      3) 0 5)).ent (fld (cShare.word 4) 0 9 + k) = some e ∧ e.write = true) ∧ 0 < fld (cShare.word 2) 0 10 ∧ 0 ≠ ctxField cShare) := by
  refine ⟨?_, ?_, ?_, ?_⟩ <;> decide +kernel

theorem test_meets_SlabReleaseAndProtection :
    (sFree.ready 0 7 25 cFree ∧ ctxField cFree < 24 ∧ fld (cFree.word 2) 0 10 = 1 ∧ sFree.notFree (ctxField cFree) = true ∧ (sFree.ctx (ctxField
      cFree)).ent (fld (cFree.word 1) 0 9) = some owned5 ∧ owned5.write = true ∧ sFree.mappers owned5.slab = [ctxField cFree] ∧ sFree.ctxRuns
      (ctxField cFree) = false ∧ owned5.slab < sFree.gal.slabs.length ∧ sFree.gal.mem.wf = true ∧ 0 ≠ owned5.slab) ∧
    (sFreeShare.ready 0 7 25 cFreeShare ∧ ctxField cFreeShare < 24 ∧ fld (cFreeShare.word 2) 0 10 = 1 ∧ sFreeShare.notFree (ctxField cFreeShare) =
      true ∧ (sFreeShare.ctx (ctxField cFreeShare)).ent (fld (cFreeShare.word 1) 0 9) = some shared6 ∧ shared6.write = false ∧ sFreeShare.ctxRuns
      (ctxField cFreeShare) = false) ∧
    ((sZeroing.gal.slab 5).state = SlabState.zeroing ∧ 5 < sZeroing.gal.slabs.length ∧ sZeroing.gal.mem.wf = true ∧ 0 ≠ 5 ∧ sZeroing.waiter [25] 5 =
      some (0, cFreeing) ∧ cFreeing.op = 25 ∧ cFreeing.note = [5]) ∧
    (sProtect.ready 0 7 26 cProtect ∧ ctxField cProtect < 24 ∧ fld (cProtect.word 2) 0 10 = 1 ∧ sProtect.notFree (ctxField cProtect) = true ∧
      (sProtect.ctx (ctxField cProtect)).ent (fld (cProtect.word 1) 0 9) = some owned5 ∧ owned5.prot = false ∧ (sProtect.gal.slab owned5.slab).coded =
      false ∧ sProtect.slabBusy owned5.slab = false ∧ sProtect.sec.galSet.length = 8) ∧
    ((sConvert.gal.slab 5).converting = true ∧ 5 < sConvert.gal.slabs.length ∧ sConvert.gal.mem.wf = true) := by
  refine ⟨?_, ?_, ?_, ?_, ?_⟩ <;> decide +kernel

theorem test_meets_TransfersAndWalks :
    (ctxField cIn < 24 ∧ sIn.notFree (ctxField cIn) = true ∧ 1 ≤ cIn.word 4 ∧ cIn.word 4 ≤ 536870912 ∧ cIn.word 1 + cIn.word 2 * 2 ^ 32 + cIn.word 4 ≤
      2 ^ 64 ∧ sIn.ready 0 7 27 cIn ∧ (sIn.ctx (ctxField cIn)).inSet (cIn.word 3) (cIn.word 4) true = true) ∧
    (ctxField cOut < 24 ∧ sOut.notFree (ctxField cOut) = true ∧ 1 ≤ cOut.word 4 ∧ cOut.word 4 ≤ 536870912 ∧ cOut.word 1 + cOut.word 2 * 2 ^ 32 +
      cOut.word 4 ≤ 2 ^ 64 ∧ sOut.ready 0 7 28 cOut ∧ (sOut.ctx (ctxField cOut)).inSet (cOut.word 3) (cOut.word 4) false = true) ∧
    (ctxField cLoad < 24 ∧ sLoad.notFree (ctxField cLoad) = true ∧ 1 ≤ cLoad.word 4 ∧ cLoad.word 4 ≤ 536870912 ∧ cLoad.word 1 + cLoad.word 2 * 2 ^ 32
      + cLoad.word 4 ≤ 2 ^ 64 ∧ sLoad.ready 0 7 29 cLoad ∧ (sLoad.ctx (ctxField cLoad)).inSet (cLoad.word 3) (cLoad.word 4) true = true ∧ cLoad.word 5
      ≠ 0 ∧ (bitAt (cLoad.word 6) 0 = true → (sLoad.ctx (ctxField cLoad)).anyProt (cLoad.word 3) (cLoad.word 4) = false)) ∧
    (ctxField cVerify < 24 ∧ sVerify.notFree (ctxField cVerify) = true ∧ sVerify.ready 0 7 30 cVerify ∧ fld (cVerify.word 0) 8 2 = 0 ∧ 1 ≤
      cVerify.word 2 ∧ cVerify.word 2 ≤ 536870912 ∧ (sVerify.ctx (ctxField cVerify)).inSet (cVerify.word 1) (cVerify.word 2) false = true) ∧
    (ctxField cVerifyT < 24 ∧ sVerifyT.notFree (ctxField cVerifyT) = true ∧ 1 ≤ cVerifyT.word 4 ∧ cVerifyT.word 4 ≤ 536870912 ∧ cVerifyT.word 1 +
      cVerifyT.word 2 * 2 ^ 32 + cVerifyT.word 4 ≤ 2 ^ 64 ∧ sVerifyT.ready 0 7 30 cVerifyT ∧ fld (cVerifyT.word 0) 8 2 = 1 ∧ cVerifyT.word 1 % 16 = 0
      ∧ cVerifyT.word 4 % 4 = 0 ∧ 1 ≤ cVerifyT.word 5 ∧ cVerifyT.word 5 ≤ 16777215 ∧ (sVerifyT.ctx (ctxField cVerifyT)).inSet (cVerifyT.word 1)
      (calSpan (cVerifyT.word 4) (cVerifyT.word 5)) false = true) ∧
    (ctxField cVerifyI < 24 ∧ sVerifyI.notFree (ctxField cVerifyI) = true ∧ sVerifyI.ready 0 7 30 cVerifyI ∧ fld (cVerifyI.word 0) 8 2 = 2 ∧ 840 ≤
      cVerifyI.word 2 ∧ cVerifyI.word 2 ≤ 9024 ∧ (sVerifyI.ctx (ctxField cVerifyI)).inSet (cVerifyI.word 1) (cVerifyI.word 2) false = true) ∧
    (ctxField cIndex < 24 ∧ sIndex.notFree (ctxField cIndex) = true ∧ sIndex.ready 0 7 31 cIndex ∧ cIndex.word 1 % 16 = 0 ∧ cIndex.word 2 % 4 = 0 ∧ 1
      ≤ cIndex.word 3 ∧ cIndex.word 3 ≤ 16777215 ∧ (sIndex.ctx (ctxField cIndex)).inSet (cIndex.word 1) (calSpan (cIndex.word 2) (cIndex.word 3)) true
      = true ∧ (sIndex.ctx (ctxField cIndex)).anyProt (cIndex.word 1) (calSpan (cIndex.word 2) (cIndex.word 3)) = false ∧ (∀ sl ∈ (sIndex.ctx
      (ctxField cIndex)).slabs (cIndex.word 1) (calSpan (cIndex.word 2) (cIndex.word 3)), sIndex.slabBusy sl = false)) ∧
    (sInG.galOpen = true ∧ sInG.cmdIn 0 7 27 1 = some cInG ∧ 0 < cInG.word 4) ∧
    (sOutG.galOpen = true ∧ sOutG.cmdIn 0 7 28 1 = some cOutG ∧ sOutG.cmdIn 0 7 27 1 = none ∧ sOutG.cmdIn 0 7 29 1 = none ∧ (sOutG.dmaRead (ctxField
      cOutG) (cOutG.word 3) (cOutG.word 4)).2.2 = false) ∧
    (sVerifyG.galOpen = true ∧ sVerifyG.cmdIn 0 7 30 1 = some cVerifyG ∧ fld (cVerifyG.word 0) 8 2 = 0) ∧
    (sIndex1.galOpen = true ∧ sIndex1.cmdIn 0 7 31 1 = some cIndex1 ∧ sIndex1.walk (bitAt (cIndex1.word 0) 8) false (ctxField cIndex1) (cIndex1.word
      1) (cIndex1.word 2) (cIndex1.word 3) = (sIndexT, Walk.done [0] 18)) ∧
    (sPois1.galOpen = true ∧ sPois1.cmdIn 0 7 31 1 = some cIndex1 ∧ sPois1.walk (bitAt (cIndex1.word 0) 8) false (ctxField cIndex1) (cIndex1.word 1)
      (cIndex1.word 2) (cIndex1.word 3) = (sPoisT, Walk.poison)) := by
  refine ⟨?_, ?_, ?_, ?_, ?_, ?_, ?_, ?_, ?_, ?_, ?_, ?_⟩ <;> decide +kernel

theorem test_meets_GalleryUpkeep :
    (sScrub.ready 0 7 32 cScrub ∧ 1 ≤ fld (cScrub.word 0) 1 7 ∧ fld (cScrub.word 0) 1 7 ≤ 64 ∧ sScrub.gal.initBusy = false) ∧
    (sInit.gal.initBusy = true ∧ (∀ y ∈ sInit.gal.slabs, y.state ≠ SlabState.prot)) ∧
    (sPatrol.gal.initBusy = false) ∧
    (sPatrolEnd.gal.initBusy = false) := by
  refine ⟨?_, ?_, ?_, ?_⟩ <;> decide +kernel

theorem test_meets_ContextCreation :
    (sCreate.ready 0 7 40 cCreate ∧ ctxField cCreate < 24 ∧ OClass.ofCode (fld (cCreate.word 0) 5 2) = some OClass.background ∧ 1 ≤ fld (cCreate.word
      0) 12 9 ∧ fld (cCreate.word 0) 12 9 ≤ 256 ∧ (fld (cCreate.word 0) 21 3 = 0 ∨ 4 ≤ fld (cCreate.word 0) 21 3) ∧ cCreate.word 2 ≠ 0 ∧ (cCreate.word
      5 + cCreate.word 6 * 2 ^ 32) % 4096 = 0 ∧ cCreate.word 7 % 4096 = 0 ∧ cCreate.word 5 + cCreate.word 6 * 2 ^ 32 + cCreate.word 7 ≤ 2 ^ 64 ∧
      (sCreate.ctx (ctxField cCreate)).state = CtxState.free ∧ (∀ y ∈ sCreate.ctxs, y.state ≠ CtxState.free → y.client ≠ some (fld (cCreate.word 0) 21
      3)) ∧ (∀ g < 32, bitAt (cCreate.word 2) g = true → sCreate.retiredG g = false) ∧ (OClass.background = OClass.background ∨ ∀ g < 32, bitAt
      (cCreate.word 2) g = true → sCreate.sharesOn g + fld (cCreate.word 0) 12 9 ≤ 256) ∧ cCreate.word 3 + cCreate.word 4 * 2 ^ 32 ≠ 0) ∧
    (sCreateK.ready 0 7 40 cCreateK ∧ ctxField cCreateK < 24 ∧ OClass.ofCode (fld (cCreateK.word 0) 5 2) = some OClass.realtime ∧ 1 ≤ fld
      (cCreateK.word 0) 12 9 ∧ fld (cCreateK.word 0) 12 9 ≤ 256 ∧ (fld (cCreateK.word 0) 21 3 = 0 ∨ 4 ≤ fld (cCreateK.word 0) 21 3) ∧ cCreateK.word 2
      ≠ 0 ∧ (cCreateK.word 5 + cCreateK.word 6 * 2 ^ 32) % 4096 = 0 ∧ cCreateK.word 7 % 4096 = 0 ∧ cCreateK.word 5 + cCreateK.word 6 * 2 ^ 32 +
      cCreateK.word 7 ≤ 2 ^ 64 ∧ (sCreateK.ctx (ctxField cCreateK)).state = CtxState.free ∧ (∀ y ∈ sCreateK.ctxs, y.state ≠ CtxState.free → y.client ≠
      some (fld (cCreateK.word 0) 21 3)) ∧ (∀ g < 32, bitAt (cCreateK.word 2) g = true → sCreateK.retiredG g = false) ∧ (OClass.realtime =
      OClass.background ∨ ∀ g < 32, bitAt (cCreateK.word 2) g = true → sCreateK.sharesOn g + fld (cCreateK.word 0) 12 9 ≤ 256) ∧ cCreateK.word 3 +
      cCreateK.word 4 * 2 ^ 32 = 0) ∧
    (sDestroy.ready 0 7 45 cDestroy ∧ sDestroy.ctxs.length = 24 ∧ ctxField cDestroy < 24 ∧ (sDestroy.ctx (ctxField cDestroy)).state ≠ CtxState.free ∧
      (sDestroy.ctx (ctxField cDestroy)).state ≠ CtxState.running ∧ (∀ sl ∈ List.map (fun e => e.2.slab) (List.filter (fun e => e.2.write)
      (sDestroy.ctx (ctxField cDestroy)).map), (sDestroy.mappers sl).length = 1) ∧ (List.map (fun e => e.2.slab) (List.filter (fun e => e.2.write)
      (sDestroy.ctx (ctxField cDestroy)).map) ≠ [])) ∧
    (sDestroyE.ready 0 7 45 cDestroy ∧ sDestroyE.ctxs.length = 24 ∧ (sDestroyE.ctx (ctxField cDestroy)).state ≠ CtxState.free ∧ (sDestroyE.ctx
      (ctxField cDestroy)).state ≠ CtxState.running ∧ (∀ sl ∈ List.map (fun e => e.2.slab) (List.filter (fun e => e.2.write) (sDestroyE.ctx (ctxField
      cDestroy)).map), (sDestroyE.mappers sl).length = 1) ∧ (List.map (fun e => e.2.slab) (List.filter (fun e => e.2.write) (sDestroyE.ctx (ctxField
      cDestroy)).map) = [])) := by
  refine ⟨?_, ?_, ?_, ?_⟩ <;> decide +kernel

theorem test_meets_ContextBinding :
    (imgCheck1 imageB imageB.length = true ∧ sBind.ready 0 7 41 cBind ∧ sBind.geodes.length = 32 ∧ (∀ d ∈ sBind.geodes, d.slots.length = 4) ∧ ctxField
      cBind < 24 ∧ fld (cBind.word 3) 0 5 ≤ 24 ∧ fld (cBind.word 3) 0 5 + 4 = cBind.words.length ∧ (∀ e ∈ List.map (fun k => bindEnt (cBind.word k))
      (range' 4 (fld (cBind.word 3) 0 5)), e.q < 24 ∧ e.peerQ < 24) ∧ ((List.map (fun e => e.q) (List.map (fun k => bindEnt (cBind.word k)) (range' 4
      (fld (cBind.word 3) 0 5)))).dedup.length = fld (cBind.word 3) 0 5) ∧ ((sBind.ctx (ctxField cBind)).state = CtxState.created ∨ (sBind.ctx
      (ctxField cBind)).state = CtxState.stopped ∨ (sBind.ctx (ctxField cBind)).state = CtxState.halted) ∧ sBind.readImage (ctxField cBind)
      (cBind.word 1) = (sBind, some (imageB, false)) ∧ bitAt (sBind.ctx (ctxField cBind)).mask (fld (cBind.word 0) 5 5) = true ∧ sBind.retiredG (fld
      (cBind.word 0) 5 5) = false ∧ (sBind.slot (fld (cBind.word 0) 5 5) (fld (cBind.word 0) 10 2)).state = SlotState.empty ∧ (sBind.slotsOf (ctxField
      cBind)).length < 16 ∧ (List.findSome? (fun e => sBind.bindCheck (ctxField cBind) (fld (cBind.word 0) 5 5) (fld (cBind.word 0) 10 2) imageB e)
      (List.map (fun k => bindEnt (cBind.word k)) (range' 4 (fld (cBind.word 3) 0 5))) = none) ∧ imgCheck2 imageB = true ∧ bitAt (imgField imageB 9 1)
      (sBind.ctx (ctxField cBind)).cls.code = true ∧ sBind.imageBusy (fld (cBind.word 0) 5 5) imageB = false ∧ bitAt (cBind.word 0) 12 = false ∧
      (sBind.geode (fld (cBind.word 0) 5 5)).findWindow (fld (cBind.word 0) 10 2) (imgField imageB 8 1) = some 0) ∧
    (sBindW.ready 0 7 41 cBindW ∧ sBindW.geodes.length = 32 ∧ (∀ d ∈ sBindW.geodes, d.slots.length = 4) ∧ ctxField cBindW < 24 ∧ fld (cBindW.word 3) 0
      5 ≤ 24 ∧ fld (cBindW.word 3) 0 5 + 4 = cBindW.words.length ∧ (∀ e ∈ List.map (fun k => bindEnt (cBindW.word k)) (range' 4 (fld (cBindW.word 3) 0
      5)), e.q < 24 ∧ e.peerQ < 24) ∧ ((List.map (fun e => e.q) (List.map (fun k => bindEnt (cBindW.word k)) (range' 4 (fld (cBindW.word 3) 0
      5)))).dedup.length = fld (cBindW.word 3) 0 5) ∧ ((sBindW.ctx (ctxField cBindW)).state = CtxState.created ∨ (sBindW.ctx (ctxField cBindW)).state
      = CtxState.stopped ∨ (sBindW.ctx (ctxField cBindW)).state = CtxState.halted) ∧ sBindW.readImage (ctxField cBindW) (cBindW.word 1) = (sBindW,
      some (imageB, false)) ∧ bitAt (sBindW.ctx (ctxField cBindW)).mask (fld (cBindW.word 0) 5 5) = true ∧ sBindW.retiredG (fld (cBindW.word 0) 5 5) =
      false ∧ (sBindW.slot (fld (cBindW.word 0) 5 5) (fld (cBindW.word 0) 10 2)).state = SlotState.empty ∧ (sBindW.slotsOf (ctxField cBindW)).length <
      16 ∧ (List.findSome? (fun e => sBindW.bindCheck (ctxField cBindW) (fld (cBindW.word 0) 5 5) (fld (cBindW.word 0) 10 2) imageB e) (List.map (fun
      k => bindEnt (cBindW.word k)) (range' 4 (fld (cBindW.word 3) 0 5))) = none) ∧ bitAt (imgField imageB 9 1) (sBindW.ctx (ctxField
      cBindW)).cls.code = true ∧ sBindW.imageBusy (fld (cBindW.word 0) 5 5) imageB = false ∧ bitAt (cBindW.word 0) 12 = true ∧ ((sBindW.geode (fld
      (cBindW.word 0) 5 5)).slot (fld (cBindW.word 0) 13 2)).state ≠ SlotState.empty ∧ ((sBindW.geode (fld (cBindW.word 0) 5 5)).slot (fld
      (cBindW.word 0) 13 2)).ctx = ctxField cBindW ∧ imgField imageB 8 1 ≤ ((sBindW.geode (fld (cBindW.word 0) 5 5)).slot (fld (cBindW.word 0) 13
      2)).size) ∧
    (sBindN.ready 0 7 41 cBindW ∧ sBindN.geodes.length = 32 ∧ (∀ d ∈ sBindN.geodes, d.slots.length = 4) ∧ ((sBindN.ctx (ctxField cBindW)).state =
      CtxState.created ∨ (sBindN.ctx (ctxField cBindW)).state = CtxState.stopped ∨ (sBindN.ctx (ctxField cBindW)).state = CtxState.halted) ∧
      sBindN.readImage (ctxField cBindW) (cBindW.word 1) = (sBindN, some (imageB, false)) ∧ bitAt (sBindN.ctx (ctxField cBindW)).mask (fld
      (cBindW.word 0) 5 5) = true ∧ sBindN.retiredG (fld (cBindW.word 0) 5 5) = false ∧ (sBindN.slot (fld (cBindW.word 0) 5 5) (fld (cBindW.word 0) 10
      2)).state = SlotState.empty ∧ (sBindN.slotsOf (ctxField cBindW)).length < 16 ∧ (List.findSome? (fun e => sBindN.bindCheck (ctxField cBindW) (fld
      (cBindW.word 0) 5 5) (fld (cBindW.word 0) 10 2) imageB e) (List.map (fun k => bindEnt (cBindW.word k)) (range' 4 (fld (cBindW.word 3) 0 5))) =
      none) ∧ bitAt (imgField imageB 9 1) (sBindN.ctx (ctxField cBindW)).cls.code = true ∧ sBindN.imageBusy (fld (cBindW.word 0) 5 5) imageB = false ∧
      (((sBindN.geode (fld (cBindW.word 0) 5 5)).slot (fld (cBindW.word 0) 13 2)).state = SlotState.empty ∨ ((sBindN.geode (fld (cBindW.word 0) 5
      5)).slot (fld (cBindW.word 0) 13 2)).ctx ≠ ctxField cBindW)) := by
  refine ⟨⟨by simp only [imgCheck1, crc32c_eq]; decide +kernel, by decide +kernel⟩, by decide +kernel, by decide +kernel⟩

theorem test_meets_ContextStartAndStop :
    (sCtxStart.ready 0 7 42 cCtxStart ∧ sCtxStart.ctxs.length = 24 ∧ ctxField cCtxStart < 24 ∧ ((sCtxStart.ctx (ctxField cCtxStart)).state =
      CtxState.created ∨ (sCtxStart.ctx (ctxField cCtxStart)).state = CtxState.stopped ∨ (sCtxStart.ctx (ctxField cCtxStart)).state = CtxState.halted
      ∧ (sCtxStart.ctx (ctxField cCtxStart)).vacated = []) ∧ sCtxStart.slotsOf (ctxField cCtxStart) ≠ [] ∧ (∀ z ∈ sCtxStart.slotsOf (ctxField
      cCtxStart), (sCtxStart.slot z.1 z.2).state = SlotState.loaded ∧ (sCtxStart.geode z.1).doubled = false ∧ ∀ q ∈ (sCtxStart.slot z.1 z.2).ins ++
      (sCtxStart.slot z.1 z.2).outs, sCtxStart.queueReady (ctxField cCtxStart) z.1 q = true) ∧ (sCtxStart.dev.dripSet = false ∨ workFits
      (sCtxStart.work 0 1) sCtxStart.shortL = true) ∧ 0 ≠ ctxField cCtxStart) ∧
    (sCtxStartRun.ready 0 7 42 cCtxStart ∧ sCtxStartRun.ctxs.length = 24 ∧ ((sCtxStartRun.ctx (ctxField cCtxStart)).state = CtxState.created ∨
      (sCtxStartRun.ctx (ctxField cCtxStart)).state = CtxState.stopped ∨ (sCtxStartRun.ctx (ctxField cCtxStart)).state = CtxState.halted ∧
      (sCtxStartRun.ctx (ctxField cCtxStart)).vacated = []) ∧ sCtxStartRun.slotsOf (ctxField cCtxStart) ≠ [] ∧ (∀ z ∈ sCtxStartRun.slotsOf (ctxField
      cCtxStart), (sCtxStartRun.slot z.1 z.2).state = SlotState.loaded ∧ (sCtxStartRun.geode z.1).doubled = false ∧ ∀ q ∈ (sCtxStartRun.slot z.1
      z.2).ins ++ (sCtxStartRun.slot z.1 z.2).outs, sCtxStartRun.queueReady (ctxField cCtxStart) z.1 q = true) ∧ (sCtxStartRun.dev.dripSet = false ∨
      workFits (sCtxStartRun.work 0 1) sCtxStartRun.shortL = true)) ∧
    (sStop.ready 0 7 43 cStop ∧ ctxField cStop < 24 ∧ sStop.notFree (ctxField cStop) = true ∧ (sStop.ctx (ctxField cStop)).state ≠ CtxState.running) ∧
    (sStopRun.ready 0 7 43 cStop ∧ sStopRun.notFree (ctxField cStop) = true ∧ (sStopRun.ctx (ctxField cStop)).state = CtxState.running ∧
      sStopRun.running = true) ∧
    (((sStopped.ctx 1).stopping = true ∨ (sStopped.ctx 1).halting = true) ∧ (sStopped.ctx 1).stopArmed = true ∧ sStopped.ctxFires 1 = false ∧ 1 <
      sStopped.ctxs.length ∧ (∀ k < 8, ∀ d ∈ (sStopped.mb k).out, d.op ≠ 43) ∧ 0 < 32 ∧ 0 ≠ 1) ∧
    (((sHalted.ctx 1).stopping = true ∨ (sHalted.ctx 1).halting = true) ∧ (sHalted.ctx 1).stopArmed = true ∧ sHalted.ctxFires 1 = false ∧ 1 <
      sHalted.ctxs.length ∧ (∀ k < 8, ∀ d ∈ (sHalted.mb k).out, d.op ≠ 43)) := by
  refine ⟨?_, ?_, ?_, ?_, ?_, ?_⟩ <;> decide +kernel

theorem test_meets_Checkpoints :
    (sSave.ready 0 7 44 cSave ∧ ctxField cSave < 24 ∧ bitAt (cSave.word 0) 8 = false ∧ (sSave.ctx (ctxField cSave)).state = CtxState.stopped ∧
      (sSave.ctx (ctxField cSave)).ckSize ≠ 0 ∧ (∀ e ∈ (sSave.ctx (ctxField cSave)).map, e.2.write = true → e.2.prot = false) ∧ (∀ p ∈ sSave.queuesOf
      (ctxField cSave), (sSave.queue p.1 p.2).left = 0)) ∧
    (sSaveNo.ready 0 7 44 cSave ∧ (sSaveNo.ctx (ctxField cSave)).state = CtxState.stopped ∧ (sSaveNo.ctx (ctxField cSave)).ckSize ≠ 0 ∧ (∀ e ∈
      (sSaveNo.ctx (ctxField cSave)).map, e.2.write = true → e.2.prot = false) ∧ (∀ p ∈ sSaveNo.queuesOf (ctxField cSave), (sSaveNo.queue p.1
      p.2).left = 0)) ∧
    (sSaveG.galOpen = true ∧ sSaveG.cmdIn 0 7 44 1 = some cSaveG ∧ bitAt (cSaveG.word 0) 8 = false ∧ sSaveG.cmdIn 0 7 27 1 = none ∧ sSaveG.cmdIn 0 7
      28 1 = none ∧ sSaveG.cmdIn 0 7 29 1 = none) ∧
    (sRestore.ready 0 7 44 cRestore ∧ ctxField cRestore < 24 ∧ bitAt (cRestore.word 0) 8 = true ∧ (sRestore.ctx (ctxField cRestore)).state =
      CtxState.created ∧ (sRestore.ctx (ctxField cRestore)).ckSize ≠ 0) := by
  refine ⟨?_, ?_, ?_, ?_⟩ <;> decide +kernel

theorem test_meets_StreamCommands :
    (sOpen.ready 0 7 46 cOpen ∧ (sOpen.stream (fld (cOpen.word 0) 0 6)).state = 0 ∧ fld (cOpen.word 0) 0 6 < sOpen.streams.length ∧ fld (cOpen.word 7)
      0 5 < sOpen.geodes.length ∧ fld (cOpen.word 7) 5 5 < (sOpen.geode (fld (cOpen.word 7) 0 5)).queues.length ∧ (fld (cOpen.word 0) 6 3 = 4 ∨ fld
      (cOpen.word 0) 6 3 = 5) ∧ OClass.ofCode (fld (cOpen.word 0) 9 2) = some OClass.elastic ∧ fld (cOpen.word 0) 11 5 < 24 ∧ ((sOpen.ctx (fld
      (cOpen.word 0) 11 5)).state = CtxState.created ∨ (sOpen.ctx (fld (cOpen.word 0) 11 5)).state = CtxState.stopped) ∧ fld (cOpen.word 6) 0 4 = 1 ∧
      cOpen.words.length = 8 ∧ 16 ≤ fld (cOpen.word 7) 5 5 ∧ fld (cOpen.word 7) 5 5 < 24 ∧ bitAt (sOpen.ctx (fld (cOpen.word 0) 11 5)).mask (fld
      (cOpen.word 7) 0 5) = true ∧ sOpen.retiredG (fld (cOpen.word 7) 0 5) = false ∧ (sOpen.queue (fld (cOpen.word 7) 0 5) (fld (cOpen.word 7) 5
      5)).quota ≠ 0 ∧ sOpen.ctxNames (fld (cOpen.word 0) 11 5) (fld (cOpen.word 7) 0 5) (fld (cOpen.word 7) 5 5) = true ∧ (sOpen.queue (fld
      (cOpen.word 7) 0 5) (fld (cOpen.word 7) 5 5)).bind = 0 ∧ (sOpen.queue (fld (cOpen.word 7) 0 5) (fld (cOpen.word 7) 5 5)).left = 0 ∧ (sOpen.geode
      (fld (cOpen.word 7) 0 5)).runNames (fld (cOpen.word 7) 5 5) = false ∧ (fld (cOpen.word 0) 6 3 = 5 → (sOpen.queue (fld (cOpen.word 7) 0 5) (fld
      (cOpen.word 7) 5 5)).fmt = 0 ∧ 1 ≤ fld (cOpen.word 2) 0 9 ∧ fld (cOpen.word 2) 0 9 ≤ 256 ∧ 1 ≤ fld (cOpen.word 2) 16 9 ∧ fld (cOpen.word 2) 16 9
      ≤ 256) ∧ (cOpen.word 3 + cOpen.word 4 * 2 ^ 32) % 4096 = 0 ∧ cOpen.word 5 % 4096 = 0 ∧ 4096 ≤ cOpen.word 5 ∧ cOpen.word 3 + cOpen.word 4 * 2 ^
      32 + cOpen.word 5 ≤ 2 ^ 64 ∧ 3 ≤ (cOpen.word 5 - 64) / entrySize (sOpen.queue (fld (cOpen.word 7) 0 5) (fld (cOpen.word 7) 5 5)).fmt ∧
      ((List.filter (fun y => y.state != 0 && y.kind == fld (cOpen.word 0) 6 3) sOpen.streams).length < kindLimit (fld (cOpen.word 0) 6 3)) ∧
      (sOpen.dev.dripSet = false ∨ workFits (sOpen.work 1 0) sOpen.shortL = true) ∧ 0 ≠ fld (cOpen.word 0) 0 6) ∧
    (sOpenO.ready 0 7 46 cOpenO ∧ (sOpenO.stream (fld (cOpenO.word 0) 0 6)).state = 0 ∧ fld (cOpenO.word 0) 0 6 < sOpenO.streams.length ∧ fld
      (cOpenO.word 7) 0 5 < sOpenO.geodes.length ∧ fld (cOpenO.word 7) 5 5 < (sOpenO.geode (fld (cOpenO.word 7) 0 5)).queues.length ∧ (fld
      (cOpenO.word 0) 6 3 = 4 ∨ fld (cOpenO.word 0) 6 3 = 5) ∧ OClass.ofCode (fld (cOpenO.word 0) 9 2) = some OClass.realtime ∧ fld (cOpenO.word 0) 11
      5 < 24 ∧ ((sOpenO.ctx (fld (cOpenO.word 0) 11 5)).state = CtxState.created ∨ (sOpenO.ctx (fld (cOpenO.word 0) 11 5)).state = CtxState.stopped) ∧
      fld (cOpenO.word 6) 0 4 = 1 ∧ cOpenO.words.length = 8 ∧ 16 ≤ fld (cOpenO.word 7) 5 5 ∧ fld (cOpenO.word 7) 5 5 < 24 ∧ bitAt (sOpenO.ctx (fld
      (cOpenO.word 0) 11 5)).mask (fld (cOpenO.word 7) 0 5) = true ∧ sOpenO.retiredG (fld (cOpenO.word 7) 0 5) = false ∧ (sOpenO.queue (fld
      (cOpenO.word 7) 0 5) (fld (cOpenO.word 7) 5 5)).quota ≠ 0 ∧ sOpenO.ctxNames (fld (cOpenO.word 0) 11 5) (fld (cOpenO.word 7) 0 5) (fld
      (cOpenO.word 7) 5 5) = true ∧ (sOpenO.queue (fld (cOpenO.word 7) 0 5) (fld (cOpenO.word 7) 5 5)).bind = 0 ∧ (sOpenO.queue (fld (cOpenO.word 7) 0
      5) (fld (cOpenO.word 7) 5 5)).left = 0 ∧ (sOpenO.geode (fld (cOpenO.word 7) 0 5)).runNames (fld (cOpenO.word 7) 5 5) = false ∧ (fld (cOpenO.word
      0) 6 3 = 5 → (sOpenO.queue (fld (cOpenO.word 7) 0 5) (fld (cOpenO.word 7) 5 5)).fmt = 0 ∧ 1 ≤ fld (cOpenO.word 2) 0 9 ∧ fld (cOpenO.word 2) 0 9
      ≤ 256 ∧ 1 ≤ fld (cOpenO.word 2) 16 9 ∧ fld (cOpenO.word 2) 16 9 ≤ 256) ∧ (cOpenO.word 3 + cOpenO.word 4 * 2 ^ 32) % 4096 = 0 ∧ cOpenO.word 5 %
      4096 = 0 ∧ 4096 ≤ cOpenO.word 5 ∧ cOpenO.word 3 + cOpenO.word 4 * 2 ^ 32 + cOpenO.word 5 ≤ 2 ^ 64 ∧ 3 ≤ (cOpenO.word 5 - 64) / entrySize
      (sOpenO.queue (fld (cOpenO.word 7) 0 5) (fld (cOpenO.word 7) 5 5)).fmt ∧ ((List.filter (fun y => y.state != 0 && y.kind == fld (cOpenO.word 0) 6
      3) sOpenO.streams).length < kindLimit (fld (cOpenO.word 0) 6 3)) ∧ (sOpenO.dev.dripSet = false ∨ workFits (sOpenO.work 1 0) sOpenO.shortL =
      true) ∧ 0 ≠ fld (cOpenO.word 0) 0 6) ∧
    ((sClose.stream (fld (cClose.word 0) 0 6)).state ≠ 0 ∧ sClose.ready 0 7 47 cClose ∧ sClose.streamRuns (fld (cClose.word 0) 0 6) = false) ∧
    ((sStat.stream (fld (cStat.word 0) 0 6)).state ≠ 0 ∧ sStat.ready 0 7 48 cStat) := by
  refine ⟨?_, ?_, ?_, ?_⟩ <;> decide +kernel

theorem test_meets_IngestAndRings :
    (on.dev.die = Die.serving ∧ on.winUp = true ∧ on.linkHolds = false ∧ (∀ x ∈ on.streams, x.state = 0 ∨ x.kind ≠ 0 ∨ x.camera ≠ 5)) ∧
    (cam5.dev.die = Die.serving ∧ cam5.winUp = true ∧ cam5.linkHolds = false ∧ (firstIdx (fun x => x.state != 0 && x.kind == 0 && x.camera == 5)
      cam5.streams = some 2) ∧ 2 < cam5.streams.length ∧ 1 ≤ 2 ∧ 2 ≤ 1024 ∧ 100 ≤ 65536 ∧ tileOk 8 420 0 = true ∧ (∀ k < 2, ([(8, some block1), (8,
      some block1)].getD k (0, none)).2.isSome = true) ∧ (cam5.stream 2).tilesIn = []) ∧
    (camFull.dev.die = Die.serving ∧ camFull.winUp = true ∧ camFull.linkHolds = false ∧ (firstIdx (fun x => x.state != 0 && x.kind == 0 && x.camera ==
      5) camFull.streams = some 2) ∧ 2 < camFull.streams.length ∧ tileRoom ≤ (camFull.stream 2).used ∧ 0 ≠ 2) ∧
    (tileOk 10 420 1 = true) ∧
    (sDeliver.stopRuns = true ∧ (sDeliver.stream 2).state = 1 ∧ (sDeliver.stream 2).kind = 0 ∧ (sDeliver.stream 2).queues = [(0, 0)] ∧
      (sDeliver.stream 2).copy = false ∧ (sDeliver.stream 2).marks = [] ∧ (sDeliver.stream 2).waiting = [] ∧ (sDeliver.stream 2).dropping = false ∧
      (sDeliver.stream 2).tilesIn = [tile1] ∧ tile1.blocks = [mica1] ∧ mica1.endAt ≤ tile1.got * tileUnit ∧ mica1.err = false ∧ mica1.rows = [row1] ∧
      mica1.dest = 0 ∧ 0 < sDeliver.geodes.length ∧ 0 < (sDeliver.geode 0).queues.length ∧ (sDeliver.ctx (sDeliver.stream 2).ctx).state =
      CtxState.running ∧ (sDeliver.geode 0).retired = false ∧ (sDeliver.queue 0 0).blocks < 32) ∧
    (3 < sRing.streams.length ∧ isOut (sRing.stream 3).kind = true ∧ (sRing.stream 3).state = 1 ∧ sRing.failSilent = false ∧ sRing.winUp = true ∧
      (sRing.stream 3).kind = 4 ∧ sRing.moves (sRing.stream 3) = true ∧ (sRing.stream 3).held = none ∧ (sRing.stream 3).dropping = false ∧ 2 ≤
      (sRing.stream 3).room ∧ sRing.headOut 3 = some block2 ∧ block2.marker = false) ∧
    (3 < sIdx.streams.length ∧ isOut (sIdx.stream 3).kind = true ∧ (sIdx.stream 3).state = 1 ∧ sIdx.failSilent = false ∧ sIdx.winUp = true ∧
      (sIdx.stream 3).idxDue = true) ∧
    (3 < sRead1.streams.length ∧ isOut (sRead1.stream 3).kind = true ∧ (sRead1.stream 3).state = 1 ∧ sRead1.failSilent = false ∧ sRead1.winUp = true ∧
      (sRead1.stream 3).room < 2 ∧ (∀ (t : ℕ), (sRead1.stream 3).lastRead = some t → t + readGap ≤ sRead1.mtime) ∧ 5 < (sRead1.stream 3).wrap ∧
      ((sRead1.stream 3).wIdx + (sRead1.stream 3).wrap - 5) % (sRead1.stream 3).wrap ≤ (sRead1.stream 3).cap) := by
  refine ⟨?_, ?_, ?_, ?_, ?_, ?_, ?_, ?_⟩ <;> decide +kernel

theorem test_meets_MetrologyParameters :
    (sMetRead.metReady 0 7 56 cMetRead ∧ fld (cMetRead.metBody.getD 0 0) 0 2 = 0 ∧ sMetRead.fl.records.getLast? = some (1, List.replicate 128 3)) ∧
    (sMetNoKey.cmdIn 0 7 56 0 = some cMetRead ∧ sMetNoKey.mpRuns = true ∧ sMetNoKey.mayStart 0 cMetRead = true ∧ sMetNoKey.grant 0 cMetRead = none ∧
      sMetNoKey.fl.runs = true ∧ sMetNoKey.fl.metOk cMetRead = false) ∧
    (sLog.metReady 0 7 59 cLog ∧ cLog.metBody = [1, 2] ∧ 1 ≤ 1 ∧ sLog.fl.auditNext ≤ 1 + 4096 ∧ 1 ≤ 2 ∧ 2 ≤ 6) ∧
    (sAck.metReady 0 7 60 cAck ∧ cAck.metBody = [2] ∧ 2 ∈ sAck.fl.readSeqs ∧ sAck.fl.invasive = false) ∧
    (sParam.metReady 0 7 57 cParam ∧ cParam.metBody = [65539, 100] ∧ paramId cParam = fld 65539 0 16 ∧ paramWords (fld 65539 0 16) = some [100].length
      ∧ fld 65539 16 4 = [100].length ∧ paramAlone (fld 65539 0 16) [100] = true ∧ sParam.fl.p.conf = true ∧ (sParam.fl.p.put (fld 65539 0 16)
      [100]).legal = true ∧ (sParam.fl.p.put (fld 65539 0 16) [100]).conf = true ∧ sParam.fl.calEn = true ∧ sParam.fl.invasive = false ∧
      sParam.fl.full = false) ∧
    (sParamTr.metReady 0 7 57 cParamTr ∧ cParamTr.metBody = [262154, 536870912, 1610612736, 1073741824, 1073741824] ∧ paramId cParamTr = fld 262154 0
      16 ∧ paramWords (fld 262154 0 16) = some [536870912, 1610612736, 1073741824, 1073741824].length ∧ fld 262154 16 4 = [536870912, 1610612736,
      1073741824, 1073741824].length ∧ paramAlone (fld 262154 0 16) [536870912, 1610612736, 1073741824, 1073741824] = true ∧ sParamTr.fl.p.conf = true
      ∧ (sParamTr.fl.p.put (fld 262154 0 16) [536870912, 1610612736, 1073741824, 1073741824]).legal = true ∧ (sParamTr.fl.p.put (fld 262154 0 16)
      [536870912, 1610612736, 1073741824, 1073741824]).conf = true ∧ sParamTr.fl.calEn = true ∧ sParamTr.fl.invasive = false ∧ sParamTr.fl.full =
      false) ∧
    (sParamNo.metReady 0 7 57 cParam ∧ sParamNo.fl.p.conf = true ∧ (sParamNo.fl.p.put (fld 65539 0 16) [100]).legal = true ∧ (sParamNo.fl.p.put (fld
      65539 0 16) [100]).conf = true ∧ sParamNo.fl.calEn = false) := by
  refine ⟨⟨met_ready rfl (by decide +kernel) rfl (by decide +kernel), by decide +kernel⟩, ⟨rfl, by decide +kernel⟩, ⟨met_ready rfl (by decide +kernel) rfl (by decide +kernel), by decide +kernel⟩, ⟨met_ready rfl (by decide +kernel) rfl (by decide +kernel), by decide +kernel⟩, ⟨met_ready rfl (by decide +kernel) rfl (by decide +kernel), by decide +kernel⟩, ⟨met_ready rfl (by decide +kernel) rfl (by decide +kernel), by decide +kernel⟩, ⟨met_ready rfl (by decide +kernel) rfl (by decide +kernel), by decide +kernel⟩⟩

theorem test_meets_WeighingAndCalibration :
    (sTare0.metReady 0 7 57 cTare0 ∧ paramId cTare0 = 256 ∧ fld 131328 16 4 = 2 ∧ sTare0.fl.calibrated = true ∧ sTare0.fl.p.tareLimit ≠ 0 ∧
      cTare0.metBody = [131328, 0, 9]) ∧
    (sTare1.metReady 0 7 57 cTare1 ∧ paramId cTare1 = 256 ∧ sTare1.fl.calibrated = true ∧ sTare1.fl.p.tareLimit ≠ 0 ∧ cTare1.metBody = [131328, 1, 9]
      ∧ sTare1.fl.steady = true ∧ 0 < sTare1.fl.G ∧ sTare1.fl.G ≤ ↑sTare1.fl.p.tareLimit) ∧
    (sTare2.metReady 0 7 57 cTare2 ∧ paramId cTare2 = 256 ∧ sTare2.fl.calibrated = true ∧ sTare2.fl.p.tareLimit ≠ 0 ∧ cTare2.metBody = [131328, 2,
      500] ∧ 500 ≠ 0 ∧ 500 % sTare2.fl.p.d = 0 ∧ 500 ≤ sTare2.fl.p.tareLimit) ∧
    (sZero.metReady 0 7 57 cZero ∧ paramId cZero = 257 ∧ cZero.metBody = [65793, 1] ∧ fld 65793 16 4 = 1 ∧ sZero.fl.calibrated = true ∧
      sZero.fl.steady = true ∧ |sZero.fl.u * 2 ^ 32 - sZero.fl.z0| * 1000 ≤ ((sZero.fl.p.max * sZero.fl.p.zeroSet * 2 ^ 32 : Nat) : Int)) ∧
    (sKey.metReady 0 7 57 cKey ∧ paramId cKey = 258 ∧ cKey.metBody = [65794, (sKey.fl.kmGen + 1) % 2 ^ 32] ∧ fld 65794 16 4 = 1 ∧ sKey.fl.invasive =
      false) ∧
    (sCal0.metReady 0 7 58 cCal0 ∧ cCal0.metBody ≠ [] ∧ fld (cCal0.metBody.getD 0 0) 2 3 ≤ 4 ∧ sCal0.fl.calEn = true ∧ calStep cCal0 = 0 ∧
      sCal0.fl.p.conf = true ∧ sCal0.fl.cal = none) ∧
    (sCalNo.metReady 0 7 58 cCal0 ∧ sCalNo.fl.calEn = false) ∧
    (sCal1.metReady 0 7 58 cCal1 ∧ cCal1.metBody ≠ [] ∧ fld (cCal1.metBody.getD 0 0) 2 3 ≤ 4 ∧ sCal1.fl.calEn = true ∧ calStep cCal1 = 1 ∧
      sCal1.fl.cal = some points ∧ sCal1.fl.steady = true ∧ -2000000000 ≤ signed 32 (cCal1.metBody.getD 1 0) ∧ signed 32 (cCal1.metBody.getD 1 0) ≤
      2000000000) ∧
    (sCal2.metReady 0 7 58 cCal2 ∧ cCal2.metBody ≠ [] ∧ fld (cCal2.metBody.getD 0 0) 2 3 ≤ 4 ∧ sCal2.fl.calEn = true ∧ calStep cCal2 = 2 ∧
      sCal2.fl.cal = some points ∧ 2 ≤ points.length ∧ sCal2.fl.invasive = false ∧ sCal2.fl.full = false ∧ (rising (List.foldl (fun l x => insPoint
      x.2 l) [] points) = true)) ∧
    (sCal3.metReady 0 7 58 cCal3 ∧ cCal3.metBody ≠ [] ∧ fld (cCal3.metBody.getD 0 0) 2 3 ≤ 4 ∧ sCal3.fl.calEn = true ∧ calStep cCal3 = 3 ∧
      sCal3.fl.cal = some points) := by
  refine ⟨⟨met_ready rfl (by decide +kernel) rfl (by decide +kernel), by decide +kernel⟩, ⟨met_ready rfl (by decide +kernel) rfl (by decide +kernel), by decide +kernel⟩, ⟨met_ready rfl (by decide +kernel) rfl (by decide +kernel), by decide +kernel⟩, ⟨met_ready rfl (by decide +kernel) rfl (by decide +kernel), by decide +kernel⟩, ⟨met_ready rfl (by decide +kernel) rfl (by decide +kernel), by decide +kernel⟩, ⟨met_ready rfl (by decide +kernel) rfl (by decide +kernel), by decide +kernel⟩, ⟨met_ready rfl (by decide +kernel) rfl (by decide +kernel), by decide +kernel⟩, ⟨met_ready rfl (by decide +kernel) rfl (by decide +kernel), by decide +kernel⟩, ⟨met_ready rfl (by decide +kernel) rfl (by decide +kernel), by decide +kernel⟩, ⟨met_ready rfl (by decide +kernel) rfl (by decide +kernel), by decide +kernel⟩⟩

theorem test_meets_LanternLoading :
    (modelOk (padTo (cModel.word 2) modelB) (cModel.word 2) = true ∧ sModel.ready 0 7 61 cModel ∧ hostField (cModel.word 0 + cModel.word 1 * 2 ^ 32)
      (cModel.word 2) 64 73728 = true) ∧
    (sRules.ready 0 7 62 cRules ∧ 1 ≤ fld (cRules.word 0) 5 4 ∧ fld (cRules.word 0) 0 5 + fld (cRules.word 0) 5 4 ≤ 32 ∧ cRules.words.length = 1 + 4 *
      fld (cRules.word 0) 5 4 ∧ (∀ i < fld (cRules.word 0) 5 4, ruleOk (cRules.word (1 + 4 * i)) (cRules.word (2 + 4 * i)) (cRules.word (3 + 4 * i))
      (cRules.word (4 + 4 * i)) = true)) ∧
    (onKc.kcReady 242 bodyChunk 5 (kcTag 242 bodyChunk) ∧ (chunkOf bodyChunk).1 + (chunkOf bodyChunk).2.length ≤ 73728 ∧ BitVec.toNat (bodyChunk.getD
      1 0) ≤ 73728 ∧ crc32c ((onKc.fl.lan.bufs.getD (1 - onKc.fl.lan.active) []).readN 0 (BitVec.toNat (bodyChunk.getD 1 0))) ≠ bodyChunk.getD 2 0 ∧
      onKc.fl.frames.length < 16) ∧
    (onKc.kcReady 242 bodyOk 5 (kcTag 242 bodyOk) ∧ (chunkOf bodyOk).1 + (chunkOf bodyOk).2.length ≤ 73728 ∧ BitVec.toNat (bodyOk.getD 1 0) ≤ 73728 ∧
      crc32c ((onKc.fl.lan.bufs.getD (1 - onKc.fl.lan.active) []).readN 0 (BitVec.toNat (bodyOk.getD 1 0))) = bodyOk.getD 2 0) ∧
    (onKc.kcReady 242 bodyBad 5 (kcTag 242 bodyBad) ∧ (chunkOf bodyBad).1 + (chunkOf bodyBad).2.length ≤ 73728 ∧ BitVec.toNat (bodyBad.getD 1 0) ≤
      73728 ∧ crc32c ((onKc.fl.lan.bufs.getD (1 - onKc.fl.lan.active) []).readN 0 (BitVec.toNat (bodyBad.getD 1 0))) ≠ bodyBad.getD 2 0) ∧
    (onKc.kcReady 242 bodyRule 5 (kcTag 242 bodyRule) ∧ (chunkOf bodyRule).1 + (chunkOf bodyRule).2.length ≤ 73728 ∧ BitVec.toNat (bodyRule.getD 1 0)
      ≤ 73728 ∧ crc32c ((onKc.fl.lan.bufs.getD (1 - onKc.fl.lan.active) []).readN 0 (BitVec.toNat (bodyRule.getD 1 0))) ≠ bodyRule.getD 2 0 ∧ fld
      (BitVec.toNat (bodyRule.getD 0 0)) 13 4 = 1) ∧
    (onLan.kcReady 242 bodyRule 5 (kcTag 242 bodyRule) ∧ crc32c ((onLan.fl.lan.bufs.getD (1 - onLan.fl.lan.active) []).readN 0 (BitVec.toNat
      (bodyRule.getD 1 0))) ≠ bodyRule.getD 2 0 ∧ onLan.fl.frames.length < 16 ∧ onLan.fl.lan.pending = true) ∧
    (onLan2.kcReady 242 bodyBoard1 5 (kcTag 242 bodyBoard1) ∧ bufBoard = onLan2.fl.boardBuf.writeN (chunkOf bodyBoard1).1 (chunkOf bodyBoard1).2 ∧
      (chunkOf bodyBoard1).1 + (chunkOf bodyBoard1).2.length ≤ 16384 ∧ (chunkOf bodyBoard1).1 + (chunkOf bodyBoard1).2.length < byteFld
      (bufBoard.readN 0 12) 8 4) := by
  refine ⟨⟨by simp only [modelOk, crc32c_eq]; decide +kernel, by decide +kernel⟩, by decide +kernel, ⟨kc_ready (by decide +kernel) rfl, by decide +kernel⟩, ⟨kc_ready (by decide +kernel) rfl, by decide +kernel⟩, ⟨kc_ready (by decide +kernel) rfl, by decide +kernel⟩, ⟨kc_ready (by decide +kernel) rfl, by decide +kernel⟩, ⟨kc_ready (by decide +kernel) rfl, by decide +kernel⟩, ⟨kc_ready (by decide +kernel) rfl, by decide +kernel⟩⟩

theorem test_meets_PowerCommands :
    (sPwr.ready 0 7 72 cPwr ∧ fld (cPwr.word 0) 0 3 ≤ 3 ∧ (fld (cPwr.word 0) 0 3 = 3 → 1000 ≤ fld (cPwr.word 1) 0 20 ∧ fld (cPwr.word 1) 0 20 ≤
      1000000) ∧ sPwr.follows = false ∧ sPwr.pw.target = none ∧ fld (cPwr.word 0) 0 3 ≠ sPwr.pw.state ∧ sPwr.pw.abort = false) ∧
    (sPwrHeld.ready 0 7 72 cPwr ∧ sPwrHeld.follows = false ∧ sPwrHeld.pw.target = some 1 ∧ sPwrHeld.pw.pend = none ∧ 1 < fld (cPwr.word 0) 0 3) ∧
    (sPwrBusy.ready 0 7 72 cPwr ∧ sPwrBusy.follows = false ∧ sPwrBusy.pw.target = some 1 ∧ sPwrBusy.pw.pend = some 2 ∧ sPwrBusy.pw.abort = false) ∧
    (sPwrSt.ready 0 7 73 cPwrSt) ∧
    (sPads.ready 0 7 74 cPads ∧ fld (cPads.word 0) 0 8 < 8) ∧
    (sDvfs.ready 0 7 75 cDvfs ∧ sDvfs.dev.board = some board9 ∧ fld (cDvfs.word 0) 0 2 < 3 ∧ pointMv (fld (cDvfs.word 0) 0 2) (fld (cDvfs.word 0) 2 2)
      ≤ board9.limits.getD (fld (cDvfs.word 0) 0 2) 0 ∧ (sDvfs.follows = false ∨ fld (cDvfs.word 0) 0 2 ≠ 0) ∧ sDvfs.pw.dvfs.length < 2) ∧
    (sDvfs2.ready 0 7 75 cDvfs ∧ sDvfs2.dev.board = some board9 ∧ (sDvfs2.follows = false ∨ fld (cDvfs.word 0) 0 2 ≠ 0) ∧ 2 ≤ sDvfs2.pw.dvfs.length ∧
      sDvfs2.dev.die = Die.serving ∧ sDvfs2.pw.state = 0 ∧ sDvfs2.pw.agreed.contains 9 = false ∧ sDvfs2.pw.dvfs = [(0, 1, false), (2, 1, false)] ∧ (∀
      x ∈ [(2, 1, false)], x.2.2 = false)) ∧
    (sDvfsT.pw.dvfs = [(0, 1, true), (2, 1, false)]) := by
  refine ⟨?_, ?_, ?_, ?_, ?_, ?_, ?_, ?_⟩ <;> decide +kernel

theorem test_meets_TwinAttachment :
    (sAttach.ready 0 7 80 cAttach ∧ sAttach.tw.attached = false ∧ sAttach.lifecycle ≠ 0 ∧ twin2.role ≠ sAttach.role ∧ (twin2.role = 1 ∨ twin2.role =
      2) ∧ ((Option.map (fun b => b.twinId) sAttach.dev.board).getD 0 = 0 ∨ (Option.map (fun b => b.twinId) sAttach.dev.board).getD 0 = twin2.id) ∧
      twin2.sigOk = true ∧ sAttach.twinLink = true) ∧
    (sDetach.ready 0 7 81 cDetach ∧ sDetach.tw.attached = true) ∧
    (sDetach0.ready 0 7 81 cDetach ∧ sDetach0.tw.attached = false) := by
  refine ⟨?_, ?_, ?_⟩ <;> decide +kernel

theorem test_meets_TwinModesAndJournal :
    (sMode.ready 0 7 82 cMode ∧ fld (cMode.word 0) 0 2 ≠ 0 ∧ sMode.tw.attached = true ∧ sMode.tw.leader = true ∧ sMode.ctxRunning = false ∧ (fld
      (cMode.word 0) 0 2 = 1 → sMode.tw.fw = sMode.dev.fwVer) ∧ sMode.running = false) ∧
    (sModeRun.ready 0 7 82 cMode ∧ sModeRun.tw.attached = true ∧ sModeRun.tw.leader = true ∧ sModeRun.ctxRunning = false ∧ (fld (cMode.word 0) 0 2 = 1
      → sModeRun.tw.fw = sModeRun.dev.fwVer) ∧ sModeRun.running = true) ∧
    (sSync.ready 0 7 83 cSync ∧ (fld (cSync.word 0) 0 2 = 1 ∨ fld (cSync.word 0) 0 2 = 3) ∧ sSync.tw.attached = true ∧ sSync.tw.leader = true) ∧
    (sSync0.mpRuns = true ∧ sSync0.tw.attached = true ∧ sSync0.galOpen = true ∧ sSync0.tw.leader = true ∧ sSync0.tw.sync = some sync0 ∧ sync0.phase =
      0 ∧ sync0.pockets = false) ∧
    (sSync2.mpRuns = true ∧ sSync2.tw.attached = true ∧ sSync2.tw.leader = true ∧ sSync2.tw.sync = some sync2 ∧ sync2.phase = 2 ∧ (∀ d ∈
      sSync2.geodes, d.firing = none)) ∧
    (onPair.mpRuns = true ∧ onPair.tw.mode = TwinMode.paired ∧ onPair.twinLink = true ∧ onPair.tw.leader = true) ∧
    (sFollow.mpRuns = true ∧ sFollow.tw.mode = TwinMode.paired ∧ sFollow.twinLink = true ∧ sFollow.tw.leader = false ∧ sFollow.tw.journalIn = [] ∧ 5 =
      sFollow.tw.applied + 1 ∧ sFollow.tw.gone = [] ∧ sFollow.waitsEntry 0 = some cFollow ∧ sFollow.mayStart 0 cFollow = true ∧ (42 ≠ cFollow.op ∨
      crcFollow ≠ crc32c (wordsBytes cFollow.words)) ∧ cFollow.tag = 7 ∧ (∀ e ∈ sFollow.tw.journalIn, e.mbox ≠ 0)) ∧
    (43 = cFollow.op ∧ crcFollow = crc32c (wordsBytes cFollow.words) ∧ 4 ≠ sOk) ∧
    (0 = sOk) := by
  refine ⟨?_, ?_, ?_, ?_, ?_, ?_, ?_, ?_, ?_⟩ <;> decide +kernel

theorem test_meets_FaultCommands :
    (sFRead.ready 0 7 84 cFRead ∧ fld (cFRead.word 0) 0 2 = 1 ∧ sFRead.fcuRecs = [] ∧ sFRead.mpRecs = [rec1, rec1] ∧ rec1.code ≠ 1) ∧
    (sFReadF.ready 0 7 84 cFRead ∧ sFReadF.fcuRecs = [rec2] ∧ rec2.code ≠ 1) ∧
    (sClear.ready 0 7 85 cClear ∧ (∀ b ∈ [1, 2, 3, 4], bitAt (cClear.word 0) b = true → sClear.causeHolds b = false)) ∧
    (sClearNo.ready 0 7 85 cClear ∧ 2 ∈ [1, 2, 3, 4] ∧ bitAt (cClear.word 0) 2 = true ∧ sClearNo.causeHolds 2 = true) ∧
    (sInject.ready 0 7 86 cInject ∧ injectable (fld (cInject.word 0) 0 16) = true ∧ targetOk (fld (cInject.word 0) 0 16) (fld (cInject.word 1) 0 8) =
      true ∧ (geodeCode (fld (cInject.word 0) 0 16) = true → sInject.retiredG (fld (cInject.word 1) 0 8) = false)) ∧
    (sInjected.dev.injected = [(1281, 7, 0)] ∧ sInjected.dev.die = Die.serving ∧ sInjected.pw.state = 0 ∧ sInjected.fcu.mpHalt = false) := by
  refine ⟨?_, ?_, ?_, ?_, ?_, ?_⟩ <;> decide +kernel

theorem test_meets_AlertsAndWatches :
    (on.alertsOn = true ∧ fld 42420 8 8 = 165 ∧ fld 42420 4 4 = 15 - fld 42420 0 4) ∧
    ((fld 42421 8 8 ≠ 165 ∨ fld 42421 4 4 ≠ 15 - fld 42421 0 4)) ∧
    ((fld 0 8 8 ≠ 165 ∨ fld 0 4 4 ≠ 15 - fld 0 0 4) ∧ (sAlert 2).fcu.runLen = 8 ∧ (sAlert 2).fcu.runCause ≠ (sAlert 2).fcu.rx ∧ (sAlert
      2).fcu.runCause = 2 ∧ (sAlert 2).dev.die ≠ Die.inReset) ∧
    ((sAlert 4).fcu.runLen = 8 ∧ (sAlert 4).fcu.runCause ≠ (sAlert 4).fcu.rx ∧ (sAlert 4).fcu.runCause = 4) ∧
    (sAbsent.fcu.rx ≠ 0 ∧ sAbsent.dev.die = Die.serving ∧ sAbsent.tw.announced = false ∧ sAbsent.mpRecs.length < 128) ∧
    (sSurvive.fcu.rx ≠ 0 ∧ sSurvive.dev.die = Die.serving ∧ sSurvive.tw.announced = false ∧ sSurvive.mpRecs.length < 128 ∧ sSurvive.mpRuns = true ∧
      sSurvive.mayHold = true ∧ sSurvive.fcu.holdTx = false ∧ sSurvive.running = true ∧ sSurvive.mpRecs.length < 127) ∧
    (sHeldEnd.fcu.held = true ∧ sHeldEnd.fcu.rx ≠ 4) ∧
    (on.mpRuns = true ∧ (on.dev.die = Die.starting ∨ on.dev.die = Die.serving) ∧ on.pw.state = 0 ∧ on.fcu.mpHalt = false ∧ on.fcuRecs.length < 8 ∧
      on.sec.dbgHalt = false ∧ on.fcu.quiet.getD 5 0 = 0 ∧ on.receives = true ∧ on.unwatched 0 = false ∧ on.fcu.failed = 0 ∧ 2240 ≤ 2560 ∧ 2560 ≤
      2880) ∧
    ((2239 < 2240 ∨ 2880 < 2239)) ∧
    (2240 ≤ 2240 ∧ 2240 ≤ 2880) ∧
    (2880 ≤ 2880) ∧
    ((2881 < 2240 ∨ 2880 < 2881)) ∧
    ((sSurvive.dev.die = Die.starting ∨ sSurvive.dev.die = Die.serving) ∧ sSurvive.pw.state = 0 ∧ sSurvive.fcu.mpHalt = false ∧
      sSurvive.fcuRecs.length < 8 ∧ sSurvive.sec.dbgHalt = false ∧ sSurvive.fcu.quiet.getD 5 0 = 0 ∧ sSurvive.receives = true ∧ sSurvive.unwatched 0 =
      false ∧ sSurvive.fcu.failed = 0 ∧ true ≠ sSurvive.fcu.holdTx ∧ (true = true → sSurvive.mayHold = true)) ∧
    ((sDbg.dev.die = Die.starting ∨ sDbg.dev.die = Die.serving) ∧ sDbg.pw.state = 0 ∧ sDbg.fcu.mpHalt = false ∧ sDbg.fcuRecs.length < 8 ∧
      sDbg.sec.dbgHalt = true ∧ sDbg.receives = true ∧ sDbg.unwatched 0 = false ∧ sDbg.fcu.failed = 0) := by
  refine ⟨?_, ?_, ?_, ?_, ?_, ?_, ?_, ?_, ?_, ?_, ?_, ?_, ?_, ?_⟩ <;> decide +kernel

theorem test_meets_SecurityCommands :
    (sLife.ready 0 7 88 cLife ∧ hostRange (cLife.word 1 + cLife.word 2 * 2 ^ 32) (cLife.word 3) 128 4096 = true ∧ (lifePayload sLife.lifecycle (fld
      (cLife.word 0) 0 3)).isSome = true ∧ sLife.sec.cdLevel = 0 ∧ sLife.sec.flLevel = 0) ∧
    (sChal.ready 0 7 89 cChal ∧ fld (cChal.word 0) 0 2 = 1 ∧ fld (cChal.word 0) 2 1 = 1) ∧
    (sChal2.ready 0 7 89 cChal2 ∧ fld (cChal2.word 0) 0 2 = 2 ∧ fld (cChal2.word 0) 2 1 = 1 ∧ sChal2.lifecycle = 3) ∧
    (sUnlock.ready 0 7 90 cUnlock ∧ (∀ (x : ℕ × ℕ), sUnlock.sec.chal = some x → x = (fld (cUnlock.word 0) 0 2, fld (cUnlock.word 0) 2 1)) ∧ (fld
      (cUnlock.word 0) 2 1 = 0 → fld (cUnlock.word 0) 0 2 = 2 → sUnlock.tw.mode ≠ TwinMode.paired ∧ sUnlock.tw.modeNext ≠ some TwinMode.paired)) ∧
    (sFw.ready 0 7 91 cFw ∧ hostRange (cFw.word 1 + cFw.word 2 * 2 ^ 32) (cFw.word 3) 1024 229376 = true ∧ fwTarget cFw = 0 ∧ sFw.dev.phase = 0 ∧
      imageForm (padTo (cFw.word 3) mpImage) 0 (cFw.word 3) = true ∧ imageKeyOk (padTo (cFw.word 3) mpImage) sFw.lifecycle = true ∧ imageBodyOk (padTo
      (cFw.word 3) mpImage) (cFw.word 3) = true ∧ sFw.dev.floor ≤ byteFld (padTo (cFw.word 3) mpImage) 8 4 ∧ byteFld (padTo (cFw.word 3) mpImage) 12 4
      ≤ sFw.dev.floor) ∧
    (sFwF.ready 0 7 91 cFwF ∧ hostRange (cFwF.word 1 + cFwF.word 2 * 2 ^ 32) (cFwF.word 3) 1024 524288 = true ∧ fwTarget cFwF = 1 ∧ sFwF.sec.flLevel ≠
      2 ∧ byteFld (padTo (cFwF.word 3) mpImage) 16 4 = cFwF.word 3) ∧
    (sChals.fl.runs = true ∧ sChals.fl.sessions = [] ∧ sChals.fl.chal = some ch1 ∧ max sChals.fl.rtc 1966180 ≤ ch1.ticks + 60 * 32768 ∧ ch1.level =
      fld (BitVec.toNat (5 : W32)) 0 2 ∧ ch1.die = fld (BitVec.toNat (5 : W32)) 2 1 ∧ ch1.die = 1 ∧ sChals.fl.invasive = false ∧ sChals.fl.unacked + 2
      ≤ 4096) ∧
    (sKcEnd.fl.runs = true ∧ sKcEnd.kcReady 246 [4, 5] 5 (kcTag 246 [4, 5])) ∧
    (sLateDbg.fl.runs = true) := by
  refine ⟨?_, ?_, ?_, ?_, ?_, ?_, ?_, ?_, ?_⟩ <;> decide +kernel

theorem test_meets_FlintSecurityMessages :
    (sAdv.fl.runs = true ∧ (debugChunk bodyAdv).1 + (debugChunk bodyAdv).2.length ≤ 4096 ∧ advance 2 192 true true (sAdv.takeFlint 246 [6, w32 2, w32
      192]) = Except.ok (sAdvT, [2]) ∧ 2 < 8 ∧ 192 < 2 ^ 32) ∧
    (sFloor.fl.runs = true ∧ imageForm (wordsBytes (List.take 32 (List.drop 1 bodyFloor))) 0 (byteFld (wordsBytes (List.take 32 (List.drop 1
      bodyFloor))) 16 4) = true ∧ imageKeyOk (wordsBytes (List.take 32 (List.drop 1 bodyFloor))) sFloor.fl.lifecycle = true ∧ sFloor.fl.invasive =
      false) ∧
    (sNoSecret.kcReady 246 bodySign 5 (kcTag 246 bodySign) ∧ sNoSecret.fl.runs = true ∧ sNoSecret.fl.secret = false) ∧
    (sKeyed.kcReady 246 bodySign 5 (kcTag 246 bodySign) ∧ sKeyed.fl.runs = true ∧ sKeyed.fl.secret = true) ∧
    (sImg.kcReady 245 bodyPart 5 (kcTag 245 bodyPart) ∧ sImg.fl.runs = true ∧ imgPart = sImg.fl.image.writeN (chunkOf bodyPart).1 (chunkOf bodyPart).2
      ∧ (chunkOf bodyPart).1 + (chunkOf bodyPart).2.length ≤ 524288 ∧ (chunkOf bodyPart).1 + (chunkOf bodyPart).2.length < byteFld (imgPart.readN 16
      4) 0 4) := by
  refine ⟨by decide +kernel, by decide +kernel, ⟨kc_ready (by decide +kernel) rfl, by decide +kernel⟩, ⟨kc_ready (by decide +kernel) rfl, by decide +kernel⟩, ⟨kc_ready (by decide +kernel) rfl, by decide +kernel⟩⟩

theorem test_meets_FlintTiming :
    (onKc.fl.kcOk 241 (timingBody 9 2000000 4 stamp5) 5 (kcTag 241 (timingBody 9 2000000 4 stamp5)) = true ∧ 9 < 2 ^ 64 ∧ 2000000 < 2 ^ 32 ∧ 4 < 2 ^
      32 ∧ stamp5 < 2 ^ 128 ∧ onKc.fl.runs = true ∧ onKc.fl.entering ≠ some 3) ∧
    (onTimed.fl.runs = true ∧ onTimed.fl.kcOk 241 (timingBody 9 2000000 4 stamp5) 4 [] = false) ∧
    (onTimed.fl.kcOk 241 (timingBody 9 2000000 4 stamp5) 5 (kcTag 241 (timingBody 9 2000000 4 stamp5)) = true ∧ onTimed.fl.entering ≠ some 3) ∧
    (sTimed0.fl.kcOk 241 (timingBody 10 2000000 4 stamp5) 5 (kcTag 241 (timingBody 10 2000000 4 stamp5)) = true ∧ 10 < 2 ^ 64 ∧ sTimed0.fl.runs = true
      ∧ sTimed0.fl.entering ≠ some 3 ∧ sTimed0.fl.timed = true ∧ sTimed0.fl.next = 0) := by
  refine ⟨⟨(kc_ready (by decide +kernel) rfl).2, by decide +kernel⟩, by decide +kernel, ⟨(kc_ready (by decide +kernel) rfl).2, by decide +kernel⟩, ⟨(kc_ready (by decide +kernel) rfl).2, by decide +kernel⟩⟩

theorem test_meets_FlintDropAndRecords :
    (onTimed.fl.weighs = true ∧ onTimed.fl.timed = true ∧ onTimed.fl.hiber = false ∧ onTimed.fl.next + 1 < onTimed.fl.drops ∧ onTimed.pw.target = none
      ∧ onTimed.fl.use.conf = true) ∧
    (sTimed3.fl.weighs = true ∧ sTimed3.fl.timed = true ∧ sTimed3.fl.hiber = false ∧ sTimed3.fl.drops ≤ sTimed3.fl.next + 1 ∧ sTimed3.pw.target = none
      ∧ sTimed3.fl.use.conf = true) ∧
    (sReady0.fl.ready = [ready0] ∧ ready0.compared = false) ∧
    (sReady1.fl.ready = [ready1] ∧ ready1.compared = true ∧ (((List.find? (fun x => x.pos == ready1.at') sReady1.fl.recent).bind fun x => x.cmp) =
      none) ∧ sReady1.fl.pos < ready1.at' + 3) ∧
    (sSign.fl.signing = [ready0] ∧ sSign.fl.invasive = false ∧ sSign.fl.records.length < 4096) ∧
    (sSignI.fl.signing = [ready0] ∧ sSignI.fl.invasive = true) := by
  refine ⟨?_, ?_, ?_, ?_, ?_, ?_⟩ <;> decide +kernel

theorem test_meets_FlintKeysAndPair :
    (sHello.fl.runs = true ∧ sHello.fl.hello = false ∧ sHello.toFlint.contains (240, []) = true) ∧
    (sPairFl.kcReady 244 bodyCmp 5 (kcTag 244 bodyCmp) ∧ sPairFl.fl.secret = true ∧ sPairFl.fl.active = true ∧ sPairFl.fl.use.cal = true ∧ List.drop 5
      bodyCmp = macWords sPairFl.fl.kpKey (List.take 5 bodyCmp) ∧ sPairFl.fl.kpRx < BitVec.toNat (bodyCmp.getD 4 0) ∧ sPairFl.fl.dropsBack
      (BitVec.toNat (bodyCmp.getD 0 0)) (BitVec.toNat (bodyCmp.getD 1 0)) ≤ 2) ∧
    (sPairFl.kcReady 244 bodyCmpBad 5 (kcTag 244 bodyCmpBad) ∧ List.drop 5 bodyCmpBad ≠ macWords sPairFl.fl.kpKey (List.take 5 bodyCmpBad)) ∧
    (sPairFl.kcReady 247 bodyMode 5 (kcTag 247 bodyMode)) ∧
    (sPairFl.kcReady 244 bodyCert 5 (kcTag 244 bodyCert) ∧ List.drop 5 bodyCert ≠ macWords sPairFl.fl.kpKey (List.take 5 bodyCert)) ∧
    (onPair.mpRuns = true ∧ onPair.tw.attached = true ∧ onPair.twinLink = true) := by
  refine ⟨by decide +kernel, ⟨kc_ready (by decide +kernel) rfl, by decide +kernel⟩, ⟨kc_ready (by decide +kernel) rfl, by decide +kernel⟩, kc_ready (by decide +kernel) rfl, ⟨kc_ready (by decide +kernel) rfl, by decide +kernel⟩, by decide +kernel⟩

theorem test_meets_FlintPowerAndResets :
    (onKc.kcReady 243 bodyEnter 5 (kcTag 243 bodyEnter) ∧ fld (BitVec.toNat (bodyEnter.getD 0 0)) 8 2 = 1 ∧ onKc.fl.hiber = false) ∧
    (onKc.kcReady 243 bodyEnter3 5 (kcTag 243 bodyEnter3) ∧ fld (BitVec.toNat (bodyEnter3.getD 0 0)) 8 2 = 3 ∧ bodyEnter3.length = 2) ∧
    (sEnter3.kcReady 243 bodyEnter 5 (kcTag 243 bodyEnter) ∧ sEnter3.fl.entering = some 3 ∧ sEnter3.fl.hiber = false) ∧
    (sEnter2.kcReady 243 bodyEnter 5 (kcTag 243 bodyEnter) ∧ sEnter2.fl.entering = some 2 ∧ sEnter2.raised 2 = 0 ∧ sEnter2.fl.hiber = false) ∧
    (sHiber.kcReady 243 bodyEnter 5 (kcTag 243 bodyEnter) ∧ sHiber.fl.hiber = true) ∧
    (sResetDue.fl.up = true ∧ sResetDue.fl.resetDue = true ∧ sResetDue.fl.sessions = [] ∧ sResetDue.fl.helper = true) ∧
    (sHiber.fl.up = true ∧ sHiber.fl.weighs = true ∧ sHiber.fl.timed = false ∧ sHiber.fl.period ≠ 0 ∧ (sHiber.fl.hiber = true → sHiber.fl.lan.left ≤
      sHiber.fl.period * 93750)) ∧
    (sHiberL.fl.up = true ∧ sHiberL.fl.weighs = true ∧ sHiberL.fl.timed = false ∧ sHiberL.fl.period ≠ 0 ∧ sHiberL.fl.hiber = true ∧ sHiberL.fl.period
      * 93750 < sHiberL.fl.lan.left) := by
  refine ⟨⟨kc_ready (by decide +kernel) rfl, by decide +kernel⟩, ⟨kc_ready (by decide +kernel) rfl, by decide +kernel⟩, ⟨kc_ready (by decide +kernel) rfl, by decide +kernel⟩, ⟨kc_ready (by decide +kernel) rfl, by decide +kernel⟩, ⟨kc_ready (by decide +kernel) rfl, by decide +kernel⟩, by decide +kernel, by decide +kernel, by decide +kernel⟩

theorem test_meets_ConduitFrames :
    (sFr1.receives = true ∧ parseFrame rawBad = none ∧ (∀ (g : Frame), nextFrame sFr1.fl.frames = some g → g.kind = 1)) ∧
    (parseFrame raw1 = some f1 ∧ nextFrame sFr1.fl.frames = some f1 ∧ f1.kind = 1 ∧ sFr1.fedBy 1 f1.source = [] ∧ sFr1.tw.mode ≠ TwinMode.paired ∧
      f1.source ≠ 0) ∧
    (sFr1.follows = false ∧ 0 ∉ sFr1.fedBy 1 f1.source) ∧
    (parseFrame raw2 = some f2 ∧ sFr2.receives = true ∧ nextFrame sFr2.fl.frames = some f2 ∧ f2.kind = 2 ∧ sFr2.fedBy 2 f2.source = [] ∧ sFr2.tw.mode
      ≠ TwinMode.paired) ∧
    (sFr2.follows = false ∧ 0 ∉ sFr2.fedBy 2 f2.source) ∧
    (parseFrame raw3 = some f3 ∧ sFr3.receives = true ∧ nextFrame sFr3.fl.frames = some f3 ∧ f3.kind = 3 ∧ sFr3.conduit.stale = [] ∧ isMet (fld
      (BitVec.toNat ((leWords (f3.payload.length / 4) f3.payload).getD 0 0)) 24 8) = true) ∧
    (parseFrame raw4 = some f4 ∧ sFr4.receives = true ∧ nextFrame sFr4.fl.frames = some f4 ∧ f4.kind = 4) ∧
    (parseFrame raw5 = some f5 ∧ sFr5.receives = true ∧ nextFrame sFr5.fl.frames = some f5 ∧ f5.kind = 5 ∧ sFr5.dev.fromHib = true ∧ sFr5.dev.phase ≠
      0) ∧
    (onFollow.receives = true ∧ onFollow.follows = true ∧ onFollow.twinLink = true ∧ (1 = 1 ∨ 1 = 2) ∧ 1 = 1 ∧ 0 ∉ onFollow.fedBy 1 1 ∧ seqGap (getKey
      onFollow.conduit.lead (1, 1)) 5 = 0 ∧ onFollow.conduit.stood = []) ∧
    ((2 = 1 ∨ 2 = 2) ∧ 0 ∉ onFollow.fedBy 2 0 ∧ seqGap (getKey onFollow.conduit.lead (2, 0)) 0 = 0) ∧
    (onFollow.fedBy 1 1 = []) ∧
    (sTwinLate.receives = true ∧ sTwinLate.follows = true ∧ sTwinLate.twinLink = true ∧ sTwinLate.fedBy 1 1 = [] ∧ sTwinLate.conduit.stood = [] ∧
      getKey sTwinLate.conduit.due 1 = some 77 ∧ getKey sTwinLate.conduit.copyTs 1 = none) := by
  refine ⟨by decide +kernel, ⟨by simp only [parseFrame, crc16_eq, raw1, Frame.bytes]; decide +kernel, by decide +kernel⟩, by decide +kernel, ⟨by simp only [parseFrame, crc16_eq, raw2, Frame.bytes]; decide +kernel, by decide +kernel⟩, by decide +kernel, ⟨by simp only [parseFrame, crc16_eq, raw3, Frame.bytes]; decide +kernel, by decide +kernel⟩, ⟨by simp only [parseFrame, crc16_eq, raw4, Frame.bytes]; decide +kernel, by decide +kernel⟩, ⟨by simp only [parseFrame, crc16_eq, raw5, Frame.bytes]; decide +kernel, by decide +kernel⟩, by decide +kernel, by decide +kernel, by decide +kernel, by decide +kernel⟩

theorem test_meets_QuartzLatches :
    (0 < 9 ∧ sLatch.time.latches.length = 9 ∧ 1 ≠ 0) ∧
    (8 < 9 ∧ 0 ≠ 8) := by
  refine ⟨?_, ?_⟩ <;> decide +kernel

theorem test_meets_QuartzEvents :
    (0 < 4 ∧ on.qtzRuns = true ∧ (∀ (x : ℤ), on.time.ppsMark = some x → x + ↑(500000000 * nsU) ≤ ↑((on.ns + 0) * nsU)) ∧ on.mpRuns = true) ∧
    (onRun.qtzRuns = true) ∧
    (sSeen.qtzRuns = true) ∧
    (1 < 4 ∧ (∀ (x : ℤ), sSeen.time.ppsMark = some x → x + ↑(500000000 * nsU) ≤ ↑((sSeen.ns + 1) * nsU))) ∧
    (sPpsOn.qtzRuns = true ∧ sPpsOn.time.ppsOut = false ∧ sPpsOn.time.ppsOutEn = true ∧ sPpsOn.time.quality ≠ Quality.unset ∧ bitAt sPpsOn.pw.held 0 =
      false) ∧
    (sPpsUp.qtzRuns = true ∧ sPpsUp.time.ppsOut = true) ∧
    (sServo0.mpRuns = true ∧ sServo0.time.edges = [] ∧ sServo0.time.quality = Quality.disciplined ∧ (∀ (x : ℤ), sServo0.time.lastE = some x → x +
      ↑(2500000000 * nsU) ≤ ↑sServo0.time.now)) ∧
    (sServo.mpRuns = true ∧ sServo.time.edges = [edge4] ∧ edge4.done = false ∧ sServo.recentEdge edge4 = true ∧ sServo.time.adj = some adj4 ∧
      adj4.extrapolate (nearSec edge4.ns) = some (3 * 2 ^ 16) ∧ |edgeErr edge4.ns (3 * 2 ^ 16)| ≤ 100 * 1000 * 2 ^ 16) := by
  refine ⟨?_, ?_, ?_, ?_, ?_, ?_, ?_, ?_⟩ <;> decide +kernel

theorem test_meets_DripBoundaries :
    ((inState 1).drip.phase = DripPhase.running ∧ (inState 1).qtzRuns = true ∧ (inState 1).pw.state ≠ 0 ∧ (inState 1).time.step = 0 ∧ (inState
      1).drip.pend = none) ∧
    (sBnd1.drip.phase = DripPhase.running ∧ sBnd1.qtzRuns = true ∧ sBnd1.pw.state ≠ 0 ∧ sBnd1.time.step = 0) ∧
    (sBndStep.drip.phase = DripPhase.running ∧ sBndStep.qtzRuns = true ∧ sBndStep.pw.state ≠ 0 ∧ sBndStep.time.step ≠ 0 ∧ ↑sBndStep.time.now <
      sBndStep.nextBoundary ∧ sBndStep.drip.pend = none) ∧
    (onRun.drip.phase = DripPhase.running ∧ onRun.qtzRuns = true ∧ onRun.pw.state = 0 ∧ onRun.mpRuns = true) ∧
    (onRun.drip.drop + 1 < onRun.drip.drops) ∧
    (onTwin.mpRuns = true ∧ onTwin.dev.workDue = [4] ∧ onTwin.tw.sent = []) ∧
    (onTwin.tw.attached = true ∧ onTwin.receives = true ∧ onTwin.twinLink = true ∧ parsePacket packetBad onTwin.stamp = none) ∧
    (parsePacket packet0 onTwin.stamp = some packetP ∧ onTwin.dev.workDue ≠ []) ∧
    (sWaitPk.mpRuns = true ∧ sWaitPk.tw.attached = true ∧ sWaitPk.tw.sent = [sent3] ∧ sent3.done = false ∧ sWaitPk.tw.recv = [] ∧ sWaitPk.tw.missed =
      0) ∧
    (onPair.mpRuns = true ∧ onPair.tw.attached = true ∧ onPair.tw.missed = 0) ∧
    ((sWoken.pw.state = 1 ∨ sWoken.pw.state = 2) ∧ sWoken.pw.seen = 2 ^ 5 ∧ sWoken.pw.levels = 0 ∧ sWoken.pw.passed = 0) := by
  refine ⟨?_, ?_, ?_, ?_, ?_, ?_, ?_, ?_, ?_, ?_, ?_⟩ <;> decide +kernel

theorem test_meets_PowerEntry :
    (sAsk2.dev.die = Die.serving ∧ sAsk2.pw.state = 0 ∧ sAsk2.pw.target = some 2 ∧ 1 ≤ 2 ∧ 2 ≤ 3 ∧ sAsk2.pw.asking = none ∧ sAsk2.pw.ready = false ∧
      sAsk2.pw.agreed = [] ∧ sAsk2.tw.mode ≠ TwinMode.paired ∧ sAsk2.blocksIdle 2) ∧
    (sAsk3.dev.die = Die.serving ∧ sAsk3.pw.state = 0 ∧ sAsk3.pw.target = some 3 ∧ 1 ≤ 3 ∧ 3 ≤ 3 ∧ sAsk3.pw.asking = none ∧ sAsk3.pw.ready = false ∧
      sAsk3.pw.agreed = [] ∧ sAsk3.tw.mode ≠ TwinMode.paired ∧ sAsk3.blocksIdle 3) ∧
    (sAckE.pw.target = some 2 ∧ sAckE.pw.asking = some 12 ∧ sAckE.pw.flintAck = true ∧ (2 = 3 → sAckE.conduit.rtc.isSome = true) ∧ sAckE.raised 2 = 0
      ∧ sAckE.pw.abort = false) ∧
    (sAck3.pw.target = some 3 ∧ sAck3.pw.asking = some 12 ∧ sAck3.pw.flintAck = true ∧ (3 = 3 → sAck3.conduit.rtc.isSome = true) ∧ sAck3.raised 3 = 0
      ∧ sAck3.pw.abort = false) ∧
    (4 ≠ 0 ∧ sAsk1.pw.target = some 2 ∧ sAsk1.pw.asking = some 1 ∧ sAsk1.pw.abort = false) ∧
    (sOutst.pw.target = some 2 ∧ sOutst.pw.asking = some 3 ∧ sOutst.outstanding ≠ [] ∧ sOutst.pw.abort = false) ∧
    (onFollow.follows = true ∧ onFollow.dev.die = Die.serving ∧ onFollow.pw.state = 0 ∧ onFollow.pw.target = none ∧ onFollow.blocksIdle 2) ∧
    (sReadyE.pw.target = some 2 ∧ (2 = 1 ∨ 2 = 2) ∧ sReadyE.pw.ready = true ∧ (∀ b ∈ sReadyE.mbx, b.cmd = []) ∧ sReadyE.raised 2 = 0 ∧ sReadyE.pw.pend
      = none) ∧
    (sReadyF.pw.target = some 2 ∧ sReadyF.pw.ready = true ∧ (∀ b ∈ sReadyF.mbx, b.cmd = []) ∧ sReadyF.raised 2 = 0 ∧ sReadyF.pw.pend = none) ∧
    (sReady3.pw.target = some 3 ∧ sReady3.pw.ready = true ∧ (∀ b ∈ sReady3.mbx, b.cmd = []) ∧ sReady3.raised 3 = 0) := by
  refine ⟨?_, ?_, ?_, ?_, ?_, ?_, ?_, ?_, ?_, ?_⟩ <;> decide +kernel

theorem test_meets_Wakes :
    (on.fl.up = true ∧ 6 ∈ [1, 6, 7, 9, 10] ∧ bitAt on.pw.masked 6 = false ∧ on.pw.target = none ∧ on.pw.state = 0) ∧
    (sAsk2.fl.up = true ∧ bitAt sAsk2.pw.masked 6 = false ∧ sAsk2.pw.target = some 2 ∧ 2 ≤ 2 ∧ sAsk2.pw.state = 0 ∧ sAsk2.pw.levels = 0 ∧
      sAsk2.pw.edges = 0 ∧ 6 ∈ [1, 6, 7] ∧ sAsk2.pw.reached = none ∧ sAsk2.fl.lan.wakeRule = 0) ∧
    (sMasked.fl.up = true ∧ bitAt sMasked.pw.masked 6 = true) ∧
    (sPins.fl.up = true ∧ 0 < 4 ∧ sPins.pw.target = none ∧ sPins.pw.state = 0 ∧ bitAt sPins.pw.masked (2 + 0) = false ∧ sPins.pinMode 0 = 4) ∧
    (sPins.pinMode 1 = 0) ∧
    (((inState 1).pw.state = 1 ∨ (inState 1).pw.state = 2) ∧ (inState 1).pw.target = none ∧ bitAt (inState 1).pw.masked 6 = false ∧ (inState
      1).fl.committed = false ∧ (inState 1).fl.lifecycle ≠ 1) ∧
    (on.fl.lifecycle ≠ 1 ∧ bitAt on.pw.masked 7 = false) ∧
    (sTck.fl.lifecycle = 1 ∧ sTck.pw.state = 3 ∧ sTck.pw.target = none) ∧
    (sHibW.fl.lifecycle ≠ 1 ∧ sHibW.pw.state = 3 ∧ sHibW.raised 3 ≠ 0 ∧ bitAt (sHibW.raised 3) 8 = false) := by
  refine ⟨?_, ?_, ?_, ?_, ?_, ?_, ?_, ?_, ?_⟩ <;> decide +kernel

theorem test_meets_PowerLimits :
    (on.mpRuns = true ∧ on.pw.limit = false) ∧
    (onHot.allowance = some 300 ∧ onHot.tw.mode ≠ TwinMode.paired ∧ onHot.mpRuns = true ∧ onHot.pw.limit = false ∧ 300 < onHot.pw.mean ∧
      onHot.nextReduced = some 1 ∧ 1 < onHot.pw.halved.length ∧ 0 ≠ 1) ∧
    (onHot0.allowance = some 300 ∧ onHot0.tw.mode ≠ TwinMode.paired ∧ onHot0.mpRuns = true ∧ onHot0.pw.limit = false ∧ 300 < onHot0.pw.mean ∧
      onHot0.nextReduced = none ∧ onHot0.pw.points.getD 0 0 = 2) ∧
    (105 ≤ 105) ∧
    (on.dev.die ≠ Die.inReset ∧ 115 ≤ 115 ∧ on.fcu.trip = false) := by
  refine ⟨?_, ?_, ?_, ?_, ?_⟩ <;> decide +kernel

theorem test_meets_StartAndResets :
    (on.pw.state ≤ 2 ∧ on.dev.aon = true) ∧
    (3 ≤ (inState 3).pw.state ∧ (inState 3).dev.aon = true) ∧
    (State.reset.pw.state ≤ 2 ∧ State.reset.dev.aon = true) ∧
    (sOff.dev.aon = false ∧ sOff.fl.helper = true) ∧
    (State.reset.dev.die = Die.inReset ∧ State.reset.pw.state = 0 ∧ State.reset.fcu.held = false ∧ State.reset.fl.up = true ∧ State.reset.dev.refclk =
      true ∧ 0 < 32) ∧
    (sStarting.dev.die = Die.starting) ∧
    (4 ≤ 4) ∧
    (sFirm.mpRuns = true ∧ sFirm.dev.phase = 1 ∧ sFirm.sec.galSet.length = 8 ∧ sFirm.dev.fromHib = false ∧ sFirm.geodes.length = 32 ∧ (∀ d ∈
      sFirm.geodes, d.retired = false ∧ d.spareUsed = false)) := by
  refine ⟨?_, ?_, ?_, ?_, ?_, ?_, ?_, ?_⟩ <;> decide +kernel

theorem test_meets_DebugPort :
    (on.dev.die ≠ Die.inReset ∧ on.pw.state = 0 ∧ on.sec.cdLevel = 0 ∧ on.sec.cdLevel < 2) ∧
    (onObs.dev.die ≠ Die.inReset ∧ onObs.pw.state = 0 ∧ 1 ≤ onObs.sec.cdLevel ∧ 0 < 262144) ∧
    (31 < 32 ∧ 2097151 < 2 ^ 21 ∧ onObs.retiredG 31 = false) ∧
    (262143 < 262144) ∧
    (536870911 < 512 * 2 ^ 20 ∧ onObs.galOpen = true) ∧
    (0 < 512 * 2 ^ 20) ∧
    (onObsShut.dev.die ≠ Die.inReset ∧ onObsShut.pw.state = 0 ∧ 1 ≤ onObsShut.sec.cdLevel ∧ 5 < 512 * 2 ^ 20 ∧ onObsShut.galOpen = false) ∧
    (onObsProt.dev.die ≠ Die.inReset ∧ onObsProt.pw.state = 0 ∧ 1 ≤ onObsProt.sec.cdLevel ∧ 1047552 < 512 * 2 ^ 20 ∧ onObsProt.galOpen = true) ∧
    (onInv.dev.die ≠ Die.inReset ∧ onInv.pw.state = 0 ∧ 2 ≤ onInv.sec.cdLevel ∧ 5 < 262144) ∧
    (sProtW.dev.die ≠ Die.inReset ∧ sProtW.pw.state = 0 ∧ 2 ≤ sProtW.sec.cdLevel ∧ sProtW.galOpen = true ∧ (sProtW.gal.slab (5 / 2 ^ 20)).state =
      SlabState.prot) ∧
    (0 < 32 ∧ 0 < onInv.geodes.length ∧ 9 ≤ 9 ∧ (9 < 16 ∨ 48 ≤ 9)) ∧
    (onInv.sec.cdLevel ≠ 0) ∧
    ((inState 2).dev.die ≠ Die.inReset ∧ (inState 2).pw.state = 2) ∧
    (onObs.sec.cdLevel ≠ 0) ∧
    (7 < 8 ∧ on.sec.galSet.length ≠ 8) ∧
    (sKeys.sec.galSet.length = 8) := by
  refine ⟨?_, ?_, ?_, ?_, ?_, ?_, ?_, ?_, ?_, ?_, ?_, ?_, ?_, ?_, ?_, ?_⟩ <;> decide +kernel

theorem test_meets_CoreAccesses :
    (onUser.coreRuns 0 = true ∧ 0 < onUser.cores.length ∧ 1 ≤ 4 ∧ plainA % 64 + 4 ≤ 64 ∧ onUser.gal.initDone = true ∧ (∀ d ∈ onUser.shelf.dets,
      d.gather = none) ∧ (onUser.core 0).pmpOk plainA 4 false = false ∧ 0 < 8) ∧
    (onCore.coreRuns 0 = true ∧ 0 < onCore.cores.length ∧ 5 % 64 + 4 ≤ 64 ∧ onCore.gal.initDone = true ∧ (∀ d ∈ onCore.shelf.dets, d.gather = none) ∧
      onCore.coreTarget 0 5 4 false = Tgt.fault) ∧
    ([1, 2, 3, 4].length = 4 ∧ onCore.coreTarget 0 5 4 true = Tgt.fault) ∧
    (33558272 % 64 + 4 ≤ 64 ∧ onCore.coreTarget 0 33558272 4 false = Tgt.dev (some Reg.mtime) 0 true ∧ mayRead 0 Reg.mtime = true) ∧
    (onCore.coreTarget 0 plainA 4 false = Tgt.mem (false, place5.2) false ∧ ((onCore.stepped 0).galReadP place5.2 4).2.2 = false) ∧
    (sPoisW.coreRuns 0 = true ∧ 0 < sPoisW.cores.length ∧ sPoisW.gal.initDone = true ∧ (∀ d ∈ sPoisW.shelf.dets, d.gather = none) ∧ sPoisW.coreTarget
      0 plainA 4 false = Tgt.mem (false, place5.2) false ∧ ((sPoisW.stepped 0).galReadP place5.2 4).2.2 = true) ∧
    (onShelf.coreRuns 0 = true ∧ 0 < onShelf.cores.length ∧ cachedA % 64 + 4 ≤ 64 ∧ onShelf.gal.initDone = true ∧ (∀ d ∈ onShelf.shelf.dets, d.gather
      = none) ∧ onShelf.shelf.state = ShelfSt.enabled ∧ onShelf.shelf.sector place5 = some sector1 ∧ sector1.err = 0 ∧ sector1.poison = [] ∧
      sector1.data.length = 64 ∧ place5.2 % 64 + 4 ≤ 64 ∧ onShelf.coreTarget 0 cachedA 4 false = Tgt.mem place5 true ∧ 1 ≠ 0) ∧
    (onShelf.coreTarget 0 cachedA 4 true = Tgt.mem place5 true) ∧
    (4 = 4 ∧ cachedA % 4 = 0 ∧ onShelf.shelf.waits place5 = false ∧ onShelf.shelf.evicted place5 = none ∧ (onShelf.core 0).res ≠ some (place5.1, secOf
      place5.2)) ∧
    (sRes.coreRuns 0 = true ∧ 0 < sRes.cores.length ∧ sRes.gal.initDone = true ∧ (∀ d ∈ sRes.shelf.dets, d.gather = none) ∧ sRes.shelf.state =
      ShelfSt.enabled ∧ sRes.shelf.sector place5 = some sector1 ∧ sRes.shelf.waits place5 = false ∧ sRes.shelf.evicted place5 = none ∧ sRes.coreTarget
      0 cachedA 4 false = Tgt.mem place5 true ∧ sRes.coreTarget 0 cachedA 4 true = Tgt.mem place5 true ∧ (sRes.core 0).res = some (place5.1, secOf
      place5.2)) ∧
    (sDirty.coreRuns 0 = true ∧ 0 < sDirty.cores.length ∧ sDirty.gal.initDone = true ∧ (∀ d ∈ sDirty.shelf.dets, d.gather = none) ∧ sDirty.shelf.state
      = ShelfSt.enabled ∧ sDirty.shelf.sector place5a = some sector2 ∧ sector2.err = 0 ∧ sector2.poison = [] ∧ sector2.data.length = 64 ∧ place5a.2 %
      64 + 4 ≤ 64 ∧ sDirty.coreTarget 0 (secOf cachedA) 64 false = Tgt.mem place5a true ∧ sDirty.shelf.waits place5a = false ∧ sDirty.shelf.evicted
      place5a = none ∧ sector2.dirty = true ∧ sDirty.coreTarget 0 (secOf cachedA) 64 true = Tgt.mem place5a true ∧ place5a.2 % 64 = 0) ∧
    (onCore.coreTarget 0 plainA 4 (3 != 0) = Tgt.mem place5 false) ∧
    ((∀ m ∈ onCore.shelf.misses, m.req ≠ 0)) := by
  refine ⟨?_, ?_, ?_, ?_, ?_, ?_, ?_, ?_, ?_, ?_, ?_, ?_, ?_⟩ <;> decide +kernel

theorem test_meets_ShelfAndInterrupts :
    (sMiss.shelf.misses[0]? = some miss5 ∧ miss5.host = false ∧ miss5.load = some 4 ∧ miss5.req < sMiss.cores.length ∧ sMiss.galOpen = true ∧
      sMiss.shelf.state = ShelfSt.enabled ∧ sMiss.shelf.line (false, miss5.addr) = none ∧ sMiss.shelf.evicted (false, miss5.addr) = none ∧
      sMiss.shelf.evict.length < 8 ∧ miss5.addr % 64 + 4 ≤ 64 ∧ 1 ≤ 4 ∧ (sMiss.galReadP (secOf miss5.addr) 64).2.2 = false) ∧
    (sEv.shelf.evict[0]? = some ev5) ∧
    (sEvI.shelf.evict[0]? = some ev5i ∧ ev5i.issued = true ∧ sEvI.backOpen ev5i.host = true ∧ ev5i.merged = false ∧ ev5i.held = []) ∧
    (onShelf.shelf.state = ShelfSt.enabled) ∧
    ((shelfIs ShelfSt.draining).shelf.state = ShelfSt.draining ∧ (∀ x ∈ (shelfIs ShelfSt.draining).shelf.misses, x.store = none)) ∧
    ((shelfIs ShelfSt.disabled).shelf.state = ShelfSt.disabled) ∧
    (on.cic.length = 9 ∧ 8 < 9 ∧ 0 < 9) ∧
    (7 < 8 ∧ 0 ≠ 7 ∧ fld 16777221 0 24 ≠ 0) := by
  refine ⟨?_, ?_, ?_, ?_, ?_, ?_, ?_, ?_⟩ <;> decide +kernel

theorem test_meets_Firings :
    (1 < onFire.geodes.length ∧ 2 < (onFire.geode 1).slots.length ∧ onFire.choice 1 = some 2 ∧ (onFire.geode 1).conflict = none ∧ (onFire.geode
      1).firing = none ∧ 0 ≠ 1 ∧ 2 ≤ (onFire.geode 1).veinCount 0 + 2) ∧
    (1 < sFired.geodes.length ∧ 2 < (sFired.geode 1).slots.length ∧ sFired.choice 1 = some 2 ∧ (sFired.geode 1).conflict = none ∧ (sFired.geode
      1).firing = none ∧ 2 ≤ (sFired.geode 1).veinCount 0 + 2) ∧
    (1 < (onFire.geode 1).slots.length ∧ onFire.canFire 1 1 = false) ∧
    (1 < sConflict.geodes.length ∧ 2 < (sConflict.geode 1).slots.length ∧ (sConflict.geode 1).firing = none ∧ (sConflict.geode 1).conflict = some 3) ∧
    (1 < onFiring.geodes.length ∧ 2 < (onFiring.geode 1).slots.length ∧ onFiring.firing 1 = some firing2 ∧ firing2.limit ≠ 0 ∧ onFiring.arithRuns =
      true ∧ onFiring.commitFull 1 = false) ∧
    (1 < sHaltS.geodes.length ∧ 2 < (sHaltS.geode 1).slots.length ∧ (sHaltS.slot 1 2).state = SlotState.halted ∧ (sHaltS.slot 1 2).ctx <
      sHaltS.ctxs.length ∧ (sHaltS.geode 1).firing = none ∧ 2 ≤ (sHaltS.geode 1).veinCount 0 + 2) ∧
    (1 < sVein.geodes.length ∧ 2 < (sVein.geode 1).slots.length ∧ (sVein.geode 1).veinPending = 1 ∧ (sVein.geode 1).firing = none ∧ sVein.arithRuns =
      true ∧ 2 ≤ (sVein.geode 1).veinCount 0 + 1) ∧
    (1 < sVein2.geodes.length ∧ 2 < (sVein2.geode 1).slots.length ∧ (sVein2.geode 1).veinPending = 1 ∧ (sVein2.geode 1).firing = none ∧
      sVein2.arithRuns = true ∧ 2 ≤ (sVein2.geode 1).veinCount 0 + 0) := by
  refine ⟨?_, ?_, ?_, ?_, ?_, ?_, ?_, ?_⟩ <;> decide +kernel

theorem test_meets_QueueEvents :
    (1 < sArrive.geodes.length ∧ (sArrive.geode 1).queues.length = 24 ∧ 16 < 24 ∧ 16 ≤ 16 ∧ (sArrive.queue 1 16).entries = [block2, block2] ∧
      (sArrive.queue 1 16).bind = 2 ∧ (sArrive.queue 1 16).peer = 4 ∧ (sArrive.queue 1 16).peerQ = 3 ∧ 4 ≠ 1 ∧ 4 < sArrive.geodes.length ∧ 3 <
      (sArrive.geode 4).queues.length ∧ block2.released = true ∧ block2.marker = false ∧ block2.ue = false ∧ sArrive.arithRuns = true ∧ (sArrive.geode
      1).retired = false ∧ (sArrive.geode 4).retired = false ∧ (sArrive.queue 1 16).waiting = [] ∧ 0 ≠ 1 ∧ 0 ≠ 4) ∧
    (1 ≤ (sArrive.queue 1 16).creditDue ∧ 0 ≠ 16) ∧
    (1 < sMark.geodes.length ∧ (sMark.geode 1).queues.length = 24 ∧ 0 < 24 ∧ (sMark.geode 1).firing = none ∧ (sMark.geode 1).retired = false ∧
      (sMark.geode 1).halted = false ∧ sMark.arithRuns = true ∧ (sMark.slot 1 2).state = SlotState.run ∧ (sMark.slot 1 2).cls ≠ OClass.background ∧ 2
      < 4 ∧ (sMark.geode 1).slots.length = 4 ∧ 0 < 16 ∧ (sMark.slot 1 2).ins = [0] ∧ (sMark.slot 1 2).outs = [] ∧ (sMark.queue 1 0).entries =
      [marker3, block2] ∧ marker3.marker = true ∧ marker3.released = true ∧ (sMark.queue 1 0).waiting = []) ∧
    ((sArrive.geode 1).runNames 16 = false) ∧
    (1 < onFire.geodes.length ∧ (onFire.geode 1).queues.length = 24 ∧ (onFire.geode 1).runNames 0 = true) ∧
    (1 < sGalW.geodes.length ∧ (sGalW.geode 1).queues.length = 24 ∧ sGalW.galOpen = true ∧ (sGalW.slot 1 2).writes = [write1] ∧ write1.done = false ∧
      (sGalW.slot 1 2).cls ≠ OClass.background ∧ write1.store = true ∧ write1.enc = none ∧ 2 < (sGalW.geode 1).slots.length) ∧
    (1 < sGalWB.geodes.length ∧ (sGalWB.geode 1).queues.length = 24 ∧ sGalWB.galOpen = true ∧ (sGalWB.slot 1 2).writes = [write1] ∧ (sGalWB.slot 1
      2).cls = OClass.background) := by
  refine ⟨?_, ?_, ?_, ?_, ?_, ?_, ?_⟩ <;> decide +kernel

theorem test_meets_SlotAndGeodeControl :
    (1 < sLoaded.geodes.length ∧ 2 < (sLoaded.geode 1).slots.length ∧ 2 < 4 ∧ (sLoaded.geode 1).firing = none ∧ (sLoaded.slot 1 2).state =
      SlotState.loaded ∧ (sLoaded.geode 1).queuesReady (sLoaded.slot 1 2) = false ∧ ((sLoaded.slot 1 2).state = SlotState.loaded ∨ (sLoaded.slot 1
      2).state = SlotState.halted) ∧ 0 ≠ 2 ∧ (sLoaded.geode 1).kat.busy = false ∧ (sLoaded.geode 1).retired = false ∧ sLoaded.arithRuns = true ∧
      (sLoaded.geode 1).ce = [] ∧ (sLoaded.geode 1).ue = [] ∧ (sLoaded.geode 1).scrub + 1 < 32768) ∧
    (1 < sLoadedOk.geodes.length ∧ 2 < (sLoadedOk.geode 1).slots.length ∧ (sLoadedOk.geode 1).firing = none ∧ (sLoadedOk.slot 1 2).state =
      SlotState.loaded ∧ (sLoadedOk.geode 1).queuesReady (sLoadedOk.slot 1 2) = true ∧ (((sLoadedOk.geode 1).withSlot 2 fun sl => { sl with state :=
      .run }).conflict = none) ∧ ((sLoadedOk.slot 1 2).state = SlotState.loaded ∨ (sLoadedOk.slot 1 2).state = SlotState.halted) ∧ (sLoadedOk.geode
      1).kat.busy = false ∧ (sLoadedOk.geode 1).retired = false ∧ sLoadedOk.arithRuns = true ∧ (sLoadedOk.geode 1).ce = [] ∧ (sLoadedOk.geode 1).ue =
      [] ∧ (sLoadedOk.geode 1).scrub + 1 < 32768) ∧
    (1 < sRunS.geodes.length ∧ 2 < (sRunS.geode 1).slots.length ∧ (sRunS.geode 1).firing = none ∧ (sRunS.slot 1 2).state = SlotState.run ∧
      (sRunS.geode 1).kat.busy = false ∧ (sRunS.geode 1).retired = false ∧ sRunS.arithRuns = true ∧ (sRunS.geode 1).ce = [] ∧ (sRunS.geode 1).ue = []
      ∧ (sRunS.geode 1).scrub + 1 < 32768) ∧
    (1 < sHaltS.geodes.length ∧ 2 < (sHaltS.geode 1).slots.length ∧ (sHaltS.geode 1).firing = none ∧ (sHaltS.slot 1 2).state = SlotState.halted ∧
      ((sHaltS.slot 1 2).state = SlotState.loaded ∨ (sHaltS.slot 1 2).state = SlotState.halted) ∧ (sHaltS.geode 1).kat.busy = false ∧ (sHaltS.geode
      1).retired = false ∧ sHaltS.arithRuns = true ∧ (sHaltS.geode 1).ce = [] ∧ (sHaltS.geode 1).ue = [] ∧ (sHaltS.geode 1).scrub + 1 < 32768) ∧
    (1 < sKat.geodes.length ∧ 2 < (sKat.geode 1).slots.length ∧ (sKat.geode 1).firing = none ∧ (sKat.geode 1).kat.busy = true ∧ sKat.arithRuns = true
      ∧ (sKat.geode 1).kat.latent = none ∧ 0 ≤ 4 ∧ (sKat.geode 1).retired = false ∧ (sKat.geode 1).ce = [] ∧ (sKat.geode 1).ue = [] ∧ (sKat.geode
      1).scrub + 1 < 32768) := by
  refine ⟨?_, ?_, ?_, ?_, ?_⟩ <;> decide +kernel

theorem test_meets_ScalarInstructions :
    ((¬(18 ≤ 17 ∨ 32 ≤ 18 ∧ 18 ≤ 44 ∨ 18 = 48 ∨ 18 = 49 ∨ 64 ≤ 18 ∧ 18 ≤ 67 ∨ 80 ≤ 18 ∧ 18 ≤ 83 ∨ 18 = 96 ∨ 18 = 97)) ∧ iUn.issues 1 4 18 = true) ∧
    ((¬(255 ≤ 17 ∨ 32 ≤ 255 ∧ 255 ≤ 44 ∨ 255 = 48 ∨ 255 = 49 ∨ 64 ≤ 255 ∧ 255 ≤ 67 ∨ 80 ≤ 255 ∧ 255 ≤ 83 ∨ 255 = 96 ∨ 255 = 97)) ∧ (runs 255 0).issues
      1 4 255 = true) ∧
    (iNop.issues 1 4 0 = true ∧ (iNop.fsl 1).pc + 1 < (iNop.fsl 1).prog.length) ∧
    (iSeti.issues 1 4 3 = true ∧ (iSeti.fsl 1).pc + 1 < (iSeti.fsl 1).prog.length) ∧
    (iAddi.issues 1 4 4 = true ∧ (iAddi.fsl 1).pc + 1 < (iAddi.fsl 1).prog.length) ∧
    (iAdd.issues 1 4 5 = true ∧ (iAdd.fsl 1).pc + 1 < (iAdd.fsl 1).prog.length) ∧
    (iSub.issues 1 4 6 = true ∧ (iSub.fsl 1).pc + 1 < (iSub.fsl 1).prog.length) ∧
    (iMuli.issues 1 4 7 = true ∧ (iMuli.fsl 1).pc + 1 < (iMuli.fsl 1).prog.length) ∧
    (fld ((iAlu 0).instrAt 1) 38 3 = 0 ∧ (iAlu 0).issues 1 4 8 = true ∧ ((iAlu 0).fsl 1).pc + 1 < ((iAlu 0).fsl 1).prog.length) ∧
    (fld ((iAlu 1).instrAt 1) 38 3 = 1 ∧ (iAlu 1).issues 1 4 8 = true ∧ ((iAlu 1).fsl 1).pc + 1 < ((iAlu 1).fsl 1).prog.length) ∧
    (fld ((iAlu 2).instrAt 1) 38 3 = 2 ∧ (iAlu 2).issues 1 4 8 = true ∧ ((iAlu 2).fsl 1).pc + 1 < ((iAlu 2).fsl 1).prog.length) ∧
    (fld ((iAlu 3).instrAt 1) 38 3 = 3 ∧ (iAlu 3).issues 1 4 8 = true ∧ ((iAlu 3).fsl 1).pc + 1 < ((iAlu 3).fsl 1).prog.length) ∧
    (fld ((iAlu 4).instrAt 1) 38 3 = 4 ∧ (iAlu 4).issues 1 4 8 = true ∧ ((iAlu 4).fsl 1).pc + 1 < ((iAlu 4).fsl 1).prog.length) ∧
    (fld ((iAlu 5).instrAt 1) 38 3 = 5 ∧ (iAlu 5).issues 1 4 8 = true ∧ ((iAlu 5).fsl 1).pc + 1 < ((iAlu 5).fsl 1).prog.length) ∧
    (6 ≤ fld ((iAlu 6).instrAt 1) 38 3 ∧ (iAlu 6).issues 1 4 8 = true) ∧
    (6 ≤ fld ((iAlu 7).instrAt 1) 38 3 ∧ (iAlu 7).issues 1 4 8 = true) ∧
    (((iSpec 4).spend 1 4).special 1 (fld ((iSpec 4).instrAt 1) 0 4) = Except.ok 0 ∧ (iSpec 4).issues 1 4 9 = true ∧ ((iSpec 4).fsl 1).pc + 1 <
      ((iSpec 4).fsl 1).prog.length) ∧
    (((iSpec 7).spend 1 4).special 1 (fld ((iSpec 7).instrAt 1) 0 4) = Except.ok 0 ∧ (iSpec 7).issues 1 4 9 = true ∧ ((iSpec 7).fsl 1).pc + 1 <
      ((iSpec 7).fsl 1).prog.length) ∧
    (12 ≤ fld ((iSpec 12).instrAt 1) 0 4 ∧ (iSpec 12).issues 1 4 9 = true) ∧
    (12 ≤ fld ((iSpec 15).instrAt 1) 0 4 ∧ (iSpec 15).issues 1 4 9 = true) := by
  refine ⟨?_, ?_, ?_, ?_, ?_, ?_, ?_, ?_, ?_, ?_, ?_, ?_, ?_, ?_, ?_, ?_, ?_, ?_, ?_, ?_⟩ <;> decide +kernel

theorem test_meets_FlowAndAddressing :
    ((iLoop 1).sreg 1 (fld ((iLoop 1).instrAt 1) 51 5) - 1 ≠ 0 ∧ (iLoop 1).issues 1 4 10 = true ∧ fld ((iLoop 1).instrAt 1) 0 10 < ((iLoop 1).fsl
      1).prog.length ∧ fld ((iLoop 1).instrAt 1) 38 3 = 0) ∧
    ((iLoop 5).sreg 1 (fld ((iLoop 5).instrAt 1) 51 5) - 1 = 0 ∧ (iLoop 5).issues 1 4 10 = true ∧ ((iLoop 5).fsl 1).pc + 1 < ((iLoop 5).fsl
      1).prog.length ∧ fld ((iLoop 5).instrAt 1) 38 3 = 0) ∧
    ((iBr 2).issues 1 4 11 = true ∧ fld ((iBr 2).instrAt 1) 0 10 < ((iBr 2).fsl 1).prog.length ∧ fld ((iBr 2).instrAt 1) 38 3 = 0) ∧
    (((iBr 3).fsl 1).prog.length ≤ fld ((iBr 3).instrAt 1) 0 10 ∧ (iBr 3).issues 1 4 11 = true ∧ fld ((iBr 3).instrAt 1) 38 3 = 0) ∧
    (fld ((iCmp 0 1 1).instrAt 1) 38 3 = 0 ∧ decide ((iCmp 0 1 1).sreg 1 (fld ((iCmp 0 1 1).instrAt 1) 46 5) = (iCmp 0 1 1).sreg 1 (fld ((iCmp 0 1
      1).instrAt 1) 41 5)) = true ∧ (iCmp 0 1 1).issues 1 4 12 = true ∧ fld ((iCmp 0 1 1).instrAt 1) 0 10 < ((iCmp 0 1 1).fsl 1).prog.length) ∧
    (fld ((iCmp 0 1 2).instrAt 1) 38 3 = 0 ∧ decide ((iCmp 0 1 2).sreg 1 (fld ((iCmp 0 1 2).instrAt 1) 46 5) = (iCmp 0 1 2).sreg 1 (fld ((iCmp 0 1
      2).instrAt 1) 41 5)) = false ∧ (iCmp 0 1 2).issues 1 4 12 = true ∧ ((iCmp 0 1 2).fsl 1).pc + 1 < ((iCmp 0 1 2).fsl 1).prog.length) ∧
    (fld ((iCmp 1 1 1).instrAt 1) 38 3 = 1 ∧ decide ((iCmp 1 1 1).sreg 1 (fld ((iCmp 1 1 1).instrAt 1) 46 5) ≠ (iCmp 1 1 1).sreg 1 (fld ((iCmp 1 1
      1).instrAt 1) 41 5)) = false ∧ (iCmp 1 1 1).issues 1 4 12 = true ∧ ((iCmp 1 1 1).fsl 1).pc + 1 < ((iCmp 1 1 1).fsl 1).prog.length) ∧
    (fld ((iCmp 1 1 2).instrAt 1) 38 3 = 1 ∧ decide ((iCmp 1 1 2).sreg 1 (fld ((iCmp 1 1 2).instrAt 1) 46 5) ≠ (iCmp 1 1 2).sreg 1 (fld ((iCmp 1 1
      2).instrAt 1) 41 5)) = true ∧ (iCmp 1 1 2).issues 1 4 12 = true ∧ fld ((iCmp 1 1 2).instrAt 1) 0 10 < ((iCmp 1 1 2).fsl 1).prog.length) ∧
    (fld ((iCmp 2 1 2).instrAt 1) 38 3 = 2 ∧ decide (BitVec.toInt ((iCmp 2 1 2).sreg 1 (fld ((iCmp 2 1 2).instrAt 1) 46 5)) < BitVec.toInt ((iCmp 2 1
      2).sreg 1 (fld ((iCmp 2 1 2).instrAt 1) 41 5))) = false ∧ (iCmp 2 1 2).issues 1 4 12 = true ∧ ((iCmp 2 1 2).fsl 1).pc + 1 < ((iCmp 2 1 2).fsl
      1).prog.length) ∧
    (fld ((iCmp 2 2 1).instrAt 1) 38 3 = 2 ∧ decide (BitVec.toInt ((iCmp 2 2 1).sreg 1 (fld ((iCmp 2 2 1).instrAt 1) 46 5)) < BitVec.toInt ((iCmp 2 2
      1).sreg 1 (fld ((iCmp 2 2 1).instrAt 1) 41 5))) = true ∧ (iCmp 2 2 1).issues 1 4 12 = true ∧ fld ((iCmp 2 2 1).instrAt 1) 0 10 < ((iCmp 2 2
      1).fsl 1).prog.length) ∧
    (fld ((iCmp 3 1 2).instrAt 1) 38 3 = 3 ∧ decide (BitVec.toInt ((iCmp 3 1 2).sreg 1 (fld ((iCmp 3 1 2).instrAt 1) 41 5)) ≤ BitVec.toInt ((iCmp 3 1
      2).sreg 1 (fld ((iCmp 3 1 2).instrAt 1) 46 5))) = true ∧ (iCmp 3 1 2).issues 1 4 12 = true ∧ fld ((iCmp 3 1 2).instrAt 1) 0 10 < ((iCmp 3 1
      2).fsl 1).prog.length) ∧
    (fld ((iCmp 3 2 1).instrAt 1) 38 3 = 3 ∧ decide (BitVec.toInt ((iCmp 3 2 1).sreg 1 (fld ((iCmp 3 2 1).instrAt 1) 41 5)) ≤ BitVec.toInt ((iCmp 3 2
      1).sreg 1 (fld ((iCmp 3 2 1).instrAt 1) 46 5))) = false ∧ (iCmp 3 2 1).issues 1 4 12 = true ∧ ((iCmp 3 2 1).fsl 1).pc + 1 < ((iCmp 3 2 1).fsl
      1).prog.length) ∧
    (fld ((iCmp 4 1 2).instrAt 1) 38 3 = 4 ∧ decide (BitVec.toNat ((iCmp 4 1 2).sreg 1 (fld ((iCmp 4 1 2).instrAt 1) 46 5)) < BitVec.toNat ((iCmp 4 1
      2).sreg 1 (fld ((iCmp 4 1 2).instrAt 1) 41 5))) = true ∧ (iCmp 4 1 2).issues 1 4 12 = true ∧ fld ((iCmp 4 1 2).instrAt 1) 0 10 < ((iCmp 4 1
      2).fsl 1).prog.length) ∧
    (fld ((iCmp 4 2 1).instrAt 1) 38 3 = 4 ∧ decide (BitVec.toNat ((iCmp 4 2 1).sreg 1 (fld ((iCmp 4 2 1).instrAt 1) 46 5)) < BitVec.toNat ((iCmp 4 2
      1).sreg 1 (fld ((iCmp 4 2 1).instrAt 1) 41 5))) = false ∧ (iCmp 4 2 1).issues 1 4 12 = true ∧ ((iCmp 4 2 1).fsl 1).pc + 1 < ((iCmp 4 2 1).fsl
      1).prog.length) ∧
    (fld ((iCmp 5 1 2).instrAt 1) 38 3 = 5 ∧ decide (BitVec.toNat ((iCmp 5 1 2).sreg 1 (fld ((iCmp 5 1 2).instrAt 1) 41 5)) ≤ BitVec.toNat ((iCmp 5 1
      2).sreg 1 (fld ((iCmp 5 1 2).instrAt 1) 46 5))) = false ∧ (iCmp 5 1 2).issues 1 4 12 = true ∧ ((iCmp 5 1 2).fsl 1).pc + 1 < ((iCmp 5 1 2).fsl
      1).prog.length) ∧
    (fld ((iCmp 5 2 1).instrAt 1) 38 3 = 5 ∧ decide (BitVec.toNat ((iCmp 5 2 1).sreg 1 (fld ((iCmp 5 2 1).instrAt 1) 41 5)) ≤ BitVec.toNat ((iCmp 5 2
      1).sreg 1 (fld ((iCmp 5 2 1).instrAt 1) 46 5))) = true ∧ (iCmp 5 2 1).issues 1 4 12 = true ∧ fld ((iCmp 5 2 1).instrAt 1) 0 10 < ((iCmp 5 2
      1).fsl 1).prog.length) ∧
    (6 ≤ fld ((iCmp 6 1 1).instrAt 1) 38 3 ∧ (iCmp 6 1 1).issues 1 4 12 = true) ∧
    (fld ((iAset 15).instrAt 1) 38 3 = 0 ∧ fld ((iAset 15).instrAt 1) 51 5 < 16 ∧ (iAset 15).issues 1 4 13 = true ∧ ((iAset 15).fsl 1).pc + 1 <
      ((iAset 15).fsl 1).prog.length) ∧
    (fld ((iAset 16).instrAt 1) 38 3 = 0 ∧ 16 ≤ fld ((iAset 16).instrAt 1) 51 5 ∧ (iAset 16).issues 1 4 13 = true) ∧
    (fld ((iTset 3).instrAt 1) 38 3 = 3 ∧ fld ((iTset 3).instrAt 1) 38 3 < 4 ∧ (iTset 3).issues 1 4 14 = true ∧ ((iTset 3).fsl 1).pc + 1 < ((iTset
      3).fsl 1).prog.length ∧ fld ((iTset 3).instrAt 1) 46 5 < 16 ∧ ((iTset 3).areg 1 (fld ((iTset 3).instrAt 1) 46 5) + fld ((iTset 3).instrAt 1) 0
      32) % 2 ^ 32 % 4 = 0 ∧ ((iTset 3).areg 1 (fld ((iTset 3).instrAt 1) 46 5) + fld ((iTset 3).instrAt 1) 0 32) % 2 ^ 32 + 4 ≤ ((iTset 3).fsl
      1).window) ∧
    (fld ((iTset 4).instrAt 1) 38 3 = 4 ∧ 4 ≤ fld ((iTset 4).instrAt 1) 38 3 ∧ (iTset 4).issues 1 4 14 = true ∧ fld ((iTset 4).instrAt 1) 46 5 < 16 ∧
      ((iTset 4).areg 1 (fld ((iTset 4).instrAt 1) 46 5) + fld ((iTset 4).instrAt 1) 0 32) % 2 ^ 32 % 4 = 0 ∧ ((iTset 4).areg 1 (fld ((iTset
      4).instrAt 1) 46 5) + fld ((iTset 4).instrAt 1) 0 32) % 2 ^ 32 + 4 ≤ ((iTset 4).fsl 1).window) ∧
    (fld ((iSld 0 16).instrAt 1) 38 3 = 0 ∧ fld ((iSld 0 16).instrAt 1) 46 5 < 16 ∧ ((iSld 0 16).areg 1 (fld ((iSld 0 16).instrAt 1) 46 5) + fld
      ((iSld 0 16).instrAt 1) 0 32) % 2 ^ 32 % 4 = 0 ∧ ((iSld 0 16).areg 1 (fld ((iSld 0 16).instrAt 1) 46 5) + fld ((iSld 0 16).instrAt 1) 0 32) % 2
      ^ 32 + 4 ≤ ((iSld 0 16).fsl 1).window ∧ (((iSld 0 16).spend 1 4).pocketRead 1 (((iSld 0 16).fsl 1).base * 2 ^ 16 + ((iSld 0 16).areg 1 (fld
      ((iSld 0 16).instrAt 1) 46 5) + fld ((iSld 0 16).instrAt 1) 0 32) % 2 ^ 32) 4).2.2 = false ∧ (iSld 0 16).issues 1 4 15 = true ∧ ((iSld 0 16).fsl
      1).pc + 1 < ((iSld 0 16).fsl 1).prog.length) ∧
    (fld (iSldP.instrAt 1) 38 3 = 0 ∧ fld (iSldP.instrAt 1) 46 5 < 16 ∧ (iSldP.areg 1 (fld (iSldP.instrAt 1) 46 5) + fld (iSldP.instrAt 1) 0 32) % 2 ^
      32 % 4 = 0 ∧ (iSldP.areg 1 (fld (iSldP.instrAt 1) 46 5) + fld (iSldP.instrAt 1) 0 32) % 2 ^ 32 + 4 ≤ (iSldP.fsl 1).window ∧ ((iSldP.spend 1
      4).pocketRead 1 ((iSldP.fsl 1).base * 2 ^ 16 + (iSldP.areg 1 (fld (iSldP.instrAt 1) 46 5) + fld (iSldP.instrAt 1) 0 32) % 2 ^ 32) 4).2.2 = true
      ∧ iSldP.issues 1 4 15 = true) ∧
    (fld ((iSld 0 18).instrAt 1) 38 3 = 0 ∧ fld ((iSld 0 18).instrAt 1) 46 5 < 16 ∧ ((iSld 0 18).areg 1 (fld ((iSld 0 18).instrAt 1) 46 5) + fld
      ((iSld 0 18).instrAt 1) 0 32) % 2 ^ 32 % 4 ≠ 0 ∧ (iSld 0 18).issues 1 4 15 = true) ∧
    (fld ((iSld 0 262080).instrAt 1) 38 3 = 0 ∧ fld ((iSld 0 262080).instrAt 1) 46 5 < 16 ∧ ((iSld 0 262080).areg 1 (fld ((iSld 0 262080).instrAt 1)
      46 5) + fld ((iSld 0 262080).instrAt 1) 0 32) % 2 ^ 32 % 4 = 0 ∧ ((iSld 0 262080).fsl 1).window < ((iSld 0 262080).areg 1 (fld ((iSld 0
      262080).instrAt 1) 46 5) + fld ((iSld 0 262080).instrAt 1) 0 32) % 2 ^ 32 + 4 ∧ (iSld 0 262080).issues 1 4 15 = true) ∧
    (fld ((iSld 16 0).instrAt 1) 38 3 = 0 ∧ 16 ≤ fld ((iSld 16 0).instrAt 1) 46 5 ∧ (iSld 16 0).issues 1 4 15 = true) := by
  refine ⟨?_, ?_, ?_, ?_, ?_, ?_, ?_, ?_, ?_, ?_, ?_, ?_, ?_, ?_, ?_, ?_, ?_, ?_, ?_, ?_, ?_, ?_, ?_, ?_, ?_, ?_⟩ <;> decide +kernel

theorem test_meets_RegisterInstructionsFrame :
    (iNop.issues 1 4 0 = true ∧ (iNop.fsl 1).pc + 1 < (iNop.fsl 1).prog.length ∧ (0, Instr.nop 1 4) ∈ [(0, Instr.nop 1 4), (3, Instr.seti 1 4), (4,
      Instr.addi 1 4), (5, Instr.add 1 4), (6, Instr.sub 1 4), (7, Instr.muli 1 4), (13, Instr.aset 1 4), (14, Instr.tset 1 4), (80, Instr.scaleGet 1
      4), (97, Instr.sigRead 1 4)] ∧ ((after (Instr.nop 1 4) iNop).firing 1).isSome = true ∧ 0 ≠ 13 ∧ 0 ≠ 14 ∧ 1 ≠ fld (iNop.instrAt 1) 51 5 ∧ 0 ≠
      iNop.fslot 1 ∧ 0 ≠ 1) ∧
    (iSeti.issues 1 4 3 = true ∧ (iSeti.fsl 1).pc + 1 < (iSeti.fsl 1).prog.length ∧ (3, Instr.seti 1 4) ∈ [(0, Instr.nop 1 4), (3, Instr.seti 1 4),
      (4, Instr.addi 1 4), (5, Instr.add 1 4), (6, Instr.sub 1 4), (7, Instr.muli 1 4), (13, Instr.aset 1 4), (14, Instr.tset 1 4), (80,
      Instr.scaleGet 1 4), (97, Instr.sigRead 1 4)] ∧ ((after (Instr.seti 1 4) iSeti).firing 1).isSome = true ∧ 3 ≠ 13 ∧ 3 ≠ 14 ∧ 1 ≠ fld
      (iSeti.instrAt 1) 51 5 ∧ 0 ≠ iSeti.fslot 1) ∧
    (iAddi.issues 1 4 4 = true ∧ (iAddi.fsl 1).pc + 1 < (iAddi.fsl 1).prog.length ∧ (4, Instr.addi 1 4) ∈ [(0, Instr.nop 1 4), (3, Instr.seti 1 4),
      (4, Instr.addi 1 4), (5, Instr.add 1 4), (6, Instr.sub 1 4), (7, Instr.muli 1 4), (13, Instr.aset 1 4), (14, Instr.tset 1 4), (80,
      Instr.scaleGet 1 4), (97, Instr.sigRead 1 4)] ∧ ((after (Instr.addi 1 4) iAddi).firing 1).isSome = true ∧ 4 ≠ 13 ∧ 4 ≠ 14 ∧ 0 ≠ fld
      (iAddi.instrAt 1) 51 5 ∧ 0 ≠ iAddi.fslot 1) ∧
    (iSub.issues 1 4 6 = true ∧ (iSub.fsl 1).pc + 1 < (iSub.fsl 1).prog.length ∧ (6, Instr.sub 1 4) ∈ [(0, Instr.nop 1 4), (3, Instr.seti 1 4), (4,
      Instr.addi 1 4), (5, Instr.add 1 4), (6, Instr.sub 1 4), (7, Instr.muli 1 4), (13, Instr.aset 1 4), (14, Instr.tset 1 4), (80, Instr.scaleGet 1
      4), (97, Instr.sigRead 1 4)] ∧ ((after (Instr.sub 1 4) iSub).firing 1).isSome = true ∧ 6 ≠ 13 ∧ 6 ≠ 14 ∧ 0 ≠ fld (iSub.instrAt 1) 51 5 ∧ 0 ≠
      iSub.fslot 1) ∧
    ((iAset 15).issues 1 4 13 = true ∧ ((iAset 15).fsl 1).pc + 1 < ((iAset 15).fsl 1).prog.length ∧ (13, Instr.aset 1 4) ∈ [(0, Instr.nop 1 4), (3,
      Instr.seti 1 4), (4, Instr.addi 1 4), (5, Instr.add 1 4), (6, Instr.sub 1 4), (7, Instr.muli 1 4), (13, Instr.aset 1 4), (14, Instr.tset 1 4),
      (80, Instr.scaleGet 1 4), (97, Instr.sigRead 1 4)] ∧ ((after (Instr.aset 1 4) (iAset 15)).firing 1).isSome = true ∧ 13 ≠ 14 ∧ (13 = 13 ∨ 13 =
      14) ∧ 0 ≠ fld ((iAset 15).instrAt 1) 51 5 ∧ 0 ≠ (iAset 15).fslot 1) ∧
    ((iTset 3).issues 1 4 14 = true ∧ ((iTset 3).fsl 1).pc + 1 < ((iTset 3).fsl 1).prog.length ∧ (14, Instr.tset 1 4) ∈ [(0, Instr.nop 1 4), (3,
      Instr.seti 1 4), (4, Instr.addi 1 4), (5, Instr.add 1 4), (6, Instr.sub 1 4), (7, Instr.muli 1 4), (13, Instr.aset 1 4), (14, Instr.tset 1 4),
      (80, Instr.scaleGet 1 4), (97, Instr.sigRead 1 4)] ∧ ((after (Instr.tset 1 4) (iTset 3)).firing 1).isSome = true ∧ 14 ≠ 13 ∧ (14 = 13 ∨ 14 = 14)
      ∧ 0 ≠ fld ((iTset 3).instrAt 1) 51 5 ∧ 0 ≠ (iTset 3).fslot 1) ∧
    (iGet.issues 1 4 80 = true ∧ (iGet.fsl 1).pc + 1 < (iGet.fsl 1).prog.length ∧ (80, Instr.scaleGet 1 4) ∈ [(0, Instr.nop 1 4), (3, Instr.seti 1 4),
      (4, Instr.addi 1 4), (5, Instr.add 1 4), (6, Instr.sub 1 4), (7, Instr.muli 1 4), (13, Instr.aset 1 4), (14, Instr.tset 1 4), (80,
      Instr.scaleGet 1 4), (97, Instr.sigRead 1 4)] ∧ ((after (Instr.scaleGet 1 4) iGet).firing 1).isSome = true ∧ 80 ≠ 13 ∧ 80 ≠ 14 ∧ 0 ≠ fld
      (iGet.instrAt 1) 51 5 ∧ 0 ≠ iGet.fslot 1) ∧
    (iSig.issues 1 4 97 = true ∧ (iSig.fsl 1).pc + 1 < (iSig.fsl 1).prog.length ∧ (97, Instr.sigRead 1 4) ∈ [(0, Instr.nop 1 4), (3, Instr.seti 1 4),
      (4, Instr.addi 1 4), (5, Instr.add 1 4), (6, Instr.sub 1 4), (7, Instr.muli 1 4), (13, Instr.aset 1 4), (14, Instr.tset 1 4), (80,
      Instr.scaleGet 1 4), (97, Instr.sigRead 1 4)] ∧ ((after (Instr.sigRead 1 4) iSig).firing 1).isSome = true ∧ 97 ≠ 13 ∧ 97 ≠ 14 ∧ 0 ≠ fld
      (iSig.instrAt 1) 51 5 ∧ 0 ≠ iSig.fslot 1) := by
  refine ⟨?_, ?_, ?_, ?_, ?_, ?_, ?_, ?_⟩ <;> decide +kernel

theorem test_meets_YieldAndCommit :
    (iYield.firing 1 = some firing2 ∧ 1 < iYield.geodes.length ∧ firing2.slot < (iYield.geode 1).slots.length ∧ (iYield.geode 1).retirePending = false
      ∧ iYield.issues 1 4 1 = true ∧ (iYield.fsl 1).writes = [] ∧ ((if bitAt (iYield.instrAt 1) 10 = true then fld (iYield.instrAt 1) 0 10 else if
      (iYield.fsl 1).pc + 1 = (iYield.fsl 1).prog.length then 0 else (iYield.fsl 1).pc + 1) < (iYield.fsl 1).prog.length) ∧ (iYield.fsl 1).cls ≠
      OClass.background ∧ firing2.missed = [] ∧ firing2.crossed = false ∧ firing2.veinFaults = 0 ∧ 0 ≠ 1) ∧
    (iYieldR.firing 1 = some firing2 ∧ 1 < iYieldR.geodes.length ∧ firing2.slot < (iYieldR.geode 1).slots.length ∧ (iYieldR.geode 1).retirePending =
      false ∧ iYieldR.issues 1 4 1 = true ∧ (iYieldR.fsl 1).writes = [] ∧ ((if bitAt (iYieldR.instrAt 1) 10 = true then fld (iYieldR.instrAt 1) 0 10
      else if (iYieldR.fsl 1).pc + 1 = (iYieldR.fsl 1).prog.length then 0 else (iYieldR.fsl 1).pc + 1) < (iYieldR.fsl 1).prog.length) ∧ (iYieldR.fsl
      1).cls ≠ OClass.background) ∧
    (iYieldF.firing 1 = some firing2 ∧ 1 < iYieldF.geodes.length ∧ firing2.slot < (iYieldF.geode 1).slots.length ∧ (iYieldF.geode 1).retirePending =
      false ∧ (iYieldF.fsl 1).writes = [] ∧ ((iYieldF.fsl 1).prog.length ≤ if bitAt (iYieldF.instrAt 1) 10 = true then fld (iYieldF.instrAt 1) 0 10
      else if (iYieldF.fsl 1).pc + 1 = (iYieldF.fsl 1).prog.length then 0 else (iYieldF.fsl 1).pc + 1) ∧ iYieldF.issues 1 4 1 = true) ∧
    (iCommit.firing 1 = some firing2 ∧ 1 < iCommit.geodes.length ∧ firing2.slot < (iCommit.geode 1).slots.length ∧ (iCommit.geode 1).retirePending =
      false ∧ (iCommit.fsl 1).cls ≠ OClass.background ∧ iCommit.issues 1 4 2 = true ∧ (iCommit.fsl 1).pc + 1 < (iCommit.fsl 1).prog.length) ∧
    (iCommitB.firing 1 = some firing2 ∧ 1 < iCommitB.geodes.length ∧ firing2.slot < (iCommitB.geode 1).slots.length ∧ (iCommitB.geode 1).retirePending
      = false ∧ iCommitB.issues 1 4 2 = true ∧ (iCommitB.fsl 1).cls = OClass.background ∧ (iCommitB.ctx (iCommitB.fsl 1).ctx).bg.length < 16 ∧
      (iCommitB.fsl 1).ctx < iCommitB.ctxs.length ∧ (iCommitB.fsl 1).writes = [] ∧ (iCommitB.fsl 1).pc + 1 < (iCommitB.fsl 1).prog.length ∧
      (iCommitB.fsl 1).outs = [] ∧ (iCommitB.fsl 1).ins = [] ∧ (iCommitB.ctx (iCommitB.fsl 1).ctx).bg = [] ∧ firing2.slot < 4) ∧
    (iCommitEnd.firing 1 = some firing2 ∧ 1 < iCommitEnd.geodes.length ∧ firing2.slot < (iCommitEnd.geode 1).slots.length ∧ (iCommitEnd.geode
      1).retirePending = false ∧ iCommitEnd.issues 1 4 2 = true ∧ (iCommitEnd.fsl 1).cls = OClass.background ∧ (iCommitEnd.ctx (iCommitEnd.fsl
      1).ctx).bg.length < 16 ∧ (iCommitEnd.fsl 1).writes = [] ∧ (iCommitEnd.fsl 1).pc + 1 = (iCommitEnd.fsl 1).prog.length) := by
  refine ⟨?_, ?_, ?_, ?_, ?_, ?_⟩ <;> decide +kernel

theorem test_meets_VectorArithmetic :
    (vopFn (fld ((iVop 0).instrAt 1) 36 4) = some fAdd ∧ (iVop 0).issues 1 4 34 = true ∧ ((iVop 0).fsl 1).pc + 1 < ((iVop 0).fsl 1).prog.length) ∧
    (vopFn (fld ((iVop 5).instrAt 1) 36 4) = some fGt ∧ (iVop 5).issues 1 4 34 = true ∧ ((iVop 5).fsl 1).pc + 1 < ((iVop 5).fsl 1).prog.length) ∧
    (vopFn (fld ((iVopi 2).instrAt 1) 36 4) = some fMul ∧ (iVopi 2).issues 1 4 35 = true ∧ ((iVopi 2).fsl 1).pc + 1 < ((iVopi 2).fsl 1).prog.length) ∧
    (6 ≤ fld ((iVop 6).instrAt 1) 36 4 ∧ (iVop 6).issues 1 4 34 = true ∧ 2 ≤ fld ((iVop 6).instrAt 1) 36 4) ∧
    (6 ≤ fld ((iVopi 15).instrAt 1) 36 4 ∧ (iVopi 15).issues 1 4 35 = true ∧ 2 ≤ fld ((iVopi 15).instrAt 1) 36 4) ∧
    (iVfma.issues 1 4 36 = true ∧ (iVfma.fsl 1).pc + 1 < (iVfma.fsl 1).prog.length) ∧
    (vunFn (fld ((iVun 3).instrAt 1) 36 4) = some fRelu ∧ (iVun 3).issues 1 4 37 = true ∧ ((iVun 3).fsl 1).pc + 1 < ((iVun 3).fsl 1).prog.length) ∧
    (vunFn (fld ((iVun 7).instrAt 1) 36 4) = some fCopy ∧ (iVun 7).issues 1 4 37 = true ∧ ((iVun 7).fsl 1).pc + 1 < ((iVun 7).fsl 1).prog.length) ∧
    (6 ≤ fld ((iVun 8).instrAt 1) 36 4 ∧ 8 ≤ fld ((iVun 8).instrAt 1) 36 4 ∧ (iVun 8).issues 1 4 37 = true ∧ 2 ≤ fld ((iVun 8).instrAt 1) 36 4) ∧
    (iVexp.issues 1 4 38 = true ∧ (iVexp.fsl 1).pc + 1 < (iVexp.fsl 1).prog.length) ∧
    (fld ((iVred 0).instrAt 1) 36 4 = 0 ∧ (iVred 0).issues 1 4 39 = true ∧ ((iVred 0).fsl 1).pc + 1 < ((iVred 0).fsl 1).prog.length) ∧
    (fld ((iVred 1).instrAt 1) 36 4 = 1 ∧ (iVred 1).issues 1 4 39 = true ∧ ((iVred 1).fsl 1).pc + 1 < ((iVred 1).fsl 1).prog.length) ∧
    (fld ((iVred 2).instrAt 1) 36 4 = 2 ∧ (iVred 2).issues 1 4 39 = true ∧ ((iVred 2).fsl 1).pc + 1 < ((iVred 2).fsl 1).prog.length ∧ 2 ≤ fld ((iVred
      2).instrAt 1) 36 4) ∧
    (3 ≤ fld ((iVred 3).instrAt 1) 36 4 ∧ (iVred 3).issues 1 4 39 = true ∧ 2 ≤ fld ((iVred 3).instrAt 1) 36 4) ∧
    (fld ((iVbc 0).instrAt 1) 36 4 = 0 ∧ (iVbc 0).issues 1 4 40 = true ∧ ((iVbc 0).fsl 1).pc + 1 < ((iVbc 0).fsl 1).prog.length) ∧
    (fld ((iVbc 1).instrAt 1) 36 4 = 1 ∧ (iVbc 1).issues 1 4 40 = true ∧ ((iVbc 1).fsl 1).pc + 1 < ((iVbc 1).fsl 1).prog.length) ∧
    (2 ≤ fld ((iVbc 2).instrAt 1) 36 4 ∧ (iVbc 2).issues 1 4 40 = true) ∧
    (iVsel.issues 1 4 41 = true ∧ (iVsel.fsl 1).pc + 1 < (iVsel.fsl 1).prog.length) ∧
    (fld ((iVmom 14).instrAt 1) 52 4 ≠ 15 ∧ (iVmom 14).issues 1 4 42 = true ∧ ((iVmom 14).fsl 1).pc + 1 < ((iVmom 14).fsl 1).prog.length) ∧
    (fld ((iVmom 15).instrAt 1) 52 4 = 15 ∧ (iVmom 15).issues 1 4 42 = true) ∧
    (fld ((iVadam 26).instrAt 1) 0 5 ≤ 26 ∧ (iVadam 26).issues 1 4 43 = true ∧ ((iVadam 26).fsl 1).pc + 1 < ((iVadam 26).fsl 1).prog.length) ∧
    (26 < fld ((iVadam 27).instrAt 1) 0 5 ∧ (iVadam 27).issues 1 4 43 = true) ∧
    (fld ((iVcvt 0).instrAt 1) 36 4 = 0 ∧ (iVcvt 0).issues 1 4 44 = true ∧ ((iVcvt 0).fsl 1).pc + 1 < ((iVcvt 0).fsl 1).prog.length) ∧
    (fld ((iVcvt 1).instrAt 1) 36 4 = 1 ∧ (iVcvt 1).issues 1 4 44 = true ∧ ((iVcvt 1).fsl 1).pc + 1 < ((iVcvt 1).fsl 1).prog.length) ∧
    (2 ≤ fld ((iVcvt 2).instrAt 1) 36 4 ∧ (iVcvt 2).issues 1 4 44 = true) := by
  refine ⟨⟨by rw [show fld ((iVop 0).instrAt 1) 36 4 = 0 by decide +kernel]; rfl, by decide +kernel⟩, ⟨by rw [show fld ((iVop 5).instrAt 1) 36 4 = 5 by decide +kernel]; rfl, by decide +kernel⟩, ⟨by rw [show fld ((iVopi 2).instrAt 1) 36 4 = 2 by decide +kernel]; rfl, by decide +kernel⟩, by decide +kernel, by decide +kernel, by decide +kernel, ⟨by rw [show fld ((iVun 3).instrAt 1) 36 4 = 3 by decide +kernel]; rfl, by decide +kernel⟩, ⟨by rw [show fld ((iVun 7).instrAt 1) 36 4 = 7 by decide +kernel]; rfl, by decide +kernel⟩, by decide +kernel, by decide +kernel, by decide +kernel, by decide +kernel, by decide +kernel, by decide +kernel, by decide +kernel, by decide +kernel, by decide +kernel, by decide +kernel, by decide +kernel, by decide +kernel, by decide +kernel, by decide +kernel, by decide +kernel, by decide +kernel, by decide +kernel⟩

theorem test_meets_VectorMemory :
    (EType.ofCode (fld ((iVld 5 64).instrAt 1) 36 4) = some EType.fp32 ∧ (iVld 5 64).areg 1 (fld ((iVld 5 64).instrAt 1) 48 4) + fld ((iVld 5
      64).instrAt 1) 0 21 + 64 * EType.fp32.size ≤ ((iVld 5 64).fsl 1).window ∧ (iVld 5 64).issues 1 4 32 = true ∧ ((iVld 5 64).fsl 1).pc + 1 < ((iVld
      5 64).fsl 1).prog.length) ∧
    (EType.ofCode (fld ((iVld 0 262016).instrAt 1) 36 4) = some EType.e4m3 ∧ (iVld 0 262016).areg 1 (fld ((iVld 0 262016).instrAt 1) 48 4) + fld
      ((iVld 0 262016).instrAt 1) 0 21 + 64 * EType.e4m3.size ≤ ((iVld 0 262016).fsl 1).window ∧ (iVld 0 262016).issues 1 4 32 = true ∧ ((iVld 0
      262016).fsl 1).pc + 1 < ((iVld 0 262016).fsl 1).prog.length) ∧
    (EType.ofCode (fld ((iVld 0 262017).instrAt 1) 36 4) = some EType.e4m3 ∧ ((iVld 0 262017).fsl 1).window < (iVld 0 262017).areg 1 (fld ((iVld 0
      262017).instrAt 1) 48 4) + fld ((iVld 0 262017).instrAt 1) 0 21 + 64 * EType.e4m3.size ∧ (iVld 0 262017).issues 1 4 32 = true) ∧
    (EType.ofCode (fld ((iVst 5 64).instrAt 1) 36 4) = some EType.fp32 ∧ (iVst 5 64).areg 1 (fld ((iVst 5 64).instrAt 1) 48 4) + fld ((iVst 5
      64).instrAt 1) 0 21 + 64 * EType.fp32.size ≤ ((iVst 5 64).fsl 1).window ∧ bitAt ((iVst 5 64).instrAt 1) 33 = false ∧ bitAt ((iVst 5 64).instrAt
      1) 34 = false ∧ (iVst 5 64).issues 1 4 33 = true ∧ ((iVst 5 64).fsl 1).pc + 1 < ((iVst 5 64).fsl 1).prog.length) ∧
    (EType.ofCode (fld ((iVst 3 64).instrAt 1) 36 4) = some EType.bf16 ∧ (iVst 3 64).areg 1 (fld ((iVst 3 64).instrAt 1) 48 4) + fld ((iVst 3
      64).instrAt 1) 0 21 + 64 * EType.bf16.size ≤ ((iVst 3 64).fsl 1).window ∧ bitAt ((iVst 3 64).instrAt 1) 33 = false ∧ bitAt ((iVst 3 64).instrAt
      1) 34 = false ∧ (iVst 3 64).issues 1 4 33 = true ∧ ((iVst 3 64).fsl 1).pc + 1 < ((iVst 3 64).fsl 1).prog.length) ∧
    (EType.ofCode (fld ((iVst 2 262081).instrAt 1) 36 4) = some EType.int8 ∧ ((iVst 2 262081).fsl 1).window < (iVst 2 262081).areg 1 (fld ((iVst 2
      262081).instrAt 1) 48 4) + fld ((iVst 2 262081).instrAt 1) 0 21 + 64 * EType.int8.size ∧ (iVst 2 262081).issues 1 4 33 = true) := by
  refine ⟨?_, ?_, ?_, ?_, ?_, ?_⟩ <;> decide +kernel

theorem test_meets_QueueInstructions :
    (fld ((iSkip 0 1).instrAt 1) 51 5 < 16 ∧ bitAt ((iSkip 0 1).fsl 1).qin (fld ((iSkip 0 1).instrAt 1) 51 5) = true ∧ 1 ≤ fld ((iSkip 0 1).instrAt 1)
      40 6 ∧ fld ((iSkip 0 1).instrAt 1) 40 6 ≤ 32 ∧ State.popN (fld ((iSkip 0 1).instrAt 1) 40 6) ((iSkip 0 1).spend 1 4) 1 (fld ((iSkip 0 1).instrAt
      1) 51 5) = Except.ok (sSkipU, esSkip) ∧ (iSkip 0 1).issues 1 4 66 = true ∧ ((iSkip 0 1).fsl 1).pc + 1 < ((iSkip 0 1).fsl 1).prog.length) ∧
    (fld ((iPop 0 2 0).instrAt 1) 51 5 < 16 ∧ bitAt ((iPop 0 2 0).fsl 1).qin (fld ((iPop 0 2 0).instrAt 1) 51 5) = true ∧ 1 ≤ fld ((iPop 0 2
      0).instrAt 1) 40 6 ∧ fld ((iPop 0 2 0).instrAt 1) 40 6 ≤ 32 ∧ State.popN (fld ((iPop 0 2 0).instrAt 1) 40 6) ((iPop 0 2 0).spend 1 4) 1 (fld
      ((iPop 0 2 0).instrAt 1) 51 5) = Except.ok (sPopU, esPop) ∧ bitAt ((iPop 0 2 0).instrAt 1) 39 = false ∧ ((iPop 0 2 0).queue 1 (fld ((iPop 0 2
      0).instrAt 1) 51 5)).fmt < 4 ∧ (iPop 0 2 0).areg 1 (fld ((iPop 0 2 0).instrAt 1) 47 4) + fld ((iPop 0 2 0).instrAt 1) 40 6 * fmtStride ((iPop 0
      2 0).queue 1 (fld ((iPop 0 2 0).instrAt 1) 51 5)).fmt ≤ ((iPop 0 2 0).fsl 1).window ∧ sPopU.storeEntries 1 ((iPop 0 2 0).areg 1 (fld ((iPop 0 2
      0).instrAt 1) 47 4)) (fmtStride ((iPop 0 2 0).queue 1 (fld ((iPop 0 2 0).instrAt 1) 51 5)).fmt) esPop = Except.ok sPopV ∧ (iPop 0 2 0).issues 1
      4 64 = true ∧ ((iPop 0 2 0).fsl 1).pc + 1 < ((iPop 0 2 0).fsl 1).prog.length) ∧
    (fld ((iPop 0 2 1).instrAt 1) 51 5 < 16 ∧ bitAt ((iPop 0 2 1).fsl 1).qin (fld ((iPop 0 2 1).instrAt 1) 51 5) = true ∧ 1 ≤ fld ((iPop 0 2
      1).instrAt 1) 40 6 ∧ fld ((iPop 0 2 1).instrAt 1) 40 6 ≤ 32 ∧ State.popN (fld ((iPop 0 2 1).instrAt 1) 40 6) ((iPop 0 2 1).spend 1 4) 1 (fld
      ((iPop 0 2 1).instrAt 1) 51 5) = Except.ok (sPopUV, esPop) ∧ bitAt ((iPop 0 2 1).instrAt 1) 39 = true ∧ EType.ofCode (fld ((iPop 0 2 1).instrAt
      1) 23 3) = some EType.e4m3 ∧ fmtFits EType.e4m3 false ((iPop 0 2 1).queue 1 (fld ((iPop 0 2 1).instrAt 1) 51 5)).fmt = true ∧ fld ((iPop 0 2
      1).instrAt 1) 35 4 + fld ((iPop 0 2 1).instrAt 1) 40 6 ≤ 16 ∧ ((iPop 0 2 1).queue 1 (fld ((iPop 0 2 1).instrAt 1) 51 5)).fmt < 4 ∧ (iPop 0 2
      1).issues 1 4 64 = true ∧ ((iPop 0 2 1).fsl 1).pc + 1 < ((iPop 0 2 1).fsl 1).prog.length) ∧
    (16 ≤ fld ((iPush 16).instrAt 1) 51 5 ∧ fld ((iPush 16).instrAt 1) 51 5 < 24 ∧ bitAt ((iPush 16).fsl 1).qout (fld ((iPush 16).instrAt 1) 51 5 -
      16) = true ∧ 1 ≤ fld ((iPush 16).instrAt 1) 40 6 ∧ fld ((iPush 16).instrAt 1) 40 6 ≤ 32 ∧ bitAt ((iPush 16).instrAt 1) 39 = false ∧ ((iPush
      16).queue 1 (fld ((iPush 16).instrAt 1) 51 5)).fmt < 4 ∧ State.pushPocket 1 (fld ((iPush 16).instrAt 1) 51 5) (fmtStride ((iPush 16).queue 1
      (fld ((iPush 16).instrAt 1) 51 5)).fmt) (fld ((iPush 16).instrAt 1) 40 6) ((iPush 16).spend 1 4) ((iPush 16).areg 1 (fld ((iPush 16).instrAt 1)
      47 4)) = Except.ok sPushU ∧ (iPush 16).issues 1 4 65 = true ∧ ((iPush 16).fsl 1).pc + 1 < ((iPush 16).fsl 1).prog.length) ∧
    (16 ≤ fld ((iFwd 16).instrAt 1) 51 5 ∧ fld ((iFwd 16).instrAt 1) 51 5 < 24 ∧ bitAt ((iFwd 16).fsl 1).qout (fld ((iFwd 16).instrAt 1) 51 5 - 16) =
      true ∧ fld ((iFwd 16).instrAt 1) 40 6 = 1 ∧ (iFwd 16).firing 1 = some firingM ∧ firingM.lastMarker = some marker3 ∧ marker3.marker = true ∧
      (iFwd 16).issues 1 4 67 = true ∧ ((iFwd 16).fsl 1).pc + 1 < ((iFwd 16).fsl 1).prog.length) ∧
    (16 ≤ fld (iFwd0.instrAt 1) 51 5 ∧ fld (iFwd0.instrAt 1) 51 5 < 24 ∧ bitAt (iFwd0.fsl 1).qout (fld (iFwd0.instrAt 1) 51 5 - 16) = true ∧ fld
      (iFwd0.instrAt 1) 40 6 = 1 ∧ iFwd0.firing 1 = some firing2 ∧ firing2.lastMarker = none ∧ iFwd0.issues 1 4 67 = true) ∧
    (fld ((iPop 0 0 0).instrAt 1) 51 5 < 16 ∧ bitAt ((iPop 0 0 0).fsl 1).qin (fld ((iPop 0 0 0).instrAt 1) 51 5) = true ∧ (fld ((iPop 0 0 0).instrAt
      1) 40 6 = 0 ∨ 32 < fld ((iPop 0 0 0).instrAt 1) 40 6) ∧ (iPop 0 0 0).issues 1 4 64 = true ∧ (fld ((iPop 0 0 0).instrAt 1) 51 5 < 16 ∨ 24 ≤ fld
      ((iPop 0 0 0).instrAt 1) 51 5)) ∧
    (fld ((iSkip 0 33).instrAt 1) 51 5 < 16 ∧ bitAt ((iSkip 0 33).fsl 1).qin (fld ((iSkip 0 33).instrAt 1) 51 5) = true ∧ (fld ((iSkip 0 33).instrAt
      1) 40 6 = 0 ∨ 32 < fld ((iSkip 0 33).instrAt 1) 40 6) ∧ (iSkip 0 33).issues 1 4 66 = true ∧ (fld ((iSkip 0 33).instrAt 1) 51 5 < 16 ∨ 24 ≤ fld
      ((iSkip 0 33).instrAt 1) 51 5)) ∧
    ((16 ≤ fld ((iPop 1 1 0).instrAt 1) 51 5 ∨ bitAt ((iPop 1 1 0).fsl 1).qin (fld ((iPop 1 1 0).instrAt 1) 51 5) = false) ∧ (iPop 1 1 0).issues 1 4
      64 = true ∧ (fld ((iPop 1 1 0).instrAt 1) 51 5 < 16 ∨ 24 ≤ fld ((iPop 1 1 0).instrAt 1) 51 5)) ∧
    ((16 ≤ fld ((iSkip 31 1).instrAt 1) 51 5 ∨ bitAt ((iSkip 31 1).fsl 1).qin (fld ((iSkip 31 1).instrAt 1) 51 5) = false) ∧ (iSkip 31 1).issues 1 4
      66 = true ∧ (fld ((iSkip 31 1).instrAt 1) 51 5 < 16 ∨ 24 ≤ fld ((iSkip 31 1).instrAt 1) 51 5)) ∧
    ((16 ≤ fld ((iPush 15).instrAt 1) 51 5 ∨ bitAt ((iPush 15).fsl 1).qin (fld ((iPush 15).instrAt 1) 51 5) = false) ∧ (fld ((iPush 15).instrAt 1) 51
      5 < 16 ∨ 24 ≤ fld ((iPush 15).instrAt 1) 51 5) ∧ (iPush 15).issues 1 4 65 = true) ∧
    ((16 ≤ fld ((iFwd 24).instrAt 1) 51 5 ∨ bitAt ((iFwd 24).fsl 1).qin (fld ((iFwd 24).instrAt 1) 51 5) = false) ∧ (fld ((iFwd 24).instrAt 1) 51 5 <
      16 ∨ 24 ≤ fld ((iFwd 24).instrAt 1) 51 5) ∧ (iFwd 24).issues 1 4 67 = true) := by
  refine ⟨?_, ?_, ?_, ?_, ?_, ?_, ?_, ?_, ?_, ?_, ?_, ?_⟩ <;> decide +kernel

theorem test_meets_ScaleAndSignature :
    (iGet.issues 1 4 80 = true ∧ (iGet.fsl 1).pc + 1 < (iGet.fsl 1).prog.length) ∧
    (posNormal (iSetOk.sreg 1 (fld (iSetOk.instrAt 1) 46 5)) = true ∧ iSetOk.issues 1 4 81 = true ∧ (iSetOk.fsl 1).pc + 1 < (iSetOk.fsl
      1).prog.length) ∧
    (posNormal ((iSet 2).sreg 1 (fld ((iSet 2).instrAt 1) 46 5)) = false ∧ (iSet 2).issues 1 4 81 = true) ∧
    (((iObs 1).vreg 1 (fld ((iObs 1).instrAt 1) 40 4)).poison = true ∧ (iObs 1).issues 1 4 82 = true ∧ ((iObs 1).fsl 1).pc + 1 < ((iObs 1).fsl
      1).prog.length) ∧
    (((iObs 3).vreg 1 (fld ((iObs 3).instrAt 1) 40 4)).poison = false ∧ (iObs 3).issues 1 4 82 = true ∧ ((iObs 3).fsl 1).pc + 1 < ((iObs 3).fsl
      1).prog.length) ∧
    (iHold.issues 1 4 83 = true ∧ (iHold.fsl 1).pc + 1 < (iHold.fsl 1).prog.length) ∧
    (iSig.issues 1 4 97 = true ∧ (iSig.fsl 1).pc + 1 < (iSig.fsl 1).prog.length) ∧
    (readDesc (iFold.treg 1 (fld (iFold.instrAt 1) 51 5)) = Except.ok descP ∧ fld (iFold.instrAt 1) 20 16 ≠ 0 ∧ fld (iFold.instrAt 1) 12 8 ≠ 0 ∧
      descP.loc = Loc.pocket ∧ descP.coded = false ∧ (iFold.spend 1 4).sigFold 1 descP (region (fld (BitVec.toNat (iFold.sreg 1 (fld (iFold.instrAt 1)
      41 5))) 0 16) (fld (BitVec.toNat (iFold.sreg 1 (fld (iFold.instrAt 1) 36 5))) 0 16) (fld (iFold.instrAt 1) 20 16) (fld (iFold.instrAt 1) 12 8))
      = Except.ok sFoldU ∧ iFold.issues 1 4 96 = true ∧ (iFold.fsl 1).pc + 1 < (iFold.fsl 1).prog.length) := by
  refine ⟨?_, ?_, ?_, ?_, ?_, ?_, ?_, ?_⟩ <;> decide +kernel

theorem test_meets_ArrayAndMoves :
    (fld (iMat0.instrAt 1) 24 2 ≠ 3 ∧ fld (iMat0.instrAt 1) 21 3 < 6 ∧ fld (iMat0.instrAt 1) 0 12 = 0 ∧ iMat0.issues 1 4 16 = true) ∧
    ((16, Instr.matmul 1 4 none) ∈ [(16, Instr.matmul 1 4 none), (17, Instr.matmulT 1 4 none)] ∧ fld (iMatN.instrAt 1) 56 8 = 16 ∧ readDesc
      (iMatN.treg 1 (fld (iMatN.instrAt 1) 51 5)) = Except.ok descP ∧ readDesc (iMatN.treg 1 (fld (iMatN.instrAt 1) 46 5)) = Except.ok descX ∧
      readDesc (iMatN.treg 1 (fld (iMatN.instrAt 1) 41 5)) = Except.ok descY ∧ (descP.loc = Loc.pocket ∧ descP.coded = false ∧ descP.trkEn = false) ∧
      (descX.loc = Loc.pocket ∧ descX.coded = false ∧ descX.trkEn = false) ∧ (descY.loc = Loc.pocket ∧ descY.coded = false ∧ descY.trkEn = false) ∧
      descP.etype = EType.e4m3 ∧ descX.etype = EType.e4m3 ∧ descY.etype = EType.fp32 ∧ fld (iMatN.instrAt 1) 24 2 = 0 ∧ fld (iMatN.instrAt 1) 21 3 = 0
      ∧ bitAt (iMatN.instrAt 1) 12 = false ∧ fld (iMatN.instrAt 1) 0 12 = 1 ∧ (iMatN.spend 1 4).tile 1 (argsM false) = Except.ok (mS1 iMatN false,
      tile0 false) ∧ (tile0 false).poison = false ∧ (mS1 iMatN false).tensorBlk 1 1 (fld (iMatN.instrAt 1) 46 5) descX (fld (BitVec.toNat (iMatN.sreg
      1 (fld (iMatN.instrAt 1) 26 5))) 0 16) (fld (BitVec.toNat (iMatN.sreg 1 (fld (iMatN.instrAt 1) 31 5))) 0 16) = Except.ok (mS2 iMatN false, mB
      iMatN false) ∧ (mB iMatN false).poison = false ∧ (Option.map (fun f => f.veinPoison) ((mS2 iMatN false).firing 1) = some false) ∧ fld
      (BitVec.toNat (iMatN.sreg 1 (fld (iMatN.instrAt 1) 26 5))) 16 16 < descY.rows ∧ fld (BitVec.toNat (iMatN.sreg 1 (fld (iMatN.instrAt 1) 31 5)))
      16 16 < descY.cols ∧ descY.base + fld (BitVec.toNat (iMatN.sreg 1 (fld (iMatN.instrAt 1) 26 5))) 16 16 * descY.stride + fld (BitVec.toNat
      (iMatN.sreg 1 (fld (iMatN.instrAt 1) 31 5))) 16 16 * 256 + 256 ≤ ((mS2 iMatN false).fsl 1).window ∧ iMatN.issues 1 4 16 = true ∧ (iMatN.fsl
      1).pc + 1 < (iMatN.fsl 1).prog.length) ∧
    ((17, Instr.matmulT 1 4 none) ∈ [(16, Instr.matmul 1 4 none), (17, Instr.matmulT 1 4 none)] ∧ fld (iMatT.instrAt 1) 56 8 = 17 ∧ readDesc
      (iMatT.treg 1 (fld (iMatT.instrAt 1) 51 5)) = Except.ok descP ∧ readDesc (iMatT.treg 1 (fld (iMatT.instrAt 1) 46 5)) = Except.ok descX ∧
      readDesc (iMatT.treg 1 (fld (iMatT.instrAt 1) 41 5)) = Except.ok descY ∧ fld (iMatT.instrAt 1) 24 2 = 0 ∧ fld (iMatT.instrAt 1) 21 3 = 0 ∧ bitAt
      (iMatT.instrAt 1) 12 = false ∧ fld (iMatT.instrAt 1) 0 12 = 1 ∧ (iMatT.spend 1 4).tile 1 (argsM true) = Except.ok (mS1 iMatT true, tile0 true) ∧
      (tile0 true).poison = false ∧ (mS1 iMatT true).tensorBlk 1 1 (fld (iMatT.instrAt 1) 46 5) descX (fld (BitVec.toNat (iMatT.sreg 1 (fld
      (iMatT.instrAt 1) 26 5))) 0 16) (fld (BitVec.toNat (iMatT.sreg 1 (fld (iMatT.instrAt 1) 31 5))) 0 16) = Except.ok (mS2 iMatT true, mB iMatT
      true) ∧ (mB iMatT true).poison = false ∧ (Option.map (fun f => f.veinPoison) ((mS2 iMatT true).firing 1) = some false) ∧ fld (BitVec.toNat
      (iMatT.sreg 1 (fld (iMatT.instrAt 1) 26 5))) 16 16 < descY.rows ∧ fld (BitVec.toNat (iMatT.sreg 1 (fld (iMatT.instrAt 1) 31 5))) 16 16 <
      descY.cols ∧ descY.base + fld (BitVec.toNat (iMatT.sreg 1 (fld (iMatT.instrAt 1) 26 5))) 16 16 * descY.stride + fld (BitVec.toNat (iMatT.sreg 1
      (fld (iMatT.instrAt 1) 31 5))) 16 16 * 256 + 256 ≤ ((mS2 iMatT true).fsl 1).window ∧ iMatT.issues 1 4 17 = true ∧ (iMatT.fsl 1).pc + 1 <
      (iMatT.fsl 1).prog.length) ∧
    (readDesc (iMove1.treg 1 (fld (iMove1.instrAt 1) 51 5)) = Except.ok descX ∧ readDesc (iMove1.treg 1 (fld (iMove1.instrAt 1) 46 5)) = Except.ok
      descZ ∧ (descZ.loc = Loc.pocket ∧ descZ.coded = false ∧ descZ.trkEn = false) ∧ descX.etype = descZ.etype ∧ fld (iMove1.instrAt 1) 10 2 = 0 ∧ fld
      (iMove1.instrAt 1) 20 16 = 1 ∧ fld (iMove1.instrAt 1) 12 8 = 1 ∧ (iMove1.spend 1 4).tensorBlk 1 2 (fld (iMove1.instrAt 1) 51 5) descX (fld
      (BitVec.toNat (iMove1.sreg 1 (fld (iMove1.instrAt 1) 41 5))) 0 16) (fld (BitVec.toNat (iMove1.sreg 1 (fld (iMove1.instrAt 1) 36 5))) 0 16) =
      Except.ok (vS1, vB) ∧ fld (BitVec.toNat (iMove1.sreg 1 (fld (iMove1.instrAt 1) 41 5))) 16 16 < descZ.rows ∧ fld (BitVec.toNat (iMove1.sreg 1
      (fld (iMove1.instrAt 1) 36 5))) 16 16 < descZ.cols ∧ (vS1.fsl 1).window = (iMove1.fsl 1).window ∧ (vS1.fsl 1).base = (iMove1.fsl 1).base ∧
      descZ.rawAt (fld (BitVec.toNat (iMove1.sreg 1 (fld (iMove1.instrAt 1) 41 5))) 16 16) (fld (BitVec.toNat (iMove1.sreg 1 (fld (iMove1.instrAt 1)
      36 5))) 16 16) + (elemBytes descZ.etype vB.elems).length ≤ (iMove1.fsl 1).window ∧ iMove1.issues 1 4 48 = true ∧ (iMove1.fsl 1).pc + 1 <
      (iMove1.fsl 1).prog.length) ∧
    (fld (iMove0.instrAt 1) 10 2 ≠ 3 ∧ fld (iMove0.instrAt 1) 20 16 = 0 ∧ iMove0.issues 1 4 48 = true) ∧
    (readDesc (iZero.treg 1 (fld (iZero.instrAt 1) 46 5)) = Except.ok descZ ∧ fld (iZero.instrAt 1) 10 2 = 0 ∧ fld (iZero.instrAt 1) 20 16 = 1 ∧ fld
      (iZero.instrAt 1) 12 8 = 1 ∧ fld (BitVec.toNat (iZero.sreg 1 (fld (iZero.instrAt 1) 41 5))) 16 16 < descZ.rows ∧ fld (BitVec.toNat (iZero.sreg 1
      (fld (iZero.instrAt 1) 36 5))) 16 16 < descZ.cols ∧ descZ.rawAt (fld (BitVec.toNat (iZero.sreg 1 (fld (iZero.instrAt 1) 41 5))) 16 16) (fld
      (BitVec.toNat (iZero.sreg 1 (fld (iZero.instrAt 1) 36 5))) 16 16) + descZ.etype.blockBytes ≤ (iZero.fsl 1).window ∧ iZero.issues 1 4 49 = true ∧
      (iZero.fsl 1).pc + 1 < (iZero.fsl 1).prog.length) := by
  refine ⟨?_, ?_, ?_, ?_, ?_, ?_⟩ <;> decide +kernel

theorem test_meets_CalciteRoundTrip :
    (((bytes64 0).length = if false = true then 32 else 64) ∧ (∀ x ∈ bytes64 0, x < if false = true then 65536 else 256) ∧ (∀ x ∈ bytes64 0, x = 0)) ∧
    (((bytes64 3).length = if false = true then 32 else 64) ∧ (∀ x ∈ bytes64 3, x < if false = true then 65536 else 256)) ∧
    (((bytes64 77).length = if false = true then 32 else 64) ∧ (∀ x ∈ bytes64 77, x < if false = true then 65536 else 256)) ∧
    (((words32 0).length = if true = true then 32 else 64) ∧ (∀ x ∈ words32 0, x < if true = true then 65536 else 256) ∧ (∀ x ∈ words32 0, x = 0)) ∧
    (((words32 12345).length = if true = true then 32 else 64) ∧ (∀ x ∈ words32 12345, x < if true = true then 65536 else 256)) ∧
    (((words32 1).length = if true = true then 32 else 64) ∧ (∀ x ∈ words32 1, x < if true = true then 65536 else 256)) ∧
    (((List.map (fun i => if (i % 5 == 0) = true then 0 else 56 + i % 7) (List.range 64)).length = if false = true then 32 else 64) ∧ (∀ x ∈ List.map
      (fun i => if (i % 5 == 0) = true then 0 else 56 + i % 7) (List.range 64), x < if false = true then 65536 else 256)) ∧
    (((List.map (fun i => if (i % 5 == 0) = true then 0 else 16256 + 128 * (i % 3)) (List.range 32)).length = if true = true then 32 else 64) ∧ (∀ x ∈
      List.map (fun i => if (i % 5 == 0) = true then 0 else 16256 + 128 * (i % 3)) (List.range 32), x < if true = true then 65536 else 256)) ∧
    (((List.map (fun i => if (i % 5 == 0) = true then 128 else 56) (List.range 64)).length = if false = true then 32 else 64) ∧ (∀ x ∈ List.map (fun i
      => if (i % 5 == 0) = true then 128 else 56) (List.range 64), x < if false = true then 65536 else 256)) ∧
    (((List.map (fun i => if i = 63 then 128 else 0) (List.range 64)).length = if false = true then 32 else 64) ∧ (∀ x ∈ List.map (fun i => if i = 63
      then 128 else 0) (List.range 64), x < if false = true then 65536 else 256)) := by
  refine ⟨?_, ?_, ?_, ?_, ?_, ?_, ?_, ?_, ?_, ?_⟩ <;> decide +kernel

/-- The commands of the last theorem complete. -/
theorem test_StepKeepsMemories_completes :
    step sStep = Host.Outcome.next (after Instr.brownout on) := by
  exact next_of (c := .brownout) (s := on) (by decide +kernel)

/-- The commands of the last theorem complete. -/
theorem test_RegisterInstructionsFrame_completes :
    (exec (Instr.nop 1 4) iNop = Host.Outcome.next (after (Instr.nop 1 4) iNop)) ∧
    (exec (Instr.seti 1 4) iSeti = Host.Outcome.next (after (Instr.seti 1 4) iSeti)) ∧
    (exec (Instr.addi 1 4) iAddi = Host.Outcome.next (after (Instr.addi 1 4) iAddi)) ∧
    (exec (Instr.sub 1 4) iSub = Host.Outcome.next (after (Instr.sub 1 4) iSub)) ∧
    (exec (Instr.aset 1 4) (iAset 15) = Host.Outcome.next (after (Instr.aset 1 4) (iAset 15))) ∧
    (exec (Instr.tset 1 4) (iTset 3) = Host.Outcome.next (after (Instr.tset 1 4) (iTset 3))) ∧
    (exec (Instr.scaleGet 1 4) iGet = Host.Outcome.next (after (Instr.scaleGet 1 4) iGet)) ∧
    (exec (Instr.sigRead 1 4) iSig = Host.Outcome.next (after (Instr.sigRead 1 4) iSig)) := by
  refine ⟨?_, ?_, ?_, ?_, ?_, ?_, ?_, ?_⟩ <;> exact next_of (by decide +kernel)

/-! ### Ill-formed commands are refused: one for each kind of index -/

theorem test_illformed :
    ([.cmdFlush 8, .identify 0 256, .identify 8 0, .ctxStopComplete 24, .unassignedOpcode 32 0, .firingStart 0 4, .firingStart 32 0, .qtzStepWrite 9 0,
      .ppsInEdge 4, .ingestBlockDeliver 64 false, .doorbell 8 0, .patrolScrub 32 0 0, .wakePin 4 true, .dapRead 2 0, .registerWrite 10 .devVendor 0,
      .secGalKeyWrite 8 0].all fun i : Instr => !i.wf) = true ∧
    ([.mbxStatus 8, .gd 32 .status, .gd 0 (.slotCtrl 4), .gd 0 (.qCfg 24), .galCe 32, .cicCfg 9, .mtimecmp 8, .secGalKey 8].all
      fun r => !(Instr.registerWrite 0 r 0).wf && !(Instr.clearingRead 0 r).wf) = true := by decide +kernel

theorem test_wellformed :
    ([.cmdFlush 7, .identify 7 255, .ctxStopComplete 23, .unassignedOpcode 31 0, .firingStart 31 3, .qtzStepWrite 8 0, .ppsInEdge 3,
      .ingestBlockDeliver 63 false, .doorbell 7 0, .patrolScrub 31 0 0, .wakePin 3 true, .dapRead 1 0, .registerWrite 9 (.gd 31 (.qCfg 23)) 0,
      .secGalKeyWrite 7 0].all fun i : Instr => i.wf) = true := by decide +kernel

/-! ### The manual's worked examples -/

/-- Calcite: the activation block of chapter 7 (R166), eight elements that are not zero. -/
def actBlock : List Nat :=
  (List.range 64).map fun k => match k with
    | 0 => 0x38 | 5 => 0x42 | 9 => 0xB4 | 16 => 0x3B | 17 => 0x30 | 30 => 0x45 | 41 => 0xC1 | 63 => 0x36 | _ => 0

theorem test_calcite_example : calEncode false actBlock =
    [0x06, 0x0A, 0x21, 0x02, 0x03, 0x40, 0x00, 0x02, 0x00, 0x80, 0x20, 0x3C, 0x50, 0x69, 0x49, 0x28] := by decide +kernel

/-- The example's header allows exponent codes up to 9, so E_X is 2. -/
theorem test_calcite_exponent : calExp .e4m3 (calEncode false actBlock) = some 2 := by decide +kernel

/-- With d = 3 in its header the block needs 17 bytes, and 16 are declared: a format error with cause 3. -/
theorem test_calcite_short : (match calDecode false 16 (0x06 :: 0x0B :: (calEncode false actBlock).drop 2) with
    | .error c => c | .ok _ => 0) = 3 := by decide +kernel

/-- GX32, case 1 of the worked row: 1,024 + 2^-9. -/
theorem test_row_case1 : matElem .e4m3 .e4m3 (0x60 :: List.replicate 63 0x04) (0x60 :: List.replicate 63 0x02)
    (blockExp .e4m3 (0x60 :: List.replicate 63 0x04)) 0 = 0x44800010 := by decide +kernel

/-- GX32, case 2: every small product truncates away, and the sum is +0. -/
theorem test_row_case2 : matElem .e5m2 .e5m2 (0x78 :: 0x78 :: List.replicate 62 0x01) (0x78 :: 0xF8 :: List.replicate 62 0x01)
    (blockExp .e5m2 (0x78 :: 0x78 :: List.replicate 62 0x01)) 0 = 0 := by decide +kernel

/-- Delayed scaling: m = 3.2 gives 128, m = 5.0 gives 64. -/
theorem test_scale_example : (magUnits (valRaw 0x404CCCCD)).map (deriveScale false) = some 0x43000000 ∧
    (magUnits (valRaw 0x40A00000)).map (deriveScale false) = some 0x42800000 := by decide +kernel

/-- The Gallery byte of the worked placement: slab 37, offset 0x2A80, channel 7, line of offset 0x4A0580. -/
theorem test_gallery_example : galChan (galAt 37 0x2A80) = 7 ∧ galLine (galAt 37 0x2A80) = 0x4A0580 / 128 := by decide +kernel

/-- The checkout ring: 65,536 bytes of E8 blocks hold 682 entries. -/
theorem test_ring_example : entrySize 1 = 96 ∧ (65536 - 64) / entrySize 1 = 682 := by decide +kernel

/-- The deli weighing: 4,273,800 units round to 85 d. -/
theorem test_weighing_example : roundTo 4273800 50000 = 4250000 := by decide +kernel

/-- The parked cart's three rules are legal. -/
theorem test_rules_example : ruleOk 0x19030171 0x00400100 0x00040009 0x00000103 = true ∧ ruleOk 0x00050011 0x00400102 0 0x00000201 = true ∧
    ruleOk 0x00010271 0x00600103 0x00000513 0x00000303 = true := by decide +kernel

/-- The drops of the 60 Hz drip. -/
theorem test_drop_example : [1, 2, 8, 15].map (fun k => k * 16666667 / 16) = [1041666, 2083333, 8333333, 15625000] ∧
    (({ on with drip := { on.drip with len := 16666667, drops := 16, start := 0 } } : State).dropTime 15 = (15625000 * nsU : Nat)) := by decide +kernel

/-! ### The worked example of a truncated command: IDENTIFY with tag 0x2A -/

def sTrunc : State := on.withMbx 0 fun b => { b with part := some { header := w32 0x012A0400 } }

/-- Steps 3 and 4: the E_LEN response, the hold, and the RESYNC_LEN event with its word 0x0100_2A03. -/
theorem test_truncated :
    ((after (.cmdPayloadTimeout 0) sTrunc).mb 0).cmdHeld = true ∧
    ((((after (.cmdPayloadTimeout 0) sTrunc).mb 0).rsp.map fun m => m.words).flatten.map BitVec.toNat).getLast? = some 0x01002A03 ∧
    ((((after (.cmdPayloadTimeout 0) sTrunc).mb 0).rsp.map fun m => m.words).flatten).length = 3 := by decide +kernel

/-- Step 8: IDENTIFY selects version 3.0. -/
theorem test_identify : (after (.identify 0 0x2A) (given { on with dev := { on.dev with proto := 0 } } { cmd 0x01 [0x403] with tag := 0x2A })).dev.proto = 3 := by
  decide +kernel

/-! ### The event counter -/

def flImage : List Byte := imageOf 1 0

/-- Each of the three accepted changes adds one event: a parameter, a commit, a firmware image. -/
theorem test_meets_EventCounter :
    (match metParamSet cParam.metBody sParam with | .ok (t, _) => t.fl.events | .error _ => 0) = sParam.fl.events + 1 ∧
    (match metCalCommit 5000 cCal2.metBody sCal2 with | .ok (t, _) => t.fl.events | .error _ => 0) = sCal2.fl.events + 1 ∧
    (match flintImage flImage 1024 true (on.withFl fun f => { f with calEn := true }) with | .ok (t, _) => t.fl.events | .error _ => 0) = on.fl.events + 1 := by decide +kernel

end Sys2Proof.Tests
end

-- The scope: what a step runs, the access codes, and the tables.
section
/-!
PROOFS of 00_scope.md. A step runs the command at the front, and every command answers a next state (O1); one register of each access code
(O6); a step that does not keep the tables (O3).
-/
namespace Sys2Proof.Machine

/-! ### Every command answers a next state (log entry 3) -/

/-- The outcome is a next state: no fault and no refusal. -/
def Out.Next (o : Out) : Prop := ∃ t, o = .next t

@[simp] theorem Out.next_next (t : State) : Out.Next (.next t) := ⟨t, rfl⟩

@[simp] theorem State.run_next {s : State} {m tag op : Nat} {body : Cmd → State → Answer} : (s.run m tag op body).Next := by
  fun_cases State.run <;> exact Out.next_next _

@[simp] theorem State.begin_next {s : State} {m tag op : Nat} {body : Cmd → State → Begun} : (s.begin m tag op body).Next := by
  fun_cases State.begin <;> exact Out.next_next _

theorem State.metRun_next {s : State} {m tag op : Nat} {sel : Cmd → Bool} {body : List Nat → State → MetAns} :
    (s.metRun m tag op sel body).Next := by
  fun_cases State.metRun <;> exact Out.next_next _

theorem State.kcMsg_next {s : State} {kind : Nat} {body : List W32} {ctr : Nat} {tag : List W32} {f : State → State} :
    (s.kcMsg kind body ctr tag f).Next := by
  fun_cases State.kcMsg <;> exact Out.next_next _

theorem State.dbgMsg_next {s : State} {body : List W32} {f : State → State} : (s.dbgMsg body f).Next := by
  fun_cases State.dbgMsg <;> exact Out.next_next _

theorem State.dap_next {s : State} {die ack : Nat} {f : State → State} : (s.dap die ack f).Next := by
  fun_cases State.dap <;> exact Out.next_next _

@[simp] theorem State.fromHost_next {s : State} {a : HostAcc} : (s.fromHost a).Next := by
  fun_cases State.fromHost <;> exact Out.next_next _

theorem State.cbo_next {s : State} {req addr : Nat} {write : Bool} {f : Place → State → Option State} : (s.cbo req addr write f).Next := by
  fun_cases State.cbo <;> exact Out.next_next _

theorem State.clockWindow_next {s : State} {domain count : Nat} : (s.clockWindow domain count).Next := by
  fun_cases State.clockWindow <;> exact Out.next_next _

/-- Every row answers a next state. The rows of a shared frame (R273, R341, R345, R432) end as the frame does; the others end every branch of
their own meaning with one. -/
theorem exec_next (c : Instr) (s : State) : Out.Next (exec c s) := by
  cases c <;> simp only [exec]
  -- rows that name their next state at once
  case qtzNowFracRead | dripCountLoRead | qtzStatusRead | nop | yieldI | commit | seti | addi | add | sub | muli | alui | rdspec | loopI | br |
      bcmp | aset | tset | sld | matmul | matmulT | vld | vst | vop | vopi | vfma | vun | vexpsub | vred | vbcast | vsel | vmoments | vadamw |
      vcvt | moveI | moveZero | qpop | qpush | qskip | qfwd | scaleGet | scaleSet | scaleObserve | scaleHold | sigFold | sigRead | slotStateWrite
      | katStart | geodeRetire | shelfDisable | shelfEnable | cicIpi | doorbell | machineTimer | calEnNAsserted | calEnNDeasserted | fcuHoldWrite
      | fcuResultWrite | trstN | dbgCtrlEnd | secGalKeyWrite | fwLockWrite | unassignedOpcode => exact Out.next_next _
  -- mailbox commands that answer in one step, and those that answer later
  case identify | getStatus | timeSet | timeAdjust | timeRead | ppsConfig | scrubConfig | ctxCreate | ctxBind | ctxStart | streamOpen |
      streamClose | streamStat | lanRules | pwrStatus | padRelease | dvfsSet | faultRead | faultClear | faultInject => exact State.run_next
  case slabFree | slabProtect | dmaIn | dmaOut | imageLoad | imageVerify | indexBuild | ctxStop | ctxDestroy | lanModelLoad | twinSync |
      lifecycleAdvance | debugChallenge | debugUnlock => exact State.begin_next
  -- metrology commands that Flint executes
  case metRead | metParamSet | tare | zero | keyGeneration | metCalStart | metCalCapture | metCalCommit | metCalAbort | metLogRead | metLogAck =>
      exact State.metRun_next
  -- messages to Flint
  case timing | modeMsg | pairCertificate | pairTwinCmp | firmware | lanternChunk | lanternCommit | lanternRules | lanternReport | lanternBoard |
      powerEnter | powerCommit | powerAbort | powerRunning | debugMsgEnd | debugMsgSign => exact State.kcMsg_next
  case debugMsgState | debugMsgChallenge | debugMsgUnlock | debugMsgChunk | debugMsgAdvance | debugMsgFloor => exact State.dbgMsg_next
  -- accesses of the host, of the cores' caches and of the debug port
  case mbxCmdDataWrite | mbxRspDataRead | cmdFlush | rspFlush | cmdHeldClear | faultCtrlRelease | windowAccessRejected | cameraTile => exact
      State.fromHost_next
  case cboClean | cboFlush | cboInval | cboZero => exact State.cbo_next
  case dapRead | dapWrite | dapHalt | dapResume | dapStep | dapEnd => exact State.dap_next
  -- the clock monitors
  case clockMonitorWindow => exact State.clockWindow_next
  -- rows that look at the state first: a next state at the end of every branch
  case registerWrite => fun_cases execRegisterWrite <;> simp
  case clearingRead => fun_cases execClearingRead <;> simp
  case mpAcceptCommand => fun_cases execMpAcceptCommand <;> exact Out.next_next _
  case cmdPayloadTimeout => fun_cases execCmdPayloadTimeout <;> exact Out.next_next _
  case heldMessageWrite => fun_cases execHeldMessageWrite <;> exact Out.next_next _
  case flintResponseRelay => fun_cases execFlintResponseRelay <;> exact Out.next_next _
  case metrologyTimeout => fun_cases execMetrologyTimeout <;> exact Out.next_next _
  case boardRecord => fun_cases execBoardRecord <;> simp
  case setDripStart => fun_cases execSetDripStart <;> simp
  case setDrip => fun_cases execSetDrip <;> simp
  case slabAlloc => fun_cases execSlabAlloc <;> simp
  case slabAllocShare => fun_cases execSlabAllocShare <;> simp
  case slabZeroed => fun_cases execSlabZeroed <;> exact Out.next_next _
  case dmaTransferDone => fun_cases execDmaTransferDone <;> exact Out.next_next _
  case ctxStopComplete => fun_cases execCtxStopComplete <;> exact Out.next_next _
  case ctxCheckpointSave => fun_cases execCtxCheckpointSave <;> simp
  case ctxCheckpointRestore => fun_cases execCtxCheckpointRestore <;> simp
  case pwrRequest => fun_cases execPwrRequest <;> simp
  case dvfsChangeStart => fun_cases execDvfsChangeStart <;> exact Out.next_next _
  case dvfsChangeDone => fun_cases execDvfsChangeDone <;> exact Out.next_next _
  case twinAttach => fun_cases execTwinAttach <;> simp
  case twinDetach => fun_cases execTwinDetach <;> simp
  case twinMode => fun_cases execTwinMode <;> simp
  case twinSyncGalleryDone => fun_cases execTwinSyncGalleryDone <;> exact Out.next_next _
  case injectedFault => fun_cases execInjectedFault <;> exact Out.next_next _
  case fwUpdateMp => fun_cases execFwUpdateMp <;> simp
  case fwUpdateFlint => fun_cases execFwUpdateFlint <;> simp
  case journalEntry => fun_cases execJournalEntry <;> exact Out.next_next _
  case journalTimeout => fun_cases execJournalTimeout <;> exact Out.next_next _
  case dripBoundary => fun_cases execDripBoundary <;> exact Out.next_next _
  case dropStart => fun_cases execDropStart <;> exact Out.next_next _
  case boundaryWork => fun_cases execBoundaryWork <;> exact Out.next_next _
  case exchangePacketReceive => fun_cases execExchangePacketReceive <;> exact Out.next_next _
  case exchangeTimeout => fun_cases execExchangeTimeout <;> exact Out.next_next _
  case twinPacketAuthFail => fun_cases execTwinPacketAuthFail <;> exact Out.next_next _
  case qtzStepWrite => fun_cases execQtzStepWrite <;> exact Out.next_next _
  case ppsInEdge => fun_cases execPpsInEdge <;> exact Out.next_next _
  case ppsOutEdge => fun_cases execPpsOutEdge <;> exact Out.next_next _
  case timeServoSecond => fun_cases execTimeServoSecond <;> exact Out.next_next _
  case timingHoldover => fun_cases execTimingHoldover <;> exact Out.next_next _
  case flintDropSample => fun_cases execFlintDropSample <;> exact Out.next_next _
  case weightRecordDecision => fun_cases execWeightRecordDecision <;> exact Out.next_next _
  case weightRecordSigned => fun_cases execWeightRecordSigned <;> exact Out.next_next _
  case hello => fun_cases execHello <;> exact Out.next_next _
  case sampleFrame => fun_cases execSampleFrame <;> exact Out.next_next _
  case lanternEvent => fun_cases execLanternEvent <;> exact Out.next_next _
  case mailboxResponse => fun_cases execMailboxResponse <;> exact Out.next_next _
  case recordFrame => fun_cases execRecordFrame <;> exact Out.next_next _
  case rtcLatch => fun_cases execRtcLatch <;> exact Out.next_next _
  case conduitCopy => fun_cases execConduitCopy <;> exact Out.next_next _
  case twinLate => fun_cases execTwinLate <;> exact Out.next_next _
  case ingestBlockDeliver => fun_cases execIngestBlockDeliver <;> exact Out.next_next _
  case ringEntryWrite => fun_cases execRingEntryWrite <;> exact Out.next_next _
  case ringWriteIndexUpdate => fun_cases execRingWriteIndexUpdate <;> exact Out.next_next _
  case ringReadIndexRead => fun_cases execRingReadIndexRead <;> exact Out.next_next _
  case hostLinkReject => fun_cases execHostLinkReject <;> exact Out.next_next _
  case firingStart => fun_cases execFiringStart <;> exact Out.next_next _
  case markerHandling => fun_cases execMarkerHandling <;> exact Out.next_next _
  case blockArrival => fun_cases execBlockArrival <;> exact Out.next_next _
  case creditReturn => fun_cases execCreditReturn <;> exact Out.next_next _
  case firingLimit => fun_cases execFiringLimit <;> exact Out.next_next _
  case programFaultHandling => fun_cases execProgramFaultHandling <;> exact Out.next_next _
  case veinRepairDone => fun_cases execVeinRepairDone <;> exact Out.next_next _
  case moveGalleryWriteDone => fun_cases execMoveGalleryWriteDone <;> exact Out.next_next _
  case queueDiscard => fun_cases execQueueDiscard <;> exact Out.next_next _
  case katDone => fun_cases execKatDone <;> exact Out.next_next _
  case pocketScrub => fun_cases execPocketScrub <;> exact Out.next_next _
  case galleryInit => fun_cases execGalleryInit <;> exact Out.next_next _
  case galleryInitDone => fun_cases execGalleryInitDone <;> exact Out.next_next _
  case patrolScrub => fun_cases execPatrolScrub <;> exact Out.next_next _
  case coreLoad => fun_cases execCoreLoad <;> exact Out.next_next _
  case coreStore => fun_cases execCoreStore <;> exact Out.next_next _
  case coreAmo => fun_cases execCoreAmo <;> exact Out.next_next _
  case fence => fun_cases execFence <;> exact Out.next_next _
  case shelfMissFill => fun_cases execShelfMissFill <;> exact Out.next_next _
  case evictionWritebackDone => fun_cases execEvictionWritebackDone <;> exact Out.next_next _
  case shelfDrainDone => fun_cases execShelfDrainDone <;> exact Out.next_next _
  case powerHandshakeStart => fun_cases execPowerHandshakeStart <;> exact Out.next_next _
  case blockAnswer => fun_cases execBlockAnswer <;> exact Out.next_next _
  case blockDelayTimeout => fun_cases execBlockDelayTimeout <;> exact Out.next_next _
  case entryCommit => fun_cases execEntryCommit <;> exact Out.next_next _
  case hibernateEntry => fun_cases execHibernateEntry <;> exact Out.next_next _
  case sbSync => fun_cases execSbSync <;> exact Out.next_next _
  case wake => fun_cases execWake <;> exact Out.next_next _
  case wakePin => fun_cases execWakePin <;> exact Out.next_next _
  case hostAccessWake => fun_cases execHostAccessWake <;> exact Out.next_next _
  case tckWake => fun_cases execTckWake <;> exact Out.next_next _
  case sbWake => fun_cases execSbWake <;> exact Out.next_next _
  case exitRoostTorpor => fun_cases execExitRoostTorpor <;> exact Out.next_next _
  case hibernateExit => fun_cases execHibernateExit <;> exact Out.next_next _
  case rtcWake => fun_cases execRtcWake <;> exact Out.next_next _
  case powerSample => fun_cases execPowerSample <;> exact Out.next_next _
  case throttle => fun_cases execThrottle <;> exact Out.next_next _
  case thermalLimit => fun_cases execThermalLimit <;> exact Out.next_next _
  case thermalTrip => fun_cases execThermalTrip <;> exact Out.next_next _
  case brownout => fun_cases execBrownout <;> exact Out.next_next _
  case flintReset => fun_cases execFlintReset <;> exact Out.next_next _
  case heartbeatTick => fun_cases execHeartbeatTick <;> exact Out.next_next _
  case heartbeatMiss => fun_cases execHeartbeatMiss <;> exact Out.next_next _
  case mpLockstepDiverge => fun_cases execMpLockstepDiverge <;> exact Out.next_next _
  case alertFrame => fun_cases execAlertFrame <;> exact Out.next_next _
  case alertCauseApplied => fun_cases execAlertCauseApplied <;> exact Out.next_next _
  case alertAbsent => fun_cases execAlertAbsent <;> exact Out.next_next _
  case twinFailover => fun_cases execTwinFailover <;> exact Out.next_next _
  case holdEnd => fun_cases execHoldEnd <;> exact Out.next_next _
  case aonPowerUp => fun_cases execAonPowerUp <;> exact Out.next_next _
  case rstNLow => fun_cases execRstNLow <;> exact Out.next_next _
  case railUndervoltage => fun_cases execRailUndervoltage <;> exact Out.next_next _
  case computeDieStart => fun_cases execComputeDieStart <;> exact Out.next_next _
  case firmwareSelfCalibration => fun_cases execFirmwareSelfCalibration <;> exact Out.next_next _
  case mbx3Access => fun_cases execMbx3Access <;> exact Out.next_next _
  case protectionConversionDone => fun_cases execProtectionConversionDone <;> exact Out.next_next _
  case indexBuildDone => fun_cases execIndexBuildDone <;> exact Out.next_next _
  case imageVerifyDone => fun_cases execImageVerifyDone <;> exact Out.next_next _
  case pocketPhaseDone => fun_cases execPocketPhaseDone <;> exact Out.next_next _
  case followerHandshake => fun_cases execFollowerHandshake <;> exact Out.next_next _
  case twinCmpRelay => fun_cases execTwinCmpRelay <;> exact Out.next_next _
  case flintStateTimeout => fun_cases execFlintStateTimeout <;> exact Out.next_next _
  case pllLockTimeout => fun_cases execPllLockTimeout <;> exact Out.next_next _
  case mpSramScrub => fun_cases execMpSramScrub <;> exact Out.next_next _
  case aonPowerDown => fun_cases execAonPowerDown <;> exact Out.next_next _

/-- Settles O1: `step` is `exec` on the queue's front by definition, and every row answers a next state. -/
theorem stepRunsFront : Obligations.StepRunsFront := by
  unfold Obligations.StepRunsFront
  exact ⟨fun _ _ _ => rfl, exec_next⟩

/-! ### Register accesses by requester (R7, R43, R56) -/

theorem windowReg_mbx {k : Nat} (hk : k < 8) :
    [0x00, 0x04, 0x08, 0x0C, 0x10, 0x14].map (fun o => windowReg (0x100 + 0x20 * k + o)) =
      [some (.mbxCmdData k), some (.mbxCmdCount k), some (.mbxRspData k), some (.mbxRspCount k), some (.mbxCtrl k), some (.mbxStatus k)] := by
  interval_cases k <;> rfl

/-- A write by a core or the MP reaches the register at once. -/
theorem exec_registerWrite_inside {s : State} {who : Nat} (hw : who ≠ 9) (h : s.mayAccess who = true) (r : Reg) (v : Nat) :
    exec (.registerWrite who r v) s = .next (s.writeReg who r v) := by
  simp [exec, execRegisterWrite, hw, h]

/-- A read by a core or the MP has its effect, and leaves the value in `readData` (log entry 8). -/
theorem exec_clearingRead_inside {s : State} {who : Nat} (hw : who ≠ 9) (h : s.mayAccess who = true) (r : Reg) :
    exec (.clearingRead who r) s = .next { (s.readReg who r).1 with readData := (s.readReg who r).2 } := by
  simp [exec, execClearingRead, hw, h]

/-- A host link that is up and holds nothing performs an access at once (R76). -/
theorem State.fromHost_performs {s : State} (hu : s.winUp = true) (hl : s.linkHolds = false) (a : HostAcc) :
    s.fromHost a = .next (s.perform a) := by
  simp only [State.winUp, State.active, Bool.and_eq_true, bne_iff_ne, beq_iff_eq] at hu
  obtain ⟨⟨⟨hdie, hclk⟩, hpw⟩, hlink⟩ := hu
  simp [State.fromHost, hdie, hclk, hpw, hlink, hl]

/-- A host write outside the command FIFOs is a write of the register. -/
theorem exec_registerWrite_host {s : State} (hu : s.winUp = true) (hl : s.linkHolds = false) (r : Reg) (hr : ∀ m, r ≠ .mbxCmdData m) (v : Nat) :
    exec (.registerWrite 9 r v) s = .next (s.writeReg 9 r v) := by
  have performed : s.perform (.write r v false) = s.writeReg 9 r v := by
    cases r with
    | mbxCmdData m => exact absurd rfl (hr m)
    | _ => rfl
  have sent : exec (.registerWrite 9 r v) s = s.fromHost (.write r v false) := rfl
  rw [sent, State.fromHost_performs hu hl, performed]

/-! ### One register of each access code -/

theorem State.writeReg_slotLimit (s : State) (g i v : Nat) :
    s.writeReg 8 (.gd g (.slotLimit i)) v = s.withSlot g i fun sl => { sl with limit := fld v 0 24 } := rfl

theorem State.readReg_ceCount (s : State) (g : Nat) :
    s.readReg 8 (.gd g .ceCount) = (s.withGeode g fun d => { d with ceCount := 0 }, (s.geode g).ceCount) := rfl

theorem State.readReg_qtzStep (s : State) : s.readReg 8 .qtzStep = (s, 0) := rfl

theorem State.writeReg_qtzRate_mp (s : State) (v : Nat) :
    s.writeReg 8 .qtzRate v = s.withTime fun t => { t with rate := clampRate (signed 32 v) } := rfl

theorem State.writeReg_qtzRate_core {s : State} {h v : Nat} (hh : h < 8) : s.writeReg h .qtzRate v = s := by
  have notMp : h ≠ 8 := by omega
  simp [State.writeReg, notMp]

theorem State.writeReg_heartbeat (s : State) (v : Nat) : s.writeReg 9 .heartbeat v = s := rfl

theorem State.writeReg_winStatus (s : State) (v : Nat) :
    s.writeReg 9 .winStatus v = if bitAt v 0 then s.withDev fun d => { d with accErr := false } else s := rfl

/-- Settles O6: the access reaches the register, and the register's own access code gives the rest. -/
theorem registerAccessCodes : Obligations.RegisterAccessCodes := by
  unfold Obligations.RegisterAccessCodes
  refine ⟨fun k hk => windowReg_mbx hk, fun s g i v => ⟨fun mp => ⟨?rw, ?rc, ?wo, ?rate⟩, fun hu hl => ⟨?ro, ?w1cSet, ?w1cClear⟩, ?core⟩⟩
  case rw => rw [exec_registerWrite_inside (by decide) mp, State.writeReg_slotLimit]
  case rc => rw [exec_clearingRead_inside (by decide) mp, State.readReg_ceCount]
  case wo => rw [exec_clearingRead_inside (by decide) mp, State.readReg_qtzStep]
  case rate => rw [exec_registerWrite_inside (by decide) mp, State.writeReg_qtzRate_mp]
  case ro => rw [exec_registerWrite_host hu hl .heartbeat nofun, State.writeReg_heartbeat]
  case w1cSet =>
    intro hb
    rw [exec_registerWrite_host hu hl .winStatus nofun, State.writeReg_winStatus, if_pos hb]
  case w1cClear =>
    intro hb
    rw [exec_registerWrite_host hu hl .winStatus nofun, State.writeReg_winStatus, if_neg (by simp [hb])]
  case core =>
    intro h hh core
    rw [exec_registerWrite_inside (by omega) core, State.writeReg_qtzRate_core hh]

/-! ### The end of the thermal limit (R387) -/

theorem State.writeBudgets_pw (s : State) (c : Nat) : (s.writeBudgets c).pw = s.pw :=
  List.foldlRecOn (motive := fun t : State => t.pw = s.pw) _ _ rfl fun _ ht _ _ => ht

theorem State.rebudget_pw (s : State) : s.rebudget.pw = s.pw := by
  refine List.foldlRecOn (motive := fun t : State => t.pw = s.pw) _ _ rfl fun t ht c _ => ?_
  split
  · rw [State.writeBudgets_pw, ht]
  · exact ht

theorem State.throttleEvent_pw (s : State) (mean : Nat) : (s.throttleEvent mean).pw = s.pw := rfl

/-- The sample that ends the limit puts the saved operating points back, whatever their number. -/
theorem exec_powerSample_restores {s : State} {p : Nat} {temps : List Nat} (hr : s.mpRuns = true) (hl : s.pw.limit = true)
    (hc : 999 ≤ s.pw.cool) (ht : (temps.all fun t => decide (t < 95)) = true) :
    ∃ t, exec (.powerSample p temps) s = .next t ∧ t.pw.points = s.pw.saved := by
  have cool : 1000 ≤ s.pw.cool + 1 := by omega
  simp only [exec, execPowerSample, hr, ht, hl, cool, State.withFcu_pw, State.withPw_pw, Bool.not_true, Bool.false_eq_true,
    if_false, if_true, and_self]
  refine ⟨_, rfl, ?_⟩
  rw [State.throttleEvent_pw, State.rebudget_pw]
  rfl

theorem State.tables_points {s : State} (h : s.tables = true) : s.pw.points.length = 3 := by
  simp only [State.tables, Bool.and_eq_true, beq_iff_eq] at h
  obtain ⟨⟨_, points⟩, _⟩ := h
  exact points

/-- A device under the thermal limit with no operating points saved, and the sample in its queue that ends the limit. -/
def limitWithoutSaved : State :=
  { State.reset with
    dev := { die := .serving }
    pw := { limit := true, cool := 999 }
    pending := [.powerSample 0 []] }

theorem limitWithoutSaved_tables : limitWithoutSaved.tables = true := by decide +kernel

/-- Refutes O3: `State.tables` says nothing of `Pw.saved`, and the end of the thermal limit makes it the table of operating points (R387). From
`limitWithoutSaved`, whose tables all have their sizes, the step leaves no operating point at all. THERMAL_LIMIT itself saves the
points in force, so reset does not lead to this state; the statement is about every state, and for that the invariant lacks the sizes of what is
saved. -/
theorem not_stepKeepsTables : ¬ Obligations.StepKeepsTables := by
  unfold Obligations.StepKeepsTables
  intro keeps
  obtain ⟨t, stepped, restored⟩ :=
    exec_powerSample_restores (s := { limitWithoutSaved with pending := [] }) (p := 0) (temps := []) rfl rfl (Nat.le_refl _) rfl
  have three : t.pw.points.length = 3 := State.tables_points (keeps limitWithoutSaved t limitWithoutSaved_tables stepped)
  have emptied : t.pw.points = [] := restored
  rw [emptied] at three
  exact absurd three (by decide)

end Sys2Proof.Machine
end

-- The state after reset, and SET_DRIP.
section
/-!
PROOFS of 02_drip_and_time.md. The values after reset (O4); the limits of SET_DRIP and the schedule changes it makes (O8, O9).
-/
namespace Sys2Proof.Machine

/-! ### After reset (R42, R43, R56) -/

/-- Every mailbox is empty after reset. -/
theorem State.reset_mb {m : Nat} (h : m < 8) : State.reset.mb m = {} := List.getD_replicate _ h

theorem State.reset_memWf : State.reset.memWf = true := by decide +kernel
theorem State.reset_tables : State.reset.tables = true := by decide +kernel

/-- Settles O4: the registers are read off the state after reset, whose mailboxes are empty, whose memories are empty lists and whose tables are lists
of the sizes given. -/
theorem resetValues : Obligations.ResetValues := by
  unfold Obligations.ResetValues
  have mailboxes : ∀ m < 8, State.reset.regValue 9 (.mbxCmdCount m) = 0 ∧ State.reset.regValue 9 (.mbxRspCount m) = 0 ∧
      State.reset.regValue 9 (.mbxStatus m) = 0 := fun m h => by
    simp only [State.regValue, State.reset_mb h]
    decide
  exact ⟨⟨rfl, rfl, rfl, rfl, rfl, rfl, rfl, rfl, rfl, rfl, rfl, rfl, rfl, mailboxes, rfl, rfl, rfl, rfl⟩, State.reset_memWf, State.reset_tables⟩

/-! ### The limits of R26 -/

theorem dripLegal_iff {len n : Nat} :
    dripLegal len n = true ↔ 250000 ≤ len ∧ len ≤ 50000000 ∧ 1 ≤ n ∧ n ≤ 256 ∧ 200000 * n ≤ len := by
  simp only [dripLegal, Bool.and_eq_true, decide_eq_true_eq]
  omega

theorem setDripStart_breaks_limits {c : Cmd} {s : State} (h : dripLegal (fld (c.word 1) 0 26) (fld (c.word 2) 0 9) = false) (ch : List Nat) :
    setDripStart c ch s = .error (eParam, []) := by
  simp only [setDripStart]
  by_cases start : s.drip.phase = .stopped ∧ bitAt (c.word 0) 0 = true
  · rw [need_bind (decide_eq_true start), need_bind_false h]
  · rw [need_bind_false (decide_eq_false start)]

theorem setDrip_breaks_limits {c : Cmd} {s : State} (hnew : bitAt (c.word 0) 0 = true)
    (h : dripLegal (fld (c.word 1) 0 26) (fld (c.word 2) 0 9) = false) (ch : List Nat) : setDrip c ch s = .error (eParam, []) := by
  simp only [setDrip, hnew, if_true]
  by_cases some : fld (c.word 0) 0 3 ≠ 0
  · rw [need_bind (decide_eq_true some)]
    by_cases set : s.drip.phase = .stopped
    · rw [need_bind_false (by simp [set])]
    · rw [need_bind (by simp [set]), need_bind_false h]
  · rw [need_bind_false (decide_eq_false some)]

theorem execSetDripStart_ready {s : State} {m tag : Nat} {c : Cmd} (h : s.ready m tag 0x04 c) (hb : bitAt (c.word 0) 2 = true) :
    exec (.setDripStart m tag) s = s.run m tag 0x04 fun c => setDripStart c [] := by
  simp only [exec, execSetDripStart, h.1, hb, if_true]

theorem execSetDrip_ready {s : State} {m tag : Nat} {c : Cmd} (h : s.ready m tag 0x04 c) (hb : bitAt (c.word 0) 2 = false) :
    exec (.setDrip m tag) s = s.run m tag 0x04 fun c => setDrip c [] := by
  simp [exec, execSetDrip, h.1, hb]

/-- Settles O8: the first three checks of SET_DRIP all answer E_PARAM, and the third is that of the limits. -/
theorem dripLimits : Obligations.DripLimits := by
  unfold Obligations.DripLimits
  refine ⟨fun _ _ => dripLegal_iff, fun len n hn => ?_, fun s m tag c ready broken => ⟨fun start => ?_, fun start new _ => ?_⟩⟩
  · rw [← Bool.not_eq_true, dripLegal_iff]
    omega
  · rw [execSetDripStart_ready ready start]
    exact State.run_rejects ready (setDripStart_breaks_limits broken [])
  · rw [execSetDrip_ready ready start]
    exact State.run_rejects ready (setDrip_breaks_limits new broken [])

/-! ### The schedules that SET_DRIP writes (R28, R453) -/

/-- A start of L `len`, N `n` and T `t`. -/
theorem setDripStart_accepts {c : Cmd} {s : State} {len n t : Nat} (hlen : fld (c.word 1) 0 26 = len) (hn : fld (c.word 2) 0 9 = n)
    (ht : c.word 4 + giga * (c.word 5 + fld (c.word 6) 0 16 * 2 ^ 32) = t) (stopped : s.drip.phase = .stopped) 
    (new : bitAt (c.word 0) 0 = true) (untrimmed : bitAt (c.word 0) 1 = false) (legal : dripLegal len n = true) (set : s.time.quality ≠ .unset)
    (ns : c.word 4 < giga) (fits : workFits (s.work 0 0) len = true) (early : s.time.now + 100000 * nsU ≤ t * nsU)
    (late : t * nsU ≤ s.time.now + giga * nsU) :
    setDripStart c [] s = .ok (((s.withDrip fun d =>
      { d with phase := .scheduled, count := 0, base := len, len := len, drops := n, drop := 0, start := (t * nsU : Nat), pend := none }).withDev
        fun d => { d with dripSet := true }).rebudget, w64 0, [0, t]) := by
  subst hlen hn ht
  simp only [setDripStart, untrimmed, Bool.false_eq_true, if_false, Int.add_zero, Int.toNat_natCast]
  rw [List.getD_nil, need_bind (by simp [stopped, new]), need_bind legal, need_bind legal, need_bind (by simpa using set),
    need_bind (decide_eq_true (.inr ⟨ns, early, late⟩)), need_bind fits]
  rfl

/-- A SET_DRIP that sets one of its flags asks for a change. -/
theorem change_of_bitAt {v k : Nat} (hk : k < 3) (h : bitAt v k = true) : fld v 0 3 ≠ 0 := by
  simp only [bitAt, beq_iff_eq] at h
  simp only [fld]
  interval_cases k <;> omega

/-- A change accepted while the generator runs: `len` and `n` are the new L and N, or those in force, and `trim` is 0 or the trim given. -/
theorem setDrip_accepts {c : Cmd} {s : State} {len n : Nat} {trim : Int} {soon : Bool}
    (hlen : (if bitAt (c.word 0) 0 = true then fld (c.word 1) 0 26 else s.drip.base) = len)
    (hn : (if bitAt (c.word 0) 0 = true then fld (c.word 2) 0 9 else s.drip.drops) = n)
    (htrim : (if bitAt (c.word 0) 1 = true then signed 32 (c.word 3) else 0) = trim)
    (hsoon : decide (s.nextBoundary < s.time.now + 10000 * nsU) = soon) (change : fld (c.word 0) 0 3 ≠ 0) (running : s.drip.phase = .running)
    (legal : dripLegal len n = true) (trimmed : dripLegal ((len : Int) + trim) n = true)
    (fits : (!bitAt (c.word 0) 0 || workFits (s.work 0 0) len) = true) :
    setDrip c [] s = .ok (((s.withDrip fun d => { d with pend := some ⟨len, n, trim, soon⟩ }).withDev fun d => { d with dripSet := true }).rebudget,
      w64 (if soon then s.drip.count + 2 else s.drip.count + 1), [if soon then s.drip.count + 2 else s.drip.count + 1]) := by
  simp only [setDrip, hlen, hn, htrim, hsoon, running, if_true]
  rw [List.getD_nil, need_bind (decide_eq_true change), need_bind (by decide), need_bind legal, need_bind trimmed, need_bind fits]
  cases soon with
  | true => simp [pure, Except.pure]
  | false => simp [pure, Except.pure]

/-- Settles O9: under the hypotheses of each form every check of SET_DRIP passes, and what remains is the schedule it writes. -/
theorem dripScheduleChanges : Obligations.DripScheduleChanges := by
  unfold Obligations.DripScheduleChanges
  refine ⟨fun s m tag c ready stopped start new untrimmed legal set ns fits early late => ?_,
    fun s m tag c ready running start => ⟨fun new untrimmed legal fits => ?_, fun kept trim legal trimmed ahead => ?_⟩⟩
  · rw [execSetDripStart_ready ready start]
    exact State.run_ready ready (setDripStart_accepts rfl rfl rfl stopped new untrimmed legal set ns fits early late)
  · rw [execSetDrip_ready ready start]
    exact State.run_ready ready (setDrip_accepts (by simp [new]) (by simp [new]) (by simp [untrimmed]) rfl (change_of_bitAt (by decide) new) running
      legal (by simpa using legal) (by simpa [new] using fits))
  · rw [execSetDrip_ready ready start]
    exact State.run_ready ready (setDrip_accepts (soon := false) (by simp [kept]) (by simp [kept]) (by simp [trim]) (by simpa using ahead)
      (change_of_bitAt (by decide) trim) running legal trimmed (by simp [kept]))

end Sys2Proof.Machine
end

-- The time commands.
section
/-!
PROOFS of 02_drip_and_time.md. TIME_SET, TIME_READ, PPS_CONFIG and TIME_ADJUST (O10).
-/
namespace Sys2Proof.Machine

/-! ### TIME_SET, TIME_READ and PPS_CONFIG (R46, R47, R282) -/

/-- The time that the words of TIME_SET name, in units of 2^-32 ns (R282). -/
def Cmd.timeNamed (c : Cmd) : Nat := c.word 0 + nsU * (c.word 1 + giga * (c.word 2 + fld (c.word 3) 0 16 * 2 ^ 32))

theorem addTime_to (now t : Nat) : addTime now ((t : Int) - now) = t % timeMod := by
  rw [addTime, add_sub_cancel, ← Int.natCast_mod, Int.toNat_natCast]

@[simp] theorem State.jump_drip (s : State) (d : Int) :
    (s.jump d).drip = if s.drip.phase = .stopped then s.drip else { s.drip with start := s.drip.start + d } := rfl

theorem exec_timeSet {s : State} {m tag : Nat} {c : Cmd} (ready : s.ready m tag 0x10 c) (ns : c.word 1 < giga) :
    exec (.timeSet m tag) s = .next (((s.jump ((c.timeNamed : Int) - s.time.now)).withTime fun x =>
      { x with quality := .holdover, good := 0 }).finish m c sOk [] []) := by
  apply State.run_ready ready
  rw [need_bind (decide_eq_true ns)]
  rfl

theorem exec_timeRead {s : State} {m tag : Nat} {c : Cmd} (ready : s.ready m tag 0x12 c) :
    exec (.timeRead m tag) s = .next (s.finish m c sOk (leWords 4 (leBytes 16 s.stamp) ++ w64 s.drip.count ++
      [w32 (s.time.ppsCap % giga), w32 (s.time.ppsCap / giga), w32 (s.time.ppsCap / giga / 2 ^ 32)]) []) :=
  State.run_ready ready rfl

theorem exec_ppsConfig {s : State} {m tag : Nat} {c : Cmd} (ready : s.ready m tag 0x13 c)
    (offset : -500000000 ≤ signed 32 (c.word 1) ∧ signed 32 (c.word 1) ≤ 500000000) (width : 1000 ≤ c.word 2 ∧ c.word 2 ≤ 500000000) :
    exec (.ppsConfig m tag) s = .next ((s.withTime fun t =>
      { t with ppsOutEn := bitAt (c.word 0) 0, ppsOutOffset := signed 32 (c.word 1), ppsOutWidth := c.word 2
               ppsOut := t.ppsOut && bitAt (c.word 0) 0 }).finish m c sOk [] []) := by
  apply State.run_ready ready
  rw [need_bind (decide_eq_true offset), need_bind (decide_eq_true width)]
  rfl

/-! ### TIME_ADJUST (R46) -/

/-- Whether TIME_ADJUST pairs with an edge: an unused one of the last 4 s, of the second named (R46). -/
def State.pairs (s : State) (c : Cmd) : Edge → Bool := fun e => !e.used && nearSec e.ns % 2 ^ 32 == c.word 4 && s.recentEdge e

/-- Edge `e` is used, with the offset `off` that TIME_ADJUST reports, which is kept for extrapolation, and the servo acts on its e (R46). -/
def State.adjusted (s : State) (c : Cmd) (off : Int) (e : Edge) : State :=
  (s.withTime fun t =>
    { t with
      edges := t.edges.map fun x => if x = e then { x with used := true, done := true } else x
      adj := some ⟨nearSec e.ns, off, signed 32 (c.word 2), bitAt (c.word 3) 0⟩ }).servo e (edgeErr e.ns off)

/-- An error beyond 100 µs is stepped out, with quality HOLDOVER (R46). -/
theorem State.adjusted_far {s : State} {c : Cmd} {off : Int} {e : Edge} (far : 100 * (1000 * 2 ^ 16) < |edgeErr e.ns off|) :
    s.adjusted c off e = s.withTime fun t =>
      { t with
        edges := t.edges.map fun x => if x = e then { x with used := true, done := true } else x
        adj := some ⟨nearSec e.ns, off, signed 32 (c.word 2), bitAt (c.word 3) 0⟩
        step := -((edgeErr e.ns off + 2 ^ 15) / 2 ^ 16), good := 0, lastE := some e.mark, quality := .holdover } := by
  simp only [State.adjusted, State.servo, if_pos far]
  rfl

section
variable {s : State} {m tag : Nat} {c : Cmd} {off : Int} (ready : s.ready m tag 0x11 c) (hoff : signed 64 (c.word 0 + c.word 1 * 2 ^ 32) = off)
  (low : -(giga * 2 ^ 16 : Nat) ≤ off) (high : off ≤ (giga * 2 ^ 16 : Nat)) (noRate : bitAt (c.word 3) 0 = false)
include ready hoff low high noRate

theorem exec_timeAdjust_unused (h : s.time.edges.find? (s.pairs c) = none) :
    exec (.timeAdjust m tag) s = .next (s.finish m c sOk [w32 (2 * s.time.quality.code)] []) := by
  apply State.run_ready ready
  unfold State.pairs at h
  simp only [hoff, noRate, h]
  rw [need_bind (decide_eq_true ⟨low, high⟩), need_bind (by rfl)]
  rfl

theorem exec_timeAdjust_used {e : Edge} (h : s.time.edges.find? (s.pairs c) = some e) :
    exec (.timeAdjust m tag) s =
      .next ((s.adjusted c off e).finish m c sOk [w32 (1 + 2 * (s.adjusted c off e).time.quality.code)] []) := by
  apply State.run_ready ready
  unfold State.pairs at h
  simp only [hoff, noRate, h, State.adjusted]
  rw [need_bind (decide_eq_true ⟨low, high⟩), need_bind (by rfl)]
  rfl

end

/-- Settles O10: each command passes its range checks; a TIME_ADJUST then depends on whether the one edge captured is the one it names. -/
theorem timeCommands : Obligations.TimeCommands := by
  unfold Obligations.TimeCommands
  refine ⟨fun s m tag c => ⟨fun ready ns => ?_, fun ready => exec_timeRead ready, fun ready lo hi short long => exec_ppsConfig ready ⟨lo, hi⟩ ⟨short, long⟩⟩,
    fun s m tag c e ready low high noRate => ⟨fun none => ?_, fun one unused named recent far => ?_⟩⟩
  · refine ⟨_, exec_timeSet ready ns, rfl, addTime_to _ _, ?_, ?_, ?_, fun set => ?_, rfl, rfl, rfl⟩
    all_goals simp only [State.withTime_drip, State.jump_drip]
    · split <;> rfl
    · split <;> rfl
    · split <;> rfl
    · rw [if_neg set]
      exact add_sub_cancel_left _ _
  · exact exec_timeAdjust_unused ready rfl low high noRate (by rw [none]; rfl)
  · have paired : s.time.edges.find? (s.pairs c) = some e := by
      rw [one, List.find?_cons_of_pos (by simp only [State.pairs, unused, named, recent, beq_self_eq_true]; rfl)]
    have used := exec_timeAdjust_used ready rfl low high noRate paired
    have stepped := State.adjusted_far (s := s) (c := c) far
    have holdover := congrArg (fun t : State => t.time.quality) stepped
    rw [holdover] at used
    refine ⟨_, used, holdover, ?_⟩
    rw [stepped]
    refine ⟨?_, rfl, rfl, State.withTime_drip _ _, State.withTime_mbx _ _⟩
    simp [one]

end Sys2Proof.Machine
end

-- Quartz: its latches, its register accesses, its pins and the servo.
section
/-!
PROOFS of 02_drip_and_time.md. The latched reads (O37); QTZ_STATUS, QTZ_STEP, PPS_IN, PPS_OUT and the second of the servo (O38).
-/
namespace Sys2Proof.Machine

/-! ### Latched reads of Quartz (R44) -/

/-- What a read of `QTZ_NOW_FRAC` latches. -/
def State.latchTime (s : State) (l : Latch) : Latch := { l with ns := s.ns % giga, sec := s.ns / giga }
/-- What a read of `DRIP_COUNT_LO` latches. -/
def State.latchDrip (s : State) (l : Latch) : Latch := { l with dripHi := s.drip.count / 2 ^ 32 }

/-- The latch of a requester. -/
def State.latch (s : State) (q : Nat) : Latch := s.time.latches.getD q {}

/-- The registers that a requester's latch holds. -/
theorem State.regValue_latched (s : State) (q : Nat) :
    s.regValue q .qtzNowNs = (s.latch q).ns ∧ s.regValue q .qtzNowSecLo = (s.latch q).sec % 2 ^ 32 ∧
      s.regValue q .qtzNowSecHi = (s.latch q).sec / 2 ^ 32 % 2 ^ 16 ∧ s.regValue q .dripCountHi = (s.latch q).dripHi % 2 ^ 32 :=
  ⟨rfl, rfl, rfl, rfl⟩

/-- A read that latches for requester `r` by `f`, and returns `v`. -/
def State.latching (s : State) (r : Nat) (f : Latch → Latch) (v : Nat) : State :=
  { s.withTime (fun t => { t with latches := upd t.latches r f }) with readData := v }

theorem exec_qtzNowFracRead (r : Nat) (s : State) : exec (.qtzNowFracRead r) s = .next (s.latching r s.latchTime (s.time.now % nsU)) := rfl
theorem exec_dripCountLoRead (r : Nat) (s : State) : exec (.dripCountLoRead r) s = .next (s.latching r s.latchDrip (s.drip.count % 2 ^ 32)) := rfl

theorem State.latch_latching_self {s : State} {r : Nat} (h : r < s.time.latches.length) (f : Latch → Latch) (v : Nat) :
    (s.latching r f v).latch r = f (s.latch r) := upd_getD_self h

theorem State.latch_latching_ne {s : State} {r q : Nat} (h : q ≠ r) (f : Latch → Latch) (v : Nat) :
    (s.latching r f v).latch q = s.latch q := upd_getD_ne h.symm

theorem State.readReg_keeps {s : State} {r : Nat} {reg : Reg} (h : s.readEffect r reg = s) : (s.readReg r reg).1 = s := by
  unfold State.readReg
  split
  · exact h
  · rfl

theorem State.readReg_latched {s : State} (r : Nat) {reg : Reg} (h : reg ∈ [Reg.qtzNowNs, .qtzNowSecLo, .qtzNowSecHi, .dripCountHi]) :
    (s.readReg r reg).1 = s := by
  apply State.readReg_keeps
  simp only [List.mem_cons, List.not_mem_nil, or_false] at h
  rcases h with rfl | rfl | rfl | rfl <;> rfl

/-- Settles O37: a latching read changes its requester's latch alone, and the latched registers show a requester its own latch. -/
theorem quartzLatches : Obligations.QuartzLatches := by
  unfold Obligations.QuartzLatches
  intro s r hr nine
  have inTable : r < s.time.latches.length := by omega
  refine ⟨⟨_, exec_qtzNowFracRead r s, ?_, ?_, ?_, ?_, fun q hq => ?_, rfl, rfl⟩, ⟨_, exec_dripCountLoRead r s, ?_, ?_, fun q hq => ?_, rfl, rfl⟩,
    State.readReg_latched r (by simp), State.readReg_latched r (by simp), State.readReg_latched r (by simp), State.readReg_latched r (by simp)⟩
  all_goals simp only [State.regValue_latched, State.latch_latching_self inTable]
  case refine_5 | refine_8 => simp only [State.latch_latching_ne hq, and_self]
  all_goals rfl

/-! ### The counter (R42, R43) -/

@[simp] theorem State.takeStep_step (s : State) : s.takeStep.time.step = 0 := by
  unfold State.takeStep
  split
  · assumption
  · rfl

@[simp] theorem State.takeStep_rate (s : State) : s.takeStep.time.rate = s.time.rate := by
  unfold State.takeStep
  split <;> rfl

/-- A waiting step moves the start of a drip, or of the schedule, with the counter, and nothing else of the generator (R47). -/
theorem State.takeStep_drip (s : State) :
    s.takeStep.drip =
      { s.drip with start := if s.drip.phase = .stopped then s.drip.start else s.drip.start + s.time.step * nsU } := by
  unfold State.takeStep
  split
  next none => rw [none, zero_mul, add_zero, ite_self]
  · have moved : ((s.jump (s.time.step * nsU)).withTime fun t => { t with step := 0 }).drip =
        if s.drip.phase = .stopped then s.drip else { s.drip with start := s.drip.start + s.time.step * nsU } := rfl
    rw [moved]
    split <;> rfl

theorem addTime_addTime (now : Nat) (d e : Int) : addTime (addTime now d) e = addTime now (d + e) := by
  have positive : 0 < (timeMod : Int) := by decide
  rw [addTime, addTime, addTime, Int.toNat_of_nonneg (Int.emod_nonneg _ positive.ne'), Int.emod_add_emod, add_assoc]

/-- The counter after a step is taken and `e` has passed. -/
theorem State.takeStep_now (s : State) (e : Int) : addTime s.takeStep.time.now e = addTime s.time.now (s.time.step * nsU + e) := by
  unfold State.takeStep
  split
  next none => rw [none, zero_mul, zero_add]
  · exact addTime_addTime _ _ _

theorem State.cycles_one (s : State) :
    s.cycles 1 = { s.takeStep.withTime (fun t => { t with now := addTime t.now (4 * nsU + t.rate) }) with mtime := (s.mtime + 1) % 2 ^ 64 } := by
  simp only [State.cycles, Nat.one_ne_zero, if_false, Nat.cast_one, one_mul]

theorem exec_qtzStepWrite_mp {s : State} (h : s.qtzRuns = true) (v : W32) :
    exec (.qtzStepWrite 8 v) s = .next ((s.withTime fun t => { t with step := v.toInt }).cycles 1) := by
  simp [exec, execQtzStepWrite, h, bit]

theorem exec_qtzStepWrite_other {s : State} {r : Nat} (h : r ≠ 8) (v : W32) : exec (.qtzStepWrite r v) s = .next s := by
  simp [exec, execQtzStepWrite, h]

/-! ### PPS_IN and PPS_OUT (R45, R48) -/

section
variable {s : State} {ph : Nat} (hph : ph < 4) (runs : s.qtzRuns = true)
include hph runs

theorem exec_ppsInEdge_ignored {x : Int} (last : s.time.ppsMark = some x) (near : (((s.ns + ph) * nsU : Nat) : Int) < x + (500000000 * nsU : Nat)) :
    exec (.ppsInEdge ph) s = .next s := by
  simp only [exec, execPpsInEdge, runs, Nat.mod_eq_of_lt hph, last, Option.map_some, decide_eq_true near, Option.getD_some, Bool.not_true,
    Bool.false_eq_true, if_false, if_true]

theorem exec_ppsInEdge_captured (far : ∀ x, s.time.ppsMark = some x → x + (500000000 * nsU : Nat) ≤ (((s.ns + ph) * nsU : Nat) : Int)) :
    exec (.ppsInEdge ph) s = .next (s.withTime fun x =>
      { x with
        ppsNew := true, ppsCap := s.ns + ph, ppsMark := some ((s.ns + ph) * nsU : Nat)
        edges := x.edges.filter (fun e => decide ((((s.ns + ph) * nsU : Nat) : Int) ≤ e.mark + (4 * giga * nsU : Nat))) ++
          [{ ns := s.ns + ph, mark := ((s.ns + ph) * nsU : Nat) }] }) := by
  have accepted : (s.time.ppsMark.map fun m => decide ((((s.ns + ph) * nsU : Nat) : Int) < m + (500000000 * nsU : Nat))).getD false = false := by
    cases last : s.time.ppsMark with
    | none => rfl
    | some x => exact decide_eq_false (not_lt.mpr (far x last))
  simp only [exec, execPpsInEdge, runs, Nat.mod_eq_of_lt hph, accepted, Bool.not_true, Bool.false_eq_true, if_false]

end

theorem exec_ppsOutEdge_rise {s : State} (runs : s.qtzRuns = true) (low : s.time.ppsOut = false) (enabled : s.time.ppsOutEn = true)
    (set : s.time.quality ≠ .unset) (free : bitAt s.pw.held 0 = false) :
    exec .ppsOutEdge s = .next ((s.advanceTo (nextRise s.ns s.time.ppsOutOffset * nsU)).withTime fun t => { t with ppsOut := true }) := by
  simp [exec, execPpsOutEdge, runs, low, enabled, set, free]

theorem exec_ppsOutEdge_fall {s : State} (runs : s.qtzRuns = true) (high : s.time.ppsOut = true) :
    exec .ppsOutEdge s =
      .next ((s.advanceTo ((lastRise s.ns s.time.ppsOutOffset + s.time.ppsOutWidth) * nsU)).withTime fun t => { t with ppsOut := false }) := by
  simp [exec, execPpsOutEdge, runs, high]

/-- The next rise is the first whole second plus the offset that is not past (R48). -/
theorem nextRise_bounds (now : Nat) (off : Int) : (now : Int) ≤ nextRise now off ∧ nextRise now off < now + giga := by
  simp only [nextRise, giga]
  push_cast
  omega

/-! ### The servo (R46) -/

theorem clampRate_bounds (r : Int) : -3435973 ≤ clampRate r ∧ clampRate r ≤ 3435973 := by
  simp only [clampRate, rateMax]
  omega

@[simp] theorem State.servo_edges (s : State) (edge : Edge) (e : Int) : (s.servo edge e).time.edges = s.time.edges := by
  simp only [State.servo]
  split <;> rfl

@[simp] theorem State.servo_now (s : State) (edge : Edge) (e : Int) : (s.servo edge e).time.now = s.time.now := by
  simp only [State.servo]
  split <;> rfl

/-- A servo that acts leaves quality HOLDOVER or DISCIPLINED. -/
theorem State.servo_quality (s : State) (edge : Edge) (e : Int) : (s.servo edge e).time.quality ≠ .unset := by
  have kept : ∀ (p : Prop) [Decidable p], (if p then Quality.disciplined else .holdover) ≠ .unset := fun p _ => by split <;> decide
  simp only [State.servo]
  split
  · exact Quality.noConfusion
  · exact kept _

section
variable {s : State} {edge : Edge} {e : Int} (within : ¬ 100 * (1000 * 2 ^ 16) < |e|)
include within

/-- Within 100 µs the servo writes a rate, which stays inside the limit of `QTZ_RATE` (R42, R46). -/
theorem State.servo_rate : -3435973 ≤ (s.servo edge e).time.rate ∧ (s.servo edge e).time.rate ≤ 3435973 := by
  simp only [State.servo, if_neg within]
  exact clampRate_bounds _

theorem State.servo_good : (s.servo edge e).time.good = if |e| < 1000 * 2 ^ 16 then s.time.goodAfter (nearSec edge.ns) else 0 := by
  simp only [State.servo, if_neg within, State.withTime_time, decide_eq_true_eq]

end

/-- The oldest edge without an e takes its extrapolated offset. -/
theorem exec_timeServoSecond_extrapolates {s : State} {e : Edge} {a : TimeAdj} {off : Int} (runs : s.mpRuns = true)
    (oldest : s.time.edges.find? (fun e => !e.done && s.recentEdge e) = some e) (adj : s.time.adj = some a)
    (extrapolated : a.extrapolate (nearSec e.ns) = some off) :
    exec .timeServoSecond s =
      .next ((s.withTime fun t => { t with edges := t.edges.map fun x => if x = e then { x with done := true } else x }).servo e (edgeErr e.ns off)) := by
  simp only [exec, execTimeServoSecond, runs, Bool.not_true, Bool.false_eq_true, if_false, oldest, adj, Option.bind_some, extrapolated]

/-- Without an edge, a disciplined clock whose last e is 2.5 s old falls to HOLDOVER. -/
theorem exec_timeServoSecond_falls {s : State} (runs : s.mpRuns = true) (noEdge : s.time.edges = []) (disciplined : s.time.quality = .disciplined)
    (old : ∀ x, s.time.lastE = some x → x + (2500000000 * nsU : Nat) ≤ (s.time.now : Int)) :
    exec .timeServoSecond s = .next (s.withTime fun t => { t with quality := .holdover, good := 0 }) := by
  have stale : (s.time.lastE.map fun x => decide (x + (2500000000 * nsU : Nat) ≤ (s.time.now : Int))).getD true = true := by
    cases last : s.time.lastE with
    | none => rfl
    | some x => exact decide_eq_true (old x last)
  simp only [exec, execTimeServoSecond, runs, Bool.not_true, Bool.false_eq_true, if_false, noEdge, List.find?_nil, State.withTime, disciplined, stale,
    and_self, if_true]

/-- Settles O38: each event by the lemma that says what its row does. -/
theorem quartzEvents : Obligations.QuartzEvents := by
  unfold Obligations.QuartzEvents
  intro s
  refine ⟨fun r => ⟨_, rfl, rfl, ?_, rfl⟩, fun r => ⟨⟨_, rfl, rfl⟩, ⟨_, rfl, rfl⟩⟩, fun r v other => exec_qtzStepWrite_other other v, fun v runs => ?_,
    fun ph hph runs => ⟨fun x last near => exec_ppsInEdge_ignored hph runs last near, fun far => ?_⟩,
    fun runs low enabled set free => ⟨exec_ppsOutEdge_rise runs low enabled set free, ⟨_, rfl⟩, (nextRise_bounds _ _).1, (nextRise_bounds _ _).2⟩,
    fun runs high => exec_ppsOutEdge_fall runs high,
    fun runs => ⟨exec_timeServoSecond_falls runs, fun e a off one fresh recent adj extrapolated within => ?_⟩⟩
  · simp only [State.withTime_time]
    split <;> rfl
  · refine ⟨_, exec_qtzStepWrite_mp runs v, ?_⟩
    rw [State.cycles_one]
    have unit : (nsU : Int) = 2 ^ 32 := rfl
    refine ⟨State.takeStep_step _, rfl, ?_, ?_, ?_⟩
    · simp only [State.withTime_time, State.takeStep_rate, State.takeStep_now]
      rw [addTime, Int.emod_add_emod, add_assoc, unit]
    · simp only [State.withTime_drip, State.takeStep_drip, State.withTime_time, unit]
    · simp only [State.withTime_drip, State.takeStep_drip]
  · exact ⟨_, exec_ppsInEdge_captured hph runs far, rfl, rfl, rfl, rfl, List.mem_append_right _ (List.mem_singleton_self _), rfl, State.withTime_drip _ _⟩
  · have oldest : s.time.edges.find? (fun e => !e.done && s.recentEdge e) = some e := by
      rw [one, List.find?_cons_of_pos (by simp only [fresh, recent]; rfl)]
    have near : ¬ 100 * (1000 * 2 ^ 16) < |edgeErr e.ns off| := by rwa [← mul_assoc, not_lt]
    refine ⟨_, exec_timeServoSecond_extrapolates runs oldest adj extrapolated, ?_, (State.servo_rate near).1, (State.servo_rate near).2,
      State.servo_now _ _ _, State.servo_quality _ _ _, State.servo_good near⟩
    simp [one]

end Sys2Proof.Machine
end

-- Flint's drop schedule.
section
/-!
PROOFS of 14_flint_metrology.md. Words and bytes of a message; the TIMING message and holdover (O32).
-/
namespace Sys2Proof.Machine

/-! ### Words and bytes (R6) -/

theorem leNat_leBytes (k n : Nat) : leNat (leBytes k n) = n % 256 ^ k := by
  induction k generalizing n with
  | zero => simp [leBytes, leNat, Nat.mod_one]
  | succ k ih =>
    have split : n % 256 ^ (k + 1) = n % 256 + 256 * (n / 256 % 256 ^ k) := by rw [pow_succ', Nat.mod_mul]
    rw [leBytes, leNat, ih, BitVec.toNat_ofNat, split]

@[simp] theorem leBytes_length (k n : Nat) : (leBytes k n).length = k := by
  induction k generalizing n with
  | zero => rfl
  | succ k ih => rw [leBytes, List.length_cons, ih]

theorem leBytes_leNat (b : List Byte) : leBytes b.length (leNat b) = b := by
  induction b with
  | nil => rfl
  | cons x t ih =>
    have low : BitVec.ofNat 8 (x.toNat + 256 * leNat t) = x := BitVec.eq_of_toNat_eq (by rw [BitVec.toNat_ofNat]; omega)
    have high : (x.toNat + 256 * leNat t) / 256 = leNat t := by omega
    rw [List.length_cons, leNat, leBytes, low, high, ih]

theorem leNat_lt (b : List Byte) : leNat b < 256 ^ b.length := by
  induction b with
  | nil => decide
  | cons x t ih =>
    rw [leNat, List.length_cons, pow_succ']
    omega

/-- The words of whole words' bytes hold these bytes. -/
theorem wordsBytes_leWords {k : Nat} {b : List Byte} (h : b.length = 4 * k) : wordsBytes (leWords k b) = b := by
  induction k generalizing b with
  | zero => rw [List.length_eq_zero_iff.mp h]; rfl
  | succ k ih =>
    have four : (b.take 4).length = 4 := by rw [List.length_take]; omega
    have rest : (b.drop 4).length = 4 * k := by rw [List.length_drop]; omega
    have below : leNat (b.take 4) < 2 ^ 32 := by simpa [four] using leNat_lt (b.take 4)
    have word : leBytes 4 (BitVec.ofNat 32 (leNat (b.take 4))).toNat = b.take 4 := by
      rw [BitVec.toNat_ofNat, Nat.mod_eq_of_lt below]
      simpa [four] using leBytes_leNat (b.take 4)
    calc wordsBytes (leWords (k + 1) b) = leBytes 4 (BitVec.ofNat 32 (leNat (b.take 4))).toNat ++ wordsBytes (leWords k (b.drop 4)) := rfl
      _ = b := by rw [word, ih rest, List.take_append_drop]

theorem w64_value {n : Nat} (h : n < 2 ^ 64) : (w32 n).toNat + (w32 (n / 2 ^ 32)).toNat * 2 ^ 32 = n := by
  simp only [w32, BitVec.toNat_ofNat]
  omega

theorem w32_toNat {n : Nat} (h : n < 2 ^ 32) : (w32 n).toNat = n := by
  rw [w32, BitVec.toNat_ofNat, Nat.mod_eq_of_lt h]

/-! ### Messages to Flint (R345) -/

theorem State.kcMsg_authentic {s : State} {kind ctr : Nat} {body tag : List W32} (act : State → State) (h : s.kcReady kind body ctr tag) :
    s.kcMsg kind body ctr tag act = .next (act (s.kcTaken kind body ctr)) := by
  obtain ⟨runs, ok⟩ := h
  simp [State.kcMsg, runs, ok, State.kcTaken]

theorem State.kcMsg_refused {s : State} {kind ctr : Nat} {body tag : List W32} (act : State → State) (runs : s.fl.runs = true)
    (h : s.fl.kcOk kind body ctr tag = false) :
    s.kcMsg kind body ctr tag act = .next ((s.takeFlint kind body).flintSay kind (fld (body.getD 0 0).toNat 0 8) eAuth []) := by
  simp [State.kcMsg, runs, h]

/-! ### The TIMING message (R40) -/

section
variable {count len drops stamp : Nat}

theorem timingBody_count (h : count < 2 ^ 64) :
    ((timingBody count len drops stamp).getD 0 0).toNat + ((timingBody count len drops stamp).getD 1 0).toNat * 2 ^ 32 = count := w64_value h

theorem timingBody_len (h : len < 2 ^ 32) : ((timingBody count len drops stamp).getD 2 0).toNat = len := w32_toNat h
theorem timingBody_drops (h : drops < 2 ^ 32) : ((timingBody count len drops stamp).getD 3 0).toNat = drops := w32_toNat h

theorem timingBody_stamp (h : stamp < 2 ^ 128) : leNat (wordsBytes (((timingBody count len drops stamp).drop 4).take 4)) = stamp := by
  have words : ((timingBody count len drops stamp).drop 4).take 4 = leWords 4 (leBytes 16 stamp) := rfl
  rw [words, wordsBytes_leWords (leBytes_length 16 stamp), leNat_leBytes, Nat.mod_eq_of_lt (by omega)]

/-- The operation of a TIMING message, with which Flint answers, is the low byte of the drip count (log entry 30). -/
theorem timingBody_op : fld ((timingBody count len drops stamp).getD 0 0).toNat 0 8 = fld count 0 8 := by
  have word : ((timingBody count len drops stamp).getD 0 0).toNat = count % 2 ^ 32 := BitVec.toNat_ofNat _ _
  rw [word]
  simp only [fld]
  omega

end

/-- What Flint holds after a TIMING message of drip `count` (R40, R41). -/
def Flint.timedBy (f : Flint) (count len drops stamp : Nat) : Flint :=
  { f with
    timed := true, drip := count, len := len, drops := drops, start := (stampUnits stamp : Nat), qual := fld stamp 112 2
    next := if f.timed && f.drip == count then f.next else 0
    late := f.holdover && f.timed && f.drip == count, holdover := false }

theorem exec_timing {s : State} {count len drops stamp ctr rtc : Nat} {tag : List W32} (hc : count < 2 ^ 64) (hl : len < 2 ^ 32) (hd : drops < 2 ^ 32)
    (hs : stamp < 2 ^ 128) (ready : s.kcReady 0xF1 (timingBody count len drops stamp) ctr tag) (notHibernating : s.fl.entering ≠ some 3) :
    exec (.timing (timingBody count len drops stamp) ctr tag rtc) s =
      .next (((s.kcTaken 0xF1 (timingBody count len drops stamp) ctr).rtcAt rtc).withFl fun f => f.timedBy count len drops stamp) := by
  simp only [exec, execTiming]
  rw [State.kcMsg_authentic _ ready]
  simp only [timingBody_count hc, timingBody_len hl, timingBody_drops hd, timingBody_stamp hs]
  rw [if_neg fun entering => notHibernating entering.1]
  rfl

theorem exec_timing_unauthentic {s : State} {count len drops stamp ctr : Nat} {tag : List W32} (rtc : Nat) (runs : s.fl.runs = true)
    (h : s.fl.kcOk 0xF1 (timingBody count len drops stamp) ctr tag = false) :
    exec (.timing (timingBody count len drops stamp) ctr tag rtc) s =
      .next ((s.takeFlint 0xF1 (timingBody count len drops stamp)).flintSay 0xF1 (fld count 0 8) eAuth []) := by
  simp only [exec, execTiming]
  rw [State.kcMsg_refused _ runs h, timingBody_op]

theorem exec_timingHoldover {s : State} (runs : s.fl.runs = true) (timed : s.fl.timed = true) (first : s.fl.next = 0) :
    exec .timingHoldover s = .next (s.withFl fun f => { f with holdover := true }) := by
  simp [exec, execTimingHoldover, runs, timed, first]

/-- Settles O32: the words of a TIMING message give back the numbers they were made of, and an authentic one writes them into the schedule. -/
theorem flintTiming : Obligations.FlintTiming := by
  unfold Obligations.FlintTiming
  intro s count len drops stamp ctr rtc tag hc hl hd hs runs
  refine ⟨fun ok entering => ⟨_, exec_timing hc hl hd hs ⟨runs, ok⟩ entering, rfl, rfl, rfl, rfl, rfl, rfl, ?_, rfl, rfl, rfl, rfl, rfl⟩,
    exec_timing_unauthentic rtc runs, exec_timingHoldover runs⟩
  refine if_congr ?_ rfl rfl
  rw [Bool.and_eq_true, beq_iff_eq]
  rfl

end Sys2Proof.Machine
end

-- The drip boundary.
section
/-!
PROOFS of 02_drip_and_time.md. What the steps of a boundary keep; the boundary, the drop, the boundary work, the exchange and the exit (O39).
-/
namespace Sys2Proof.Machine

/-! ### What the steps of a boundary leave alone -/

/-- The parts of the state that the boundary's work on slots, queues, contexts, streams and messages does not reach: the drip generator, the MP's own
state, the power controller, and whether a mode has been announced to the twin. -/
def State.outer (s : State) : DripSt × Dev × Pw × Bool := (s.drip, s.dev, s.pw, s.tw.announced)

section
variable {α β : Type}

@[simp] theorem outer_foldl {f : State → α → State} (h : ∀ s x, (f s x).outer = s.outer) (l : List α) (s : State) : (l.foldl f s).outer = s.outer :=
  List.foldlRecOn (motive := fun t : State => t.outer = s.outer) l f rfl fun t ht x _ => (h t x).trans ht

/-- The same of a fold that carries a result with the state. -/
@[simp] theorem outer_foldl_fst {f : State × β → α → State × β} (h : ∀ r x, (f r x).1.outer = r.1.outer) (l : List α) (r : State × β) :
    (l.foldl f r).1.outer = r.1.outer :=
  List.foldlRecOn (motive := fun t : State × β => t.1.outer = r.1.outer) l f rfl fun t ht x _ => (h t x).trans ht

end

/-! The objects. -/

@[simp] theorem State.withMbx_outer (s : State) (m : Nat) (f : Mbx → Mbx) : (s.withMbx m f).outer = s.outer := rfl
@[simp] theorem State.withGeode_outer (s : State) (g : Nat) (f : Geode → Geode) : (s.withGeode g f).outer = s.outer := rfl
@[simp] theorem State.withSlot_outer (s : State) (g i : Nat) (f : Slot → Slot) : (s.withSlot g i f).outer = s.outer := rfl
@[simp] theorem State.withQueue_outer (s : State) (g q : Nat) (f : Queue → Queue) : (s.withQueue g q f).outer = s.outer := rfl
@[simp] theorem State.withFiring_outer (s : State) (g : Nat) (f : Firing → Firing) : (s.withFiring g f).outer = s.outer := rfl
@[simp] theorem State.withCtx_outer (s : State) (c : Nat) (f : Ctx → Ctx) : (s.withCtx c f).outer = s.outer := rfl
@[simp] theorem State.withStream_outer (s : State) (i : Nat) (f : Stream → Stream) : (s.withStream i f).outer = s.outer := rfl
@[simp] theorem State.sendFlint_outer (s : State) (kind : Nat) (body : List W32) : (s.sendFlint kind body).outer = s.outer := rfl
@[simp] theorem State.mk_conduit_outer (s : State) (c : Conduit) : ({ s with conduit := c } : State).outer = s.outer := rfl

theorem State.withTw_outer {s : State} {f : Tw → Tw} (h : (f s.tw).announced = s.tw.announced) : (s.withTw f).outer = s.outer := by
  unfold State.outer
  rw [State.withTw_tw, h]
  rfl

/-! Messages and records. -/

@[simp] theorem State.event_outer (s : State) (m code tag n : Nat) (ws : List W32) : (s.event m code tag n ws).outer = s.outer := rfl
@[simp] theorem State.respond_outer (s : State) (m : Nat) (c : Cmd) (status : Nat) (ws : List W32) : (s.respond m c status ws).outer = s.outer := rfl
@[simp] theorem State.event03_outer (s : State) (code : Nat) (ws : List W32) : (s.event03 code ws).outer = s.outer := rfl

@[simp] theorem State.recNew_outer (s : State) (b : Bool) : (s.recNew b).outer = s.outer := by
  unfold State.recNew
  split
  · exact State.event03_outer s _ _
  · rfl

@[simp] theorem State.addRec_outer (s : State) (code ctx geode unit strm interval : Nat) (detail : List W32) :
    (s.addRec code ctx geode unit strm interval detail).outer = s.outer := by
  simp only [State.addRec]
  split
  · exact State.recNew_outer _ _
  · rfl

@[simp] theorem State.answerFor_outer (s : State) (op status : Nat) (ws : List W32) : (s.answerFor op status ws).outer = s.outer := by
  unfold State.answerFor
  split
  · rfl
  · exact State.respond_outer _ _ _ _ _

/-! Slots and queues (Fire). -/

@[simp] theorem State.creditBack_outer (s : State) (g q n : Nat) : (s.creditBack g q n).outer = s.outer := by
  unfold State.creditBack
  split <;> rfl

@[simp] theorem State.dropOutputs_outer (s : State) (g i : Nat) : (s.dropOutputs g i).outer = s.outer := by
  simp only [State.dropOutputs, State.withSlot_outer]
  refine outer_foldl (fun _ _ => ?_) _ s
  rfl

@[simp] theorem State.unpop_outer (s : State) (g i : Nat) : (s.unpop g i).outer = s.outer := by
  unfold State.unpop
  refine outer_foldl (fun _ _ => ?_) _ s
  rfl

@[simp] theorem State.missing_outer (s : State) (g i n : Nat) : (s.missing g i n).outer = s.outer := by
  simp only [State.missing]
  refine outer_foldl (fun _ _ => ?_) _ s
  rfl

@[simp] theorem State.dropIn_outer (s : State) (g i cut : Nat) : (s.dropIn g i cut).1.outer = s.outer := by
  simp only [State.dropIn]
  refine outer_foldl_fst (fun _ _ => ?_) _ (s, [])
  exact State.creditBack_outer _ _ _ _

@[simp] theorem State.restoreBg_outer (s : State) (g i : Nat) : (s.restoreBg g i).outer = s.outer :=
  (State.unpop_outer _ g i).trans (State.dropOutputs_outer s g i)

@[simp] theorem State.abandon_outer (s : State) (g i n : Nat) : (s.abandon g i n).outer = s.outer :=
  State.withCtx_outer s _ _

@[simp] theorem State.zeroBudgets_outer (s : State) (c : Nat) : (s.zeroBudgets c).outer = s.outer := by
  unfold State.zeroBudgets
  refine outer_foldl (fun _ _ => ?_) _ s
  rfl

@[simp] theorem State.haltCtx_outer (s : State) (c g i : Nat) (b : Bool) : (s.haltCtx c g i b).outer = s.outer := State.zeroBudgets_outer s c

@[simp] theorem State.retire_outer (s : State) (g : Nat) : (s.retire g).outer = s.outer := by
  refine outer_foldl (fun t i => ?_) _ _
  dsimp only
  split
  · rfl
  · rw [State.haltCtx_outer, State.withSlot_outer]
    split
    · exact State.addRec_outer _ _ _ _ _ _ _ _
    · rfl

@[simp] theorem State.retireReq_outer (s : State) (g : Nat) : (s.retireReq g).outer = s.outer := by
  unfold State.retireReq
  split
  · rfl
  · split
    · rfl
    · exact State.retire_outer s g

/-! ### The steps of R30 -/

@[simp] theorem State.overrunSlot_outer (s : State) (d g i : Nat) : (s.overrunSlot d g i).outer = s.outer := by
  simp only [State.overrunSlot]
  split
  · rfl
  · split
    · split <;> simp
    · split
      · rfl
      · split <;> [simp; skip]
        split <;> simp
    · split <;> [simp; skip]
      split <;> simp

@[simp] theorem State.overrun_outer (s : State) (d : Nat) : (s.overrun d).outer = s.outer := by
  unfold State.overrun
  refine outer_foldl (fun t x => ?_) _ s
  exact State.overrunSlot_outer t d x.1 x.2

@[simp] theorem State.reload_outer (s : State) : s.reload.outer = s.outer := rfl
@[simp] theorem State.scales_outer (s : State) (d : Nat) : (s.scales d).outer = s.outer := rfl
@[simp] theorem State.dripIrq_outer (s : State) (k : Nat) : (s.dripIrq k).outer = s.outer := rfl

@[simp] theorem State.closeSig_outer (s : State) (d c o : Nat) : (s.closeSig d c o).outer = s.outer := by
  simp only [State.closeSig, State.withCtx_outer]
  refine outer_foldl (fun _ _ => ?_) _ s
  rfl

@[simp] theorem State.closeSigs_outer (s : State) (d : Nat) : (s.closeSigs d).outer = s.outer := by
  refine outer_foldl (fun t c => ?_) _ s
  split
  · rfl
  · refine outer_foldl (fun t o => ?_) _ t
    exact State.closeSig_outer t d c o

/-! Streams (R252, R256). -/

@[simp] theorem State.count_outer (s : State) (i : Nat) (f : Counters → Counters) : (s.count i f).outer = s.outer := rfl

@[simp] theorem State.streamEvent_outer (s : State) (i cause : Nat) : (s.streamEvent i cause).outer = s.outer := by
  simp only [State.streamEvent]
  split
  · rfl
  · split <;> rfl

@[simp] theorem State.discard_outer (s : State) (i d k : Nat) : (s.discard i d k).outer = s.outer := by
  unfold State.discard
  split <;> rfl

@[simp] theorem State.readIdx_outer (s : State) (i r : Nat) : (s.readIdx i r).outer = s.outer := by
  simp only [State.readIdx]
  split
  · rfl
  · split
    · rfl
    · simp

@[simp] theorem State.ringIndex_outer (s : State) (i : Nat) : (s.ringIndex i).outer = s.outer := by
  simp only [State.ringIndex]
  split <;> rfl

@[simp] theorem State.putMark_outer (s : State) (i : Nat) (e : Entry) : (s.putMark i e).outer = s.outer := rfl

@[simp] theorem State.flushHeld_outer (s : State) (i : Nat) : (s.flushHeld i).outer = s.outer := by
  unfold State.flushHeld
  split
  · split <;> rfl
  · rfl

@[simp] theorem State.mark_outer (s : State) (i : Nat) (e : Entry) : (s.mark i e).outer = s.outer := by
  simp only [State.mark]
  split
  · simp
  · split <;> simp

@[simp] theorem State.closeTo_outer (s : State) (i d : Nat) : (s.closeTo i d).outer = s.outer := by
  simp only [State.closeTo]
  refine outer_foldl (fun t x => ?_) _ s
  exact State.mark_outer t i (t.closeEntry x.1)

@[simp] theorem State.closeBefore_outer (s : State) (i o : Nat) : (s.closeBefore i o).outer = s.outer := by
  unfold State.closeBefore
  split <;> simp

@[simp] theorem State.outBoundary_outer (s : State) (i n r : Nat) : (s.outBoundary i n r).outer = s.outer := by
  simp only [State.outBoundary]
  split
  · simp
  · rw [State.withStream_outer, State.ringIndex_outer]
    split
    · split <;> simp
    · simp

@[simp] theorem State.deliver_outer (s : State) (g q : Nat) (e : Entry) : (s.deliver g q e).outer = s.outer := by
  unfold State.deliver
  split
  · split <;> simp
  · rfl

@[simp] theorem State.put_outer (s : State) (i d : Nat) (e : Entry) : (s.put i d e).outer = s.outer := by
  simp only [State.put, State.count_outer]
  refine outer_foldl (fun t p => ?_) _ s
  exact State.deliver_outer t p.1 p.2 _

@[simp] theorem State.unitIn_outer (s : State) (i j : Nat) : (s.unitIn i j).outer = s.outer := by
  simp only [State.unitIn, State.withStream_outer]
  split <;> simp

@[simp] theorem State.fill_outer (k : Nat) (s : State) (i : Nat) : (s.fill k i).outer = s.outer := by
  induction k generalizing s with
  | zero => rfl
  | succ k ih =>
    simp only [State.fill]
    split
    · rfl
    · split
      · rw [ih, State.unitIn_outer]
      · rfl

@[simp] theorem State.credit_outer (s : State) (i : Nat) : (s.credit i).outer = s.outer := State.fill_outer _ s i

@[simp] theorem State.decode_outer (s : State) (i : Nat) (b : Mica) : (s.decode i b).outer = s.outer := by
  unfold State.decode
  split <;> simp

theorem outer_eq_iff {s t : State} :
    t.outer = s.outer ↔ t.drip = s.drip ∧ t.dev = s.dev ∧ t.pw = s.pw ∧ t.tw.announced = s.tw.announced := by
  simp only [State.outer, Prod.mk.injEq]

theorem State.pump_outer {s t : State} {i : Nat} (h : s.pump i = some t) : t.outer = s.outer := by
  simp only [State.pump] at h
  split at h
  · cases h
  · split at h
    · split at h <;> cases h
      simp
    · split at h
      · split at h <;> cases h
        simp
      · split at h
        · cases h
        · split at h
          · cases h
            simp
          · split at h <;> cases h
            split <;> simp

@[simp] theorem State.pumps_outer (k : Nat) (s : State) (i : Nat) : (s.pumps k i).outer = s.outer := by
  induction k generalizing s with
  | zero => rfl
  | succ k ih =>
    unfold State.pumps
    split
    next t pumped => rw [ih, State.pump_outer pumped]
    · rfl

@[simp] theorem State.inBoundary_outer (s : State) (i n : Nat) : (s.inBoundary i n).outer = s.outer := by
  simp only [State.inBoundary]
  split <;> simp

@[simp] theorem State.streamsBoundary_outer (s : State) (n : Nat) (reads : List (Nat × Nat)) : (s.streamsBoundary n reads).outer = s.outer := by
  unfold State.streamsBoundary
  refine outer_foldl (fun t i => ?_) _ s
  dsimp only
  split
  · rfl
  · split <;> simp

/-! The twin (R290, R399, R403, R411). -/

@[simp] theorem State.sendPacket_outer (s : State) (d : Nat) : (s.sendPacket d).outer = s.outer := by
  have marked : ∀ (p q : Prop) [Decidable p] [Decidable q] (l m : List Ctx),
      (if p then { s with ctxs := l } else if q then { s with ctxs := m } else s : State).outer = s.outer := fun p q _ _ l m => by
    split
    · rfl
    · split <;> rfl
  simp only [State.sendPacket]
  split
  · exact marked _ _ _ _
  · exact (State.withTw_outer rfl).trans (marked _ _ _ _)

@[simp] theorem State.tellTwin_outer (s : State) : s.tellTwin.outer = s.outer := by
  unfold State.tellTwin
  split <;> rfl

@[simp] theorem State.dropFollowed_outer (s : State) : s.dropFollowed.outer = s.outer := by
  unfold State.dropFollowed
  refine outer_foldl (fun t m => ?_) _ s
  refine outer_foldl (fun t c => ?_) _ t
  rfl

@[simp] theorem State.setMode_outer (s : State) (m : TwinMode) : (s.setMode m).outer = s.outer := by
  have dropped : (if s.follows && m != .paired then s.dropFollowed else s).outer = s.outer := by
    split <;> simp
  simp only [State.setMode, State.tellTwin_outer]
  split
  · rw [State.mk_conduit_outer, State.sendFlint_outer, State.withTw_outer (by rfl), dropped]
  · rw [State.sendFlint_outer, State.withTw_outer (by rfl), dropped]

@[simp] theorem State.modeAtBoundary_outer (s : State) : s.modeAtBoundary.outer = s.outer := by
  unfold State.modeAtBoundary
  split
  · rfl
  · split
    · simp
    · split <;> simp

@[simp] theorem State.condemn_outer (s : State) (l : Local) (twin : List Nat) (g : Nat) : (s.condemn l twin g).outer = s.outer := by
  simp only [State.condemn, State.retireReq_outer]
  split
  · rfl
  · split
    · simp
    · split <;> simp

@[simp] theorem State.localEnd_outer (s : State) (d : Nat) (twin : List Nat) (l : Local) : (s.localEnd d twin l).outer = s.outer := by
  have told : ∀ f : Tw → Tw, (∀ t, (f t).announced = t.announced) →
      ((s.addRec 0x0302 l.ctx 0xFF 0xFF 0xFF l.interval []).withTw f).outer = s.outer := fun f hf =>
    (State.withTw_outer (hf _)).trans (State.addRec_outer _ _ _ _ _ _ _ _)
  simp only [State.localEnd]
  split
  · simp
  · split
    · simp [told]
    · split <;> simp [told]

@[simp] theorem State.localise_outer (s : State) (d : Nat) (kats : Option (List Nat)) (retired : List Nat) :
    (s.localise d kats retired).outer = s.outer := by
  have united : ∀ (t : State) (f : Tw → Tw), (∀ w, (f w).announced = w.announced) →
      (if t.tw.mode ≠ .paired then t else (retired.foldl (fun (s : State) g => s.retireReq g) t).withTw f).outer = t.outer := fun t f hf => by
    split
    · rfl
    · rw [State.withTw_outer (hf _), outer_foldl fun t g => State.retireReq_outer t g]
  cases kats with
  | none =>
    simp only [State.localise]
    exact united s _ fun _ => rfl
  | some twin =>
    simp only [State.localise]
    rw [united _ _ (by exact fun _ => rfl)]
    refine outer_foldl (fun t l => ?_) _ s
    split
    · rw [State.localEnd_outer, State.withTw_outer (by rfl)]
    · rfl

/-! What waits for the boundary. -/

@[simp] theorem State.setLoaded_outer (s : State) (g i : Nat) : (s.setSlotState g i 1).outer = s.outer := by
  simp only [State.setSlotState]
  split
  · contradiction
  · split <;> rfl
  · contradiction
  · contradiction
  · rfl

/-- Only the twin, the MP's own state, the contexts and the slots change in what waits for a boundary. -/
theorem State.dueAtBoundary_spec (s : State) (k : Nat) :
    (s.dueAtBoundary k).drip = s.drip ∧ (s.dueAtBoundary k).dev.workDue = s.dev.workDue ++ [s.drip.count] ∧ (s.dueAtBoundary k).pw = s.pw ∧
      (s.dueAtBoundary k).tw.announced = s.tw.announced := by
  have loaded : ∀ t : State, (allSlots.foldl (fun s z => if (s.ctx (s.slot z.1 z.2).ctx).stopArmed then s.setSlotState z.1 z.2 1 else s) t).outer =
      t.outer := fun t => by
    refine outer_foldl (fun t z => ?_) _ t
    split
    · exact State.setLoaded_outer _ _ _
    · rfl
  simp only [State.dueAtBoundary]
  obtain ⟨drip, dev, pw, announced⟩ := outer_eq_iff.mp (loaded _)
  rw [drip, dev, pw, announced]
  exact ⟨rfl, rfl, rfl, rfl⟩

theorem State.writeBudgets_geodes (s : State) (c : Nat) : ∃ l, s.writeBudgets c = { s with geodes := l } :=
  List.foldlRecOn (motive := fun t : State => ∃ l, t = { s with geodes := l }) _ _ ⟨_, rfl⟩ fun _ ⟨_, ht⟩ _ _ => by
    subst ht
    exact ⟨_, rfl⟩

/-- The budgets are all that the MP writes for a new L (R216). -/
theorem State.rebudget_geodes (s : State) : ∃ l, s.rebudget = { s with geodes := l } := by
  refine List.foldlRecOn (motive := fun t : State => ∃ l, t = { s with geodes := l }) _ _ ⟨_, rfl⟩ fun t ⟨l, ht⟩ c _ => ?_
  split
  · obtain ⟨l', written⟩ := t.writeBudgets_geodes c
    exact ⟨l', by rw [written, ht]⟩
  · exact ⟨l, ht⟩

/-! ### The clock runs to a nominal instant (R27, R47) -/

/-- A step that is taken changes Quartz and moves a start, and nothing else. -/
theorem State.takeStep_frame (s : State) : ∃ t x, s.takeStep = { s with time := t, drip := { s.drip with start := x } } := by
  refine ⟨s.takeStep.time, s.takeStep.drip.start, ?_⟩
  have drip : s.takeStep.drip = { s.drip with start := s.takeStep.drip.start } := by rw [State.takeStep_drip]
  rw [← drip]
  unfold State.takeStep
  split <;> rfl

theorem State.stepBefore_frame (s : State) (u : Int) : ∃ t x, s.stepBefore u = { s with time := t, drip := { s.drip with start := x } } := by
  unfold State.stepBefore
  split
  · exact s.takeStep_frame
  · exact ⟨s.time, s.drip.start, rfl⟩

theorem State.advanceTo_frame (s : State) (u : Int) :
    ∃ t n x, s.advanceTo u = { s with time := t, mtime := n, drip := { s.drip with start := x } } := by
  unfold State.advanceTo State.cycles
  split
  · exact ⟨s.time, s.mtime, s.drip.start, rfl⟩
  · obtain ⟨t, x, taken⟩ := s.takeStep_frame
    rw [taken]
    exact ⟨_, _, _, rfl⟩

/-- The nominal start of the drip that the next boundary opens: a step that waits before it moves it too. -/
def State.opening (s : State) : Int := (s.stepBefore s.nextBoundary).nextBoundary

/-- Opening a drip changes Quartz, MTIME and the generator, and notes that a drip has opened. -/
theorem State.openDrip_frame (s : State) :
    ∃ t n, s.openDrip = { s with time := t, mtime := n, drip := s.drip.next s.opening, dev := { s.dev with phase := 4 } } := by
  obtain ⟨t, x, stepped⟩ := s.stepBefore_frame s.nextBoundary
  obtain ⟨t', n, x', advanced⟩ := (s.stepBefore s.nextBoundary).advanceTo_frame s.opening
  refine ⟨t', n, ?_⟩
  have opened : s.openDrip = (((s.stepBefore s.nextBoundary).advanceTo s.opening).withDrip fun d => d.next s.opening).withDev fun d => { d with phase := 4 } := rfl
  rw [opened, advanced, stepped]
  rfl

theorem State.opening_noStep {s : State} (running : s.drip.phase = .running) (h : s.time.step = 0) :
    s.opening = s.drip.start + s.drip.len * nsU := by
  have kept : s.stepBefore s.nextBoundary = s := by
    unfold State.stepBefore State.takeStep
    rw [if_pos h, ite_self]
  rw [State.opening, kept, State.nextBoundary, if_pos running]

theorem State.opening_step {s : State} (running : s.drip.phase = .running) (ahead : (s.time.now : Int) < s.nextBoundary) :
    s.opening = s.drip.start + s.drip.len * nsU + s.time.step * nsU := by
  have taken : s.stepBefore s.nextBoundary = s.takeStep := if_pos ahead
  rw [State.opening, taken, State.nextBoundary, State.takeStep_drip]
  simp only [running, if_true, if_neg (nofun : ¬ DripPhase.running = .stopped)]
  rw [add_right_comm]

/-! ### The drip that opens (R27, R28) -/

section
variable {d : DripSt} (u : Int)

theorem DripSt.next_start : (d.next u).start = u := by
  simp only [DripSt.next]
  split
  · rfl
  · split <;> rfl

theorem DripSt.next_drop : (d.next u).drop = 0 := by
  simp only [DripSt.next]
  split
  · rfl
  · split <;> rfl

variable (running : d.phase = .running)
include running

theorem DripSt.next_count : (d.next u).count = d.count + 1 := by
  simp only [DripSt.next, running]
  split
  · rfl
  · split <;> rfl

theorem DripSt.next_unchanged (none : d.pend = none) : (d.next u).len = d.base ∧ (d.next u).drops = d.drops := by
  simp only [DripSt.next, running, none]
  exact ⟨rfl, trivial⟩

/-- A change that waits for this boundary is the schedule in force from it on. -/
theorem DripSt.next_changed {p : DripChange} (pend : d.pend = some p) (due : p.skip = false) :
    (d.next u).base = p.len ∧ (d.next u).drops = p.drops ∧ (d.next u).len = ((p.len : Int) + p.trim).toNat ∧ (d.next u).pend = none := by
  simp only [DripSt.next, running, pend, due]
  exact ⟨rfl, rfl, rfl, rfl⟩

end

/-! ### The boundary -/

/-- Whether the budgets of a new L are written once this boundary has passed (R216). -/
def State.budgetsLate (s : State) : Bool := (s.drip.pend.map fun p => p.skip).getD false

theorem State.lateBudgets_frame (s : State) (late : Bool) :
    ∃ l, (late = false → l = s.geodes) ∧ (if late then s.rebudget else s) = { s with geodes := l } := by
  cases late with
  | false => exact ⟨s.geodes, fun _ => rfl, rfl⟩
  | true =>
    obtain ⟨l, written⟩ := s.rebudget_geodes
    exact ⟨l, nofun, written⟩

/-- Steps 2 to 8 of R30 in ACTIVE, at the boundary that opens drip `d`. -/
def State.boundarySteps (s : State) (d : Nat) (reads : List (Nat × Nat)) (kats : Option (List Nat)) (retired : List Nat) : State :=
  let s2 := ((((s.overrun d).reload).scales d).closeSigs d).dripIrq 1
  let s3 := ((s2.streamsBoundary d reads).sendPacket d).modeAtBoundary
  if s3.mpRuns && s3.tw.attached then s3.localise d kats retired else s3

theorem State.boundarySteps_outer (s : State) (d : Nat) (reads : List (Nat × Nat)) (kats : Option (List Nat)) (retired : List Nat) :
    (s.boundarySteps d reads kats retired).outer = s.outer := by
  simp only [State.boundarySteps]
  split <;> simp

/-- What waits for the boundary is done on a state that the other steps left with the same generator and the same work due. -/
theorem State.boundarySteps_due (s : State) (d : Nat) (reads : List (Nat × Nat)) (kats : Option (List Nat)) (retired : List Nat) :
    ((s.boundarySteps d reads kats retired).dueAtBoundary 1).drip = s.drip ∧
      ((s.boundarySteps d reads kats retired).dueAtBoundary 1).dev.workDue = s.dev.workDue ++ [s.drip.count] := by
  obtain ⟨drip, dev, -, -⟩ := outer_eq_iff.mp (s.boundarySteps_outer d reads kats retired)
  obtain ⟨dripDue, workDue, -, -⟩ := (s.boundarySteps d reads kats retired).dueAtBoundary_spec 1
  exact ⟨dripDue.trans drip, by rw [workDue, drip, dev]⟩

section
variable {s : State} (reads : List (Nat × Nat)) (kats : Option (List Nat)) (retired : List Nat) (running : s.drip.phase = .running)
  (runs : s.qtzRuns = true)
include running runs

theorem exec_dripBoundary_running :
    exec (.dripBoundary reads kats retired) s = .next
      (let s1 := s.openDrip.sendTiming
       let s2 := if s.pw.state ≠ 0 then s1.withPw fun p => { p with passed := p.passed + 1 }
         else (s1.boundarySteps s1.drip.count reads kats retired).dueAtBoundary 1
       if s.budgetsLate then s2.rebudget else s2) := by
  have goes : (decide (s.drip.phase = .stopped) || !s.qtzRuns) = false := by simp [running, runs]
  simp only [exec, execDripBoundary, goes, Bool.false_eq_true, if_false]
  split <;> rfl

/-- In ROOST and TORPOR a boundary only opens the drip and sends the timing message (R29, R368). -/
theorem exec_dripBoundary_lowPower (low : s.pw.state ≠ 0) :
    ∃ t n msgs l, (s.budgetsLate = false → l = s.geodes) ∧ exec (.dripBoundary reads kats retired) s = .next
      { s with
        time := t, mtime := n, drip := s.drip.next s.opening, dev := { s.dev with phase := 4 }, toFlint := msgs, geodes := l
        pw := { s.pw with passed := s.pw.passed + 1 } } := by
  obtain ⟨t, n, opened⟩ := s.openDrip_frame
  obtain ⟨l, kept, written⟩ := (s.openDrip.sendTiming.withPw fun p => { p with passed := p.passed + 1 }).lateBudgets_frame s.budgetsLate
  rw [exec_dripBoundary_running reads kats retired running runs]
  simp only [if_pos low, written]
  rw [opened] at kept ⊢
  exact ⟨t, n, _, l, kept, rfl⟩

/-- In ACTIVE a boundary opens the drip and adds its work to the work due (R265, R267). -/
theorem exec_dripBoundary_active (active : s.pw.state = 0) :
    ∃ t : State, exec (.dripBoundary reads kats retired) s = .next t ∧ t.drip = s.drip.next s.opening ∧
      t.dev.workDue = s.dev.workDue ++ [t.drip.count] := by
  obtain ⟨time, n, opened⟩ := s.openDrip_frame
  have openedDrip : s.openDrip.sendTiming.drip = s.drip.next s.opening := by rw [opened]; rfl
  have openedWork : s.openDrip.sendTiming.dev.workDue = s.dev.workDue := by rw [opened]; rfl
  obtain ⟨drip, work⟩ := s.openDrip.sendTiming.boundarySteps_due s.openDrip.sendTiming.drip.count reads kats retired
  rw [exec_dripBoundary_running reads kats retired running runs]
  simp only [active, ne_eq, not_true_eq_false, if_false]
  generalize (s.openDrip.sendTiming.boundarySteps _ reads kats retired).dueAtBoundary 1 = u at drip work ⊢
  obtain ⟨l, -, written⟩ := u.lateBudgets_frame s.budgetsLate
  rw [written]
  exact ⟨_, rfl, drip.trans openedDrip, by rw [work, drip, openedWork]⟩

end

/-- A drop start in ACTIVE moves to the next drop and sets the DROP source of every block (R27, R311). -/
theorem exec_dropStart {s : State} (running : s.drip.phase = .running) (runs : s.qtzRuns = true) (active : s.pw.state = 0)
    (more : s.drip.drop + 1 < s.drip.drops) :
    ∃ t n x, exec .dropStart s = .next
      { s with
        time := t, mtime := n, drip := { s.drip with start := x, drop := s.drip.drop + 1 }
        cic := s.cic.map fun c => { c with pending := c.pending ||| 2 } } := by
  have goes : (decide (s.drip.phase ≠ .running) || !s.qtzRuns || decide (s.drip.drops ≤ s.drip.drop + 1)) = false := by
    simp [running, runs, more]
  obtain ⟨t, x, stepped⟩ := s.stepBefore_frame (s.dropTime (s.drip.drop + 1))
  obtain ⟨t', n, x', advanced⟩ := (s.stepBefore (s.dropTime (s.drip.drop + 1))).advanceTo_frame
    ((s.stepBefore (s.dropTime (s.drip.drop + 1))).dropTime (s.drip.drop + 1))
  refine ⟨t', n, x', ?_⟩
  simp only [exec, execDropStart, goes, Bool.false_eq_true, if_false, active, ne_eq, not_true_eq_false]
  rw [advanced, stepped]
  rfl

/-! ### The boundary work (R152, R265, R267) -/

theorem foldl_frame {α : Type} {f : State → α → State} (h : ∀ s x, ∃ l m, f s x = { s with geodes := l, ctxs := m }) (xs : List α) (s : State) :
    ∃ l m, xs.foldl f s = { s with geodes := l, ctxs := m } := by
  refine List.foldlRecOn (motive := fun t : State => ∃ l m, t = { s with geodes := l, ctxs := m }) xs f ⟨_, _, rfl⟩ fun t ⟨l, m, ht⟩ x _ => ?_
  obtain ⟨l', m', hx⟩ := h t x
  exact ⟨l', m', by rw [hx, ht]⟩

theorem State.voidDrip_frame (s : State) (c num : Nat) : ∃ l m, s.voidDrip c num = { s with geodes := l, ctxs := m } := by
  unfold State.voidDrip
  obtain ⟨l, m, voided⟩ := foldl_frame (f := fun (s : State) (x : Nat × Nat) => s.withSlot x.1 x.2 fun sl =>
    { sl with trk := sl.trk.map fun t => { t with entries := t.entries.map fun e => if e.interval % 2 ^ 32 = num then { e with void := true } else e } })
    (fun _ _ => ⟨_, _, rfl⟩) (s.slotsOf c) s
  rw [voided]
  exact ⟨_, _, rfl⟩

theorem State.ownReports_frame (s : State) (d : Nat) : ∃ l m, s.ownReports d = { s with geodes := l, ctxs := m } := by
  simp only [State.ownReports]
  split
  · exact ⟨_, _, rfl⟩
  · obtain ⟨l, m, reported⟩ := foldl_frame (f := fun s c => ((s.ctx c).closed.filter fun e => e.abandoned && decide (e.at' ≤ d)).foldl
      (fun (s : State) e => s.voidDrip c (e.drip % 2 ^ 32)) s) (fun t c => foldl_frame (fun t e => t.voidDrip_frame c _) _ t) (List.range 24) s
    rw [reported]
    exact ⟨_, _, rfl⟩

/-- The work of the oldest boundary, where no packet has been sent, is this device's own reports and the snapshot of the stream counters. -/
theorem exec_boundaryWork_unpaired {s : State} {d : Nat} {rest : List Nat} (runs : s.mpRuns = true) (due : s.dev.workDue = d :: rest)
    (noPacket : s.tw.sent = []) :
    ∃ l m, exec .boundaryWork s = .next
      { s with
        geodes := l, ctxs := m, dev := { s.dev with workDue := rest }
        streams := s.streams.map fun x => if x.state = 0 then x else { x with snap := x.cnt, snapCrc := s.conduit.crcErr, snapState := x.state } } := by
  obtain ⟨l, m, reported⟩ := s.ownReports_frame d
  refine ⟨l, m, ?_⟩
  simp only [exec, execBoundaryWork, due, runs, reported, noPacket, Bool.not_true, Bool.false_eq_true, if_false, List.filter_nil, List.foldl_nil]
  rfl

/-! ### The exchange (R399, R422) -/

section
variable {s : State} {raw : List Byte} (named : List Nat) (attached : s.tw.attached = true) (receives : s.receives = true) (up : s.twinLink = true)
include attached receives up

theorem exec_exchangePacketReceive_bad (bad : parsePacket raw s.stamp = none) : exec (.exchangePacketReceive raw named) s = .next s := by
  simp [exec, execExchangePacketReceive, attached, receives, up, bad]

/-- A packet that arrives while a boundary's work is due waits for it. -/
theorem exec_exchangePacketReceive_waits {p : Packet} (good : parsePacket raw s.stamp = some p) (due : s.dev.workDue ≠ []) :
    exec (.exchangePacketReceive raw named) s =
      .next (s.withTw fun t => { t with recv := (t.recv ++ [p]).drop (t.recv.length + 1 - 4), named := named }) := by
  have busy : (s.mpRuns && s.dev.workDue.isEmpty) = false := by simp [due]
  simp [exec, execExchangePacketReceive, attached, receives, up, good, busy]

end

/-- The first miss of a packet leaves the link up. -/
theorem exec_exchangeTimeout_first {s : State} {k : SentPk} (runs : s.mpRuns = true) (attached : s.tw.attached = true) (sent : s.tw.sent = [k])
    (waits : k.done = false) (none : s.tw.recv = []) (first : s.tw.missed = 0) :
    exec .exchangeTimeout s = .next (s.withTw fun t =>
      { t with missed := 1, sent := [{ k with done := true }], mine := t.mine.filter fun w => w.since != k.drip }) := by
  simp [exec, execExchangeTimeout, runs, attached, sent, waits, none, first, State.withTw]

theorem exec_twinPacketAuthFail_first {s : State} (runs : s.mpRuns = true) (attached : s.tw.attached = true) (first : s.tw.missed = 0) :
    exec .twinPacketAuthFail s = .next ((s.withTw fun t => { t with missed := 2 }).linkDown) := by
  simp [exec, execTwinPacketAuthFail, runs, attached, first]

/-! ### The exit from ROOST and TORPOR (R29, R379) -/

theorem State.catchUp_zero (s : State) (reads : List (Nat × Nat)) : s.catchUp 0 reads = s := rfl

/-- Catching up on the boundaries passed reaches neither the power controller nor what the twin has been told. -/
theorem State.catchUp_keeps (s : State) (k : Nat) (reads : List (Nat × Nat)) :
    (s.catchUp k reads).pw = s.pw ∧ (s.catchUp k reads).tw.announced = s.tw.announced := by
  unfold State.catchUp
  split
  · exact ⟨rfl, rfl⟩
  · dsimp only
    generalize passed : (range' (s.drip.count + 1 - k) k).foldl (fun (s : State) d => (((s.overrun d).scales d).closeSigs d).streamsBoundary d reads) s = t
    have outer : (t.reload.dripIrq k).outer = s.outer := by
      rw [State.dripIrq_outer, State.reload_outer, ← passed]
      refine outer_foldl (fun t d => ?_) _ s
      simp
    obtain ⟨-, -, pw, announced⟩ := outer_eq_iff.mp outer
    obtain ⟨-, -, pwDue, announcedDue⟩ := (t.reload.dripIrq k).dueAtBoundary_spec k
    exact ⟨pwDue.trans pw, announcedDue.trans announced⟩

/-- The exit is recorded with its cause, and its sources are acknowledged (R375, R378). -/
def State.wakeRecorded (s : State) (bits cause : Nat) : State :=
  (s.withPw fun p => { p with state := 0, wakeCause := cause, outcome := 1, block := 0, cause := 0, passed := 0 }).ackWakes bits

/-- The state in which an exit catches up: the wake is recorded, the clock monitors wait, RUNNING goes to Flint. -/
def State.exited (s : State) (bits cause : Nat) : State :=
  (([1, 2, 3, 4, 5].foldl (fun (s : State) d => s.quietClk d 98) ((s.wakeRecorded bits cause).tdoFree bits)).sendFlint 0xF3 [4]).withTw fun t =>
    { t with announced := false }

theorem exec_exitRoostTorpor_seen {s : State} {bits : Nat} (reads : List (Nat × Nat)) (low : s.pw.state = 1 ∨ s.pw.state = 2)
    (hbits : s.pw.seen ||| (s.pw.levels &&& 0x40) = bits) (woken : bits ≠ 0) (noRule : bitAt bits 1 = false) :
    exec (.exitRoostTorpor reads) s = .next ((s.exited bits (bits + s.pw.state * 2 ^ 16)).catchUp s.pw.passed reads).pwrEvent.releaseHost := by
  have leaves : ¬((s.pw.state ≠ 1 ∧ s.pw.state ≠ 2) ∨ bits = 0) := by omega
  simp only [exec, execExitRoostTorpor, hbits, if_neg leaves, noRule, Bool.false_eq_true, if_false, State.exited, State.wakeRecorded]
  rw [Nat.add_zero]

/-- A power controller in ACTIVE after an exit with this cause. -/
def Pw.exitedBy (p : Pw) (cause : Nat) : Prop := p.state = 0 ∧ p.wakeCause = cause ∧ p.outcome = 1 ∧ p.passed = 0

theorem State.wakeRecorded_frame (s : State) (bits cause : Nat) : ∃ p, p.exitedBy cause ∧ s.wakeRecorded bits cause = { s with pw := p } :=
  ⟨(s.wakeRecorded bits cause).pw, ⟨rfl, rfl, rfl, rfl⟩, rfl⟩

theorem State.tdoFree_frame {s : State} {cause : Nat} (h : s.pw.exitedBy cause) (bits : Nat) :
    ∃ p, p.exitedBy cause ∧ s.tdoFree bits = { s with pw := p } := by
  unfold State.tdoFree
  split
  · exact ⟨{ s.pw with held := clearBit s.pw.held 2 }, h, rfl⟩
  · exact ⟨s.pw, h, rfl⟩

theorem foldl_quietClk_frame (l : List Nat) (s : State) : ∃ f, l.foldl (fun (s : State) d => s.quietClk d 98) s = { s with fcu := f } := by
  refine List.foldlRecOn (motive := fun t : State => ∃ f, t = { s with fcu := f }) l _ ⟨s.fcu, rfl⟩ fun t ⟨f, ht⟩ d _ => ?_
  rw [ht]
  exact ⟨_, rfl⟩

theorem State.exited_frame (s : State) (bits cause : Nat) :
    ∃ p fcu msgs, p.exitedBy cause ∧ s.exited bits cause = { s with pw := p, fcu := fcu, toFlint := msgs, tw := { s.tw with announced := false } } := by
  obtain ⟨p, hp, recorded⟩ := s.wakeRecorded_frame bits cause
  obtain ⟨q, hq, freed⟩ := State.tdoFree_frame (s := { s with pw := p }) hp bits
  obtain ⟨f, quiet⟩ := foldl_quietClk_frame [1, 2, 3, 4, 5] { s with pw := q }
  refine ⟨q, f, s.toFlint ++ [(0xF3, [4])], hq, ?_⟩
  rw [State.exited, recorded, freed, quiet]
  rfl

/-- Settles O39: a boundary opens the drip that the generator gives next, and what it does besides leaves the generator, the work due, the power
controller and the announcement as they are; the other rows by the lemma that says what each does. -/
theorem dripBoundaries : Obligations.DripBoundaries := by
  unfold Obligations.DripBoundaries
  refine fun s => ⟨fun reads kats retired running runs low => ?_, fun reads kats retired running runs active _ => ?_,
    fun running runs active more => ?_, fun d rest runs due noPacket => ?_,
    fun raw named attached receives up => ⟨exec_exchangePacketReceive_bad named attached receives up,
      fun p => exec_exchangePacketReceive_waits named attached receives up⟩,
    fun k => exec_exchangeTimeout_first, exec_twinPacketAuthFail_first, fun reads low seen levels => ?_⟩
  · obtain ⟨t, n, msgs, l, kept, stepped⟩ := exec_dripBoundary_lowPower reads kats retired running runs low
    refine ⟨_, stepped, DripSt.next_count _ running, DripSt.next_drop _, fun noStep => ?_, fun _ ahead => ?_, rfl, rfl, rfl, fun none => ?_, fun p pend due => ?_⟩
    · exact (DripSt.next_start _).trans (State.opening_noStep running noStep)
    · exact (DripSt.next_start _).trans (State.opening_step running ahead)
    · obtain ⟨len, drops⟩ := DripSt.next_unchanged s.opening running none
      exact ⟨len, drops, kept (by rw [State.budgetsLate, none]; rfl)⟩
    · obtain ⟨base, drops, len, pend⟩ := DripSt.next_changed s.opening running pend due
      exact ⟨base, drops, congrArg Int.ofNat len, pend⟩
  · obtain ⟨t, stepped, drip, work⟩ := exec_dripBoundary_active reads kats retired running runs active
    have count : t.drip.count = s.drip.count + 1 := by rw [drip, DripSt.next_count _ running]
    exact ⟨t, stepped, count, by rw [work, count]⟩
  · obtain ⟨t, n, x, stepped⟩ := exec_dropStart running runs active more
    exact ⟨_, stepped, rfl, rfl, rfl, rfl⟩
  · obtain ⟨l, m, stepped⟩ := exec_boundaryWork_unpaired runs due noPacket
    exact ⟨_, stepped, rfl, rfl, rfl, rfl⟩
  · have bits : s.pw.seen ||| (s.pw.levels &&& 0x40) = 2 ^ 5 := by rw [seen, levels]; rfl
    obtain ⟨pw, announced⟩ := (s.exited (2 ^ 5) (2 ^ 5 + s.pw.state * 2 ^ 16)).catchUp_keeps s.pw.passed reads
    obtain ⟨p, fcu, msgs, ⟨state, cause, outcome, passed⟩, exited⟩ := s.exited_frame (2 ^ 5) (2 ^ 5 + s.pw.state * 2 ^ 16)
    refine ⟨_, exec_exitRoostTorpor_seen reads low bits (by decide) (by decide), ?_⟩
    rw [pw, announced, exited]
    refine ⟨state, cause, outcome, passed, rfl, fun none => ?_⟩
    rw [none, State.catchUp_zero]
    exact ⟨rfl, rfl⟩

end Sys2Proof.Machine
end

-- The mailboxes: the host's window.
section
/-!
PROOFS of 03_mailboxes.md. The host's accesses to the FIFOs, the flushes, the accesses rejected, the release, and what the link holds in ROOST and
TORPOR (O5).
-/
namespace Sys2Proof.Machine

/-! ### An access in ROOST and TORPOR (R76, R377) -/

theorem State.answerCommit_frame (s : State) : ∃ f, s.answerCommit = { s with fl := f } := by
  simp only [State.answerCommit]
  split
  · exact ⟨_, rfl⟩
  · exact ⟨_, rfl⟩

/-- In ROOST and TORPOR a raised source changes what the power controller has seen and what Flint says, and not the power state. -/
theorem State.wakeActs_low {s : State} (low : s.pw.state = 1 ∨ s.pw.state = 2) :
    ∃ p f, p.state = s.pw.state ∧ s.wakeActs = { s with pw := p, fl := f } := by
  unfold State.wakeActs
  split
  · rw [if_neg (by omega)]
    exact ⟨_, _, rfl, rfl⟩
  · rw [if_pos low]
    split
    · obtain ⟨f, said⟩ := State.answerCommit_frame (s.withPw fun p => { p with seen := setBit p.seen 6 })
      exact ⟨{ s.pw with seen := setBit s.pw.seen 6 }, f, rfl, said⟩
    · obtain ⟨f, said⟩ := State.answerCommit_frame s
      exact ⟨s.pw, f, rfl, said⟩

theorem State.raiseLevel_low {s : State} (low : s.pw.state = 1 ∨ s.pw.state = 2) (k : Nat) :
    ∃ p f, p.state = s.pw.state ∧ s.raiseLevel k = { s with pw := p, fl := f } := by
  unfold State.raiseLevel
  split
  · exact ⟨_, _, rfl, rfl⟩
  · exact State.wakeActs_low (s := s.withPw fun p => { p with levels := setBit p.levels k }) low

theorem State.linkHolds_low {s : State} (low : s.pw.state = 1 ∨ s.pw.state = 2) : s.linkHolds = true := by
  rcases low with low | low <;> simp [State.linkHolds, low]

/-- The link keeps an access that arrives in ROOST or TORPOR behind those it holds (R76). -/
theorem State.fromHost_low {s : State} (die : s.dev.die ≠ .inReset) (clock : s.dev.refclk = true) (link : s.hostLink = true)
    (low : s.pw.state = 1 ∨ s.pw.state = 2) (a : HostAcc) :
    ∃ p f, p.state = s.pw.state ∧
      s.fromHost a = .next { s with dev := { s.dev with hostHeld := s.dev.hostHeld ++ [a] }, pw := p, fl := f } := by
  have reached : (s.dev.die == .inReset || !s.dev.refclk || !s.hostLink || decide (3 ≤ s.pw.state)) = false := by
    have shallow : ¬ 3 ≤ s.pw.state := by omega
    simp [die, clock, link, shallow]
  obtain ⟨p, f, kept, raised⟩ :=
    State.raiseLevel_low (s := s.withDev fun d => { d with hostHeld := d.hostHeld ++ [a] }) low 6
  refine ⟨p, f, kept, ?_⟩
  have holds := State.linkHolds_low (s := { s with dev := { s.dev with hostHeld := s.dev.hostHeld ++ [a] }, pw := p, fl := f }) (kept ▸ low)
  simp only [State.fromHost, reached, State.linkHolds_low low, raised, State.releaseHost, Bool.false_eq_true, if_false, if_true]
  exact congrArg Host.Outcome.next (if_pos holds)

/-! ### The FIFOs (R57 to R59, R65) -/

section
variable {s : State} (up : s.winUp = true) (idle : s.linkHolds = false)
include up idle

/-- A write to a command FIFO does to the mailbox what the FIFO does with the word. -/
theorem exec_mbxCmdDataWrite {m : Nat} {w : W32} {bad : Bool} {f : Mbx → Mbx} (put : (s.mb m).putCmd w bad = f (s.mb m)) :
    exec (.mbxCmdDataWrite m w bad) s = .next (s.withMbx m f) := by
  have word : w32 w.toNat = w := (BitVec.ofNat_toNat 32 w).trans (BitVec.setWidth_eq w)
  refine (State.fromHost_performs up idle _).trans (congrArg Host.Outcome.next (State.withMbx_congr ?_))
  rw [word, put]

theorem exec_cmdHeldClear (m : Nat) : exec (.cmdHeldClear m) s = .next (s.withMbx m fun b => { b with cmdHeld := false }) := by
  refine (exec_registerWrite_host up idle (.mbxStatus m) nofun 0x10).trans (congrArg Host.Outcome.next (State.withMbx_congr ?_))
  simp [bitAt]

/-- A read of a response FIFO does to the mailbox what the FIFO does, and returns the value the register shows. -/
theorem exec_mbxRspDataRead {m v : Nat} {upset : Bool} {f : Mbx → Mbx} (value : s.regValue 9 (.mbxRspData m) = v)
    (read : (s.mb m).readRsp upset = f (s.mb m)) :
    exec (.mbxRspDataRead m upset) s = .next { s.withMbx m f with readData := v } := by
  have taken : s.withMbx m (fun b => b.readRsp upset) = s.withMbx m f := State.withMbx_congr read
  rw [← taken, ← value]
  exact State.fromHost_performs up idle (.read (.mbxRspData m) upset)

theorem exec_mbxCtrlWrite (m v : Nat) : exec (.registerWrite 9 (.mbxCtrl m) v) s = .next (s.flush m (bitAt v 0) (bitAt v 1)) :=
  exec_registerWrite_host up idle (.mbxCtrl m) nofun v

theorem exec_faultCtrlRelease (halt : s.fcu.mpHalt = false) (clock : s.fcu.clock = false) (twin : s.fcu.twinSignal = false)
    (result : s.fcu.result = false) (runs : s.mpRuns = true) :
    exec .faultCtrlRelease s = .next (s.withFcu fun f => { f with faultN := false }) := by
  refine (exec_registerWrite_host up idle .faultCtrl nofun 1).trans (congrArg Host.Outcome.next ?_)
  have honoured : (bitAt 1 0 && !(s.fcu.mpHalt || s.fcu.clock || s.fcu.twinSignal || s.fcu.result) && s.mpRuns) = true := by
    rw [halt, clock, twin, result, runs]
    rfl
  exact if_pos honoured

end

theorem Mbx.putCmd_held {b : Mbx} (held : b.cmdHeld = true) (w : W32) (bad : Bool) : b.putCmd w bad = b := if_pos held

theorem Mbx.putCmd_full {b : Mbx} (held : b.cmdHeld = false) (full : 64 ≤ b.cmd.length) (w : W32) (bad : Bool) :
    b.putCmd w bad = { b with cmdOvf := true } := by
  simp [Mbx.putCmd, held, full]

theorem Mbx.putCmd_room {b : Mbx} (held : b.cmdHeld = false) (room : b.cmd.length < 64) (w : W32) (bad : Bool) :
    b.putCmd w bad = { b with cmd := b.cmd ++ [⟨w, bad⟩] } := by
  simp [Mbx.putCmd, held, room]

theorem Mbx.readRsp_empty {b : Mbx} (empty : b.rsp = []) (upset : Bool) : b.readRsp upset = { b with rspUndf := true } := by
  simp [Mbx.readRsp, Mbx.popRsp, empty]

theorem Mbx.readRsp_word {b : Mbx} {msg : OutMsg} {rest : List OutMsg} {w : W32} {ws : List W32} (oldest : b.rsp = msg :: rest)
    (words : msg.words = w :: ws) (upset : Bool) :
    b.readRsp upset =
      { b with
        rsp := if ws = [] then rest else { msg with words := ws } :: rest
        rspPoison := b.rspPoison || upset } := by
  simp [Mbx.readRsp, Mbx.popRsp, oldest, words]

theorem State.regValue_rspData_empty {s : State} {m : Nat} (empty : (s.mb m).rsp = []) : s.regValue 9 (.mbxRspData m) = 0 := by
  simp [State.regValue, empty]

theorem State.regValue_rspData_word {s : State} {m : Nat} {msg : OutMsg} {rest : List OutMsg} {w : W32} {ws : List W32}
    (oldest : (s.mb m).rsp = msg :: rest) (words : msg.words = w :: ws) : s.regValue 9 (.mbxRspData m) = w.toNat := by
  simp [State.regValue, oldest, words]

/-! ### The flushes (R61) -/

theorem Mbx.hold_rsp (b : Mbx) (m : OutMsg) : (b.hold m).rsp = b.rsp := by
  unfold Mbx.hold
  split <;> rfl

theorem State.mpEvent_runs {s : State} (runs : s.mpRuns = true) (m : Nat) (msg : OutMsg) : s.mpEvent m msg = s.send m msg := by
  unfold State.mpEvent
  rw [runs]
  rfl

theorem State.mpEvent_stopped {s : State} (stopped : s.mpRuns = false) (m : Nat) (msg : OutMsg) :
    s.mpEvent m msg = s.withMbx m fun b => b.hold msg := by
  unfold State.mpEvent
  rw [stopped]
  rfl

/-- An event of the MP adds to the response FIFO or to the messages held, and changes nothing of the commands. -/
theorem State.mpEvent_spec {s : State} {m : Nat} (inside : m < s.mbx.length) (msg : OutMsg) :
    ((s.mpEvent m msg).mb m).cmd = (s.mb m).cmd ∧ ((s.mpEvent m msg).mb m).part = (s.mb m).part ∧
      ((s.mpEvent m msg).mb m).out = (s.mb m).out ∧ (s.mpRuns = false → ((s.mpEvent m msg).mb m).rsp = (s.mb m).rsp) := by
  cases runs : s.mpRuns with
  | true =>
    rw [State.mpEvent_runs runs, State.send, State.mb_withMbx_self inside]
    obtain ⟨cmd, part, out, _⟩ := Mbx.send_spec (s.mb m) msg
    exact ⟨cmd, part, out, nofun⟩
  | false =>
    rw [State.mpEvent_stopped runs, State.mb_withMbx_self inside]
    obtain ⟨cmd, part, out, _⟩ := Mbx.hold_spec (s.mb m) msg
    exact ⟨cmd, part, out, fun _ => Mbx.hold_rsp _ _⟩

/-- What an update of the mailboxes and an event of the MP together leave. -/
theorem State.mpEvent_withMbx {s : State} {m : Nat} (inside : m < s.mbx.length) (f : Mbx → Mbx) (msg : OutMsg) :
    (((s.withMbx m f).mpEvent m msg).mb m).cmd = (f (s.mb m)).cmd ∧ (((s.withMbx m f).mpEvent m msg).mb m).part = (f (s.mb m)).part ∧
      (((s.withMbx m f).mpEvent m msg).mb m).out = (f (s.mb m)).out ∧
      (s.mpRuns = false → (((s.withMbx m f).mpEvent m msg).mb m).rsp = (f (s.mb m)).rsp) := by
  have kept := State.mpEvent_spec (s := s.withMbx m f) (m := m) (by rwa [State.withMbx_mbx, upd_length]) msg
  rwa [State.mb_withMbx_self inside] at kept

section
variable {s : State} (up : s.winUp = true) (idle : s.linkHolds = false)
include up idle

theorem exec_cmdFlush (m : Nat) :
    exec (.cmdFlush m) s = .next ((s.withMbx m Mbx.dropCmd).mpEvent m ((s.mb m).cmdFlushed m)) :=
  exec_mbxCtrlWrite up idle m 1

theorem exec_rspFlush (m : Nat) :
    exec (.rspFlush m) s = .next ((s.withMbx m Mbx.dropRsp).mpEvent m ((s.mb m).rspFlushed m)) :=
  exec_mbxCtrlWrite up idle m 2

end

/-! ### The accesses rejected (R54, R55, R56) -/

/-- The gaps between the registers that R56 lists, and what is past the last mailbox. -/
theorem windowReg_gap {o : Nat} (gap : (0x014 ≤ o ∧ o < 0x040) ∨ (0x050 ≤ o ∧ o < 0x100) ∨ 0x200 ≤ o) : windowReg o = none := by
  unfold windowReg
  split
  case h_10 => rw [if_neg (by omega)]
  all_goals omega

theorem accepted_none {off width : Nat}
    (h : width ≠ 4 ∨ off % 4 ≠ 0 ∨ (0x014 ≤ off ∧ off < 0x040) ∨ (0x050 ≤ off ∧ off < 0x100) ∨ 0x200 ≤ off) : accepted off width = none := by
  unfold accepted
  split
  next word => exact windowReg_gap ((h.resolve_left (not_not_intro word.1)).resolve_left (not_not_intro word.2))
  next => rfl

/-- An access that reaches no register only sets `ACC_ERR`; a read returns 0. -/
theorem exec_windowAccessRejected {s : State} (up : s.winUp = true) (idle : s.linkHolds = false) {off width : Nat}
    (none : accepted off width = none) (read : Bool) (v : Nat) :
    exec (.windowAccessRejected read off width v) s = .next (s.perform (.reject read)) := by
  have sent : exec (.windowAccessRejected read off width v) s = s.fromHost (.reject read) := by
    simp only [exec, execWindowAccessRejected, none]
  rw [sent, State.fromHost_performs up idle]

/-- Settles O5: the link performs each access at once or holds it, and the register's own write or read gives the rest. -/
theorem registerWindow : Obligations.RegisterWindow := by
  unfold Obligations.RegisterWindow
  refine ⟨fun s m w bad => ⟨fun die clock link low => ?held, fun up idle => ⟨fun held => ?dropped, fun held full => ?full, fun held room => ?room,
      exec_cmdHeldClear up idle m⟩⟩,
    fun s m upset up idle => ⟨fun empty => ?empty, fun msg rest w ws oldest words => ?word⟩,
    fun s m up idle inside => ⟨?cmdFlush, ?rspFlush, fun off width v rejected => ?rejected,
      fun halt clock twin result runs => exec_faultCtrlRelease up idle halt clock twin result runs⟩⟩
  case held =>
    obtain ⟨p, f, state, held⟩ := State.fromHost_low die clock link low (.write (.mbxCmdData m) w.toNat bad)
    exact ⟨_, held, rfl, rfl, state⟩
  case dropped =>
    have stays := exec_mbxCmdDataWrite (f := id) up idle (Mbx.putCmd_held held w bad)
    rwa [State.withMbx_same rfl] at stays
  case full => exact exec_mbxCmdDataWrite up idle (Mbx.putCmd_full held full w bad)
  case room => exact exec_mbxCmdDataWrite up idle (Mbx.putCmd_room held room w bad)
  case empty => exact exec_mbxRspDataRead up idle (State.regValue_rspData_empty empty) (Mbx.readRsp_empty empty upset)
  case word =>
    exact ⟨_, exec_mbxRspDataRead up idle (State.regValue_rspData_word oldest words) (Mbx.readRsp_word oldest words upset), rfl, rfl⟩
  case cmdFlush =>
    obtain ⟨cmd, part, out, rsp⟩ := State.mpEvent_withMbx inside Mbx.dropCmd ((s.mb m).cmdFlushed m)
    exact ⟨_, exec_cmdFlush up idle m, cmd, part, out, rsp, fun runs => State.mpEvent_runs (s := s.withMbx m Mbx.dropCmd) runs m _⟩
  case rspFlush =>
    obtain ⟨cmd, _, out, rsp⟩ := State.mpEvent_withMbx inside Mbx.dropRsp ((s.mb m).rspFlushed m)
    exact ⟨_, exec_rspFlush up idle m, cmd, out, rsp, fun runs => State.mpEvent_runs (s := s.withMbx m Mbx.dropRsp) runs m _⟩
  case rejected =>
    have none := accepted_none rejected
    exact ⟨exec_windowAccessRejected up idle none false v, exec_windowAccessRejected up idle none true v⟩

end Sys2Proof.Machine
end

-- The mailboxes: acceptance, timeouts and answers.
section
/-!
PROOFS of 03_mailboxes.md. How the MP accepts a command, what it does where a payload or Flint's answer stays away, and how a held message and an
answer of Flint reach the host (O7).
-/
namespace Sys2Proof.Machine

/-! ### Acceptance (R66, R72, R73) -/

/-- The command that the MP makes of a message it accepts (R66, R72); the leader of a PAIRED pair numbers a journalled one (R397). -/
def State.command (s : State) (h : W32) (words : List InWord) : Cmd :=
  { tag := fld h.toNat 16 8, op := fld h.toNat 24 8, header := h, words := words.map fun x => x.w, fence := bitAt h.toNat 9, seq := s.dev.seq + 1,
    jseq := if s.tw.mode == .paired && s.tw.leader && isJournalled (fld h.toNat 24 8) then s.tw.journalSeq + 1 else 0 }

/-- A mailbox whose FIFO keeps `rest` once the message of command `c` has left it, accepted. -/
def Mbx.accept (b : Mbx) (rest : List InWord) (c : Cmd) : Mbx := { b with cmd := rest, part := none, out := b.out ++ [c] }

/-- A message that passes the checks becomes outstanding, with the next place in the order of acceptance. -/
theorem State.admitMsg_accepts {s : State} {m : Nat} {h : W32} {words : List InWord} (tagged : fld h.toNat 16 8 ≠ 0)
    (unused : (s.mb m).tags.contains (fld h.toNat 16 8) = false) (passes : s.checks m h words = none) :
    ∃ tw, s.admitMsg m h words =
      { s.withMbx m fun b => { b with out := b.out ++ [s.command h words] } with
        dev := { s.dev with seq := s.dev.seq + 1 }
        tw := tw } := by
  simp only [State.admitMsg, if_neg tagged, unused, passes, Bool.false_eq_true, if_false]
  exact ⟨_, rfl⟩

/-- A message whose payload stands in the FIFO leaves it whole, and the MP decides on it. -/
theorem State.readMsg_complete {s : State} {m : Nat} {h : W32} (complete : fld h.toNat 10 6 ≤ (s.mb m).cmd.length) :
    s.readMsg m h [] =
      (s.withMbx m fun b => { b with cmd := b.cmd.drop (fld h.toNat 10 6), part := none }).admitMsg m h ((s.mb m).cmd.take (fld h.toNat 10 6)) := by
  have length : ((s.mb m).cmd.take (fld h.toNat 10 6)).length = fld h.toNat 10 6 := List.length_take_of_le complete
  simp only [State.readMsg, List.nil_append, List.length_nil, Nat.sub_zero, length, Nat.lt_irrefl, if_false]

/-- A visit that finds a header goes on to the payload. -/
theorem State.visit_header {s : State} {m : Nat} {h : W32} {rest : List InWord} (fresh : (s.mb m).part = none)
    (waiting : (s.mb m).cmd = ⟨h, false⟩ :: rest) (framed : fld h.toNat 10 6 ≠ 63) :
    s.visit m = ((s.withDev fun d => { d with rot := (m + 1) % 8 }).withMbx m fun b => { b with cmd := rest }).readMsg m h [] := by
  simp only [State.visit, fresh, waiting, framed, Bool.false_eq_true, if_false]

/-- The MP has taken a message from the FIFO, which keeps `rest`, and the rotation has moved on (R73). -/
def State.taken (s : State) (m : Nat) (rest : List InWord) : State :=
  (s.withDev fun d => { d with rot := (m + 1) % 8 }).withMbx m fun b => { b with cmd := rest, part := none }

theorem State.taken_mb {s : State} {m : Nat} (inside : m < s.mbx.length) (rest : List InWord) :
    (s.taken m rest).mb m = { s.mb m with cmd := rest, part := none } := State.mb_withMbx_self inside

/-- A visit that accepts a message takes it from the FIFO and moves the rotation on. -/
theorem State.visit_accepts {s : State} {m : Nat} {h : W32} {rest : List InWord} (inside : m < s.mbx.length) (fresh : (s.mb m).part = none)
    (waiting : (s.mb m).cmd = ⟨h, false⟩ :: rest) (framed : fld h.toNat 10 6 ≠ 63) (complete : fld h.toNat 10 6 ≤ rest.length)
    (tagged : fld h.toNat 16 8 ≠ 0) (unused : (s.mb m).tags.contains (fld h.toNat 16 8) = false)
    (passes : s.checks m h (rest.take (fld h.toNat 10 6)) = none) :
    ∃ tw, s.visit m =
      { s.withMbx m fun b => b.accept (rest.drop (fld h.toNat 10 6)) (s.command h (rest.take (fld h.toNat 10 6))) with
        dev := { s.dev with rot := (m + 1) % 8, seq := s.dev.seq + 1 }
        tw := tw } := by
  have headless : ((s.withDev fun d => { d with rot := (m + 1) % 8 }).withMbx m fun b => { b with cmd := rest }).mb m = { s.mb m with cmd := rest } :=
    State.mb_withMbx_self inside
  rw [State.visit_header fresh waiting framed, State.readMsg_complete (by rw [headless]; exact complete), headless, State.withMbx_withMbx]
  obtain ⟨tw, accepted⟩ := State.admitMsg_accepts (s := s.taken m (rest.drop (fld h.toNat 10 6))) tagged
    (by rw [State.taken_mb inside]; exact unused) passes
  refine ⟨tw, accepted.trans ?_⟩
  rw [State.taken, State.withMbx_withMbx]
  rfl

/-- The MP visits the first mailbox of the rotation that is not skipped. -/
theorem exec_mpAcceptCommand {s : State} {m : Nat} (runs : s.mpRuns = true) (due : s.dev.workDue = []) (agreed : s.pw.agreed.contains 3 = false)
    (first : (((List.range 8).map fun k => (s.dev.rot + k) % 8).find? fun k => !(s.mb k).skipped) = some m) :
    exec .mpAcceptCommand s = .next (s.visit m) := by
  simp only [exec, execMpAcceptCommand, runs, due, agreed, first, List.isEmpty_nil, Bool.not_true, Bool.or_self, Bool.false_eq_true, if_false]

/-! ### Responses and held messages (R64, R65) -/

/-- A response has room when it fits. -/
theorem Mbx.room_response {b : Mbx} {held : List OutMsg} {msg : OutMsg} (response : msg.event = false) :
    b.room held msg = decide (b.rspCount + msg.words.length ≤ 64) := by
  simp [Mbx.room, Mbx.fits, OutMsg.isEvent, response]

theorem State.loseFraming_room {s : State} {m : Nat} (room : (s.mb m).rspCount < 64) (h : W32) (words : List InWord) :
    s.loseFraming m h words = (s.reject m h eLen).resync m 0x03 (fld h.toNat 16 8) (1 + words.length) :=
  if_pos (by rw [Mbx.room_response rfl]; exact decide_eq_true room)

theorem State.loseFraming_full {s : State} {m : Nat} (full : 64 ≤ (s.mb m).rspCount) (h : W32) (words : List InWord) :
    s.loseFraming m h words = s.withMbx m fun b => { b with part := some ⟨h, words, true⟩ } :=
  if_neg (by rw [Mbx.room_response rfl]; simpa using full)

theorem Mbx.ready_first {b : Mbx} {msg : OutMsg} {rest : List OutMsg} (held : b.held = msg :: rest) (fits : b.rspCount + msg.words.length ≤ 64) :
    b.ready = some (msg, 0) := by
  simp [Mbx.ready, held, Mbx.room, Mbx.fits, fits]

theorem Mbx.ready_none {b : Mbx} (held : b.held = []) : b.ready = none := by
  simp [Mbx.ready, held]

section
variable {s : State} {m : Nat} (runs : s.mpRuns = true)
include runs

theorem exec_cmdPayloadTimeout {p : Partial} (part : (s.mb m).part = some p) (waits : p.late = false) :
    exec (.cmdPayloadTimeout m) s = .next (s.loseFraming m p.header p.words) := by
  simp only [exec, execCmdPayloadTimeout, part, waits, runs, Bool.not_true, Bool.or_self, Bool.false_eq_true, if_false]

theorem exec_heldMessageWrite_late {p : Partial} (part : (s.mb m).part = some p) (late : p.late = true) (none : (s.mb m).held = []) :
    exec (.heldMessageWrite m) s = .next (s.loseFraming m p.header p.words) := by
  simp only [exec, execHeldMessageWrite, runs, Mbx.ready_none none, part, late, Bool.not_true, Bool.false_eq_true, if_false, if_true]

theorem exec_heldMessageWrite_first {msg : OutMsg} {rest : List OutMsg} (held : (s.mb m).held = msg :: rest)
    (fits : (s.mb m).rspCount + msg.words.length ≤ 64) :
    exec (.heldMessageWrite m) s = .next (s.withMbx m fun b =>
      { b with
        rsp := b.rsp ++ [msg], held := rest
        out := if msg.event then b.out else b.out.filter fun c => !(c.tag == msg.tag && c.phase == answered) }) := by
  simp only [exec, execHeldMessageWrite, runs, Mbx.ready_first held fits, Bool.not_true, Bool.false_eq_true, if_false]
  refine congrArg Host.Outcome.next (State.withMbx_congr ?_)
  rw [held]
  rfl

/-! ### Flint's answers (R69, R71) -/

/-- No answer for 50 ms: the command is answered E_TIMEOUT, and an answer that comes later is known by its counter. -/
theorem exec_metrologyTimeout {tag : Nat} {c : Cmd}
    (relayed : (s.mb m).out.find? (fun c => c.tag == tag && isMet c.op && c.phase == 1) = some c) (silent : s.metAnswered m tag = none) :
    exec (.metrologyTimeout m tag) s =
      .next (({ s with conduit := { s.conduit with stale := insNat c.counter s.conduit.stale } } : State).finish m c eTimeout [] []) := by
  simp only [exec, execMetrologyTimeout, relayed, silent, runs, Bool.not_true, Option.isSome_none, Bool.or_self, Bool.false_eq_true, if_false]

/-- An answer that fits the response FIFO is written there as it came, and its command is answered. -/
theorem exec_flintResponseRelay {tag : Nat} {ws : List W32} (answer : s.metAnswered m tag = some ws)
    (fits : (s.mb m).rspCount + ws.length ≤ 64) :
    exec (.flintResponseRelay m tag) s =
      .next (({ s with conduit := { s.conduit with answers := s.conduit.answers.erase ws } } : State).withMbx m fun b =>
        { b with rsp := b.rsp ++ [⟨false, tag, ws⟩], out := b.out.filter fun x => x.tag != tag }) := by
  simp only [exec, execFlintResponseRelay, runs, answer, Bool.not_true, Bool.false_eq_true, if_false]
  refine congrArg Host.Outcome.next (State.withMbx_congr ?_)
  have room : (s.mb m).room (s.mb m).held ⟨false, tag, ws⟩ = true := (Mbx.room_response rfl).trans (decide_eq_true fits)
  have written : (s.mb m).send ⟨false, tag, ws⟩ = { s.mb m with rsp := (s.mb m).rsp ++ [⟨false, tag, ws⟩] } := if_pos room
  exact (if_pos room).trans (congrArg (fun b : Mbx => { b with out := (s.mb m).out.filter fun x => x.tag != tag }) written)

end

/-- The one answer received belongs to the relayed command of its opcode, tag and counter. -/
theorem State.metAnswered_only {s : State} {m : Nat} {c : Cmd} {h : W32} {ws : List W32} (met : isMet c.op = true)
    (op : fld h.toNat 24 8 = c.op) (tag : fld h.toNat 16 8 = c.tag) (relayed : s.cmdIn m c.tag c.op 1 = some c)
    (only : s.conduit.answers = [h :: ws]) (counter : c.counter = answerCounter (h :: ws)) : s.metAnswered m c.tag = some (h :: ws) := by
  simp [State.metAnswered, only, op, tag, met, relayed, counter]

/-- Settles O7: a complete message is accepted by the visit that reads it; the other forms by the lemma that says what their row does. -/
theorem commandAcceptance : Obligations.CommandAcceptance := by
  unfold Obligations.CommandAcceptance
  refine ⟨fun s m h rest low boxes runs due agreed first fresh waiting framed complete tagged unused passes => ?accepts,
    fun s m runs => ⟨fun p part => ⟨fun waits full => ?full, fun late none room => ?late, fun waits room => ?timeout⟩,
      fun msg rest held fits => exec_heldMessageWrite_first runs held fits,
      fun tag c relayed silent => exec_metrologyTimeout runs relayed silent⟩,
    fun s m c h ws runs met op tag relayed only counter fits => ?relay⟩
  case accepts =>
    have inside : m < s.mbx.length := boxes ▸ low
    obtain ⟨tw, visited⟩ := State.visit_accepts inside fresh waiting framed complete tagged unused passes
    have box := State.mb_withMbx_self (f := fun b => b.accept (rest.drop (fld h.toNat 10 6)) (s.command h (rest.take (fld h.toNat 10 6)))) inside
    exact ⟨_, (exec_mpAcceptCommand runs due agreed first).trans (congrArg Host.Outcome.next visited), rfl, rfl, congrArg Mbx.cmd box,
      congrArg Mbx.part box, (congrArg Mbx.rsp box :), s.command h (rest.take (fld h.toNat 10 6)), congrArg Mbx.out box, rfl, rfl, rfl, rfl, rfl, rfl,
      fun k other => State.mb_withMbx_ne (s := s) (Ne.symm other)⟩
  case full => rw [exec_cmdPayloadTimeout runs part waits, State.loseFraming_full full]
  case late => rw [exec_heldMessageWrite_late runs part late none, State.loseFraming_room room]
  case timeout => rw [exec_cmdPayloadTimeout runs part waits, State.loseFraming_room room]
  case relay =>
    rw [exec_flintResponseRelay runs (State.metAnswered_only met op tag relayed only counter) fits, only, List.erase_cons_head]

end Sys2Proof.Machine
end

-- The mailboxes: IDENTIFY, GET_STATUS and the board record.
section
/-!
PROOFS of 03_mailboxes.md and 12_commands.md. The version that IDENTIFY selects or reports, the words of GET_STATUS, and the board record up to its
relay to Flint (O11).
-/
namespace Sys2Proof.Machine

/-! ### IDENTIFY and GET_STATUS (R74, R279, R281) -/

/-- What IDENTIFY reports after the version (R279). -/
def State.identityWords (s : State) : List W32 :=
  0x00110320 :: w64 s.devId ++
    [w32 (if s.dev.phase = 0 then 0 else s.dev.fwVer), w32 s.dev.flVer, w32 (s.dev.phase + s.role * 2 ^ 4 + s.lifecycle * 2 ^ 8), 0]

section
variable {s : State} {m tag : Nat} {c : Cmd} (ready : s.ready m tag 0x01 c)
include ready

/-- On mailbox 0 a range that includes 3 selects version 3.0. -/
theorem exec_identify_selects (zero : m = 0) (low : fld (c.word 0) 0 8 ≤ 3) (high : 3 ≤ fld (c.word 0) 8 8) :
    exec (.identify m tag) s = .next ((s.withDev fun d => { d with proto := 3 }).finish m c sOk (w32 3 :: s.identityWords) []) := by
  refine State.run_ready ready ?_
  rw [need_bind (by simp [low, high]), if_pos zero]
  rfl

/-- On mailbox 0 a range without 3 selects nothing, whether or not a version is selected already. -/
theorem exec_identify_unfit (zero : m = 0) (unfit : 3 < fld (c.word 0) 0 8 ∨ fld (c.word 0) 8 8 < 3) :
    exec (.identify m tag) s = .next (s.finish m c (if s.dev.proto = 0 then eParam else eState) [] []) := by
  refine State.run_rejects ready (need_bind_false ?_)
  have outside : ¬ (fld (c.word 0) 0 8 ≤ 3 ∧ 3 ≤ fld (c.word 0) 8 8) := by omega
  simpa [zero] using outside

/-- On another mailbox the version in force is reported, whatever the range. -/
theorem exec_identify_reports (other : m ≠ 0) :
    exec (.identify m tag) s = .next (s.finish m c sOk (w32 s.dev.proto :: s.identityWords) []) := by
  refine State.run_ready ready ?_
  rw [need_bind (by simp [other]), if_neg other]
  rfl

end

theorem exec_getStatus {s : State} {m tag : Nat} {c : Cmd} (ready : s.ready m tag 0x03 c) :
    exec (.getStatus m tag) s = .next (s.finish m c sOk (statusWords s m) []) :=
  State.run_ready ready rfl

/-! ### The board record (R280, R448, R449) -/

theorem State.begin_rejects {s : State} {m tag op e : Nat} {c : Cmd} {body : Cmd → State → Begun} {ws : List W32} (ready : s.ready m tag op c)
    (rejects : body c s = .error (e, ws)) : s.begin m tag op body = .next (s.finish m c e ws []) := by
  obtain ⟨accepted, runs, may, leads, granted⟩ := ready
  simp [State.begin, State.beginBody, accepted, runs, may, leads, granted, rejects]

/-- Outside phase FIRMWARE the command starts at once. -/
theorem execBoardRecord_starts {s : State} (phase : s.dev.phase ≠ 1) (m tag : Nat) (data : List Byte) (failed : Option Nat) (sigOk : Bool) :
    exec (.boardRecord m tag data failed sigOk) s = s.begin m tag 0x02 fun c => boardRecord data failed sigOk m c := if_neg phase

section
variable {s : State} {m : Nat} {c : Cmd} {data : List Byte} (field : hostField (c.word 0 + c.word 1 * 2 ^ 32) (c.word 2) 512 16384 = true)
include field

theorem boardRecord_relayed {r : Board} (first : s.dev.board = none) (legal : parseBoard s.devId (padTo (c.word 2) data) (c.word 2) = some r) :
    boardRecord data none true m c s =
      .ok (((s.withDev fun d => { d with boardPend := some r }).setPhase m c 1 []).sendChunks 0xF2 5 254 (padTo (c.word 2) data)) := by
  simp only [boardRecord]
  rw [need_bind field, need_bind (by rw [first]; rfl), legal]
  rfl

theorem boardRecord_unsigned (first : s.dev.board = none) : boardRecord data none false m c s = .error (eAuth, []) := by
  simp only [boardRecord]
  rw [need_bind field, need_bind (by rw [first]; rfl)]
  rfl

theorem boardRecord_second {b : Board} (board : s.dev.board = some b) (failed : Option Nat) (sigOk : Bool) :
    boardRecord data failed sigOk m c s = .error (eState, []) := by
  simp only [boardRecord]
  rw [need_bind field, need_bind_false (by rw [board]; rfl)]

end

/-- Settles O11: each command by the check that fails, or by what it does when every check passes. -/
theorem identificationAndBoard : Obligations.IdentificationAndBoard := by
  unfold Obligations.IdentificationAndBoard
  refine ⟨fun s m tag c => ⟨fun ready low high => ⟨_, exec_identify_selects ready rfl low high⟩, fun ready unfit => exec_identify_unfit ready rfl unfit,
      fun other ready => ⟨_, exec_identify_reports ready other⟩, fun ready => exec_getStatus ready⟩,
    fun s m tag c data r ready phase field => ⟨fun first legal => ⟨?relayed, ?unsigned⟩, fun b board => ?second⟩⟩
  all_goals rw [execBoardRecord_starts phase]
  case relayed => exact State.begin_ready ready (boardRecord_relayed field first legal)
  case unsigned => exact State.begin_rejects ready (boardRecord_unsigned field first)
  case second => exact State.begin_rejects ready (boardRecord_second field board none true)

end Sys2Proof.Machine
end

-- The Geode engine: what records, Gallery writes and stops of a context keep.
section
/-!
PROOFS of 04_geode_engine.md. What the operations that the sequencer's events share leave alone: a record and a write to the Gallery reach no Geode
and no context, and the stop of a context reaches of a Geode its slots' next budgets only. What they change there.
-/
namespace Sys2Proof.Machine

/-! ### Records and Gallery writes -/

/-- The parts of the state that a fault record and a write to the Gallery do not reach: the Geodes and the contexts. -/
def State.engine (s : State) : List Geode × List Ctx := (s.geodes, s.ctxs)

/-- What every step of a fold keeps, the fold keeps. -/
theorem foldl_keeps {σ α δ : Type} {p : σ → δ} {f : σ → α → σ} (h : ∀ s x, p (f s x) = p s) (l : List α) (s : σ) : p (l.foldl f s) = p s :=
  List.foldlRecOn (motive := fun t => p t = p s) l f rfl fun t ht x _ => (h t x).trans ht

@[simp] theorem State.withGal_engine (s : State) (f : Gallery → Gallery) : (s.withGal f).engine = s.engine := rfl

theorem State.recNew_engine (s : State) (b : Bool) : (s.recNew b).engine = s.engine := by
  unfold State.recNew
  split <;> rfl

@[simp] theorem State.addRec_engine (s : State) (code ctx geode unit strm interval : Nat) (detail : List W32) :
    (s.addRec code ctx geode unit strm interval detail).engine = s.engine := by
  simp only [State.addRec]
  split
  · exact State.recNew_engine _ _
  · rfl

@[simp] theorem State.galError_engine (s : State) (p kind : Nat) : (s.galError p kind).engine = s.engine := by
  simp only [State.galError]
  split
  · exact State.addRec_engine _ _ _ _ _ _ _ _
  · rfl

@[simp] theorem State.galEcc_engine (s : State) (p n kind : Nat) : (s.galEcc p n kind).engine = s.engine := by
  simp only [State.galEcc]
  rw [foldl_keeps (p := State.engine) fun t w => State.galError_engine t _ _]
  exact foldl_keeps (p := State.engine) (fun t w => State.withGal_engine t _) _ _

@[simp] theorem State.granEcc_engine (s : State) (p : Nat) : (s.granEcc p).engine = s.engine := by simp [State.granEcc]

@[simp] theorem State.galStore_engine (s : State) (p : Nat) (bytes : List Byte) (poison : Bool) : (s.galStore p bytes poison).engine = s.engine := by
  simp only [State.galStore]
  split
  · rfl
  · rw [State.withGal_engine]
    split <;> split <;> simp

@[simp] theorem State.galStoreGran_engine (s : State) (p : Nat) (bytes : List Byte) (poison : Bool) :
    (s.galStoreGran p bytes poison).engine = s.engine := by
  simp only [State.galStoreGran]
  split
  · simp
  · split <;> simp

@[simp] theorem State.galStoreProt_engine (k : Nat) (s : State) (p : Nat) (bytes : List Byte) (poison : Bool) :
    (State.galStoreProt k s p bytes poison).engine = s.engine := by
  induction k generalizing s p bytes with
  | zero => rfl
  | succ k ih =>
    simp only [State.galStoreProt]
    split
    · rfl
    · rw [ih, State.galStoreGran_engine]

@[simp] theorem State.galWriteP_engine (s : State) (p : Nat) (bytes : List Byte) (poison : Bool) :
    (s.galWriteP p bytes poison).engine = s.engine := by
  unfold State.galWriteP
  split
  · rfl
  · split <;> simp

@[simp] theorem State.galWrite_engine (s : State) (c a : Nat) (bytes : List Byte) (poison : Bool) :
    (s.galWrite c a bytes poison).engine = s.engine :=
  foldl_keeps (p := fun r : State × List Byte => r.1.engine) (fun _ _ => State.galWriteP_engine _ _ _ _) _ (s, bytes)

@[simp] theorem State.storeWrites_engine (s : State) (c : Nat) (l : List GalWrite) : (s.storeWrites c l).engine = s.engine := by
  refine foldl_keeps (p := State.engine) (fun t w => ?_) l s
  split
  · exact State.galWrite_engine _ _ _ _ _
  · rfl

theorem State.geodes_of_engine {s t : State} (h : t.engine = s.engine) : t.geodes = s.geodes := congrArg Prod.fst h
theorem State.ctxs_of_engine {s t : State} (h : t.engine = s.engine) : t.ctxs = s.ctxs := congrArg Prod.snd h

@[simp] theorem State.addRec_geodes (s : State) (code ctx geode unit strm interval : Nat) (detail : List W32) :
    (s.addRec code ctx geode unit strm interval detail).geodes = s.geodes := State.geodes_of_engine (State.addRec_engine _ _ _ _ _ _ _ _)
@[simp] theorem State.addRec_ctxs (s : State) (code ctx geode unit strm interval : Nat) (detail : List W32) :
    (s.addRec code ctx geode unit strm interval detail).ctxs = s.ctxs := State.ctxs_of_engine (State.addRec_engine _ _ _ _ _ _ _ _)

/-! ### Reads of a Geode and its slots -/

theorem State.geode_congr {s t : State} (h : t.geodes = s.geodes) (g : Nat) : t.geode g = s.geode g := by rw [State.geode, h]; rfl
theorem State.slot_congr {s t : State} (h : t.geodes = s.geodes) (g i : Nat) : t.slot g i = s.slot g i := by rw [State.slot, State.geode_congr h]; rfl

@[simp] theorem State.addRec_geode (s : State) (code ctx geode unit strm interval : Nat) (detail : List W32) (g : Nat) :
    (s.addRec code ctx geode unit strm interval detail).geode g = s.geode g := State.geode_congr (State.addRec_geodes _ _ _ _ _ _ _ _) g

@[simp] theorem State.faultRec_geodes (s : State) (g i : Nat) : (s.faultRec g i).geodes = s.geodes := State.addRec_geodes _ _ _ _ _ _ _ _
@[simp] theorem State.faultRec_ctxs (s : State) (g i : Nat) : (s.faultRec g i).ctxs = s.ctxs := State.addRec_ctxs _ _ _ _ _ _ _ _

section
variable {s : State} {g i : Nat} (outside : ¬ (g < s.geodes.length ∧ i < (s.geode g).slots.length))
include outside

/-- A slot that no table holds reads as one after reset. -/
theorem State.slot_outside : s.slot g i = {} := by
  by_cases hg : g < s.geodes.length
  · exact List.getD_eq_default _ _ (Nat.not_lt.mp fun hi => outside ⟨hg, hi⟩)
  · have absent : s.geode g = {} := List.getD_eq_default _ _ (Nat.not_lt.mp hg)
    rw [State.slot, absent]
    by_cases hi : i < 4
    · exact List.getD_replicate _ hi
    · exact List.getD_eq_default _ _ (by simpa using hi)

/-- An update of a slot that no table holds changes nothing. -/
theorem State.withSlot_outside (f : Slot → Slot) : s.withSlot g i f = s := by
  by_cases hg : g < s.geodes.length
  · refine State.withGeode_same ?_
    rw [Geode.withSlot, upd_ge (Nat.not_lt.mp fun hi => outside ⟨hg, hi⟩)]
  · rw [State.withSlot, State.withGeode, upd_ge (Nat.not_lt.mp hg)]

end

/-- What an update of a slot keeps of every slot reads as before. -/
theorem State.withSlot_keeps {δ : Type} {p : Slot → δ} {f : Slot → Slot} (h : ∀ x, p (f x) = p x) (s : State) (g i k j : Nat) :
    p ((s.withSlot g i f).slot k j) = p (s.slot k j) := by
  by_cases inside : g < s.geodes.length ∧ i < (s.geode g).slots.length
  · by_cases same : g = k ∧ i = j
    · obtain ⟨rfl, rfl⟩ := same
      rw [State.slot_withSlot_self inside.1 inside.2, h]
    · rw [State.slot_withSlot_ne (by omega)]
  · rw [State.withSlot_outside inside]

/-- A slot set EMPTY is EMPTY, and so is one that no table holds. -/
theorem State.slot_withSlot_empty (s : State) (g i : Nat) : ((s.withSlot g i fun sl => { sl with state := .empty }).slot g i).state = .empty := by
  by_cases inside : g < s.geodes.length ∧ i < (s.geode g).slots.length
  · rw [State.slot_withSlot_self inside.1 inside.2]
  · rw [State.withSlot_outside inside, State.slot_outside inside]

/-- A Geode without its slots. -/
def Geode.bare (d : Geode) : Geode := { d with slots := [] }

@[simp] theorem Geode.bare_retired (d : Geode) : d.bare.retired = d.retired := rfl
@[simp] theorem Geode.bare_fault (d : Geode) : d.bare.fault = d.fault := rfl
@[simp] theorem Geode.bare_queues (d : Geode) : d.bare.queues = d.queues := rfl

theorem State.withSlot_bare (s : State) (g i k : Nat) (f : Slot → Slot) : ((s.withSlot g i f).geode k).bare = (s.geode k).bare := by
  by_cases same : g = k
  · subst same
    by_cases hg : g < s.geodes.length
    · rw [State.withSlot, State.geode_withGeode_self hg]
      rfl
    · rw [State.withSlot, State.withGeode, upd_ge (Nat.not_lt.mp hg)]
  · rw [State.withSlot, State.geode_withGeode_ne same]

/-! ### The stop of a context (R223, R225) -/

theorem State.zeroBudgets_ctxs (s : State) (c : Nat) : (s.zeroBudgets c).ctxs = s.ctxs := by
  unfold State.zeroBudgets
  refine foldl_keeps (p := State.ctxs) (fun _ _ => ?_) _ s
  rfl

/-- Of a slot the stop changes the next budget only. -/
theorem State.haltCtx_slot {δ : Type} {p : Slot → δ} (h : ∀ x : Slot, p { x with budgetNext := 0 } = p x) (s : State) (c g i : Nat) (b : Bool) (k j : Nat) :
    p ((s.haltCtx c g i b).slot k j) = p (s.slot k j) := by
  refine foldl_keeps (p := fun t : State => p (t.slot k j)) (fun t x => ?_) (s.slotsOf c) s
  exact State.withSlot_keeps h t x.1 x.2 k j

/-- Of a Geode it changes slots only. -/
theorem State.haltCtx_bare (s : State) (c g i : Nat) (b : Bool) (k : Nat) : ((s.haltCtx c g i b).geode k).bare = (s.geode k).bare := by
  refine foldl_keeps (p := fun t : State => (t.geode k).bare) (fun t x => ?_) (s.slotsOf c) s
  exact State.withSlot_bare t x.1 x.2 k _

/-- The context is on its way to HALTED, and the slot that a program fault vacated is noted. -/
theorem State.haltCtx_ctx {s : State} {c : Nat} (h : c < s.ctxs.length) (g i : Nat) :
    ((s.haltCtx c g i false).ctx c).halting = true ∧ ((s.haltCtx c g i false).ctx c).vacated = (s.ctx c).vacated ++ [(g, i)] := by
  have same : (s.zeroBudgets c).ctx c = s.ctx c := by rw [State.ctx, State.zeroBudgets_ctxs]; rfl
  have inside : c < (s.zeroBudgets c).ctxs.length := by rwa [State.zeroBudgets_ctxs]
  rw [State.haltCtx, State.ctx_withCtx_self inside, same]
  exact ⟨rfl, rfl⟩

/-! ### A slot set EMPTY (R103, R128, R220) -/

theorem State.withSlot_withSlot (s : State) (g i : Nat) (f h : Slot → Slot) : (s.withSlot g i f).withSlot g i h = s.withSlot g i fun x => h (f x) := by
  simp only [State.withSlot, State.withGeode_withGeode, Geode.withSlot, upd_upd]

theorem State.withSlot_geodes_congr {s t : State} (h : t.geodes = s.geodes) (g i : Nat) (f : Slot → Slot) :
    (t.withSlot g i f).geodes = (s.withSlot g i f).geodes := by
  rw [State.withSlot, State.withGeode_geodes, h]
  rfl

theorem State.publishAll_geodes (s : State) (g i : Nat) : (s.publishAll g i).geodes = (s.withSlot g i fun sl => { sl with writes := [] }).geodes :=
  State.withSlot_geodes_congr (State.geodes_of_engine (State.storeWrites_engine s _ _)) g i _

theorem State.publishAll_ctxs (s : State) (g i : Nat) : (s.publishAll g i).ctxs = s.ctxs :=
  (State.ctxs_of_engine (State.storeWrites_engine s _ _) :)

/-- Once its writes are visible, a slot that forgets them becomes what it would have become with them. -/
theorem State.publishAll_withSlot_geodes {f : Slot → Slot} (h : ∀ x, f { x with writes := [] } = f x) (s : State) (g i : Nat) :
    ((s.publishAll g i).withSlot g i f).geodes = (s.withSlot g i f).geodes := by
  rw [State.withSlot_geodes_congr (State.publishAll_geodes s g i), State.withSlot_withSlot]
  simp only [h]

theorem State.emptySlot_ctxs (s : State) (g i : Nat) : (s.emptySlot g i).ctxs = s.ctxs := State.publishAll_ctxs s g i

/-- The slot is cleared, and its window is freed or kept. -/
theorem State.emptySlot_slot {s : State} {g i : Nat} (hg : g < s.geodes.length) (hi : i < (s.geode g).slots.length) :
    ∃ base size, (s.emptySlot g i).slot g i = { (s.slot g i).clear with base := base, size := size } := by
  rw [State.emptySlot, State.slot_congr (State.publishAll_withSlot_geodes (fun _ => rfl) s g i), State.slot_withSlot_self hg hi]
  dsimp only
  split
  · exact ⟨_, _, rfl⟩
  · exact ⟨0, 0, rfl⟩

end Sys2Proof.Machine
end

-- The Geode engine: firings.
section
/-!
PROOFS of 04_geode_engine.md. The slot that is chosen begins a firing; the conflict of two slots, the limit, the handling of a program fault, and
what follows a faulty Vein (O47).
-/
namespace Sys2Proof.Machine

/-! ### The start of a firing (R97 to R99) -/

/-- The rule chooses only a slot that may fire. -/
theorem State.choice_canFire {s : State} {g i : Nat} (h : s.choice g = some i) : s.canFire g i = true := by
  refine List.foldlRecOn (motive := fun best : Option Nat => ∀ i, best = some i → s.canFire g i = true) _ _ (by simp) (fun best hb j hj => ?_) i h
  have may : s.canFire g j = true := (List.mem_filter.mp hj).2
  cases best with
  | none => rintro _ ⟨⟩; exact may
  | some b =>
    dsimp only
    split
    · rintro _ ⟨⟩; exact may
    · exact hb

/-- What the switch to slot `i` costs (R99). -/
def Geode.switchCost (d : Geode) (i : Nat) : Nat := if d.fired = true ∧ d.lastSlot = i then 2 else 6

/-- A Geode whose slot `i` begins a firing in drip `n`, charged `c` cycles. -/
def Geode.fire (d : Geode) (n i c : Nat) : Geode :=
  { d.withSlot i fun sl => { sl with used := sl.used + c } with
    firing := some { slot := i, drip := n, limit := (d.slot i).limit, cycles := c }
    lastSlot := i
    fired := true }

/-- Cycles are charged to the firing and to its slot, in one update of the Geode. -/
theorem State.charge_eq_withGeode (s : State) (g c : Nat) :
    s.charge g c = s.withGeode g fun d =>
      { d.withSlot (s.fslot g) fun sl => { sl with used := sl.used + c } with firing := d.firing.map fun f => { f with cycles := f.cycles + c } } :=
  State.withGeode_withGeode s g _ _

section
variable {s : State} {g i : Nat}

theorem exec_firingStart_chosen (hg : g < s.geodes.length) (chosen : s.choice g = some i) (clear : (s.geode g).conflict = none) :
    exec (.firingStart g i) s = .next (s.withGeode g fun d => d.fire s.drip.count i ((s.geode g).switchCost i)) := by
  have cost : (if (s.geode g).fired && (s.geode g).lastSlot == i then 2 else 6) = (s.geode g).switchCost i := by simp [Geode.switchCost]
  simp only [exec, execFiringStart, clear, chosen, cost, Option.isSome_none, Bool.and_false, Bool.false_eq_true, if_false, if_true]
  have slot : (s.withGeode g fun d =>
      { d with firing := some { slot := i, drip := s.drip.count, limit := (d.slot i).limit }, lastSlot := i, fired := true }).fslot g = i := by
    rw [State.fslot, State.firing, State.geode_withGeode_self hg]
    rfl
  rw [State.charge_eq_withGeode, slot, State.withGeode_withGeode]
  simp only [Option.map_some, Nat.zero_add]
  rfl

theorem exec_firingStart_unfit (unfit : s.canFire g i = false) (clear : (s.geode g).conflict = none) : exec (.firingStart g i) s = .next s := by
  have other : s.choice g ≠ some i := fun h => by simp [State.choice_canFire h] at unfit
  simp [exec, execFiringStart, clear, other]

theorem exec_firingStart_conflict {j : Nat} (idle : (s.geode g).firing = none) (clash : (s.geode g).conflict = some j) :
    exec (.firingStart g i) s = .next (s.progFault g j 0x11 (s.slot g j).pc) := by
  simp [exec, execFiringStart, State.conflictFault, idle, clash]

/-! ### The limit (R99) and the handling of a program fault (R225) -/

theorem exec_firingLimit {f : Firing} (fires : s.firing g = some f) (limited : f.limit ≠ 0) (runs : s.arithRuns = true) (moves : s.commitFull g = false) :
    exec (.firingLimit g) s = .next ((s.charge g (f.limit + f.stalled - f.cycles)).progFault g f.slot 0x0E (s.fsl g).pc) := by
  simp [exec, execFiringLimit, fires, limited, runs, moves]

theorem exec_programFaultHandling (halted : (s.slot g i).state = .halted) :
    exec (.programFaultHandling g i) s = .next (((s.faultRec g i).emptySlot g i).haltCtx (s.slot g i).ctx g i false) := by
  simp [exec, execProgramFaultHandling, halted]

/-- The slot whose fault has been handled is EMPTY and cleared. -/
theorem State.handled_slot (hg : g < s.geodes.length) (hi : i < (s.geode g).slots.length) (c : Nat) :
    let t := ((s.faultRec g i).emptySlot g i).haltCtx c g i false
    (t.slot g i).state = .empty ∧ (t.slot g i).prog = [] ∧ (t.slot g i).cause = 0 := by
  have recorded : (s.faultRec g i).geode g = s.geode g := State.geode_congr (State.faultRec_geodes s g i) g
  obtain ⟨base, size, emptied⟩ := State.emptySlot_slot (s := s.faultRec g i) (i := i) (by rwa [State.faultRec_geodes]) (by rwa [recorded])
  refine ⟨?_, ?_, ?_⟩
  · rw [State.haltCtx_slot (p := Slot.state) fun _ => rfl, emptied]; rfl
  · rw [State.haltCtx_slot (p := Slot.prog) fun _ => rfl, emptied]; rfl
  · rw [State.haltCtx_slot (p := Slot.cause) fun _ => rfl, emptied]; rfl

end

/-! ### Faulty Veins (R82) -/

theorem exec_veinRepairDone {s : State} {g : Nat} (pending : (s.geode g).veinPending = 1) (idle : (s.geode g).firing = none) (runs : s.arithRuns = true) :
    exec (.veinRepairDone g) s =
      .next ((s.addRec 0x0101 0xFF g 0xFF 0xFF 0 []).withGeode g fun d => { d with veinPending := 0, spareUsed := true, tiles := [] }) := by
  simp [exec, execVeinRepairDone, pending, idle, runs]

/-- What a retirement does with slot `i`: an occupied one becomes EMPTY, and its context starts towards HALTED (R404). -/
def State.vacate (s : State) (g i : Nat) : State :=
  if (s.slot g i).state = .empty then s
  else ((if (s.slot g i).state = .halted then s.faultRec g i else s).withSlot g i fun sl => { sl with state := .empty }).haltCtx (s.slot g i).ctx g i true

theorem State.retire_vacates (s : State) (g : Nat) :
    s.retire g = (List.range 4).foldl (fun t i => t.vacate g i)
      (s.withGeode g fun d => { d with retired := true, retirePending := false, veinPending := 0, firing := none }) := rfl

theorem State.vacate_bare (s : State) (g i k : Nat) : ((s.vacate g i).geode k).bare = (s.geode k).bare := by
  unfold State.vacate
  split
  · rfl
  · rw [State.haltCtx_bare, State.withSlot_bare]
    split
    · rw [State.geode_congr (State.faultRec_geodes s g i)]
    · rfl

/-- Of a Geode other than its slots a retirement changes the marks of R82 and R402 and ends the firing. -/
theorem State.retire_bare {s : State} {g : Nat} (hg : g < s.geodes.length) :
    ((s.retire g).geode g).bare = { (s.geode g).bare with retired := true, retirePending := false, veinPending := 0, firing := none } := by
  rw [State.retire_vacates, foldl_keeps (p := fun t : State => (t.geode g).bare) fun t i => State.vacate_bare t g i g]
  rw [State.geode_withGeode_self hg]
  rfl

theorem State.vacate_empties (s : State) (g i : Nat) : ((s.vacate g i).slot g i).state = .empty := by
  unfold State.vacate
  split
  · assumption
  · rw [State.haltCtx_slot (p := Slot.state) fun _ => rfl]
    exact State.slot_withSlot_empty _ g i

theorem State.vacate_keeps_empty {s : State} {g j : Nat} (h : (s.slot g j).state = .empty) (i : Nat) : ((s.vacate g i).slot g j).state = .empty := by
  by_cases same : i = j
  · rw [same]
    exact State.vacate_empties s g j
  · unfold State.vacate
    split
    · exact h
    · rw [State.haltCtx_slot (p := Slot.state) fun _ => rfl, State.slot_withSlot_ne (Or.inr same)]
      split
      · rwa [State.slot_congr (State.faultRec_geodes s g i)]
      · exact h

theorem State.vacateAll_empties {g j : Nat} (l : List Nat) {s : State} (h : j ∈ l ∨ (s.slot g j).state = .empty) :
    ((l.foldl (fun t i => t.vacate g i) s).slot g j).state = .empty := by
  induction l generalizing s with
  | nil => exact h.resolve_left List.not_mem_nil
  | cons i l ih =>
    refine ih ?_
    rcases h with h | h
    · rcases List.mem_cons.mp h with rfl | h
      · exact Or.inr (State.vacate_empties s g j)
      · exact Or.inl h
    · exact Or.inr (State.vacate_keeps_empty h i)

/-- A retired Geode has no occupied slot (R404). -/
theorem State.retire_slot_empty (s : State) (g : Nat) {j : Nat} (hj : j < 4) : ((s.retire g).slot g j).state = .empty := by
  rw [State.retire_vacates]
  exact State.vacateAll_empties _ (Or.inl (List.mem_range.mpr hj))

theorem State.retireVein_marks {s : State} {g : Nat} (hg : g < s.geodes.length) :
    ((s.retireVein g).geode g).retired = true ∧ ((s.retireVein g).geode g).fault = (s.geode g).fault := by
  have bare := State.retire_bare (s := s.addRec 0x0102 0xFF g 0xFF 0xFF 0 []) (g := g) (by rwa [State.addRec_geodes])
  rw [State.retireVein, ← Geode.bare_retired, ← Geode.bare_fault, bare, State.addRec_geode]
  exact ⟨rfl, rfl⟩

/-- Between firings a second faulty Vein sets `GD_FAULT.GEODE` and retires the Geode (R82 step 4b). -/
theorem State.faultyVeins_retires {s : State} {g k : Nat} (idle : (s.geode g).firing = none) (second : 2 ≤ (s.geode g).veinCount 0 + k) :
    s.faultyVeins g k = (s.geodeFault g (bit ((s.geode g).veinCount 0 == 0) + 2)).retireVein g := by
  simp [State.faultyVeins, idle, second, bit]

theorem bitAt_geodeFault (x : W32) (b : Bool) : bitAt (x ||| BitVec.ofNat 32 (bit b + 2)).toNat 1 = true := by
  have testBit (n : Nat) : bitAt n 1 = n.testBit 1 := by simp [bitAt, Nat.testBit_eq_decide_div_mod_eq, Bool.beq_eq_decide_eq]
  have new : (BitVec.ofNat 32 (bit b + 2)).toNat.testBit 1 = true := by cases b <;> decide
  rw [testBit, BitVec.toNat_or, Nat.testBit_or, new, Bool.or_true]

/-- Settles O47: each form by the lemma on its row; what it shows by what the shared operations keep. -/
theorem firings : Obligations.Firings := by
  unfold Obligations.Firings
  intro s g i hg hi
  refine ⟨fun chosen clear _ => ⟨_, exec_firingStart_chosen hg chosen clear, ?fires, ?used, ?queues, fun h other => State.geode_withGeode_ne other.symm, rfl⟩,
    fun unfit clear => exec_firingStart_unfit unfit clear, fun j idle clash => exec_firingStart_conflict idle clash,
    fun f fires limited runs moves => exec_firingLimit fires limited runs moves,
    fun halted => ?handled,
    fun pending idle runs => ⟨_, exec_veinRepairDone pending idle runs, ?repaired⟩, fun k idle second => ?retires⟩
  case fires => rw [State.firing, State.geode_withGeode_self hg]; rfl
  case used => rw [State.slot_withGeode_self hg]; exact congrArg Slot.used (Geode.slot_withSlot_self hi)
  case queues => rw [State.geode_withGeode_self hg]; rfl
  case handled =>
    obtain ⟨state, prog, cause⟩ := State.handled_slot hg hi (s.slot g i).ctx
    refine ⟨_, exec_programFaultHandling halted, state, prog, cause, fun inside => ?_⟩
    have inside' : (s.slot g i).ctx < ((s.faultRec g i).emptySlot g i).ctxs.length := by rwa [State.emptySlot_ctxs, State.faultRec_ctxs]
    obtain ⟨halting, vacated⟩ := State.haltCtx_ctx inside' g i
    exact ⟨halting, by rw [vacated]; simp⟩
  case repaired =>
    rw [State.geode_withGeode_self (by simpa using hg), State.addRec_geode]
    exact ⟨rfl, rfl, rfl, rfl⟩
  case retires =>
    rw [State.faultyVeins_retires idle second]
    obtain ⟨retired, fault⟩ := State.retireVein_marks (s := s.geodeFault g (bit ((s.geode g).veinCount 0 == 0) + 2)) (by simpa [State.geodeFault] using hg)
    refine ⟨retired, ?_, fun j _ hj => State.retire_slot_empty _ g hj⟩
    rw [fault, State.geodeFault, State.geode_withGeode_self hg]
    exact bitAt_geodeFault _ _

end Sys2Proof.Machine
end

-- The Geode engine: a Gallery write whose range is no longer mapped.
section
/-!
PROOFS of 04_geode_engine.md. What the completion of a MOVE's Gallery write does when its range has left the slab set (O48).
-/
namespace Sys2Proof.Machine

/-! ### A write whose range has left the slab set (R128, R191) -/

/-- Such a write is lost: storing it leaves the state as it is. -/
theorem State.storeWrites_outside {s : State} {c : Nat} {w : GalWrite}
    (outside : (s.ctx c).inSet w.addr w.bytes.length true = false) :
    s.storeWrites c [w] = s := by
  simp [State.storeWrites, outside]

/-- A completion marks the write; of what `publish` reads of the slot it changes nothing else. -/
theorem Slot.complete_spec (sl : Slot) (k n : Nat) (w : GalWrite) :
    (sl.complete k n w).writes = sl.writes.set k { w with done := true } ∧ (sl.complete k n w).cls = sl.cls ∧ (sl.complete k n w).ctx = sl.ctx := by
  simp only [Slot.complete]
  split <;> exact ⟨rfl, rfl, rfl⟩

/-- A completed write that is the slot's only one, becomes visible (R128). -/
theorem State.publish_only {s : State} {g i : Nat} {w : GalWrite} (visible : (s.slot g i).cls ≠ .background) (only : (s.slot g i).writes = [w])
    (done : w.done = true) :
    s.publish g i = (s.storeWrites (s.slot g i).ctx [w]).withSlot g i fun sl => { sl with writes := sl.writes.drop 1 } := by
  have ready : readyWrites [w] = 1 := by simp [readyWrites, done]
  simp [State.publish, visible, only, ready]

/-- The completion of a slot's only write whose range has left the slab set leaves the Gallery as it was. -/
theorem exec_moveGalleryWriteDone_outside {s : State} {g i : Nat} {w : GalWrite} (hg : g < s.geodes.length) (hi : i < (s.geode g).slots.length)
    (opened : s.galOpen = true) (only : (s.slot g i).writes = [w]) (flight : w.done = false) (visible : (s.slot g i).cls ≠ .background)
    (outside : (s.ctx (s.slot g i).ctx).inSet w.addr w.bytes.length true = false) :
    ∃ t, exec (.moveGalleryWriteDone g i 0) s = .next t ∧ t.gal = s.gal := by
  obtain ⟨writes, cls, ctx⟩ := Slot.complete_spec (s.slot g i) 0 (near64 s.drip.count w.origin) w
  have completed := State.slot_withSlot_self (f := fun sl => sl.complete 0 (near64 s.drip.count w.origin) w) hg hi
  refine ⟨(s.withSlot g i fun sl => sl.complete 0 (near64 s.drip.count w.origin) w).publish g i,
    by simp [exec, execMoveGalleryWriteDone, only, opened, flight, visible], ?_⟩
  rw [State.publish_only (w := { w with done := true }) (by rwa [completed, cls]) (by rw [completed, writes, only]; rfl) rfl, completed, ctx,
    State.storeWrites_outside (w := { w with done := true }) (by exact outside)]
  rfl

/-- One byte 1 for address 0 of the context, in flight. -/
def strayWrite : GalWrite := { addr := 0, bytes := [1], poison := false, origin := 0, fold := false }

/-- A device in ACTIVE whose Gallery is open. Slot 0 of Geode 0, of class REALTIME, has a write in flight, and its context 0 maps no slab. -/
def unmappedWrite : State :=
  { State.reset with
    dev := { die := .serving }
    gal := { initDone := true }
    geodes := { slots := { writes := [strayWrite] } :: List.replicate 3 {} } :: List.replicate 31 {} }

theorem unmappedWrite_outside : (unmappedWrite.ctx 0).inSet strayWrite.addr strayWrite.bytes.length true = false := by decide

/-- `galWrite` itself tests no slab set, and puts the byte at the place 0 that it takes for an index without a map entry. -/
theorem unmappedWrite_galWrite : (unmappedWrite.galWrite 0 0 [1] false).gal.mem = [(0, 1)] := by decide

/-- Refutes O48 in its last clause: a write that completes reaches the Gallery only where its range still lies in the context's slab set, a
hypothesis that the clause lacks. The write of `unmappedWrite` completes and is lost, so that address 0 of the Gallery reads 0 and not 1. -/
theorem not_queueEvents : ¬ Obligations.QueueEvents := by
  unfold Obligations.QueueEvents
  intro events
  obtain ⟨-, -, -, -, -, completes⟩ := events unmappedWrite 0 0 (by decide) (by decide) (by decide)
  obtain ⟨t, stepped, -, written⟩ := (completes 0 strayWrite rfl rfl rfl).2 (by decide) rfl rfl (by decide)
  obtain ⟨u, stepped', kept⟩ := exec_moveGalleryWriteDone_outside (s := unmappedWrite) (g := 0) (i := 0) (w := strayWrite)
    (by decide) (by decide) rfl rfl rfl (by decide) unmappedWrite_outside
  have same : t = u := Host.Outcome.next.inj (stepped.symm.trans stepped')
  have byte := congrArg Gallery.mem (written.symm.trans (same ▸ kept))
  exact absurd (unmappedWrite_galWrite.symm.trans byte) (by decide)

end Sys2Proof.Machine
end

-- The Geode engine: slot states, self-tests, retirement and the scrub.
section
/-!
PROOFS of 04_geode_engine.md and 17_twin_and_faults.md. A write of a slot's state, the self-test of a Geode, its retirement between firings, and the
scrub's read of a Pocket line (O49).
-/
namespace Sys2Proof.Machine

/-! ### The state of a slot (R103) -/

theorem State.geode_slot (s : State) (g i : Nat) : (s.geode g).slot i = s.slot g i := rfl

section
variable {s : State} {g i : Nat}

/-- A slot is set RUN where its queues are bound and legal and no other RUN slot names one of its input queues. -/
theorem exec_slotStateWrite_run (hg : g < s.geodes.length) (idle : (s.geode g).firing = none) (loaded : (s.slot g i).state = .loaded)
    (ready : (s.geode g).queuesReady (s.slot g i) = true) (clear : ((s.geode g).withSlot i fun sl => { sl with state := .run }).conflict = none) :
    exec (.slotStateWrite g i 2) s = .next (s.withSlot g i fun sl => { sl with state := .run }) := by
  have own : (s.withSlot g i fun sl => { sl with state := .run }).geode g = (s.geode g).withSlot i fun sl => { sl with state := .run } :=
    State.geode_withGeode_self hg
  have none : ((s.geode g).withSlot i fun sl => { sl with state := .run }).firing = none := idle
  simp [exec, execSlotStateWrite, State.setSlotState, State.geode_slot, loaded, ready, State.conflictFault, own, none, clear]

theorem exec_slotStateWrite_unbound (loaded : (s.slot g i).state = .loaded) (unready : (s.geode g).queuesReady (s.slot g i) = false) :
    exec (.slotStateWrite g i 2) s = .next s := by
  simp [exec, execSlotStateWrite, State.setSlotState, State.geode_slot, loaded, unready]

theorem exec_slotStateWrite_stop (idle : (s.geode g).firing = none) (run : (s.slot g i).state = .run) :
    exec (.slotStateWrite g i 1) s = .next (s.withSlot g i fun sl => { sl with state := .loaded }) := by
  simp [exec, execSlotStateWrite, State.setSlotState, State.geode_slot, run, idle]

theorem exec_slotStateWrite_run_empty (run : (s.slot g i).state = .run) : exec (.slotStateWrite g i 0) s = .next s := by
  simp [exec, execSlotStateWrite, State.setSlotState, State.geode_slot, run]

theorem exec_slotStateWrite_halted_run (halted : (s.slot g i).state = .halted) : exec (.slotStateWrite g i 2) s = .next s := by
  simp [exec, execSlotStateWrite, State.setSlotState, State.geode_slot, halted]

theorem exec_slotStateWrite_empty (stopped : (s.slot g i).state = .loaded ∨ (s.slot g i).state = .halted) :
    exec (.slotStateWrite g i 0) s = .next ((s.publishAll g i).withSlot g i Slot.clear) := by
  rcases stopped with loaded | halted
  · simp [exec, execSlotStateWrite, State.setSlotState, State.geode_slot, loaded]
  · simp [exec, execSlotStateWrite, State.setSlotState, State.geode_slot, halted]

end

/-! ### What keeps a slot from firing (R97) -/

theorem State.canFire_retired {s : State} {g : Nat} (h : (s.geode g).retired = true) (i : Nat) : s.canFire g i = false := by
  simp [State.canFire, h]

theorem State.canFire_busy {s : State} {g : Nat} (h : (s.geode g).kat.busy = true) (i : Nat) : s.canFire g i = false := by
  simp [State.canFire, h]

/-! ### Self-tests and retirement (R83, R402) -/

section
variable {s : State} {g : Nat}

theorem exec_katStart (idle : (s.geode g).firing = none) (free : (s.geode g).kat.busy = false) (serving : (s.geode g).retired = false) :
    exec (.katStart g) s =
      .next (s.withGeode g fun d => { d with kat := { d.kat with busy := true, done := false, fail := false, unit := 0 } }) := by
  simp only [exec, execKatStart, State.katStart, free, serving, Bool.or_self, Bool.false_eq_true, if_false]
  exact congrArg Host.Outcome.next (State.withGeode_congr (by simp [idle]))

theorem exec_katDone (busy : (s.geode g).kat.busy = true) (runs : s.arithRuns = true) (sound : (s.geode g).kat.latent = none) (u : Option Nat) :
    exec (.katDone g u) s = .next (s.withGeode g fun d =>
      { d with kat := { d.kat with busy := false, done := true, fail := u.isSome, unit := (u.map fun x => min x 4).getD 0, latent := none } }) := by
  cases u <;> simp [exec, execKatDone, busy, runs, sound]

theorem exec_geodeRetire (idle : (s.geode g).firing = none) (serving : (s.geode g).retired = false) :
    exec (.geodeRetire g) s = .next (s.retire g) := by
  simp [exec, execGeodeRetire, State.retireReq, idle, serving]

/-! ### The scrub (R87) -/

theorem State.pocketEcc_clean {p n : Nat} (ce : (s.geode g).ce = []) (ue : (s.geode g).ue = []) : s.pocketEcc g p n = s := by
  simp [State.pocketEcc, ce, ue]

/-- A read whose range holds the Geode's only correctable error corrects and counts it. -/
theorem State.pocketEcc_corrects {p n w : Nat} (ce : (s.geode g).ce = [w]) (ue : (s.geode g).ue = []) (wide : n ≠ 0) (low : p / 8 ≤ w)
    (high : w ≤ (p + n - 1) / 8) :
    s.pocketEcc g p n = s.withGeode g fun d => { d with ce := [], ceCount := min 65535 (d.ceCount + 1), fault := d.fault ||| 4 } := by
  have inside : (n != 0 && decide (p / 8 ≤ w) && decide (w ≤ (p + n - 1) / 8)) = true := by simp [wide, low, high]
  simp only [State.pocketEcc, ce, ue, List.filter_cons, List.filter_nil, inside, if_true, List.isEmpty_nil, List.isEmpty_cons, List.length_singleton,
    Bool.false_eq_true, if_false, State.geodeFault, State.withGeode_withGeode]
  refine State.withGeode_congr ?_
  simp only [ce, List.filter_cons, List.filter_nil, inside, Bool.not_true, Bool.false_eq_true, if_false, BitVec.ofNat_eq_ofNat]

/-- A Geode whose scrub has read the next line, and what the read has found there (R87). -/
def Geode.scrubbed (d : Geode) (err word : Nat) : Geode :=
  { d with
    ce := if err = 1 then insNat (d.scrub * 8 + word % 8) d.ce else d.ce
    ue := if err = 2 then insNat (d.scrub * 8 + word % 8) d.ue else d.ue
    scrub := (d.scrub + 1) % 32768 }

/-- Before the last line of a pass the scrub reads that line and nothing else. -/
theorem exec_pocketScrub_line (runs : s.arithRuns = true) (more : (s.geode g).scrub + 1 < 32768) (err word : Nat) :
    exec (.pocketScrub g err word) s = .next ((s.withGeode g fun d => d.scrubbed err word).pocketEcc g ((s.geode g).scrub * 64) 64) := by
  simp only [exec, execPocketScrub, runs, more, Bool.not_true, Bool.false_eq_true, if_false, if_true]
  exact congrArg (fun t : State => Host.Outcome.next (t.pocketEcc g ((s.geode g).scrub * 64) 64)) (State.withGeode_congr rfl)

end

/-- Settles O49: each row by the lemma on it, and the parts it shows by the update of the Geode or slot. -/
theorem slotAndGeodeControl : Obligations.SlotAndGeodeControl := by
  unfold Obligations.SlotAndGeodeControl
  intro s g i hg hi _ idle
  refine ⟨exec_slotStateWrite_run hg idle, exec_slotStateWrite_unbound, exec_slotStateWrite_stop idle, exec_slotStateWrite_run_empty,
    exec_slotStateWrite_halted_run, fun stopped => ⟨_, exec_slotStateWrite_empty stopped, ?emptied⟩,
    fun free serving => ⟨_, exec_katStart idle free serving, ?begun⟩,
    fun busy runs sound => ⟨⟨_, exec_katDone busy runs sound none, ?passed⟩, fun u hu => ⟨_, exec_katDone busy runs sound (some u), ?failed⟩⟩,
    fun serving => ⟨_, exec_geodeRetire idle serving, ?retired⟩,
    fun word runs ce ue more => ⟨⟨_, exec_pocketScrub_line runs more 0 word, ?clean⟩, ⟨_, exec_pocketScrub_line runs more 1 word, ?corrected⟩⟩⟩
  case emptied =>
    have slots (k : Nat) : ((s.publishAll g i).withSlot g i Slot.clear).slot g k = (s.withSlot g i Slot.clear).slot g k :=
      State.slot_congr (State.publishAll_withSlot_geodes (fun _ => rfl) s g i) g k
    rw [slots, State.slot_withSlot_self hg hi]
    exact ⟨rfl, rfl, rfl, rfl, rfl, rfl, rfl, fun k other => by rw [slots, State.slot_withSlot_ne (Or.inr other.symm)]⟩
  case begun =>
    refine ⟨?_, ?_, ?_, State.canFire_busy ?_⟩ <;> rw [State.geode_withGeode_self hg]
  case passed =>
    rw [State.geode_withGeode_self hg]
    exact ⟨rfl, rfl, rfl⟩
  case failed =>
    rw [State.geode_withGeode_self hg]
    exact ⟨rfl, rfl, Nat.min_eq_left hu⟩
  case retired =>
    have bare := State.retire_bare hg
    have gone : ((s.retire g).geode g).retired = true := by rw [← Geode.bare_retired, bare]
    exact ⟨gone, State.canFire_retired gone, by rw [← Geode.bare_queues, bare]; rfl⟩
  case clean =>
    have read := State.geode_withGeode_self (f := fun d => d.scrubbed 0 word) hg
    rw [State.pocketEcc_clean (by rw [read]; exact ce) (by rw [read]; exact ue), read]
    exact ⟨Nat.mod_eq_of_lt more, rfl, rfl, rfl⟩
  case corrected =>
    have read := State.geode_withGeode_self (f := fun d => d.scrubbed 1 word) hg
    have found : ((s.geode g).scrubbed 1 word).ce = [(s.geode g).scrub * 8 + word % 8] := by simp [Geode.scrubbed, ce, insNat]
    rw [State.pocketEcc_corrects (by rw [read]; exact found) (by rw [read]; exact ue) (by decide) (by omega) (by omega),
      State.geode_withGeode_self (by simpa using hg), read]
    exact ⟨rfl, rfl, rfl, rfl⟩

end Sys2Proof.Machine
end

-- The instructions of a stage program: the layer.
section
/-!
PROOFS of 05_stage_programs.md. The programs of the slots and what keeps them; what charging an instruction leaves; the rules of an issue that goes on,
jumps or faults (R99, R102, R115).
-/
namespace Sys2Proof.Machine

/-! ### Programs -/

/-- What an update of a Geode keeps of every Geode reads as before. -/
theorem State.withGeode_keeps {δ : Type} {p : Geode → δ} {f : Geode → Geode} (h : ∀ d, p (f d) = p d) (s : State) (g k : Nat) :
    p ((s.withGeode g f).geode k) = p (s.geode k) := by
  by_cases same : g = k
  · subst same
    by_cases hg : g < s.geodes.length
    · rw [State.geode_withGeode_self hg, h]
    · rw [State.withGeode, upd_ge (Nat.not_lt.mp hg)]
  · rw [State.geode_withGeode_ne same]

/-- The slot that fires on a Geode, and the programs of its slots. -/
def Geode.programs (d : Geode) : Option Nat × (Nat → List W64) := (d.firing.map fun f => f.slot, fun i => (d.slot i).prog)

/-- The same of every Geode: what the effect of an instruction keeps, before the program counter moves. -/
def State.programs (s : State) : Nat → Option Nat × (Nat → List W64) := fun k => (s.geode k).programs

theorem State.fslot_congr {s u : State} (h : u.programs = s.programs) (g : Nat) : u.fslot g = s.fslot g :=
  congrArg (fun p : Option Nat × (Nat → List W64) => p.1.getD 0) (congrFun h g)

theorem State.fsl_prog_congr {s u : State} (h : u.programs = s.programs) (g : Nat) : (u.fsl g).prog = (s.fsl g).prog :=
  congrArg (fun p : Option Nat × (Nat → List W64) => p.2 (p.1.getD 0)) (congrFun h g)

theorem State.programs_of_geodes {s u : State} (h : u.geodes = s.geodes) : u.programs = s.programs :=
  funext fun k => congrArg Geode.programs (State.geode_congr h k)

theorem State.withGeode_programs (s : State) (g : Nat) (f : Geode → Geode) (h : ∀ d, (f d).programs = d.programs := by exact fun _ => rfl) :
    (s.withGeode g f).programs = s.programs := funext fun k => State.withGeode_keeps h s g k

theorem State.withSlot_programs (s : State) (g i : Nat) (f : Slot → Slot) (h : ∀ x, (f x).prog = x.prog := by exact fun _ => rfl) :
    (s.withSlot g i f).programs = s.programs :=
  funext fun k => Prod.ext (congrArg (fun d : Geode => d.firing.map fun f => f.slot) (State.withSlot_bare s g i k f) :)
    (funext fun j => State.withSlot_keeps h s g i k j)

theorem State.withFsl_programs (s : State) (g : Nat) (f : Slot → Slot) (h : ∀ x, (f x).prog = x.prog := by exact fun _ => rfl) :
    (s.withFsl g f).programs = s.programs := State.withSlot_programs s g _ f h

theorem State.withFiring_programs (s : State) (g : Nat) (f : Firing → Firing) (h : ∀ x, (f x).slot = x.slot := by exact fun _ => rfl) :
    (s.withFiring g f).programs = s.programs :=
  State.withGeode_programs s g _ fun d => Prod.ext ((Option.map_map _ _ _).trans (congrArg (d.firing.map ·) (funext h))) rfl

@[simp] theorem State.withQueue_programs (s : State) (g q : Nat) (f : Queue → Queue) : (s.withQueue g q f).programs = s.programs :=
  State.withGeode_programs s g _

@[simp] theorem State.withCtx_programs (s : State) (c : Nat) (f : Ctx → Ctx) : (s.withCtx c f).programs = s.programs := rfl

/-! ### The charge of an instruction -/

/-- What the charge of an instruction does to its Geode besides the slot (R99, R185, R434). -/
def Geode.charged (c stall : Nat) (kept : Bool) (d : Geode) : Geode :=
  { d with
    firing := d.firing.map fun f => { f with cycles := f.cycles + c, stalled := f.stalled + stall }
    step := false
    calLog0 := if kept then d.calLog0 else d.calLog0 &&& 0x7FFFFFFF }

theorem Geode.charged_programs (c stall : Nat) (kept : Bool) (d : Geode) : (d.charged c stall kept).programs = d.programs :=
  Prod.ext (Option.map_map _ _ d.firing) rfl

/-- The charge counts the slot's cycles and charges the Geode. -/
theorem State.spend_eq (s : State) (g t : Nat) :
    s.spend g t = (s.withFsl g fun sl => { sl with used := sl.used + t }).withGeode g (Geode.charged t (if s.commitFull g then t else 0) s.fcu.mpHalt) := by
  rw [State.spend, State.charge, State.withFiring, State.withFiring, State.withGeode_withGeode, State.withGeode_withGeode]
  refine State.withGeode_congr ?_
  simp only [Geode.charged, Option.map_map]
  rfl

section
variable (s : State) (g t : Nat)

theorem State.spend_programs : (s.spend g t).programs = s.programs := by
  rw [State.spend_eq, State.withGeode_programs _ g _ (Geode.charged_programs _ _ _)]
  exact State.withFsl_programs s g _

/-- Of a slot the charge changes the cycles used only. -/
theorem State.spend_slot {δ : Type} {p : Slot → δ} (h : ∀ (x : Slot) n, p { x with used := n } = p x) (k i : Nat) :
    p ((s.spend g t).slot k i) = p (s.slot k i) := by
  have charged (u : State) : p ((u.withGeode g (Geode.charged t (if s.commitFull g then t else 0) s.fcu.mpHalt)).slot k i) = p (u.slot k i) :=
    State.withGeode_keeps (p := fun d => p (d.slot i)) (f := Geode.charged _ _ _) (fun _ => rfl) u g k
  rw [State.spend_eq, charged]
  exact State.withSlot_keeps (fun x => h x _) s g _ k i

/-- Of a Geode it changes the slots, the firing and what it clears. -/
theorem State.spend_geode {δ : Type} {p : Geode → δ} (h : ∀ (d : Geode) l f b c, p { d with slots := l, firing := f, step := b, calLog0 := c } = p d)
    (k : Nat) : p ((s.spend g t).geode k) = p (s.geode k) := by
  rw [State.spend_eq]
  exact (State.withGeode_keeps (p := p) (fun d => h d d.slots _ _ _) _ g k).trans
    (State.withGeode_keeps (p := p) (fun d => h d _ d.firing d.step d.calLog0) s g k)

/-- Of a firing it changes the cycles only. -/
theorem State.spend_firing {δ : Type} {p : Firing → δ} (h : ∀ (f : Firing) c n, p { f with cycles := c, stalled := n } = p f) (k : Nat) :
    ((s.spend g t).firing k).map p = (s.firing k).map p := by
  have charged (u : State) : ((u.withGeode g (Geode.charged t (if s.commitFull g then t else 0) s.fcu.mpHalt)).firing k).map p = (u.firing k).map p :=
    State.withGeode_keeps (p := fun d => d.firing.map p)
      (fun d => (Option.map_map _ _ _).trans (congrArg (d.firing.map ·) (funext fun f => h f _ _))) u g k
  rw [State.spend_eq, charged]
  exact (congrArg (fun d : Geode => d.firing.map p) (State.withSlot_bare s g _ k _) :)

@[simp] theorem State.spend_fslot (k : Nat) : (s.spend g t).fslot k = s.fslot k := State.fslot_congr (State.spend_programs s g t) k

theorem State.spend_fsl {δ : Type} {p : Slot → δ} (h : ∀ (x : Slot) n, p { x with used := n } = p x) (k : Nat) :
    p ((s.spend g t).fsl k) = p (s.fsl k) := by
  rw [State.fsl, State.spend_fslot, State.spend_slot s g t h]
  rfl

@[simp] theorem State.spend_sreg (k i : Nat) : (s.spend g t).sreg k i = s.sreg k i := by
  simp only [State.sreg, State.spend_fsl (p := Slot.s) s g t fun _ _ => rfl]
@[simp] theorem State.spend_areg (k i : Nat) : (s.spend g t).areg k i = s.areg k i := by
  simp only [State.areg, State.spend_fsl (p := Slot.a) s g t fun _ _ => rfl]
@[simp] theorem State.spend_vreg (k i : Nat) : (s.spend g t).vreg k i = s.vreg k i := by
  simp only [State.vreg, State.spend_fsl (p := Slot.v) s g t fun _ _ => rfl]
@[simp] theorem State.spend_treg (k i : Nat) : (s.spend g t).treg k i = s.treg k i := by
  simp only [State.treg, State.spend_fsl (p := Slot.t) s g t fun _ _ => rfl]
@[simp] theorem State.spend_cls (k : Nat) : ((s.spend g t).fsl k).cls = (s.fsl k).cls := State.spend_fsl (p := Slot.cls) s g t (fun _ _ => rfl) k
@[simp] theorem State.spend_ctxNumber (k : Nat) : ((s.spend g t).fsl k).ctx = (s.fsl k).ctx := State.spend_fsl (p := Slot.ctx) s g t (fun _ _ => rfl) k
@[simp] theorem State.spend_micro (k : Nat) : ((s.spend g t).fsl k).micro = (s.fsl k).micro := State.spend_fsl (p := Slot.micro) s g t (fun _ _ => rfl) k
@[simp] theorem State.spend_accOf (k n : Nat) : ((s.spend g t).fsl k).accOf n = (s.fsl k).accOf n :=
  State.spend_fsl (p := fun sl => sl.accOf n) s g t (fun _ _ => rfl) k
@[simp] theorem State.spend_pc (k : Nat) : ((s.spend g t).fsl k).pc = (s.fsl k).pc := State.spend_fsl (p := Slot.pc) s g t (fun _ _ => rfl) k
@[simp] theorem State.spend_window (k : Nat) : ((s.spend g t).fsl k).window = (s.fsl k).window := State.spend_fsl (p := Slot.window) s g t (fun _ _ => rfl) k
@[simp] theorem State.spend_base (k : Nat) : ((s.spend g t).fsl k).base = (s.fsl k).base := State.spend_fsl (p := Slot.base) s g t (fun _ _ => rfl) k
@[simp] theorem State.spend_qin (k : Nat) : ((s.spend g t).fsl k).qin = (s.fsl k).qin := State.spend_fsl (p := Slot.qin) s g t (fun _ _ => rfl) k
@[simp] theorem State.spend_qout (k : Nat) : ((s.spend g t).fsl k).qout = (s.fsl k).qout := State.spend_fsl (p := Slot.qout) s g t (fun _ _ => rfl) k
@[simp] theorem State.spend_queue (k q : Nat) : (s.spend g t).queue k q = s.queue k q :=
  State.spend_geode (p := fun d => d.queue q) s g t (fun _ _ _ _ _ => rfl) k
@[simp] theorem State.spend_ctxs : (s.spend g t).ctxs = s.ctxs := by rw [State.spend_eq]; rfl
@[simp] theorem State.spend_drip : (s.spend g t).drip = s.drip := by rw [State.spend_eq]; rfl
@[simp] theorem State.spend_stamp : (s.spend g t).stamp = s.stamp := by rw [State.spend_eq]; rfl

theorem State.spend_firing_bind {δ : Type} {p : Firing → Option δ} (h : ∀ (f : Firing) c n, p { f with cycles := c, stalled := n } = p f) (k : Nat) :
    ((s.spend g t).firing k).bind p = (s.firing k).bind p := by
  simpa only [Option.bind_map, Function.id_comp] using congrArg (Option.bind · id) (State.spend_firing s g t h k)

@[simp] theorem State.spend_curOrigin (k : Nat) : (s.spend g t).curOrigin k = s.curOrigin k := by
  rw [State.curOrigin, State.spend_fslot, State.originOf, State.spend_drip, State.spend_firing_bind s g t fun _ _ _ => rfl]
  rfl

end

/-! ### An instruction that is issued (R99, R102, R115) -/

section
variable {s : State} {g t op : Nat} {i : Instr} {isOp : Nat → Bool} {body : Nat → State → Res (State × Flow)}

/-- A program fault in the body ends the instruction in the state it had reached. -/
theorem State.issue_error {e : Stop} (h : s.issues g t op = true) (hp : isOp op = true) (hb : body (s.instrAt g) (s.spend g t) = .error e) :
    s.issue g t isOp body = (e.reached.getD (s.spend g t)).progFault g (s.fslot g) e.cause (s.fsl g).pc := by
  unfold State.issues at h
  split at h
  · cases h
  next f fires =>
    simp only [Bool.and_eq_true, Bool.not_eq_true', decide_eq_true_eq, beq_iff_eq] at h
    obtain ⟨⟨⟨⟨⟨runs, moves⟩, inside⟩, opcode⟩, sound⟩, limit⟩ := h
    have slot : s.fslot g = f.slot := by simp [State.fslot, fires]
    rw [State.instrAt] at hb opcode
    have going : ((s.geode g).halted && !(s.geode g).step) = false :=
      (Bool.not_eq_true' _).mp (by simpa only [Bool.not_and, Bool.not_not] using moves)
    have enabled : (!s.arithRuns || ((s.geode g).halted && !(s.geode g).step) || !isOp (fld ((s.fsl g).prog.getD (s.fsl g).pc 0).toNat 56 8) ||
        decide ((s.fsl g).prog.length ≤ (s.fsl g).pc)) = false := by
      rw [opcode, hp, runs, going, decide_eq_false (Nat.not_le.mpr inside)]
      rfl
    have within : ¬ (f.limit ≠ 0 ∧ f.limit + (f.stalled + if s.commitFull g then t else 0) ≤ f.cycles + t) := by
      simp at limit
      omega
    simp only [State.issue, fires, enabled, sound, within, hb, slot, Bool.false_eq_true, if_false]

/-- An instruction that goes on to the next one: its body has the effect and keeps every program. -/
theorem State.does_of_body {e : State → State} (he : exec i s = .next (s.issue g t isOp body)) (hp : isOp op = true)
    (hb : body (s.instrAt g) (s.spend g t) = .ok (e (s.spend g t), .next)) (keeps : (e (s.spend g t)).programs = (s.spend g t).programs) :
    s.does g t op i e := fun issued more => by
  rw [he, State.issue_next issued hp hb _ more]
  rw [State.fsl_prog_congr keeps, State.spend_prog]

theorem State.jumps_of_body {e : State → State} {p : Nat} (he : exec i s = .next (s.issue g t isOp body)) (hp : isOp op = true)
    (hb : body (s.instrAt g) (s.spend g t) = .ok (e (s.spend g t), .jump p)) (keeps : (e (s.spend g t)).programs = (s.spend g t).programs) :
    s.jumps g t op p i e := fun issued inside => by
  have stays : ¬ ((e (s.spend g t)).fsl g).prog.length ≤ p := by
    rw [State.fsl_prog_congr keeps, State.spend_prog]
    omega
  rw [he, State.issue_spec issued hp hb]
  simp only [State.advance, stays, if_false, State.goTo]

/-- An instruction that faults before any effect (R102). -/
theorem State.faults_of_body {c : Nat} (he : exec i s = .next (s.issue g t isOp body)) (hp : isOp op = true)
    (hb : body (s.instrAt g) (s.spend g t) = stop c) : s.faults g t op c i := fun issued => by
  rw [he, State.issue_error issued hp hb]
  rfl

end

end Sys2Proof.Machine
end

-- The scalar instructions.
section
/-!
PROOFS of 05_stage_programs.md. NOP, SETI, ADDI, ADD, SUB, MULI, ALUI, RDSPEC and an unassigned opcode (O50).
-/
namespace Sys2Proof.Machine

theorem State.setS_programs (s : State) (g i : Nat) (v : W32) : (s.setS g i v).programs = s.programs := by
  unfold State.setS
  split
  · rfl
  · exact State.withFsl_programs s g _

/-- The count of a shift is the low part of the immediate (R118). -/
theorem shiftCount (w : Nat) : fld w 0 32 % 32 = fld w 0 5 := Nat.mod_mod_of_dvd _ (by decide)

theorem opAssigned_eq_false {op : Nat} (h : ¬ (op ≤ 0x11 ∨ (0x20 ≤ op ∧ op ≤ 0x2C) ∨ op = 0x30 ∨ op = 0x31 ∨ (0x40 ≤ op ∧ op ≤ 0x43) ∨
    (0x50 ≤ op ∧ op ≤ 0x53) ∨ op = 0x60 ∨ op = 0x61)) : opAssigned op = false := by
  simp only [opAssigned, Bool.or_eq_false_iff, Bool.and_eq_false_iff, decide_eq_false_iff_not, beq_eq_false_iff_ne]
  omega

/-- F 6 and 7 name no operation (R118). -/
theorem aluOp_reserved {f : Nat} (h : 6 ≤ f) (x : W32) (imm : Nat) : aluOp f x imm = stop 0x02 := by
  obtain ⟨k, rfl⟩ := Nat.exists_eq_add_of_le' h
  rfl

theorem State.special_reserved {k : Nat} (h : 12 ≤ k) (s : State) (g : Nat) : s.special g k = stop 0x02 := by
  obtain ⟨n, rfl⟩ := Nat.exists_eq_add_of_le' h
  rfl

section
variable {s : State} {g t op : Nat} {i : Instr} {isOp : Nat → Bool} {body : Nat → State → Res (State × Flow)}

/-- An instruction whose whole effect is the value of an S register. -/
theorem State.does_setS {d : Nat} {v : W32} (he : exec i s = .next (s.issue g t isOp body)) (hp : isOp op = true)
    (hb : body (s.instrAt g) (s.spend g t) = .ok ((s.spend g t).setS g d v, .next)) : s.does g t op i fun u => u.setS g d v :=
  State.does_of_body he hp hb (State.setS_programs _ _ _ _)

theorem State.does_alui {v : W32} (h : aluOp (fld (s.instrAt g) 38 3) (s.sreg g (fld (s.instrAt g) 46 5)) (fld (s.instrAt g) 0 32) = .ok v) :
    s.does g t 0x08 (.alui g t) fun u => u.setS g (fld (s.instrAt g) 51 5) v := by
  refine State.does_setS rfl rfl ?_
  rw [State.spend_sreg, fF, fJ, fImm, h]
  rfl

theorem State.does_rdspec {v : Nat} (h : (s.spend g t).special g (fld (s.instrAt g) 0 4) = .ok v) :
    s.does g t 0x09 (.rdspec g t) fun u => u.setS g (fld (s.instrAt g) 51 5) (BitVec.ofNat 32 v) := by
  refine State.does_setS rfl rfl ?_
  rw [h]
  rfl

end

/-- Settles O50: an unassigned opcode and the reserved forms fault before any effect, and every other form writes S[D] from the registers it reads. -/
theorem scalarInstructions : Obligations.ScalarInstructions := by
  unfold Obligations.ScalarInstructions
  refine ⟨fun s g t op free => ?_, fun s g t => ?_⟩
  · refine State.faults_of_body rfl ?_ rfl
    rw [opAssigned_eq_false free]
    rfl
  · dsimp only
    refine ⟨State.does_of_body rfl rfl rfl rfl, State.does_setS rfl rfl rfl, State.does_setS rfl rfl ?addi, State.does_setS rfl rfl ?add,
      State.does_setS rfl rfl ?sub, State.does_setS rfl rfl ?muli, fun f => State.does_alui ?and, fun f => State.does_alui ?or,
      fun f => State.does_alui ?xor, fun f => State.does_alui ?shl, fun f => State.does_alui ?shr, fun f => State.does_alui ?sar,
      fun reserved => State.faults_of_body rfl rfl ?alui, fun v h => State.does_rdspec h, ⟨rfl, rfl, rfl, rfl, rfl, rfl, rfl, rfl⟩,
      fun reserved => State.faults_of_body rfl rfl ?rdspec, fun u v => ⟨rfl, rfl⟩⟩
    case addi | add | sub | muli => simp only [State.spend_sreg]; rfl
    case and | or | xor => rw [f]; rfl
    case shl | shr | sar => rw [f, ← shiftCount]; rfl
    case alui => rw [fF, aluOp_reserved reserved]; rfl
    case rdspec => rw [State.special_reserved reserved]; rfl

end Sys2Proof.Machine
end

-- Branches, descriptors and Pocket words.
section
/-!
PROOFS of 05_stage_programs.md. LOOP, BR, BCMP, ASET, TSET and SLD (O51).
-/
namespace Sys2Proof.Machine

/-! ### Reads and writes of the Pocket (R118) -/

theorem State.geodeFault_programs (s : State) (g b : Nat) : (s.geodeFault g b).programs = s.programs := State.withGeode_programs s g _

theorem State.addRec_programs (s : State) (code ctx geode unit strm interval : Nat) (detail : List W32) :
    (s.addRec code ctx geode unit strm interval detail).programs = s.programs := State.programs_of_geodes (State.addRec_geodes _ _ _ _ _ _ _ _)

theorem State.pocketEcc_programs (s : State) (g p n : Nat) : (s.pocketEcc g p n).programs = s.programs := by
  have corrected (l : List Nat) : (if l.isEmpty then s else
      (s.withGeode g fun d => { d with
        ce := d.ce.filter fun w => !(n != 0 && decide (p / 8 ≤ w) && decide (w ≤ (p + n - 1) / 8))
        ceCount := min 65535 (d.ceCount + l.length) }).geodeFault g 0x04).programs = s.programs := by
    split
    · rfl
    · exact (State.geodeFault_programs _ _ _).trans (State.withGeode_programs s g _)
  simp only [State.pocketEcc]
  split
  · exact corrected _
  · rw [foldl_keeps (p := State.programs) fun u w => State.addRec_programs u _ _ _ _ _ _ _, State.geodeFault_programs]
    exact corrected _

theorem State.pocketRead_programs (s : State) (g p n : Nat) : (s.pocketRead g p n).1.programs = s.programs := State.pocketEcc_programs s g p n

theorem State.pocketWrite_programs (s : State) (g p : Nat) (bytes : List Byte) (poison : Bool) : (s.pocketWrite g p bytes poison).programs = s.programs :=
  State.withGeode_programs s g _

theorem State.setA_programs (s : State) (g i v : Nat) : (s.setA g i v).programs = s.programs := State.withFsl_programs s g _
theorem State.setV_programs (s : State) (g i : Nat) (v : VReg) : (s.setV g i v).programs = s.programs := State.withFsl_programs s g _

theorem State.pocketAt_inside {s : State} {g a n : Nat} (h : a + n ≤ (s.fsl g).window) : s.pocketAt g a n = .ok ((s.fsl g).base * 2 ^ 16 + a) :=
  if_neg (Nat.not_lt.mpr h)

theorem State.pocketAt_outside {s : State} {g a n : Nat} (h : (s.fsl g).window < a + n) : s.pocketAt g a n = stop 0x08 := if_pos h

theorem cmpOp_reserved {f : Nat} (h : 6 ≤ f) (x y : W32) : cmpOp f x y = stop 0x02 := by
  obtain ⟨k, rfl⟩ := Nat.exists_eq_add_of_le' h
  rfl

section
variable {s : State} {g t op : Nat} {i : Instr} {isOp : Nat → Bool} {body : Nat → State → Res (State × Flow)}

/-- BCMP branches, or goes on, as the comparison says. -/
theorem State.bcmp_compares {b : Bool}
    (h : cmpOp (fld (s.instrAt g) 38 3) (s.sreg g (fld (s.instrAt g) 46 5)) (s.sreg g (fld (s.instrAt g) 41 5)) = .ok b) :
    (b = true → s.jumps g t 0x0C (fld (s.instrAt g) 0 10) (.bcmp g t) id) ∧ (b = false → s.does g t 0x0C (.bcmp g t) id) := by
  refine ⟨fun taken => State.jumps_of_body rfl rfl ?_ rfl, fun passed => State.does_of_body rfl rfl ?_ rfl⟩
  all_goals
    subst b
    simp only [State.spend_sreg, fF, fJ, fK, h]
    rfl

/-- A branch to or beyond the count (R118). -/
theorem State.faults_of_jump {p : Nat} (he : exec i s = .next (s.issue g t isOp body)) (hp : isOp op = true)
    (hb : body (s.instrAt g) (s.spend g t) = .ok (s.spend g t, .jump p)) (beyond : (s.fsl g).prog.length ≤ p) : s.faults g t op 0x03 i := fun issued => by
  rw [he, State.issue_spec issued hp hb]
  simp only [State.advance, State.spend_prog, beyond, if_true, State.spend_fslot]

end

section
variable {s : State} {g t : Nat} (low : fld (s.instrAt g) 46 5 < 16) (aligned : (s.areg g (fld (s.instrAt g) 46 5) + fld (s.instrAt g) 0 32) % 2 ^ 32 % 4 = 0)
    (inside : (s.areg g (fld (s.instrAt g) 46 5) + fld (s.instrAt g) 0 32) % 2 ^ 32 + 4 ≤ (s.fsl g).window)
include low aligned inside

/-- The word that SLD reads, with the state of its read. -/
def State.sldRead (s : State) (g t : Nat) : State × List Byte × Bool :=
  (s.spend g t).pocketRead g ((s.fsl g).base * 2 ^ 16 + (s.areg g (fld (s.instrAt g) 46 5) + fld (s.instrAt g) 0 32) % 2 ^ 32) 4

theorem State.does_sld (clean : (s.sldRead g t).2.2 = false) :
    s.does g t 0x0F (.sld g t) fun _ => (s.sldRead g t).1.setS g (fld (s.instrAt g) 51 5) (BitVec.ofNat 32 (leNat (s.sldRead g t).2.1)) := by
  refine State.does_of_body rfl rfl ?_ ((State.setS_programs _ _ _ _).trans (State.pocketRead_programs _ _ _ _))
  simp only [State.spend_areg, fJ, fImm]
  rw [if_neg (Nat.not_le.mpr low), if_neg (not_not.mpr aligned), State.pocketAt_inside (by rwa [State.spend_window]), State.spend_base]
  exact if_neg (Bool.eq_false_iff.mp clean)

theorem State.exec_sld_poisoned (poisoned : (s.sldRead g t).2.2 = true) (issued : s.issues g t 0x0F = true) :
    exec (.sld g t) s = .next ((s.sldRead g t).1.progFault g (s.fslot g) 0x0D (s.fsl g).pc) := by
  refine congrArg Host.Outcome.next (State.issue_error (e := ⟨0x0D, some (s.sldRead g t).1⟩) issued rfl ?_)
  simp only [State.spend_areg, fJ, fImm]
  rw [if_neg (Nat.not_le.mpr low), if_neg (not_not.mpr aligned), State.pocketAt_inside (by rwa [State.spend_window]), State.spend_base]
  exact if_pos poisoned

end

theorem setWord_toNat (x : W128) {f : Nat} (v : W32) (hf : f < 4) :
    (setWord x f v).toNat = x.toNat - fld x.toNat (32 * f) 32 * 2 ^ (32 * f) + v.toNat * 2 ^ (32 * f) := by
  have wide := x.isLt
  have narrow := v.isLt
  rw [setWord, BitVec.toNat_ofNat, Nat.mod_eq_of_lt]
  simp only [fld]
  interval_cases f <;> omega

/-- TSET replaces the word that F names, and no other (R112, R118). -/
theorem fld_setWord {x : W128} {f h : Nat} (v : W32) (hf : f < 4) (hh : h < 4) :
    fld (setWord x f v).toNat (32 * h) 32 = if h = f then v.toNat else fld x.toNat (32 * h) 32 := by
  have narrow := v.isLt
  rw [setWord_toNat x v hf]
  simp only [fld]
  interval_cases f <;> interval_cases h <;> simp <;> omega

theorem State.does_aset {s : State} {g t : Nat} (low : fld (s.instrAt g) 51 5 < 16) : s.does g t 0x0D (.aset g t) fun u =>
    u.setA g (fld (s.instrAt g) 51 5) ((s.sreg g (fld (s.instrAt g) 46 5)).toNat + fld (s.instrAt g) 0 32) := by
  refine State.does_of_body rfl rfl ?_ (State.setA_programs _ _ _ _)
  simp only [State.spend_sreg, fD, fJ]
  rw [if_neg (Nat.not_le.mpr low)]
  rfl

theorem State.faults_aset {s : State} {g t : Nat} (high : 16 ≤ fld (s.instrAt g) 51 5) : s.faults g t 0x0D 0x02 (.aset g t) :=
  State.faults_of_body rfl rfl (if_pos high)

theorem State.does_tset {s : State} {g t : Nat} (low : fld (s.instrAt g) 38 3 < 4) : s.does g t 0x0E (.tset g t) fun u => u.withFsl g fun sl =>
    { sl with t := upd sl.t (fld (s.instrAt g) 51 5) fun x => setWord x (fld (s.instrAt g) 38 3) (s.sreg g (fld (s.instrAt g) 46 5)) } := by
  refine State.does_of_body rfl rfl ?_ (State.withFsl_programs _ g _)
  simp only [State.spend_sreg, fD, fJ, fF]
  rw [if_neg (Nat.not_le.mpr low)]

theorem State.faults_tset {s : State} {g t : Nat} (high : 4 ≤ fld (s.instrAt g) 38 3) : s.faults g t 0x0E 0x02 (.tset g t) :=
  State.faults_of_body rfl rfl (if_pos high)

/-- Settles O51: each instruction has the effect of its body, a reserved field or an unfit operand faults before any, and a poisoned word after its read. -/
theorem flowAndAddressing : Obligations.FlowAndAddressing := by
  unfold Obligations.FlowAndAddressing
  intro s g t
  dsimp only
  refine ⟨fun more => State.jumps_of_body rfl rfl ?loop (State.setS_programs _ _ _ _), fun last => State.does_setS rfl rfl ?last,
    State.jumps_of_body rfl rfl rfl rfl, fun beyond => State.faults_of_jump rfl rfl rfl beyond, fun f => State.bcmp_compares ?eq,
    fun f => State.bcmp_compares ?ne, fun f => State.bcmp_compares ?lt, fun f => State.bcmp_compares ?ge, fun f => State.bcmp_compares ?ltu,
    fun f => State.bcmp_compares ?geu,
    fun reserved => State.faults_of_body rfl rfl ?bcmp, State.does_aset, State.faults_aset,
    State.does_tset, State.faults_tset, fun low aligned inside => ⟨State.does_sld low aligned inside, State.exec_sld_poisoned low aligned inside⟩,
    fun low misaligned => State.faults_of_body rfl rfl ?mis,
    fun low aligned outside => State.faults_of_body rfl rfl ?out, fun high => State.faults_of_body rfl rfl ?res, fun x f h v hf hh => fld_setWord v hf hh⟩
  case loop => simp only [State.spend_sreg, fD]; rw [if_neg more]
  case last => simp only [State.spend_sreg, fD]; rw [if_pos last, last]
  case eq | lt | ltu => rw [f]; rfl
  case ne => rw [f]; exact congrArg Except.ok (by simp [bne, Bool.beq_eq_decide_eq])
  case ge => rw [f]; exact congrArg Except.ok (Bool.eq_iff_iff.mpr (by simp [BitVec.slt]))
  case geu => rw [f]; exact congrArg Except.ok (Bool.eq_iff_iff.mpr (by simp [BitVec.ult]))
  case bcmp => rw [fF, cmpOp_reserved reserved]; rfl
  case mis => simp only [State.spend_areg, fJ, fImm]; rw [if_neg (Nat.not_le.mpr low), if_pos misaligned]
  case out =>
    simp only [State.spend_areg, fJ, fImm]
    rw [if_neg (Nat.not_le.mpr low), if_neg (not_not.mpr aligned), State.pocketAt_outside (by rwa [State.spend_window])]
    rfl
  case res => exact if_pos high
end Sys2Proof.Machine
end

-- What a register instruction leaves alone.
section
/-!
PROOFS of 05_stage_programs.md. The end of a firing; a state that an instruction has rewritten only in its slot's S, A and T registers (O52).
-/
namespace Sys2Proof.Machine

/-! ### The end of a firing (R102) -/

/-- The firing of a Geode, the retirement that waits for its end, and the size of its table of slots. -/
def Geode.seat (d : Geode) : Option Firing × Bool × Nat := (d.firing, d.retirePending, d.slots.length)

/-- The same of every Geode: what the release, the discard and the marks of a slot's work leave alone. -/
def State.seats (s : State) : Nat × (Nat → Option Firing × Bool × Nat) := (s.geodes.length, fun k => (s.geode k).seat)

theorem State.seat_congr {s u : State} (h : u.seats = s.seats) (g : Nat) : (u.geode g).seat = (s.geode g).seat := congrFun (congrArg Prod.snd h) g

theorem State.firing_congr {s u : State} (h : u.seats = s.seats) (g : Nat) : u.firing g = s.firing g := congrArg Prod.fst (State.seat_congr h g)

theorem State.withGeode_seats (s : State) (g : Nat) (f : Geode → Geode) (h : ∀ d, (f d).seat = d.seat := by exact fun _ => rfl) :
    (s.withGeode g f).seats = s.seats := Prod.ext (upd_length _ _ _) (funext fun k => State.withGeode_keeps h s g k)

theorem Geode.withSlot_seat (d : Geode) (i : Nat) (f : Slot → Slot) : (d.withSlot i f).seat = d.seat := by
  simp only [Geode.seat, Geode.withSlot, upd_length]

theorem State.withSlot_seats (s : State) (g i : Nat) (f : Slot → Slot) : (s.withSlot g i f).seats = s.seats :=
  State.withGeode_seats s g _ fun d => d.withSlot_seat i f
theorem State.withQueue_seats (s : State) (g q : Nat) (f : Queue → Queue) : (s.withQueue g q f).seats = s.seats := State.withGeode_seats s g _
theorem State.geodeFault_seats (s : State) (g b : Nat) : (s.geodeFault g b).seats = s.seats := State.withGeode_seats s g _

theorem State.creditBack_seats (s : State) (g q n : Nat) : (s.creditBack g q n).seats = s.seats := by
  unfold State.creditBack
  split
  · exact State.withQueue_seats _ _ _ _
  · rfl

theorem State.dropOutputs_seats (s : State) (g i : Nat) : (s.dropOutputs g i).seats = s.seats :=
  (State.withSlot_seats _ _ _ _).trans (foldl_keeps (p := State.seats) (fun u q => State.withQueue_seats u g q _) _ s)

theorem State.dropHeld_seats (s : State) (g i : Nat) : (s.dropHeld g i).seats = s.seats :=
  foldl_keeps (p := State.seats) (fun _ _ => (State.creditBack_seats _ _ _ _).trans (State.withQueue_seats _ _ _ _)) _ s

theorem State.missing_seats (s : State) (g i n : Nat) : (s.missing g i n).seats = s.seats :=
  foldl_keeps (p := State.seats) (fun u q => State.withQueue_seats u g q _) _ s

theorem State.inside_of_firing {s : State} {g : Nat} {f : Firing} (h : s.firing g = some f) : g < s.geodes.length := by
  by_contra outside
  rw [State.firing, State.geode, List.getD_eq_default _ _ (Nat.not_lt.mp outside)] at h
  cases h

theorem Geode.bare_firing (d : Geode) : d.bare.firing = d.firing := rfl

theorem State.retire_firing {s : State} {g : Nat} (h : g < s.geodes.length) : (s.retire g).firing g = none := by
  rw [State.firing, ← Geode.bare_firing, State.retire_bare h]

/-- No firing is in progress on a Geode whose firing ends. -/
theorem State.endFiring_firing (s : State) (g : Nat) : (s.endFiring g).firing g = none := by
  unfold State.endFiring
  split
  next idle => exact idle
  next f fires =>
    have inside := State.inside_of_firing fires
    dsimp only
    split
    · exact State.retire_firing (by rwa [State.addRec_geodes])
    · split
      · exact State.retire_firing inside
      · rw [State.firing, State.geode_withGeode_self inside]

/-- The state in which the firing of a slot that has faulted ends. -/
def State.faulted (s : State) (g i cause pc : Nat) : State :=
  let sl := s.slot g i
  let o := s.originOf g i
  let s3 := (((s.dropOutputs g i).dropHeld g i).withSlot g i fun sl =>
    { sl with
      state := .halted, cause := cause, faultPc := pc, stopping := false
      faultIv := (if sl.cls = .background then sl.micro else o) % 2 ^ 32 }).geodeFault g (2 ^ (8 + i))
  if sl.cls = .background then s3 else (s3.missing g i o).abandon g i o

theorem State.faulted_seats (s : State) (g i cause pc : Nat) : (s.faulted g i cause pc).seats = s.seats := by
  simp only [State.faulted]
  split
  · rw [State.geodeFault_seats, State.withSlot_seats, State.dropHeld_seats, State.dropOutputs_seats]
  · refine (State.missing_seats _ _ _ _).trans ?_
    rw [State.geodeFault_seats, State.withSlot_seats, State.dropHeld_seats, State.dropOutputs_seats]

/-- The slot that fires faults, and its firing ends. -/
theorem State.progFault_ends {s : State} {g i : Nat} (fires : (s.firing g).map (fun f => f.slot) = some i) (cause pc : Nat) :
    s.progFault g i cause pc = (s.faulted g i cause pc).endFiring g := by
  rw [← State.firing_congr (State.faulted_seats s g i cause pc)] at fires
  exact if_pos fires

/-- An instruction that faults leaves no firing. -/
theorem State.faults_firing {s u : State} {g t op c : Nat} {i : Instr} (h : s.faults g t op c i) (issued : s.issues g t op = true)
    (done : exec i s = .next u) : u.firing g = none := by
  have fires : ((s.spend g t).firing g).map (fun f => f.slot) = some (s.fslot g) := by
    rw [State.spend_firing s g t fun _ _ _ => rfl, State.fslot]
    unfold State.issues at issued
    split at issued
    · cases issued
    next f hf => rw [hf]; rfl
  cases (h issued).symm.trans done
  rw [State.progFault_ends fires]
  exact State.endFiring_firing _ _

/-! ### Instructions that write registers (R111, R114) -/

section
variable (s : State) (g t : Nat)

theorem State.spend_geode_ne {k : Nat} (h : g ≠ k) : (s.spend g t).geode k = s.geode k := by
  rw [State.spend_eq, State.geode_withGeode_ne h, State.withFsl, State.withSlot, State.geode_withGeode_ne h]

theorem State.spend_slot_ne {k : Nat} (h : s.fslot g ≠ k) : (s.spend g t).slot g k = s.slot g k := by
  have charged (u : State) : (u.withGeode g (Geode.charged t (if s.commitFull g then t else 0) s.fcu.mpHalt)).slot g k = u.slot g k :=
    State.withGeode_keeps (p := fun d => d.slot k) (f := Geode.charged _ _ _) (fun _ => rfl) u g g
  rw [State.spend_eq, charged]
  exact State.slot_withSlot_ne (Or.inr h)

end

theorem State.withFsl_same {s : State} {g : Nat} {f : Slot → Slot} (h : f (s.fsl g) = s.fsl g) : s.withFsl g f = s := by
  refine State.withGeode_same ?_
  rw [Geode.withSlot, upd_same (d := {}) h]

/-- A slot with new S, A and T registers. -/
def Slot.withRegs (fs fa : List W32 → List W32) (ft : List W128 → List W128) (sl : Slot) : Slot := { sl with s := fs sl.s, a := fa sl.a, t := ft sl.t }

/-- What an instruction of a firing does that writes new S, A and T registers of its slot and goes on at `n`. -/
def State.rewritten (s : State) (g t n : Nat) (fs fa : List W32 → List W32) (ft : List W128 → List W128) : State :=
  ((s.spend g t).withFsl g (Slot.withRegs fs fa ft)).goTo g n

section
variable (s : State) (g t n : Nat) (fs fa : List W32 → List W32) (ft : List W128 → List W128)

theorem State.rewritten_fslot : (s.rewritten g t n fs fa ft).fslot g = s.fslot g := by
  exact State.fslot_congr ((State.withFsl_programs _ g _).trans ((State.withFsl_programs _ g _).trans (State.spend_programs s g t))) g

/-- What does not read the program counter, the cycles and the registers that change reads as before. -/
theorem State.rewritten_fsl {δ : Type} {p : Slot → δ} (charged : ∀ (x : Slot) c, p { x with used := c } = p x)
    (moved : ∀ (x : Slot) m, p { x with pc := m } = p x)
    (kept : ∀ x : Slot, p (x.withRegs fs fa ft) = p x) : p ((s.rewritten g t n fs fa ft).fsl g) = p (s.fsl g) := by
  rw [State.fsl, State.rewritten_fslot, State.rewritten, State.goTo, State.withFsl, State.withSlot_keeps (p := p) fun x => moved x n]
  rw [State.withFsl, State.withSlot_keeps (p := p) kept, State.spend_slot s g t charged]
  rfl

theorem State.rewritten_geode {δ : Type} {p : Geode → δ} (h : ∀ (d : Geode) l f b c, p { d with slots := l, firing := f, step := b, calLog0 := c } = p d) :
    p ((s.rewritten g t n fs fa ft).geode g) = p (s.geode g) := by
  have slots (d : Geode) (i : Nat) (f : Slot → Slot) : p (d.withSlot i f) = p d := h d _ d.firing d.step d.calLog0
  rw [State.rewritten, State.goTo, State.withFsl, State.withSlot, State.withGeode_keeps (p := p) fun d => slots d _ _]
  rw [State.withFsl, State.withSlot, State.withGeode_keeps (p := p) (fun d => slots d _ _), State.spend_geode s g t h]

theorem State.rewritten_slot_ne {k : Nat} (h : k ≠ s.fslot g) : (s.rewritten g t n fs fa ft).slot g k = s.slot g k := by
  have other : ((s.spend g t).withFsl g (Slot.withRegs fs fa ft)).fslot g = s.fslot g :=
    (State.fslot_congr (State.withFsl_programs _ g _) g).trans (State.spend_fslot s g t g)
  rw [State.rewritten, State.goTo, State.withFsl, other, State.slot_withSlot_ne (Or.inr h.symm)]
  rw [State.withFsl, State.spend_fslot, State.slot_withSlot_ne (Or.inr h.symm), State.spend_slot_ne s g t h.symm]

theorem State.rewritten_geode_ne {h : Nat} (other : h ≠ g) : (s.rewritten g t n fs fa ft).geode h = s.geode h := by
  rw [State.rewritten, State.goTo, State.withFsl, State.withSlot, State.geode_withGeode_ne other.symm]
  rw [State.withFsl, State.withSlot, State.geode_withGeode_ne other.symm, State.spend_geode_ne s g t other.symm]

end

/-- An issued instruction whose whole effect are new values of registers: of S[D] alone among the S registers, of A registers by ASET and of a
descriptor by TSET only. -/
def State.rewrites (s u : State) (g t op : Nat) : Prop :=
  ∃ fs fa ft, u = s.rewritten g t ((s.fsl g).pc + 1) fs fa ft ∧ (∀ l k, k ≠ fld (s.instrAt g) 51 5 → (fs l).getD k 0 = l.getD k 0) ∧
    (op ≠ 0x0D → fa = id) ∧ (op ≠ 0x0E → ft = id) ∧ (op = 0x0D ∨ op = 0x0E → fs = id)

section
variable {s u : State} {g t op : Nat} {i : Instr} (issued : s.issues g t op = true) (more : (s.fsl g).pc + 1 < (s.fsl g).prog.length)
  (done : exec i s = .next u)
include issued more done

theorem State.rewrites_of_does {fs fa : List W32 → List W32} {ft : List W128 → List W128}
    (does : s.does g t op i fun u => u.withFsl g (Slot.withRegs fs fa ft))
    (kept : (∀ l k, k ≠ fld (s.instrAt g) 51 5 → (fs l).getD k 0 = l.getD k 0) ∧ (op ≠ 0x0D → fa = id) ∧ (op ≠ 0x0E → ft = id) ∧
      (op = 0x0D ∨ op = 0x0E → fs = id)) : s.rewrites u g t op := by
  cases (does issued more).symm.trans done
  exact ⟨fs, fa, ft, rfl, kept⟩

theorem State.rewrites_of_nothing (does : s.does g t op i id) : s.rewrites u g t op := by
  refine State.rewrites_of_does (fs := id) (fa := id) (ft := id) issued more done (fun issued more => ?_)
    ⟨fun _ _ _ => rfl, fun _ => rfl, fun _ => rfl, fun _ => rfl⟩
  simp only [State.withFsl_same (f := Slot.withRegs id id id) rfl]
  exact does issued more

theorem State.rewrites_of_setS {v : W32} (does : s.does g t op i fun u => u.setS g (fld (s.instrAt g) 51 5) v)
    (scalar : op ≠ 0x0D ∧ op ≠ 0x0E) : s.rewrites u g t op := by
  by_cases zero : fld (s.instrAt g) 51 5 = 0
  · refine State.rewrites_of_nothing issued more done ?_
    rw [zero] at does
    exact does
  · refine State.rewrites_of_does (fs := fun l => l.set (fld (s.instrAt g) 51 5) v) (fa := id) (ft := id) issued more done ?_
      ⟨fun l k other => ?_, fun _ => rfl, fun _ => rfl, fun h => absurd h (by omega)⟩
    · simp only [State.setS, zero, if_false] at does
      exact does
    · simp [List.getD, List.getElem?_set_ne other.symm]

end

theorem State.rewrites_of_aset {s u : State} {g t : Nat} (issued : s.issues g t 0x0D = true) (more : (s.fsl g).pc + 1 < (s.fsl g).prog.length)
    (done : exec (.aset g t) s = .next u) (fires : (u.firing g).isSome = true) : s.rewrites u g t 0x0D := by
  by_cases low : fld (s.instrAt g) 51 5 < 16
  · exact State.rewrites_of_does (fs := id) (ft := id)
      (fa := fun l => l.set (fld (s.instrAt g) 51 5) (BitVec.ofNat 32 (((s.sreg g (fld (s.instrAt g) 46 5)).toNat + fld (s.instrAt g) 0 32) % 2 ^ 21)))
      issued more done (State.does_aset low)
      ⟨fun _ _ _ => rfl, fun h => absurd rfl h, fun _ => rfl, fun _ => rfl⟩
  · rw [State.faults_firing (State.faults_aset (Nat.not_lt.mp low)) issued done] at fires
    cases fires

theorem State.rewrites_of_tset {s u : State} {g t : Nat} (issued : s.issues g t 0x0E = true) (more : (s.fsl g).pc + 1 < (s.fsl g).prog.length)
    (done : exec (.tset g t) s = .next u) (fires : (u.firing g).isSome = true) : s.rewrites u g t 0x0E := by
  by_cases low : fld (s.instrAt g) 38 3 < 4
  · exact State.rewrites_of_does (fs := id) (fa := id)
      (ft := fun l => upd l (fld (s.instrAt g) 51 5) fun x => setWord x (fld (s.instrAt g) 38 3) (s.sreg g (fld (s.instrAt g) 46 5)))
      issued more done (State.does_tset low)
      ⟨fun _ _ _ => rfl, fun _ => rfl, fun h => absurd rfl h, fun _ => rfl⟩
  · rw [State.faults_firing (State.faults_tset (Nat.not_lt.mp low)) issued done] at fires
    cases fires

/-- Settles O52: what is issued here rewrites registers, and a new value of those leaves the rest as it was; an ASET or TSET that faults ends the firing. -/
theorem registerInstructionsFrame : Obligations.RegisterInstructionsFrame := by
  unfold Obligations.RegisterInstructionsFrame
  intro s u g t op i issued more row done fires
  have rewrites : s.rewrites u g t op := by
    simp only [List.mem_cons, Prod.mk.injEq, List.not_mem_nil, or_false] at row
    rcases row with ⟨rfl, rfl⟩ | ⟨rfl, rfl⟩ | ⟨rfl, rfl⟩ | ⟨rfl, rfl⟩ | ⟨rfl, rfl⟩ |
        ⟨rfl, rfl⟩ | ⟨rfl, rfl⟩ | ⟨rfl, rfl⟩ | ⟨rfl, rfl⟩ | ⟨rfl, rfl⟩
    case inl => exact State.rewrites_of_nothing issued more done (State.does_of_body rfl rfl rfl rfl)
    case inr.inr.inr.inr.inr.inr.inl => exact State.rewrites_of_aset issued more done fires
    case inr.inr.inr.inr.inr.inr.inr.inl => exact State.rewrites_of_tset issued more done fires
    all_goals exact State.rewrites_of_setS issued more done (State.does_setS rfl rfl rfl) (by decide)
  obtain ⟨fs, fa, ft, rfl, scalars, addresses, descriptors, none⟩ := rewrites
  have slot {δ : Type} {p : Slot → δ} := State.rewritten_fsl s g t ((s.fsl g).pc + 1) fs fa ft (p := p)
  have geode {δ : Type} {p : Geode → δ} := State.rewritten_geode s g t ((s.fsl g).pc + 1) fs fa ft (p := p)
  refine ⟨slot (p := Slot.v) (fun _ _ => rfl) (fun _ _ => rfl) fun _ => rfl, slot (p := Slot.prog) (fun _ _ => rfl) (fun _ _ => rfl) fun _ => rfl,
    slot (p := Slot.trk) (fun _ _ => rfl) (fun _ _ => rfl) fun _ => rfl, slot (p := Slot.acc) (fun _ _ => rfl) (fun _ _ => rfl) fun _ => rfl,
    slot (p := Slot.obs) (fun _ _ => rfl) (fun _ _ => rfl) fun _ => rfl,
    fun other => slot (p := Slot.a) (fun _ _ => rfl) (fun _ _ => rfl) fun x => congrFun (addresses other) x.a,
    fun other => slot (p := Slot.t) (fun _ _ => rfl) (fun _ _ => rfl) fun x => congrFun (descriptors other) x.t,
    fun other => slot (p := Slot.s) (fun _ _ => rfl) (fun _ _ => rfl) fun x => congrFun (none other) x.s,
    fun k other => slot (p := fun sl => sl.s.getD k 0) (fun _ _ => rfl) (fun _ _ => rfl) fun x => scalars x.s k other,
    geode (p := Geode.pocket) fun _ _ _ _ _ => rfl, geode (p := Geode.queues) fun _ _ _ _ _ => rfl, geode (p := Geode.tiles) fun _ _ _ _ _ => rfl,
    fun k other => State.rewritten_slot_ne s g t _ fs fa ft other, fun h other => State.rewritten_geode_ne s g t _ fs fa ft other,
    rfl, rfl, rfl, rfl, rfl⟩

end Sys2Proof.Machine
end

-- The vector, SCALE and SIG instructions.
section
/-!
PROOFS of 05_stage_programs.md. The vector instructions lane by lane (O54); VLD and VST (O55); SCALE and SIG (O57).
-/
namespace Sys2Proof.Machine

/-! ### Vector instructions (R123, R124, R145) -/

theorem vopFn_reserved {fn : Nat} (h : 6 ≤ fn) : vopFn fn = none := by
  obtain ⟨k, rfl⟩ := Nat.exists_eq_add_of_le' h
  rfl

theorem vunFn_reserved {fn : Nat} (h : 8 ≤ fn) : vunFn fn = none := by
  obtain ⟨k, rfl⟩ := Nat.exists_eq_add_of_le' h
  rfl

theorem vredFn_reserved {fn : Nat} (h : 3 ≤ fn) (l : List W32) : vredFn fn l = none := by
  obtain ⟨k, rfl⟩ := Nat.exists_eq_add_of_le' h
  rfl

section
variable {s : State} {g t op : Nat} {i : Instr} {isOp : Nat → Bool} {body : Nat → State → Res (State × Flow)}

/-- An instruction whose whole effect is the value of a V register. -/
theorem State.does_setV {d : Nat} {v : VReg} (he : exec i s = .next (s.issue g t isOp body)) (hp : isOp op = true)
    (hb : body (s.instrAt g) (s.spend g t) = .ok ((s.spend g t).setV g d v, .next)) : s.does g t op i fun u => u.setV g d v :=
  State.does_of_body he hp hb (State.setV_programs _ _ _ _)

theorem State.does_vred {x : W32} (h : vredFn (fld (s.instrAt g) 36 4) (s.vreg g (fld (s.instrAt g) 48 4)).lanes = some x) :
    s.does g t 0x27 (.vred g t) fun u => u.setV g (fld (s.instrAt g) 52 4) ⟨List.replicate 64 x, (s.vreg g (fld (s.instrAt g) 48 4)).poison⟩ := by
  refine State.does_setV rfl rfl ?_
  simp only [State.spend_vreg, vFn, vJ, h]
  rfl

end

/-- Settles O54: every form sets V registers to the lanes of its body, or faults where the table lists no FN value. -/
theorem vectorArithmetic : Obligations.VectorArithmetic := by
  unfold Obligations.VectorArithmetic
  intro s g t
  dsimp only
  refine ⟨⟨rfl, rfl⟩, fun f named => ⟨State.does_setV rfl rfl ?vop, State.does_setV rfl rfl ?vopi⟩,
    fun reserved => ⟨State.faults_of_body rfl rfl ?vop', State.faults_of_body rfl rfl ?vopi'⟩, State.does_setV rfl rfl ?vfma,
    fun f named => State.does_setV rfl rfl ?vun, fun reserved => State.faults_of_body rfl rfl ?vun', State.does_setV rfl rfl ?vexpsub,
    fun fn => State.does_vred ?sum, fun fn => State.does_vred ?max, fun fn => State.does_vred ?squares, fun reserved => State.faults_of_body rfl rfl ?vred',
    fun fn => State.does_setV rfl rfl ?lane, fun fn => State.does_setV rfl rfl ?scalar,
    fun reserved => ⟨State.faults_of_body rfl rfl ?vbcast', State.faults_of_body rfl rfl ?vcvt'⟩, State.does_setV rfl rfl ?vsel,
    fun below => State.does_of_body rfl rfl ?vmoments ((State.setV_programs _ _ _ _).trans (State.setV_programs _ _ _ _)),
    fun last => State.faults_of_body rfl rfl ?vmoments',
    fun inside => State.does_of_body rfl rfl ?vadamw ((State.setV_programs _ _ _ _).trans ((State.setV_programs _ _ _ _).trans (State.setV_programs _ _ _ _))),
    fun beyond => State.faults_of_body rfl rfl ?vadamw',
    fun fn => State.does_setV rfl rfl ?fromInt, fun fn => State.does_setV rfl rfl ?toInt⟩
  case vop | vopi | vun => simp only [State.spend_vreg, vFn, vJ, vK, named]; rfl
  case vop' | vopi' => rw [vFn, vopFn_reserved reserved]
  case vun' => rw [vFn, vunFn_reserved reserved]
  case vfma | vexpsub | vsel => simp only [State.spend_vreg, vJ, vK, vL]; rfl
  case sum | max | squares => rw [fn]; rfl
  case vred' => simp only [vFn, vredFn_reserved reserved]
  case lane | fromInt | toInt => simp only [State.spend_vreg, vFn, vJ, fn]; rfl
  case scalar => simp only [State.spend_sreg, vFn, fn]; rfl
  case vbcast' | vcvt' => obtain ⟨k, code⟩ := Nat.exists_eq_add_of_le' reserved; simp only [vFn, code]
  case vmoments => simp only [State.spend_vreg, vD, vJ]; rw [if_neg below]
  case vmoments' => exact if_pos last
  case vadamw =>
    have constants : (s.spend g t).sreg g = s.sreg g := funext (State.spend_sreg s g t g)
    simp only [State.spend_vreg, constants, vJ, vK, vL, vD]
    rw [if_neg (Nat.not_lt.mpr inside)]
  case vadamw' => exact if_pos beyond


/-! ### VLD and VST (R123) -/

/-- POST of VLD and VST advances the A register by 64 elements. -/
theorem State.post_eq (u : State) (g w size : Nat) :
    u.post g w size = if bitAt w 35 then u.setA g (fld w 48 4) (u.areg g (fld w 48 4) + 64 * size) else u := rfl

theorem State.post_programs (u : State) (g w size : Nat) : (u.post g w size).programs = u.programs := by
  unfold State.post
  split
  · exact State.setA_programs _ _ _ _
  · rfl

/-- Without a tracker and without stochastic rounding a conversion changes nothing but the lanes (R139). -/
theorem State.convert_plain (s : State) (g : Nat) (ty : EType) (poison : Bool) (lanes : List W32) :
    s.convert g ty false none poison lanes = (s, lanes.map fun y => encodeNum ty none (valRaw y)) := rfl

/-- Settles O55: inside the window both move the elements, and outside it the address alone faults. -/
theorem vectorMemory : Obligations.VectorMemory := by
  unfold Obligations.VectorMemory
  intro s g t ty
  dsimp only
  intro named
  have code : EType.ofCode (vFn (s.instrAt g)) = some ty := named
  refine ⟨fun inside => ⟨State.does_of_body rfl rfl ?vld ?vld', fun untracked nearest => State.does_of_body rfl rfl ?vst ?vst'⟩,
    fun outside => ⟨State.faults_of_body rfl rfl ?load, State.faults_of_body rfl rfl ?store⟩⟩
  case vld =>
    simp only [code, State.spend_areg, vJ, vD]
    rw [State.pocketAt_inside (by rwa [State.spend_window]), State.spend_base]
    rfl
  case vld' => exact (State.post_programs _ g (s.instrAt g) ty.size).trans ((State.setV_programs _ _ _ _).trans (State.pocketRead_programs _ _ _ _))
  case vst =>
    simp only [code, State.spend_areg, State.spend_vreg, vJ, vD, untracked, nearest, Bool.false_eq_true, if_false, State.convert_plain]
    rw [State.pocketAt_inside (by rwa [State.spend_window]), State.spend_base]
    rfl
  case vst' => exact (State.post_programs _ g (s.instrAt g) ty.size).trans (State.pocketWrite_programs _ _ _ _ _)
  case load | store =>
    simp only [code, State.spend_areg, vJ]
    rw [State.pocketAt_outside (by rwa [State.spend_window])]
    rfl

/-! ### SCALE and SIG (R132, R133) -/

theorem bitAt_fld (w n k : Nat) : bitAt (fld w n (k + 1)) 0 = bitAt w n := by
  rw [bitAt, bitAt, fld, Nat.pow_zero, Nat.div_one, Nat.pow_succ', Nat.mod_mul_right_mod]

theorem held_ok {α : Type} (s : State) (x : α) : held s (.ok x) = .ok x := rfl

theorem held_eq_ok {α : Type} {s : State} {r : Res α} {x : α} (h : held s r = .ok x) : r = .ok x := by
  unfold held at h
  split at h
  · cases h
  · exact h

theorem Res.ok_bind {α β : Type} (x : α) (f : α → Res β) : ((.ok x : Res α) >>= f) = f x := rfl

theorem Res.bind_eq_ok {α β : Type} {r : Res α} {f : α → Res β} {x : β} (h : (r >>= f) = .ok x) : ∃ y, r = .ok y ∧ f y = .ok x := by
  cases r with
  | error e => cases h
  | ok y => exact ⟨y, rfl, h⟩

theorem Slot.observe_prog (sl : Slot) (k n : Nat) (xs : List Num) : (sl.observe k n xs).prog = sl.prog := by
  unfold Slot.observe
  split <;> rfl

theorem State.memRead_pocket_programs {s u : State} {g a n : Nat} {b : List Byte} {p : Bool} (h : s.memRead g .pocket a n = .ok (u, b, p)) :
    u.programs = s.programs := by
  obtain ⟨_, _, read⟩ := Res.bind_eq_ok h
  obtain rfl : (s.pocketRead g ((s.fsl g).base * 2 ^ 16 + a) n).1 = u := congrArg Prod.fst (Except.ok.inj read)
  exact State.pocketRead_programs _ _ _ _

theorem State.sigFold_programs {g : Nat} {d : Desc} {l : List (Nat × Nat)} {s u : State} (h : s.sigFold g d l = .ok u) : u.programs = s.programs := by
  induction l generalizing s with
  | nil => cases h; rfl
  | cons x l ih =>
    obtain ⟨_, _, h⟩ := Res.bind_eq_ok h
    obtain ⟨⟨s1, b, p⟩, read, h⟩ := Res.bind_eq_ok h
    refine (ih (held_eq_ok h)).trans (Eq.trans ?_ (State.memRead_pocket_programs read))
    exact State.withFsl_programs s1 g _

theorem State.withFsl_congr {s : State} {g : Nat} {f f' : Slot → Slot} (h : f (s.fsl g) = f' (s.fsl g)) : s.withFsl g f = s.withFsl g f' := by
  refine State.withGeode_congr ?_
  rw [Geode.withSlot, Geode.withSlot, upd_congr (d := {}) h]

/-- Settles O57: each form writes an S register, a tracker, or what the slot has observed or folded. -/
theorem scaleAndSignature : Obligations.ScaleAndSignature := by
  unfold Obligations.ScaleAndSignature
  intro s g t
  dsimp only
  refine ⟨State.does_setS rfl rfl ?get, fun normal => State.does_of_body rfl rfl ?set (State.withFsl_programs _ g _),
    fun unfit => State.faults_of_body rfl rfl ?set', fun poisoned => State.does_of_body rfl rfl ?poisoned rfl,
    fun clean => State.does_of_body rfl rfl ?observe (State.withFsl_programs _ g _ fun _ => Slot.observe_prog _ _ _ _),
    State.does_of_body rfl rfl ?hold (State.withFsl_programs _ g _),
    fun d u desc rows blocks loc raw folded => State.does_of_body rfl rfl ?fold (State.sigFold_programs folded), State.does_setS rfl rfl ?read⟩
  case get => simp only [State.spend_cls, State.spend_curOrigin, State.spend_fsl (p := Slot.trk) s g t fun _ _ => rfl, fD, fTrk]
  case set => simp only [State.spend_sreg, fJ, fTrk, normal, if_true]
  case set' => simp only [State.spend_sreg, fJ, unfit, Bool.false_eq_true, if_false]
  case poisoned => simp only [State.spend_vreg, fVJ, poisoned, if_true]; rfl
  case observe =>
    simp only [State.spend_vreg, State.spend_curOrigin, fVJ, fTrk, clean, Bool.false_eq_true, if_false]
    refine congrArg (fun u : State => Except.ok (u, Flow.next)) (State.withFsl_congr ?_)
    simp only [State.spend_cls, State.spend_micro]
  case hold => simp only [fTrk, fD, bitAt_fld]
  case fold =>
    have region : ¬ (fld (s.instrAt g) 20 16 = 0 ∨ fld (s.instrAt g) 12 8 = 0) := by omega
    have tensor : ¬ (d.loc ≠ .pocket ∨ d.coded = true) := by simp [loc, raw]
    simp only [State.desc, State.spend_treg, State.spend_sreg, desc]
    refine (if_neg region).trans ((if_neg tensor).trans ?_)
    rw [folded]
    rfl
  case read => simp only [State.spend_cls, State.spend_curOrigin, State.spend_micro, State.spend_accOf, fD]

end Sys2Proof.Machine
end

-- The queue instructions.
section
/-!
PROOFS of 05_stage_programs.md. Pops and pushes keep the programs; QSKIP, QPOP, QPUSH and QFWD (O56).
-/
namespace Sys2Proof.Machine

/-! ### Pops and pushes keep the programs (R102, R129, R130) -/

theorem State.creditBack_programs (s : State) (g q n : Nat) : (s.creditBack g q n).programs = s.programs := by
  unfold State.creditBack
  split
  · exact State.withQueue_programs _ _ _ _
  · rfl

theorem State.entryUe_programs (s : State) (g q ctx : Nat) (e : Entry) : (s.entryUe g q ctx e).programs = s.programs := by
  unfold State.entryUe
  split
  · exact (State.addRec_programs _ _ _ _ _ _ _ _).trans (State.geodeFault_programs _ _ _)
  · rfl

theorem State.fixInterval_programs (s : State) (g : Nat) : (s.fixInterval g).programs = s.programs := by
  unfold State.fixInterval
  split
  · rfl
  next f _ =>
    dsimp only
    generalize (if (s.fsl g).cls = .background then 2 ^ 63 + (s.fsl g).micro else f.interval.getD (f.firstOrigin.getD s.drip.count)) = n
    split
    · exact State.withFiring_programs s g _
    · exact (State.withFsl_programs _ g _).trans (State.withFiring_programs s g _)

theorem State.pop_programs {s u : State} {g q : Nat} {e : Entry} (h : s.pop g q = .ok (u, e)) : u.programs = s.programs := by
  unfold State.pop at h
  split at h
  · cases h
  dsimp only at h
  split at h
  · cases h
  split at h
  · cases h
  split at h
  · cases h
  split at h
  · cases h
  obtain ⟨rfl, -⟩ := Prod.mk.inj (Except.ok.inj h)
  rw [State.fixInterval_programs, State.entryUe_programs, State.withQueue_programs]
  refine (State.withFiring_programs _ g _).trans ?_
  split
  · exact State.withQueue_programs _ _ _ _
  · exact (State.creditBack_programs _ _ _ _).trans (State.withQueue_programs _ _ _ _)

theorem State.popN_programs {n : Nat} {s u : State} {g q : Nat} {es : List Entry} (h : State.popN n s g q = .ok (u, es)) : u.programs = s.programs := by
  induction n generalizing s es with
  | zero => cases h; rfl
  | succ n ih =>
    obtain ⟨⟨s1, e⟩, popped, h⟩ := Res.bind_eq_ok h
    obtain ⟨⟨s2, es'⟩, rest, h⟩ := Res.bind_eq_ok (held_eq_ok h)
    cases h
    exact (ih rest).trans (State.pop_programs popped)

theorem State.push_programs {s u : State} {g q : Nat} {e : Entry} (h : s.push g q e = .ok u) : u.programs = s.programs := by
  unfold State.push at h
  split at h
  · cases h
  dsimp only at h
  split at h
  · cases h
  split at h
  · cases h
    exact State.withQueue_programs _ _ _ _
  split at h
  · cases h
  cases h
  exact (State.withQueue_programs _ _ _ _).trans (State.withFiring_programs s g _)

theorem State.pushPocket_programs {n : Nat} {s u : State} {g q st a : Nat} (h : State.pushPocket g q st n s a = .ok u) : u.programs = s.programs := by
  induction n generalizing s a with
  | zero => cases h; rfl
  | succ n ih =>
    obtain ⟨p, _, h⟩ := Res.bind_eq_ok h
    obtain ⟨s2, pushed, h⟩ := Res.bind_eq_ok (held_eq_ok h)
    exact (ih (held_eq_ok h)).trans ((State.push_programs pushed).trans (State.pocketRead_programs _ _ _ _))

theorem State.storeEntries_programs {es : List Entry} {s u : State} {g a st : Nat} (h : s.storeEntries g a st es = .ok u) : u.programs = s.programs := by
  induction es generalizing s a with
  | nil => cases h; rfl
  | cons e es ih =>
    rw [State.storeEntries] at h
    split at h
    · exact ih (held_eq_ok h)
    · obtain ⟨s1, stored, h⟩ := Res.bind_eq_ok h
      obtain ⟨p, _, stored⟩ := Res.bind_eq_ok stored
      cases stored
      exact (ih (held_eq_ok h)).trans (State.pocketWrite_programs _ _ _ _ _)

theorem State.loadEntries_programs (es : List Entry) (s : State) (g v : Nat) (ty : EType) : (s.loadEntries g v ty es).programs = s.programs := by
  induction es generalizing s v with
  | nil => rfl
  | cons e es ih => exact (ih _ _).trans (State.setV_programs _ _ _ _)

theorem State.qPost_programs (s : State) (g w st : Nat) : (s.qPost g w st).programs = s.programs := by
  unfold State.qPost
  split
  · exact State.setA_programs _ _ _ _
  · rfl

/-! ### The checks of a queue instruction (R129) -/

section
variable {s : State} {g w : Nat}

theorem State.qCheck_input (low : fld w 51 5 < 16) (named : bitAt (s.fsl g).qin (fld w 51 5) = true) (least : 1 ≤ fld w 40 6) (most : fld w 40 6 ≤ 32) :
    s.qCheck g w true = .ok () := by
  rw [State.qCheck, if_neg (by simp [qQ, low, named])]
  exact if_neg (by rw [qN]; omega)

theorem State.qCheck_output (low : 16 ≤ fld w 51 5) (high : fld w 51 5 < 24) (named : bitAt (s.fsl g).qout (fld w 51 5 - 16) = true)
    (least : 1 ≤ fld w 40 6) (most : fld w 40 6 ≤ 32) : s.qCheck g w false = .ok () := by
  rw [State.qCheck, if_neg (by simp [qQ, low, high, named])]
  exact if_neg (by rw [qN]; omega)

theorem State.qCheck_count (low : fld w 51 5 < 16) (named : bitAt (s.fsl g).qin (fld w 51 5) = true) (bad : fld w 40 6 = 0 ∨ 32 < fld w 40 6) :
    s.qCheck g w true = stop 0x0C := by
  simp [State.qCheck, qQ, qN, low, named, bad]

theorem State.qCheck_notInput (bad : 16 ≤ fld w 51 5 ∨ bitAt (s.fsl g).qin (fld w 51 5) = false) : s.qCheck g w true = stop 0x07 := by
  rcases bad with high | absent
  · simp [State.qCheck, qQ, Nat.not_lt.mpr high]
  · simp [State.qCheck, qQ, absent]

theorem State.qCheck_notOutput (bad : fld w 51 5 < 16 ∨ 24 ≤ fld w 51 5) : s.qCheck g w false = stop 0x07 := by
  rcases bad with low | high
  · simp [State.qCheck, qQ, Nat.not_le.mpr low]
  · simp [State.qCheck, qQ, Nat.not_lt.mpr high]

end

/-- A raw queue's `FMT` is no coded one (R130). -/
theorem fmt_raw {n : Nat} (h : n < 4) : ¬ (n = 4 ∨ n = 5) := by omega

section
variable {s : State} {g t : Nat}

theorem State.spend_qCheck (w : Nat) (input : Bool) : (s.spend g t).qCheck g w input = s.qCheck g w input := by
  simp only [State.qCheck, State.spend_qin, State.spend_qout]

/-! ### Pops (R129 to R131) -/

section
variable (low : fld (s.instrAt g) 51 5 < 16) (named : bitAt (s.fsl g).qin (fld (s.instrAt g) 51 5) = true) (least : 1 ≤ fld (s.instrAt g) 40 6)
  (most : fld (s.instrAt g) 40 6 ≤ 32) {u : State} {es : List Entry}
  (popped : State.popN (fld (s.instrAt g) 40 6) (s.spend g t) g (fld (s.instrAt g) 51 5) = .ok (u, es))
include low named least most popped

theorem State.does_qskip : s.does g t 0x42 (.qskip g t) fun _ =>
    (u.qPost g (s.instrAt g) (fmtStride (s.queue g (fld (s.instrAt g) 51 5)).fmt)).setS g (fld (s.instrAt g) 30 5) (qStatus es) := by
  refine State.does_of_body rfl rfl ?_ ((State.setS_programs _ _ _ _).trans ((State.qPost_programs _ _ _ _).trans (State.popN_programs popped)))
  simp only [State.spend_qCheck, State.qCheck_input low named least most, State.spend_queue, qN, qQ, popped]
  rfl

theorem State.does_qpop_pocket (pocket : bitAt (s.instrAt g) 39 = false) (raw : (s.queue g (fld (s.instrAt g) 51 5)).fmt < 4)
    (inside : s.areg g (fld (s.instrAt g) 47 4) + fld (s.instrAt g) 40 6 * fmtStride (s.queue g (fld (s.instrAt g) 51 5)).fmt ≤ (s.fsl g).window)
    {v : State} (stored : u.storeEntries g (s.areg g (fld (s.instrAt g) 47 4)) (fmtStride (s.queue g (fld (s.instrAt g) 51 5)).fmt) es = .ok v) :
    s.does g t 0x40 (.qpop g t) fun _ =>
      (v.qPost g (s.instrAt g) (fmtStride (s.queue g (fld (s.instrAt g) 51 5)).fmt)).setS g (fld (s.instrAt g) 30 5) (qStatus es) := by
  refine State.does_of_body rfl rfl ?_ ((State.setS_programs _ _ _ _).trans ((State.qPost_programs _ _ _ _).trans
    ((State.storeEntries_programs stored).trans (State.popN_programs popped))))
  simp only [State.spend_qCheck, State.qCheck_input low named least most, State.spend_queue, State.spend_areg, qN, qQ, qAJ]
  rw [State.pocketAt_inside (by rwa [State.spend_window])]
  refine (if_neg (fmt_raw raw)).trans ((if_neg (Bool.eq_false_iff.mp pocket)).trans ?_)
  simp only [popped, Res.ok_bind, stored]
  rfl

theorem State.does_qpop_regs {ty : EType} (regs : bitAt (s.instrAt g) 39 = true) (code : EType.ofCode (fld (s.instrAt g) 23 3) = some ty)
    (fits : fmtFits ty false (s.queue g (fld (s.instrAt g) 51 5)).fmt = true) (files : fld (s.instrAt g) 35 4 + fld (s.instrAt g) 40 6 ≤ 16)
    (raw : (s.queue g (fld (s.instrAt g) 51 5)).fmt < 4) : s.does g t 0x40 (.qpop g t) fun _ =>
      ((u.loadEntries g (fld (s.instrAt g) 35 4) ty es).qPost g (s.instrAt g) (fmtStride (s.queue g (fld (s.instrAt g) 51 5)).fmt)).setS g
        (fld (s.instrAt g) 30 5) (qStatus es) := by
  refine State.does_of_body rfl rfl ?_ ((State.setS_programs _ _ _ _).trans ((State.qPost_programs _ _ _ _).trans
    ((State.loadEntries_programs _ _ _ _ _).trans (State.popN_programs popped))))
  have type : qType (s.instrAt g) (s.queue g (fld (s.instrAt g) 51 5)).fmt = .ok ty := by simp only [qType, code, fits, if_true]
  simp only [State.spend_qCheck, State.qCheck_input low named least most, State.spend_queue, qN, qQ, type]
  refine (if_neg (fmt_raw raw)).trans ((if_pos regs).trans ((if_neg (Nat.not_lt.mpr files)).trans ?_))
  simp only [popped]
  rfl

end

/-! ### Pushes (R129, R131) -/

/-- A firing whose instruction is charged goes on. -/
theorem State.spend_fires {f : Firing} (t : Nat) (h : s.firing g = some f) : ∃ f', (s.spend g t).firing g = some f' := by
  have fires := State.spend_firing s g t (p := fun _ => ()) (fun _ _ _ => rfl) g
  rw [h] at fires
  obtain ⟨f', fires, -⟩ := Option.map_eq_some_iff.mp fires
  exact ⟨f', fires⟩

/-- A marker needs neither a quota nor a credit (R95, R102). -/
theorem State.push_marker {u : State} {q : Nat} {e : Entry} {f : Firing} (fires : u.firing g = some f) (low : 16 ≤ q) (high : q < 24)
    (named : bitAt (u.fsl g).qout (q - 16) = true) (marker : e.marker = true) : u.push g q e = .ok (u.withQueue g q fun w => w.pushMarker e) := by
  simp [State.push, fires, low, high, named, marker]

section
variable (low : 16 ≤ fld (s.instrAt g) 51 5) (high : fld (s.instrAt g) 51 5 < 24) (named : bitAt (s.fsl g).qout (fld (s.instrAt g) 51 5 - 16) = true)
include low high named

theorem State.does_qpush_pocket (least : 1 ≤ fld (s.instrAt g) 40 6) (most : fld (s.instrAt g) 40 6 ≤ 32) (pocket : bitAt (s.instrAt g) 39 = false)
    (raw : (s.queue g (fld (s.instrAt g) 51 5)).fmt < 4) {u : State}
    (pushed : State.pushPocket g (fld (s.instrAt g) 51 5) (fmtStride (s.queue g (fld (s.instrAt g) 51 5)).fmt) (fld (s.instrAt g) 40 6) (s.spend g t)
      (s.areg g (fld (s.instrAt g) 47 4)) = .ok u) :
    s.does g t 0x41 (.qpush g t) fun _ => u.qPost g (s.instrAt g) (fmtStride (s.queue g (fld (s.instrAt g) 51 5)).fmt) := by
  refine State.does_of_body rfl rfl ?_ ((State.qPost_programs _ _ _ _).trans (State.pushPocket_programs pushed))
  simp only [State.spend_qCheck, State.qCheck_output low high named least most, State.spend_queue, State.spend_areg, qN, qQ, qAJ]
  refine (if_neg (fmt_raw raw)).trans ((if_neg (Bool.eq_false_iff.mp pocket)).trans ?_)
  rw [pushed]
  rfl

theorem State.does_qfwd (one : fld (s.instrAt g) 40 6 = 1) {f : Firing} {m : Entry} (fires : s.firing g = some f) (popped : f.lastMarker = some m)
    (marker : m.marker = true) : s.does g t 0x43 (.qfwd g t) fun u =>
      (u.withQueue g (fld (s.instrAt g) 51 5) fun x => x.pushMarker { m with ts := s.stamp, released := false, slot := s.fslot g }).qPost g (s.instrAt g)
        (fmtStride (s.queue g (fld (s.instrAt g) 51 5)).fmt) := by
  refine State.does_of_body rfl rfl ?_ ((State.qPost_programs _ _ _ _).trans (State.withQueue_programs _ _ _ _))
  obtain ⟨f', fires'⟩ := State.spend_fires t fires
  have pushed := State.push_marker (e := { m with ts := s.stamp, released := false, slot := s.fslot g }) fires' low high (by rwa [State.spend_qout]) marker
  refine (if_neg (by simp [qQ, low, high, named])).trans ((if_neg (not_not.mpr one)).trans ?_)
  simp only [State.spend_firing_bind s g t (p := Firing.lastMarker) fun _ _ _ => rfl, fires, Option.bind_some, popped]
  rw [qQ, State.spend_stamp, State.spend_fslot, pushed, State.spend_queue]
  rfl

theorem State.faults_qfwd (one : fld (s.instrAt g) 40 6 = 1) {f : Firing} (fires : s.firing g = some f) (none : f.lastMarker = none) :
    s.faults g t 0x43 0x12 (.qfwd g t) := by
  refine State.faults_of_body rfl rfl ?_
  refine (if_neg (by simp [qQ, low, high, named])).trans ((if_neg (not_not.mpr one)).trans ?_)
  simp only [State.spend_firing_bind s g t (p := Firing.lastMarker) fun _ _ _ => rfl, fires, Option.bind_some, none]

end

end

/-- Settles O56: a checked instruction pops or pushes its entries, and a queue or a count that fails the check faults before any effect. -/
theorem queueInstructions : Obligations.QueueInstructions := by
  unfold Obligations.QueueInstructions
  intro s g t
  dsimp only
  refine ⟨fun low named least most u es popped => ⟨State.does_qskip low named least most popped,
      fun pocket raw inside v stored => State.does_qpop_pocket low named least most popped pocket raw inside stored,
      fun ty regs code fits files raw => State.does_qpop_regs low named least most popped regs code fits files raw⟩,
    fun low high named => ⟨fun least most pocket raw u pushed => State.does_qpush_pocket low high named least most pocket raw pushed,
      fun one f m fires popped marker => State.does_qfwd low high named one fires popped marker,
      fun one f fires none => State.faults_qfwd low high named one fires none⟩,
    fun ⟨low, named, bad⟩ => ⟨State.faults_of_body rfl rfl ?popCount, State.faults_of_body rfl rfl ?skipCount⟩,
    fun bad => ⟨State.faults_of_body rfl rfl ?popQueue, State.faults_of_body rfl rfl ?skipQueue⟩,
    fun bad => ⟨State.faults_of_body rfl rfl ?pushQueue, State.faults_of_body rfl rfl ?fwdQueue⟩⟩
  case popCount | skipCount => rw [State.spend_qCheck, State.qCheck_count low named bad]; rfl
  case popQueue | skipQueue => rw [State.spend_qCheck, State.qCheck_notInput bad]; rfl
  case pushQueue => rw [State.spend_qCheck, State.qCheck_notOutput bad]; rfl
  case fwdQueue =>
    refine if_pos ?_
    rcases bad with low | high
    · simp [qQ, Nat.not_le.mpr low]
    · simp [qQ, Nat.not_lt.mpr high]

end Sys2Proof.Machine
end

-- MATMUL, MOVE and MOVE.ZERO.
section
/-!
PROOFS of 05_stage_programs.md. A MATMUL of one row; MOVE and MOVE.ZERO of one block (O58).
-/
namespace Sys2Proof.Machine

/-! ### Blocks of a raw Pocket tensor (R113) -/

section
variable {s u : State} {g src reg : Nat} {d : Desc}

theorem State.tensorBlk_programs (raw : d.coded = false) (pocket : d.loc = .pocket) {r c : Nat} {b : Blk} (h : s.tensorBlk g src reg d r c = .ok (u, b)) :
    u.programs = s.programs := by
  obtain ⟨_, _, h⟩ := Res.bind_eq_ok h
  simp only [raw, Bool.false_eq_true, if_false, pocket] at h
  obtain ⟨⟨s1, bytes, p⟩, read, h⟩ := Res.bind_eq_ok h
  obtain ⟨rfl, -⟩ := Prod.mk.inj (Except.ok.inj h)
  exact State.memRead_pocket_programs read

end

theorem State.tileRows_programs {g : Nat} {a : MatArgs} (raw : a.dw.coded = false) (pocket : a.dw.loc = .pocket) {l : List Nat} {s u : State}
    {rows : List (List Nat)} {p : Bool} (h : s.tileRows g a l = .ok (u, rows, p)) : u.programs = s.programs := by
  induction l generalizing s rows p with
  | nil => cases h; rfl
  | cons i l ih =>
    obtain ⟨⟨s1, b⟩, block, h⟩ := Res.bind_eq_ok h
    obtain ⟨⟨s2, rows', p'⟩, rest, h⟩ := Res.bind_eq_ok (held_eq_ok h)
    obtain ⟨rfl, -⟩ := Prod.mk.inj (Except.ok.inj h)
    exact (ih rest).trans (State.tensorBlk_programs raw pocket block)

theorem State.tile_programs {s u : State} {g : Nat} {a : MatArgs} {x : Tile} (raw : a.dw.coded = false) (pocket : a.dw.loc = .pocket)
    (h : s.tile g a = .ok (u, x)) : u.programs = s.programs := by
  unfold State.tile at h
  dsimp only at h
  split at h
  · obtain ⟨rfl, -⟩ := Prod.mk.inj (Except.ok.inj h)
    exact State.withGeode_programs s g _
  · obtain ⟨⟨s1, rows, p⟩, loaded, h⟩ := Res.bind_eq_ok h
    obtain ⟨rfl, -⟩ := Prod.mk.inj (Except.ok.inj h)
    exact (State.withGeode_programs s1 g _).trans (State.tileRows_programs raw pocket loaded)

/-! ### MATMUL of one row (R120 to R122) -/

/-- A raw tensor in the Pocket whose tracker is off (R112). -/
def Desc.plain (d : Desc) : Prop := d.loc = .pocket ∧ d.coded = false ∧ d.trkEn = false

/-- A MATMUL of one row of E4M3 into FP32 without partial sums and epilogue, over plain tensors. -/
structure MatArgs.OneRow (a : MatArgs) : Prop where
  one : a.m = 1
  psrc : a.psrc = 0
  epi : a.epi = 0
  rnd : a.rnd = false
  dw : a.dw.plain
  dx : a.dx.plain
  dy : a.dy.plain
  etw : a.dw.etype = .e4m3
  etx : a.dx.etype = .e4m3
  ety : a.dy.etype = .fp32

/-- Its arguments, as the instruction and its registers name them (R121). -/
def matRowArgs (w : Nat) (dw dx dy : Desc) (sc sr op : Nat) : MatArgs :=
  ⟨fld w 51 5, fld w 46 5, dw, dx, dy, none, fld sc 0 16, fld sc 16 16, fld sr 0 16, fld sr 16 16, 0, 0, fld w 17 4, fld w 13 4, false, 1, op == 0x11⟩

theorem State.matArgs_row {s : State} {g w op : Nat} {dw dx dy : Desc} (args : (matRowArgs w dw dx dy 0 0 0).OneRow) (opcode : fld w 56 8 = op)
    (tw : readDesc (s.treg g (fld w 51 5)) = .ok dw) (tx : readDesc (s.treg g (fld w 46 5)) = .ok dx)
    (ty : readDesc (s.treg g (fld w 41 5)) = .ok dy) (psrc : fld w 24 2 = 0) (epi : fld w 21 3 = 0) (rnd : bitAt w 12 = false) (m : fld w 0 12 = 1) :
    s.matArgs g w = .ok (matRowArgs w dw dx dy (s.sreg g (fld w 31 5)).toNat (s.sreg g (fld w 26 5)).toNat op) := by
  obtain ⟨-, -, -, -, ⟨lw, cw, -⟩, ⟨lx, cx, -⟩, ⟨ly, cy, -⟩, etw, etx, ety⟩ := args
  simp only [matRowArgs] at lw cw lx cx ly cy etw etx ety
  simp [State.matArgs, psrc, epi, rnd, m, State.desc, tw, tx, ty, Res.ok_bind, lw, cw, lx, cx, ly, cy, opcode, matTypesOk, etw, etx, ety, EType.fp8, EType.size]
  rfl

/-- FP32 values stored one after another: four bytes each (R6). -/
theorem elemBytes_fp32 (e : W32 → Nat) (f : Nat → W32) (l : List Nat) : elemBytes .fp32 ((l.map f).map e) = l.flatMap fun k => leBytes 4 (e (f k)) := by
  rw [List.map_map, elemBytes, List.flatMap_map]
  rfl

/-- The bytes of the row of Y: of each column the dot product with the row of X, as FP32 (R138, R140, R141). -/
def rowBytes (b : Blk) (tile : Tile) : List Byte :=
  (List.range 64).flatMap fun k => leBytes 4 (encodeNum .fp32 none (valRaw (matElem .e4m3 .e4m3 b.elems (tile.cols.getD k []) b.ex 0)))

section
variable {s1 s2 : State} {g : Nat} {a : MatArgs} {tile : Tile} {b : Blk} (args : a.OneRow)
include args

/-- Without partial sums and epilogue a lane is the dot product (R121, R141). -/
theorem rowLanes_row (b : Blk) (tile : Tile) (v : List W32) :
    rowLanes a b tile (List.replicate 64 0) v = (List.range 64).map fun k => matElem .e4m3 .e4m3 b.elems (tile.cols.getD k []) b.ex 0 := by
  simp only [rowLanes, args.etw, args.etx, args.epi]
  refine List.map_congr_left fun j hj => ?_
  have zero : (List.replicate 64 (0 : W32)).getD j 0 = 0 := List.getD_replicate _ (List.mem_range.mp hj)
  rw [zero]
  rfl

theorem rowBytes_eq (b : Blk) (tile : Tile) (v : List W32) :
    elemBytes .fp32 ((rowLanes a b tile (List.replicate 64 0) v).map fun x => encodeNum .fp32 none (valRaw x)) = rowBytes b tile := by
  rw [rowLanes_row args]
  exact elemBytes_fp32 (fun x => encodeNum .fp32 none (valRaw x)) (fun k => matElem .e4m3 .e4m3 b.elems (tile.cols.getD k []) b.ex 0) (List.range 64)

/-- The row is converted and written, as long as no faulty Vein has been found (R82, R121). -/
theorem State.deliverY_row {r : YRow} (first : r.m = 0) (clean : r.bad = false) (sound : ((s2.firing g).map fun f => f.veinPoison) = some false)
    (rows : a.y0 < a.dy.rows) (cols : a.nt < a.dy.cols) (inside : a.dy.base + a.y0 * a.dy.stride + a.nt * 256 + 256 ≤ (s2.fsl g).window) :
    s2.deliverY g a none none r = .ok (s2.pocketWrite g ((s2.fsl g).base * 2 ^ 16 + (a.dy.base + a.y0 * a.dy.stride + a.nt * 256))
      (elemBytes .fp32 (r.lanes.map fun x => encodeNum .fp32 none (valRaw x))) false, none) := by
  obtain ⟨-, -, -, rnd, -, -, ⟨loc, -, trk⟩, etw, -, ety⟩ := args
  have block : (a.nt * 64 + 64 - 1) / EType.fp32.perBlock = a.nt := by
    rw [show EType.fp32.perBlock = 64 from rfl]
    omega
  have start : a.dy.elemAt a.y0 (a.nt * 64) = a.dy.base + a.y0 * a.dy.stride + a.nt * 256 := by simp only [Desc.elemAt, ety, EType.size]; omega
  have written : s2.yPocket g a 0 (r.lanes.map fun x => encodeNum .fp32 none (valRaw x)) false = .ok (s2.pocketWrite g
      ((s2.fsl g).base * 2 ^ 16 + (a.dy.base + a.y0 * a.dy.stride + a.nt * 256))
        (elemBytes .fp32 (r.lanes.map fun x => encodeNum .fp32 none (valRaw x))) false) := by
    simp only [State.yPocket, etw, ety, tileSize, EType.size, Desc.bounds, Nat.add_zero, if_true, block, start]
    rw [if_pos ⟨rows, cols⟩, State.pocketAt_inside inside]
    rfl
  simp only [State.deliverY, etw, ety, loc, trk, rnd, sound, clean, first, State.convert_plain, reduceCtorEq, if_false, Option.getD_some, Bool.false_eq_true,
    Bool.or_false, written, ne_eq, not_false_iff, if_true]
  rfl

/-- The one row enters the array and is delivered when no other follows (R121). -/
theorem State.matRows_row (row : s1.tensorBlk g 1 a.tx a.dx a.x0 a.kt = .ok (s2, b)) {ps : List W32} (sums : s2.pRow g a 0 = .ok (s2, ps, false))
    {u : State} {p : Option (List Nat × Bool)}
    (delivered : s2.deliverY g a none none ⟨0, rowLanes a b tile ps (s2.vreg g a.vs).lanes, b.poison || tile.poison, 0⟩ = .ok (u, p)) :
    State.matRows g a tile none 1 s1 0 {} = .ok u := by
  simp [State.matRows, State.deliverRows, State.xBlk, args.dx.1, row, Res.ok_bind, held_ok, sums, args.epi, delivered]
  rfl

/-- The body of a MATMUL of one row (R120 to R122). -/
theorem State.matmul_row {s : State} {w : Nat} (decoded : s.matArgs g w = .ok a) (tiled : s.tile g a = .ok (s1, tile)) (clean : tile.poison = false)
    (row : s1.tensorBlk g 1 a.tx a.dx a.x0 a.kt = .ok (s2, b)) (clean' : b.poison = false) (sound : ((s2.firing g).map fun f => f.veinPoison) = some false)
    (rows : a.y0 < a.dy.rows) (cols : a.nt < a.dy.cols) (inside : a.dy.base + a.y0 * a.dy.stride + a.nt * 256 + 256 ≤ (s2.fsl g).window) :
    s.matmul g w none = .ok (s2.pocketWrite g ((s2.fsl g).base * 2 ^ 16 + (a.dy.base + a.y0 * a.dy.stride + a.nt * 256)) (rowBytes b tile) false, .next) := by
  have sums : s2.pRow g a 0 = .ok (s2, List.replicate 64 0, false) := by simp [State.pRow, args.psrc, args.etw, tileSize, EType.size]
  have delivered := State.deliverY_row args (r := ⟨0, rowLanes a b tile (List.replicate 64 0) (s2.vreg g a.vs).lanes, b.poison || tile.poison, 0⟩) rfl
    (by simp [clean, clean']) sound rows cols inside
  rw [State.matmul, decoded, Res.ok_bind, tiled, Res.ok_bind, args.one]
  dsimp only
  rw [State.matRows_row args row sums delivered, rowBytes_eq args]
  rfl

end

/-- A MATMUL without rows faults (R120). -/
theorem State.matmul_empty {s : State} {g w : Nat} {vein : Option Nat} (psrc : fld w 24 2 ≠ 3) (epi : fld w 21 3 < 6) (m : fld w 0 12 = 0) :
    s.matmul g w vein = stop 0x0C := by
  have fields : ¬ (fld w 24 2 = 3 ∨ 6 ≤ fld w 21 3) := by omega
  rw [State.matmul, State.matArgs, if_neg fields, if_pos m]
  rfl

/-! ### MOVE and MOVE.ZERO of one block (R125, R126) -/

/-- The arguments of a MOVE of one block without conversion, as the instruction and its registers name them (R125). -/
def moveBlockArgs (w : Nat) (src : Option Desc) (dst : Desc) (rr bb : Nat) : MoveArgs :=
  ⟨fld w 51 5, src, dst, fld rr 0 16, fld rr 16 16, fld bb 0 16, fld bb 16 16, 1, 1, 0⟩

section
variable {s : State} {g w : Nat} {dst : Desc}

section
variable (tensor : readDesc (s.treg g (fld w 46 5)) = .ok dst) (plain : dst.plain) (conv : fld w 10 2 = 0) (rows : fld w 20 16 = 1) (blocks : fld w 12 8 = 1)
include tensor plain conv rows blocks

theorem State.moveArgs_zero : s.moveArgs g w true = .ok (moveBlockArgs w none dst (s.sreg g (fld w 41 5)).toNat (s.sreg g (fld w 36 5)).toNat) := by
  obtain ⟨loc, raw, -⟩ := plain
  simp [State.moveArgs, moveBlockArgs, conv, rows, blocks, State.desc, tensor, loc, raw, Res.ok_bind]
  rfl

theorem State.moveArgs_block {src : Desc} (source : readDesc (s.treg g (fld w 51 5)) = .ok src) (plain' : src.plain) (types : src.etype = dst.etype) :
    s.moveArgs g w false = .ok (moveBlockArgs w (some src) dst (s.sreg g (fld w 41 5)).toNat (s.sreg g (fld w 36 5)).toNat) := by
  obtain ⟨loc, raw, -⟩ := plain
  obtain ⟨loc', raw', -⟩ := plain'
  simp [State.moveArgs, moveBlockArgs, conv, rows, blocks, State.desc, tensor, source, loc, raw, loc', raw', types, moveOk, Res.ok_bind, Except.map]
  rfl

end

theorem State.moveWaits_pocket {d : Desc} (loc : d.loc = .pocket) : s.moveWaits g d = false := by
  simp [State.moveWaits, loc]

/-- One block of a plain tensor is written in its place (R113). -/
theorem State.putBlks_one {r c : Nat} {b : Blk} (plain : dst.plain) (row : r < dst.rows) (col : c < dst.cols)
    (inside : dst.rawAt r c + (elemBytes dst.etype b.elems).length ≤ (s.fsl g).window) :
    s.putBlks g dst [((r, c), b)] = .ok (s.pocketWrite g ((s.fsl g).base * 2 ^ 16 + dst.rawAt r c) (elemBytes dst.etype b.elems) b.poison) := by
  rw [State.putBlks, Desc.bounds, if_pos ⟨row, col⟩, plain.1, State.memWrite, State.memCheck]
  rw [if_neg (Nat.not_lt.mpr inside)]
  rfl

theorem State.srcBlks_one {a : MoveArgs} {src : Desc} {u : State} {r c : Nat} {b : Blk} (plain : src.plain) (block : s.tensorBlk g 2 a.ts src r c = .ok (u, b)) :
    s.srcBlks g a src ([], 0) [(r, c)] = .ok (u, [b]) := by
  simp only [State.srcBlks, plain.1, reduceCtorEq, if_false, block]
  rfl

theorem region_one (r c : Nat) : region r c 1 1 = [(r, c)] := rfl

theorem flatMap_replicate_zero (n k : Nat) : ((List.replicate n 0).flatMap fun x => leBytes k x) = List.replicate (n * k) 0 := by
  have zero (k : Nat) : leBytes k 0 = List.replicate k 0 := by
    induction k with
    | zero => rfl
    | succ k ih => rw [leBytes, Nat.zero_div, ih]; rfl
  simp [zero, List.flatMap_replicate]

theorem elemBytes_zeros (t : EType) : elemBytes t (List.replicate t.perBlock 0) = List.replicate t.blockBytes 0 := by
  rw [elemBytes, flatMap_replicate_zero]
  cases t <;> rfl

end

section
variable {s s1 : State} {g t : Nat} {dx dy : Desc} {b : Blk}

theorem State.does_matmul {op : Nat} {i : Instr} {isOp : Nat → Bool} (he : exec i s = .next (s.issue g t isOp fun w u => u.matmul g w none)) (hp : isOp op = true)
    {a : MatArgs} {tile : Tile} {s2 : State} (args : a.OneRow) (decoded : (s.spend g t).matArgs g (s.instrAt g) = .ok a)
    (tiled : (s.spend g t).tile g a = .ok (s1, tile))
    (clean : tile.poison = false) (row : s1.tensorBlk g 1 a.tx a.dx a.x0 a.kt = .ok (s2, b)) (clean' : b.poison = false)
    (sound : ((s2.firing g).map fun f => f.veinPoison) = some false) (rows : a.y0 < a.dy.rows) (cols : a.nt < a.dy.cols)
    (inside : a.dy.base + a.y0 * a.dy.stride + a.nt * 256 + 256 ≤ (s2.fsl g).window) {bytes : List Byte} (result : rowBytes b tile = bytes) :
    s.does g t op i fun _ => s2.pocketWrite g ((s2.fsl g).base * 2 ^ 16 + (a.dy.base + a.y0 * a.dy.stride + a.nt * 256)) bytes false :=
  State.does_of_body he hp (result ▸ State.matmul_row args decoded tiled clean row clean' sound rows cols inside) <|
    (State.pocketWrite_programs _ _ _ _ _).trans <| (State.tensorBlk_programs args.dx.2.1 args.dx.1 row).trans <|
    State.tile_programs args.dw.2.1 args.dw.1 tiled

variable (tensor : readDesc (s.treg g (fld (s.instrAt g) 46 5)) = .ok dy) (plain : dy.plain) (conv : fld (s.instrAt g) 10 2 = 0)
  (rows : fld (s.instrAt g) 20 16 = 1) (blocks : fld (s.instrAt g) 12 8 = 1)
  (row : fld (s.sreg g (fld (s.instrAt g) 41 5)).toNat 16 16 < dy.rows) (col : fld (s.sreg g (fld (s.instrAt g) 36 5)).toNat 16 16 < dy.cols)
include tensor plain conv rows blocks row col

theorem State.does_move (source : readDesc (s.treg g (fld (s.instrAt g) 51 5)) = .ok dx) (plain' : dx.plain) (types : dx.etype = dy.etype)
    (block : (s.spend g t).tensorBlk g 2 (fld (s.instrAt g) 51 5) dx (fld (s.sreg g (fld (s.instrAt g) 41 5)).toNat 0 16)
      (fld (s.sreg g (fld (s.instrAt g) 36 5)).toNat 0 16) = .ok (s1, b))
    (window : (s1.fsl g).window = (s.fsl g).window) (base : (s1.fsl g).base = (s.fsl g).base)
    (inside : dy.rawAt (fld (s.sreg g (fld (s.instrAt g) 41 5)).toNat 16 16) (fld (s.sreg g (fld (s.instrAt g) 36 5)).toNat 16 16) +
      (elemBytes dy.etype b.elems).length ≤ (s.fsl g).window) : s.does g t 0x30 (.moveI g t) fun _ =>
      s1.pocketWrite g ((s.fsl g).base * 2 ^ 16 + dy.rawAt (fld (s.sreg g (fld (s.instrAt g) 41 5)).toNat 16 16)
        (fld (s.sreg g (fld (s.instrAt g) 36 5)).toNat 16 16)) (elemBytes dy.etype b.elems) b.poison := by
  have keeps := State.tensorBlk_programs plain'.2.1 plain'.1 block
  refine State.does_of_body rfl rfl ?_ ((State.pocketWrite_programs s1 g _ _ _).trans keeps)
  rw [← State.spend_treg s g t] at tensor source
  have decoded := State.moveArgs_block tensor plain conv rows blocks source plain' types
  have put := State.putBlks_one plain row col (inside.trans_eq window.symm)
  rw [base] at put
  simp only [State.spend_sreg] at decoded
  rw [State.move, decoded, Res.ok_bind]
  have got := State.srcBlks_one (a := moveBlockArgs (s.instrAt g) (some dx) dy (s.sreg g (fld (s.instrAt g) 41 5)).toNat
    (s.sreg g (fld (s.instrAt g) 36 5)).toNat) plain' block
  simp only [moveBlockArgs] at got
  simp only [moveBlockArgs, State.moveWaits_pocket plain.1, State.moveWaits_pocket plain'.1, Option.map_some, Option.getD_some, Bool.or_self, plain.1, plain.2.1,
    Bool.and_false, Bool.false_eq_true, if_false, MoveArgs.from, MoveArgs.into, region_one, reduceCtorEq]
  rw [got, Res.ok_bind, List.zip_cons_cons, List.zip_nil_left, put]
  rfl

theorem State.does_moveZero (inside : dy.rawAt (fld (s.sreg g (fld (s.instrAt g) 41 5)).toNat 16 16) (fld (s.sreg g (fld (s.instrAt g) 36 5)).toNat 16 16) +
      dy.etype.blockBytes ≤ (s.fsl g).window) : s.does g t 0x31 (.moveZero g t) fun u =>
      u.pocketWrite g ((s.fsl g).base * 2 ^ 16 + dy.rawAt (fld (s.sreg g (fld (s.instrAt g) 41 5)).toNat 16 16)
        (fld (s.sreg g (fld (s.instrAt g) 36 5)).toNat 16 16)) (List.replicate dy.etype.blockBytes 0) false := by
  refine State.does_of_body rfl rfl ?_ (State.pocketWrite_programs _ _ _ _ _)
  have decoded := State.moveArgs_zero (s := s.spend g t) (w := s.instrAt g) (by rwa [State.spend_treg]) plain conv rows blocks
  have put := State.putBlks_one (s := s.spend g t) (g := g) (b := ⟨List.replicate dy.etype.perBlock 0, false, none, false⟩) plain row col
    (by rwa [elemBytes_zeros, List.length_replicate, State.spend_window])
  simp only [State.spend_sreg] at decoded
  rw [State.spend_base, elemBytes_zeros] at put
  rw [State.move, decoded, Res.ok_bind]
  simp only [moveBlockArgs, State.moveWaits_pocket plain.1, Option.map_none, Option.getD_none, Bool.or_false, plain.1, Bool.false_eq_true, if_false,
    MoveArgs.into, region_one, reduceCtorEq, List.map_cons, List.map_nil, put]
  rfl

end

/-- A MOVE of an empty region faults (R125). -/
theorem State.move_empty {s : State} {g w : Nat} {zero : Bool} (conv : fld w 10 2 ≠ 3) (rows : fld w 20 16 = 0) : s.move g w zero = stop 0x0C := by
  rw [State.move, State.moveArgs, if_neg conv, if_pos (Or.inl rows)]
  rfl

/-- Settles O58: with its operands decoded each form reads its blocks and writes one result; an empty operand faults as it is decoded. -/
theorem arrayAndMoves : Obligations.ArrayAndMoves := by
  unfold Obligations.ArrayAndMoves
  intro s s1 s2 g t tile dw dx dy b
  dsimp only
  refine ⟨fun op i form opcode tw tx ty plainW plainX plainY etw etx ety psrc epi rnd m tiled clean row clean' sound rows cols inside => ?matmul,
    fun psrc epi m => ⟨State.faults_of_body rfl rfl (State.matmul_empty psrc epi m), State.faults_of_body rfl rfl (State.matmul_empty psrc epi m)⟩,
    fun source tensor plain' plain types conv rows blocks block row col window base inside =>
      State.does_move tensor plain conv rows blocks row col source plain' types block window base inside,
    fun tensor plain conv rows blocks row col inside => State.does_moveZero tensor plain conv rows blocks row col inside,
    fun conv rows => ⟨State.faults_of_body rfl rfl (State.move_empty conv rows), State.faults_of_body rfl rfl (State.move_empty conv rows)⟩⟩
  case matmul =>
    have args (sc sr op : Nat) : (matRowArgs (s.instrAt g) dw dx dy sc sr op).OneRow := ⟨rfl, rfl, rfl, rfl, plainW, plainX, plainY, etw, etx, ety⟩
    have decoded := State.matArgs_row (s := s.spend g t) (args 0 0 0) opcode (by rwa [State.spend_treg]) (by rwa [State.spend_treg]) (by rwa [State.spend_treg])
      psrc epi rnd m
    simp only [State.spend_sreg] at decoded
    simp only [List.mem_cons, Prod.mk.injEq, List.not_mem_nil, or_false] at form
    rcases form with ⟨rfl, rfl⟩ | ⟨rfl, rfl⟩
    · exact State.does_matmul rfl rfl (args _ _ _) decoded tiled clean row clean' sound rows cols inside rfl
    · exact State.does_matmul rfl rfl (args _ _ _) decoded tiled clean row clean' sound rows cols inside rfl

end Sys2Proof.Machine
end

-- The end of a firing and the commit of a micro-step.
section
/-!
PROOFS of 05_stage_programs.md. What the release and the discard of a slot's work leave alone; the released blocks; YIELD and COMMIT (O53).
-/
namespace Sys2Proof.Machine

/-! ### What the work of a slot leaves alone (R96, R128) -/

/-- A reading of a slot that its observations, its signatures, its trackers and its Gallery writes do not touch. -/
def Slot.Steady {δ : Type} (p : Slot → δ) : Prop := ∀ (x : Slot) a o r w, p { x with acc := a, obs := o, trk := r, writes := w } = p x

theorem State.seats_of_geodes {s u : State} (h : u.geodes = s.geodes) : u.seats = s.seats :=
  Prod.ext (congrArg List.length h) (funext fun k => congrArg Geode.seat (State.geode_congr h k))

/-- The tables hold the same slots. -/
theorem State.inside_congr {s u : State} (h : u.seats = s.seats) {g i : Nat} (inside : g < s.geodes.length ∧ i < (s.geode g).slots.length) :
    g < u.geodes.length ∧ i < (u.geode g).slots.length := by
  have geodes : u.geodes.length = s.geodes.length := congrArg Prod.fst h
  have slots : (u.geode g).slots.length = (s.geode g).slots.length := congrArg (·.2.2) (State.seat_congr h g)
  rwa [geodes, slots]

theorem State.retirePending_congr {s u : State} (h : u.seats = s.seats) (g : Nat) : (u.geode g).retirePending = (s.geode g).retirePending :=
  congrArg (·.2.1) (State.seat_congr h g)

theorem State.withQueue_slot (s : State) (g q : Nat) (f : Queue → Queue) (k j : Nat) : (s.withQueue g q f).slot k j = s.slot k j :=
  State.withGeode_keeps (p := fun d => d.slot j) (f := fun d => d.withQueue q f) (fun _ => rfl) s g k

theorem State.withSlot_queue (s : State) (g i : Nat) (f : Slot → Slot) (k q : Nat) : (s.withSlot g i f).queue k q = s.queue k q :=
  State.withGeode_keeps (p := fun d => d.queue q) (f := fun d => d.withSlot i f) (fun _ => rfl) s g k

/-! ### Release (R96) -/

/-- The release of one output queue of a slot: its blocks are folded and become visible. -/
def State.releaseQueue (g i : Nat) (s : State) (q : Nat) : State :=
  let new := (s.queue g q).entries.filter fun e => e.isHeldBy i && !e.marker
  (new.foldl (fun s e => s.withSlot g i fun sl =>
    sl.fold (if sl.cls = .background then sl.micro else near64 s.drip.count e.origin) e.payload e.trailer) s).withQueue g q fun w =>
    { w.release i with sent := countSent w.sent s.drip.count i new }

theorem State.release_eq (s : State) (g i : Nat) : s.release g i = ((s.slot g i).outs.foldl (State.releaseQueue g i) s).withSlot g i
    (Slot.foldObs fun n => (s.slot g i).cls != .background && (s.ctx (s.slot g i).ctx).voided.contains n) := rfl

section
variable (s : State) (g i : Nat)

/-- A reading that updates of Geode `g` do not touch. -/
theorem State.release_keeps {δ : Type} {p : State → δ} (h : ∀ u f, p (u.withGeode g f) = p u) : p (s.release g i) = p s := by
  rw [State.release_eq]
  refine (h _ _).trans (foldl_keeps (fun u q => (h _ _).trans ?_) _ s)
  exact foldl_keeps (fun _ _ => h _ _) _ u

theorem State.release_seats : (s.release g i).seats = s.seats := by
  rw [State.release_eq]
  refine (State.withSlot_seats _ g i _).trans (foldl_keeps (fun u q => (State.withQueue_seats _ g q _).trans ?_) _ s)
  exact foldl_keeps (fun _ _ => State.withSlot_seats _ g i _) _ u

section
variable {δ : Type} {p : Slot → δ} (steady : Slot.Steady p) (k j : Nat)
include steady

theorem State.release_slot : p ((s.release g i).slot k j) = p (s.slot k j) := by
  rw [State.release_eq]
  refine (State.withSlot_keeps (fun x => steady x x.acc _ _ x.writes) _ g i k j).trans (foldl_keeps (p := fun u => p (u.slot k j)) (fun u q => ?_) _ s)
  refine (congrArg p (State.withQueue_slot _ g q _ k j)).trans (foldl_keeps (p := fun u => p (u.slot k j)) (fun v e => ?_) _ u)
  exact State.withSlot_keeps (fun x => steady x _ x.obs x.trk x.writes) v g i k j

theorem State.dropOutputs_slot : p ((s.dropOutputs g i).slot k j) = p (s.slot k j) :=
  (State.withSlot_keeps (fun x => steady x x.acc [] x.trk x.writes) _ g i k j).trans
    (foldl_keeps (p := fun u => p (u.slot k j)) (fun u q => congrArg p (State.withQueue_slot u g q _ k j)) _ s)

end

theorem State.publishAll_slot {δ : Type} {p : Slot → δ} (h : ∀ x : Slot, p { x with writes := [] } = p x) (k j : Nat) :
    p ((s.publishAll g i).slot k j) = p (s.slot k j) := by
  have read : (s.publishAll g i).slot k j = (s.withSlot g i fun sl => { sl with writes := [] }).slot k j :=
    congrArg (fun d : Geode => d.slot j) (State.geode_congr (State.publishAll_geodes s g i) k)
  rw [read]
  exact State.withSlot_keeps h s g i k j

theorem State.creditBack_slot (q n k j : Nat) : (s.creditBack g q n).slot k j = s.slot k j := by
  unfold State.creditBack
  split
  · exact State.withQueue_slot _ _ _ _ k j
  · rfl

theorem State.dropHeld_slot (k j : Nat) : (s.dropHeld g i).slot k j = s.slot k j :=
  foldl_keeps (p := fun u => u.slot k j) (fun u q => (State.creditBack_slot _ _ _ _ k j).trans (State.withQueue_slot u g q _ k j)) _ s

theorem State.publishAll_seats : (s.publishAll g i).seats = s.seats :=
  (State.seats_of_geodes (State.publishAll_geodes s g i)).trans (State.withSlot_seats s g i _)

end

/-! ### No block of a released queue is held (R96) -/

/-- A queue holds no unreleased entry of slot `i`. -/
def Queue.Visible (i : Nat) (w : Queue) : Prop := ∀ e ∈ w.entries, e.released = true ∨ e.slot ≠ i

theorem Queue.release_visible (w : Queue) (i : Nat) (sent : List (Nat × Nat)) : ({ w.release i with sent := sent } : Queue).Visible i := by
  intro e he
  simp only [Queue.release, List.mem_append, List.mem_filter, List.mem_map] at he
  rcases he with (⟨-, released⟩ | ⟨x, -, rfl⟩) | ⟨-, other⟩
  · exact Or.inl released
  · exact Or.inl rfl
  · right
    simp [Entry.isHeldBy] at other
    exact other.2.resolve_left (Bool.eq_false_iff.mp other.1)

/-- A queue that an update writes has what the update gives every queue, and what an empty queue has. -/
theorem State.queue_withQueue_of {P : Queue → Prop} {f : Queue → Queue} (every : ∀ w, P (f w)) (empty : P {}) (s : State) (g q : Nat) :
    P ((s.withQueue g q f).queue g q) := by
  by_cases hg : g < s.geodes.length
  · by_cases hq : q < (s.geode g).queues.length
    · rw [State.queue_withQueue_self hg hq]
      exact every _
    · rw [State.queue, State.withQueue, State.geode_withGeode_self hg, Geode.queue, List.getD_eq_default]
      · exact empty
      · simpa [Geode.withQueue] using hq
  · rw [State.queue, State.geode, List.getD_eq_default, Geode.queue, List.getD_eq_getElem?_getD, List.getElem?_getD_replicate_default_eq]
    · exact empty
    · simpa using hg

theorem State.releaseQueue_visible (s : State) (g i q : Nat) : ((State.releaseQueue g i s q).queue g q).Visible i :=
  State.queue_withQueue_of (fun w => w.release_visible i _) (fun _ he => nomatch he) _ g q

theorem State.releaseQueue_keeps_visible {s : State} {g i q : Nat} (h : (s.queue g q).Visible i) (r : Nat) : ((State.releaseQueue g i s r).queue g q).Visible i := by
  by_cases same : r = q
  · subst same
    exact State.releaseQueue_visible s g i r
  · rw [State.releaseQueue, State.queue_withQueue_ne (Or.inr same),
      foldl_keeps (p := fun u => u.queue g q) fun u _ => State.withSlot_queue u g i _ g q]
    exact h

theorem State.foldl_releaseQueue_visible {g i : Nat} {l : List Nat} {s : State} {q : Nat} (h : q ∈ l ∨ (s.queue g q).Visible i) :
    ((l.foldl (State.releaseQueue g i) s).queue g q).Visible i := by
  induction l generalizing s with
  | nil => exact h.resolve_left List.not_mem_nil
  | cons r l ih =>
    refine ih ?_
    rcases h with listed | visible
    · rcases List.mem_cons.mp listed with rfl | later
      · exact Or.inr (State.releaseQueue_visible s g i q)
      · exact Or.inl later
    · exact Or.inr (State.releaseQueue_keeps_visible visible r)

theorem State.release_visible {s : State} {g i q : Nat} (h : q ∈ (s.slot g i).outs) : ((s.release g i).queue g q).Visible i := by
  rw [State.release_eq, State.withSlot_queue]
  exact State.foldl_releaseQueue_visible (Or.inl h)

/-! ### The end of a firing without a retirement (R82, R102) -/

/-- It changes neither the slots nor the queues of its Geode. -/
theorem State.endFiring_idles {s : State} {g : Nat} {f : Firing} (fires : s.firing g = some f) (sound : f.veinFaults = 0)
    (stays : (s.geode g).retirePending = false) :
    ∃ e : Geode → Geode, s.endFiring g = s.withGeode g e ∧ ∀ d, (e d).slots = d.slots ∧ (e d).queues = d.queues := by
  have none : ¬ (1 ≤ f.veinFaults ∧ 2 ≤ (s.geode g).veinCount 0) := by omega
  simp only [State.endFiring, fires, none, stays, if_false, Bool.false_eq_true]
  exact ⟨_, rfl, fun _ => ⟨rfl, rfl⟩⟩

section
variable {s u : State} {g : Nat} {e : Geode → Geode} (kept : ∀ d, (e d).slots = d.slots ∧ (e d).queues = d.queues)
include kept

theorem State.idled_slot (k j : Nat) : (s.withGeode g e).slot k j = s.slot k j :=
  State.withGeode_keeps (p := fun d => d.slot j) (fun d => congrArg (·.getD j {}) (kept d).1) s g k

theorem State.idled_queue (k q : Nat) : (s.withGeode g e).queue k q = s.queue k q :=
  State.withGeode_keeps (p := fun d => d.queue q) (fun d => congrArg (·.getD q {}) (kept d).2) s g k

end

/-! ### YIELD (R118) -/

theorem Slot.finishStop_keeps {δ : Type} {p : Slot → δ} (h : ∀ (x : Slot) a b, p { x with state := a, stopping := b } = p x) (x : Slot) :
    p (if x.stopping then { x with state := .loaded, stopping := false } else x) = p x := by
  split
  · exact h x _ _
  · rfl

/-- The state in which the firing of a REALTIME or ELASTIC slot ends at a YIELD to `p` (R96, R103). -/
def State.yielded (s : State) (g i p : Nat) : State := ((s.release g i).withSlot g i fun sl => { sl with pc := p }).finishStop g i

section
variable (s : State) (g i p : Nat)

theorem State.yielded_seats : (s.yielded g i p).seats = s.seats :=
  (State.withSlot_seats _ g i _).trans ((State.withSlot_seats _ g i _).trans (State.release_seats s g i))

theorem State.yielded_queue (q : Nat) : (s.yielded g i p).queue g q = (s.release g i).queue g q :=
  (State.withSlot_queue _ g i _ g q).trans (State.withSlot_queue _ g i _ g q)

theorem State.yielded_prog : ((s.yielded g i p).slot g i).prog = (s.slot g i).prog :=
  (State.withSlot_keeps (Slot.finishStop_keeps fun _ _ _ => rfl) _ g i g i).trans <|
    (State.withSlot_keeps (p := Slot.prog) (f := fun sl => { sl with pc := p }) (fun _ => rfl) _ g i g i).trans <|
    State.release_slot s g i (fun _ _ _ _ _ => rfl) g i

theorem State.yielded_keeps {δ : Type} {p' : State → δ} (h : ∀ u f, p' (u.withGeode g f) = p' u) : p' (s.yielded g i p) = p' s :=
  (h _ _).trans ((h _ _).trans (State.release_keeps s g i h))

variable {s g i}

theorem State.yielded_pc (inside : g < s.geodes.length ∧ i < (s.geode g).slots.length) : ((s.yielded g i p).slot g i).pc = p := by
  have inside' := State.inside_congr (State.release_seats s g i) inside
  exact (State.withSlot_keeps (Slot.finishStop_keeps fun _ _ _ => rfl) _ g i g i).trans
    (congrArg Slot.pc (State.slot_withSlot_self inside'.1 inside'.2))

end

theorem State.yieldAt_released {s : State} {g p : Nat} {f : Firing} (fires : s.firing g = some f) (cls : (s.slot g f.slot).cls ≠ .background)
    (missed : f.missed = []) (crossed : f.crossed = false) : s.yieldAt g p = (s.yielded g f.slot p).endFiring g := by
  simp only [State.yieldAt, fires, cls, missed, crossed, if_false, ne_eq, not_true, Bool.false_and, Bool.false_eq_true]
  rfl

/-- Geode `g` fires with `f`, a slot of its table, and no retirement waits for the end of the firing. -/
structure State.Fires (s : State) (g : Nat) (f : Firing) : Prop where
  fires : s.firing g = some f
  inside : g < s.geodes.length ∧ f.slot < (s.geode g).slots.length
  stays : (s.geode g).retirePending = false

theorem State.Fires.fslot {s : State} {g : Nat} {f : Firing} (h : s.Fires g f) : s.fslot g = f.slot := by
  rw [State.fslot, h.fires]
  rfl

theorem State.Fires.fsl {s : State} {g : Nat} {f : Firing} (h : s.Fires g f) : s.fsl g = s.slot g f.slot := by rw [State.fsl, h.fslot]

theorem State.Fires.congr {s u : State} {g : Nat} {f : Firing} (h : s.Fires g f) (seats : u.seats = s.seats) : u.Fires g f :=
  ⟨(State.firing_congr seats g).trans h.fires, State.inside_congr seats h.inside, (State.retirePending_congr seats g).trans h.stays⟩

theorem State.Fires.spend {s : State} {g : Nat} {f : Firing} (h : s.Fires g f) (t : Nat) :
    (s.spend g t).Fires g { f with cycles := f.cycles + t, stalled := f.stalled + if s.commitFull g then t else 0 } := by
  have seats : (s.withFsl g fun sl => { sl with used := sl.used + t }).seats = s.seats := State.withSlot_seats s g _ _
  obtain ⟨fires, inside, stays⟩ := h.congr seats
  rw [State.spend_eq]
  refine ⟨?_, ?_, ?_⟩
  · rw [State.firing, State.geode_withGeode_self inside.1, Geode.charged]
    exact congrArg (Option.map _) fires
  · rw [State.geode_withGeode_self inside.1]
    exact ⟨inside.1.trans_eq (upd_length _ _ _).symm, inside.2⟩
  · rw [State.geode_withGeode_self inside.1]
    exact stays

/-- The end of the firing leaves the slots and queues, and everything outside the Geode. -/
theorem State.Fires.idles {s : State} {g : Nat} {f : Firing} (h : s.Fires g f) (sound : f.veinFaults = 0) :
    ∃ e : Geode → Geode, s.endFiring g = s.withGeode g e ∧ ∀ d, (e d).slots = d.slots ∧ (e d).queues = d.queues :=
  State.endFiring_idles h.fires sound h.stays

/-- Without Gallery writes nothing is waited for (R118). -/
theorem State.spend_drained {s : State} {g t : Nat} (done : (s.fsl g).writes = []) : (s.spend g t).drained g = true := by
  rw [State.drained, State.spend_fsl (p := Slot.writes) s g t fun _ _ => rfl, done]
  rfl

section
variable {s : State} {g t : Nat} {f : Firing} (h : s.Fires g f)
include h

theorem State.exec_yield (issued : s.issues g t 0x01 = true) (done : (s.fsl g).writes = [])
    {p : Nat} (target : yieldTarget (s.instrAt g) (s.fsl g).pc (s.fsl g).prog.length = p) (below : p < (s.fsl g).prog.length)
    (cls : (s.fsl g).cls ≠ .background) (missed : f.missed = []) (crossed : f.crossed = false) :
    exec (.yieldI g t) s = .next (((s.spend g t).yielded g f.slot p).endFiring g) := by
  have charged := h.spend t
  have cls' : ((s.spend g t).slot g f.slot).cls ≠ .background := by
    rw [State.spend_slot (p := Slot.cls) s g t fun _ _ => rfl, ← h.fsl]
    exact cls
  refine congrArg Host.Outcome.next (State.issue_spec (fl := .done) issued rfl ?_)
  simp only [State.spend_drained done, Bool.not_true, Bool.false_eq_true, if_false, State.spend_prog, State.spend_pc, target, Nat.not_le.mpr below]
  rw [State.yieldAt_released charged.fires cls' missed crossed]
  rfl

end

theorem State.spend_keeps {δ : Type} {p : State → δ} {g : Nat} (h : ∀ u f, p (u.withGeode g f) = p u) (s : State) (t : Nat) : p (s.spend g t) = p s := by
  rw [State.spend_eq]
  exact (h _ _).trans (h _ _)

/-- A YIELD ends the firing, releases the blocks and resumes where it says (R96, R118). -/
theorem State.yield_ends {s : State} {g t : Nat} {f : Firing} (h : s.Fires g f) (issued : s.issues g t 0x01 = true) (done : (s.fsl g).writes = [])
    {p : Nat} (target : yieldTarget (s.instrAt g) (s.fsl g).pc (s.fsl g).prog.length = p) (below : p < (s.fsl g).prog.length)
    (cls : (s.fsl g).cls ≠ .background) (missed : f.missed = []) (crossed : f.crossed = false) (sound : f.veinFaults = 0) :
    ∃ u : State, exec (.yieldI g t) s = .next u ∧ u.firing g = none ∧ (u.slot g f.slot).pc = p ∧ (u.slot g f.slot).prog = (s.fsl g).prog ∧
      (∀ q ∈ (s.fsl g).outs, (u.queue g q).Visible f.slot) ∧ (∀ k, k ≠ g → u.geode k = s.geode k) ∧ u.gal = s.gal := by
  have charged := h.spend t
  obtain ⟨e, ended, kept⟩ := (charged.congr (State.yielded_seats _ g f.slot p)).idles sound
  have keeps {δ : Type} {r : State → δ} (hr : ∀ u f, r (u.withGeode g f) = r u) : r (((s.spend g t).yielded g f.slot p).withGeode g e) = r s :=
    (hr _ _).trans ((State.yielded_keeps _ g f.slot p hr).trans (State.spend_keeps hr s t))
  refine ⟨_, State.exec_yield h issued done target below cls missed crossed, State.endFiring_firing _ g, ?pc, ?prog, fun q named => ?queues,
    fun k other => ?geodes, ?gal⟩
  case pc => rw [ended, State.idled_slot kept, State.yielded_pc p charged.inside]
  case prog => rw [ended, State.idled_slot kept, State.yielded_prog, State.spend_slot (p := Slot.prog) s g t fun _ _ => rfl, h.fsl]
  case queues =>
    rw [ended, State.idled_queue kept, State.yielded_queue]
    refine State.release_visible ?_
    rwa [State.spend_slot (p := Slot.outs) s g t fun _ _ => rfl, ← h.fsl]
  case geodes =>
    rw [ended]
    exact keeps (r := fun u => u.geode k) fun u f => State.geode_withGeode_ne (Ne.symm other)
  case gal =>
    rw [ended]
    exact keeps (r := State.gal) fun _ _ => rfl

/-! ### COMMIT (R35, R38, R118) -/

/-- A slot's Gallery writes, blocks and popped entries when its micro-step commits (R96, R128). -/
def State.settled (s : State) (g i : Nat) : State := ((s.publishAll g i).release g i).dropHeld g i

/-- A slot after the commit of its micro-step by the instruction at `pc` (R35, R149). -/
def Slot.committed (pc : Nat) (sl : Slot) : Slot :=
  { sl with
    micro := sl.micro + 1
    interval := some (2 ^ 63 + sl.micro + 1)
    eCount := 0
    acc := []
    trk := sl.trk.map fun t => t.commit sl.micro
    saved := { s := sl.s, a := sl.a, pc := pc + 1, eCount := 0 } }

/-- The context's list with the signature of a slot's micro-step (R38, R133). -/
def Ctx.signed (sl : Slot) (c : Ctx) : Ctx := { c with bg := addBg c.bg sl.micro (sl.accOf sl.micro) }

theorem State.withSlot_congr {s : State} {g i : Nat} {f f' : Slot → Slot} (h : f (s.slot g i) = f' (s.slot g i)) : s.withSlot g i f = s.withSlot g i f' := by
  refine State.withGeode_congr ?_
  rw [Geode.withSlot, Geode.withSlot, upd_congr (d := {}) h]

section
variable (s : State) (g i : Nat)

theorem State.commitAt_eq (pc : Nat) : s.commitAt g i pc =
    ((s.settled g i).withCtx ((s.settled g i).slot g i).ctx (Ctx.signed ((s.settled g i).slot g i))).withSlot g i (Slot.committed pc) :=
  State.withSlot_congr rfl

theorem State.settled_seats : (s.settled g i).seats = s.seats :=
  (State.dropHeld_seats _ g i).trans ((State.release_seats _ g i).trans (State.publishAll_seats s g i))

theorem State.settled_slot {δ : Type} {p : Slot → δ} (steady : Slot.Steady p) (k j : Nat) : p ((s.settled g i).slot k j) = p (s.slot k j) :=
  (congrArg p (State.dropHeld_slot _ g i k j)).trans ((State.release_slot _ g i steady k j).trans
    (State.publishAll_slot s g i (fun x => steady x x.acc x.obs x.trk []) k j))

theorem State.commitAt_seats (pc : Nat) : (s.commitAt g i pc).seats = s.seats := by
  rw [State.commitAt_eq]
  exact (State.withSlot_seats _ g i _).trans (State.settled_seats s g i)

theorem State.commitAt_programs (pc : Nat) : (s.commitAt g i pc).programs = s.programs := by
  refine funext fun k => Prod.ext ?_ (funext fun j => ?_)
  · exact congrArg (Option.map fun f : Firing => f.slot) (State.firing_congr (State.commitAt_seats s g i pc) k)
  · rw [State.commitAt_eq]
    exact (State.withSlot_keeps (p := Slot.prog) (f := Slot.committed pc) (fun _ => rfl) _ g i k j).trans
      (State.settled_slot s g i (p := Slot.prog) (fun _ _ _ _ _ => rfl) k j)

variable {s g i}

theorem State.commitAt_slot (pc : Nat) (inside : g < s.geodes.length ∧ i < (s.geode g).slots.length) :
    (s.commitAt g i pc).slot g i = ((s.settled g i).slot g i).committed pc := by
  obtain ⟨geodes, slots⟩ := State.inside_congr (State.settled_seats s g i) inside
  rw [State.commitAt_eq]
  exact State.slot_withSlot_self geodes slots

end

/-! ### The commit of a slot without queues (R35, R38) -/

theorem State.creditBack_keeps {δ : Type} {p : State → δ} (h : ∀ u g f, p (u.withGeode g f) = p u) (s : State) (g q n : Nat) :
    p (s.creditBack g q n) = p s := by
  unfold State.creditBack
  split
  · exact h _ _ _
  · rfl

theorem State.dropHeld_keeps {δ : Type} {p : State → δ} (h : ∀ u g f, p (u.withGeode g f) = p u) (s : State) (g i : Nat) : p (s.dropHeld g i) = p s :=
  foldl_keeps (fun u _ => (State.creditBack_keeps h _ _ _ _).trans (h u g _)) _ s

section
variable {s : State} {g i : Nat}

/-- Without Gallery writes the commit changes only Geodes and the context's list. -/
theorem State.settled_keeps {δ : Type} {p : State → δ} (h : ∀ u g f, p (u.withGeode g f) = p u) (done : (s.slot g i).writes = []) :
    p (s.settled g i) = p s := by
  refine (State.dropHeld_keeps h _ g i).trans ((State.release_keeps _ g i fun u f => h u g f).trans ?_)
  rw [State.publishAll, done]
  exact h s g _

/-- Without output queues it keeps what the slot has folded. -/
theorem State.settled_acc (outs : (s.slot g i).outs = []) : ((s.settled g i).slot g i).acc = (s.slot g i).acc := by
  have outs' : ((s.publishAll g i).slot g i).outs = [] := (State.publishAll_slot s g i (p := Slot.outs) (fun _ => rfl) g i).trans outs
  refine (congrArg Slot.acc (State.dropHeld_slot _ g i g i)).trans (Eq.trans ?_ (State.publishAll_slot s g i (p := Slot.acc) (fun _ => rfl) g i))
  rw [State.release_eq, outs']
  exact State.withSlot_keeps (p := Slot.acc) (f := Slot.foldObs _) (fun _ => rfl) _ g i g i

/-- The micro-step's signature is the first of the context's list (R38, R133). -/
theorem State.commitAt_bg {pc : Nat} (outs : (s.slot g i).outs = []) (done : (s.slot g i).writes = []) (held : (s.slot g i).ctx < s.ctxs.length)
    (first : (s.ctx (s.slot g i).ctx).bg = []) :
    ((s.commitAt g i pc).ctx (s.slot g i).ctx).bg = [{ micro := (s.slot g i).micro, sig := (s.slot g i).accOf (s.slot g i).micro }] := by
  have ctxs : (s.settled g i).ctxs = s.ctxs := State.settled_keeps (fun _ _ _ => rfl) done
  have ctx : (s.settled g i).ctx (s.slot g i).ctx = s.ctx (s.slot g i).ctx := congrArg (·.getD (s.slot g i).ctx {}) ctxs
  have number := State.settled_slot s g i (p := Slot.ctx) (fun _ _ _ _ _ => rfl) g i
  have micro := State.settled_slot s g i (p := Slot.micro) (fun _ _ _ _ _ => rfl) g i
  rw [State.commitAt_eq, number]
  refine (congrArg Ctx.bg (State.ctx_withCtx_self (by rwa [ctxs]) :)).trans ?_
  rw [Ctx.signed, ctx, first, micro, Slot.accOf, State.settled_acc outs]
  rfl

end

/-! ### COMMIT as the last instruction (R115) -/

theorem State.geodeFault_slot (s : State) (g b k j : Nat) : (s.geodeFault g b).slot k j = s.slot k j :=
  State.withGeode_keeps (p := fun d => d.slot j) (f := fun d => { d with fault := d.fault ||| b }) (fun _ => rfl) s g k

/-- A BACKGROUND slot that faults halts with its cause and keeps its micro-step (R102, R134). -/
theorem State.faulted_background {s : State} {g i cause pc : Nat} (inside : g < s.geodes.length ∧ i < (s.geode g).slots.length)
    (cls : (s.slot g i).cls = .background) : ((s.faulted g i cause pc).slot g i).micro = (s.slot g i).micro ∧
      ((s.faulted g i cause pc).slot g i).state = .halted ∧ ((s.faulted g i cause pc).slot g i).cause = cause := by
  obtain ⟨geodes, slots⟩ := State.inside_congr ((State.dropHeld_seats (s.dropOutputs g i) g i).trans (State.dropOutputs_seats s g i)) inside
  simp only [State.faulted, cls, if_true, State.geodeFault_slot]
  rw [State.slot_withSlot_self geodes slots]
  refine ⟨?_, rfl, rfl⟩
  exact (congrArg Slot.micro (State.dropHeld_slot _ g i g i)).trans (State.dropOutputs_slot s g i (p := Slot.micro) (fun _ _ _ _ _ => rfl) g i)

section
variable {s : State} {g t : Nat} {f : Firing} (h : s.Fires g f)
include h

theorem State.Fires.spent {δ : Type} {p : Slot → δ} (used : ∀ (x : Slot) n, p { x with used := n } = p x) :
    p ((s.spend g t).slot g f.slot) = p (s.fsl g) := (State.spend_slot s g t used g f.slot).trans (congrArg p h.fsl.symm)

theorem State.Fires.settled {δ : Type} {p : Slot → δ} (steady : Slot.Steady p) (used : ∀ (x : Slot) n, p { x with used := n } = p x) :
    p (((s.spend g t).settled g f.slot).slot g f.slot) = p (s.fsl g) := (State.settled_slot _ g f.slot steady g f.slot).trans (h.spent used)

theorem State.goTo_slot (p : Nat) : (s.goTo g p).slot g f.slot = { s.slot g f.slot with pc := p } := by
  rw [State.goTo, State.withFsl, h.fslot]
  exact State.slot_withSlot_self h.inside.1 h.inside.2

/-- A COMMIT of a BACKGROUND slot whose earlier instructions have ended and whose context has room (R38, R118). -/
theorem State.issue_commit (issued : s.issues g t 0x02 = true) (cls : (s.fsl g).cls = .background) (room : (s.ctx (s.fsl g).ctx).bg.length < 16)
    (done : (s.fsl g).writes = []) : exec (.commit g t) s = .next (((s.spend g t).commitAt g f.slot (s.fsl g).pc).advance g (s.fsl g).pc .next) := by
  have bg : ((s.spend g t).ctx (s.fsl g).ctx).bg = (s.ctx (s.fsl g).ctx).bg := by rw [State.ctx, State.spend_ctxs, ← State.ctx]
  have free : ¬ (16 ≤ ((s.spend g t).ctx (s.fsl g).ctx).bg.length ∨ (s.spend g t).drained g = false) := by
    rintro (full | waits)
    · exact absurd (bg ▸ full) (Nat.not_le.mpr room)
    · exact absurd ((State.spend_drained done).symm.trans waits) Bool.true_eq_false.mp
  refine congrArg Host.Outcome.next (State.issue_spec issued rfl ?_)
  simp only [State.spend_cls, cls, State.spend_ctxNumber, free, State.spend_fslot, h.fslot, State.spend_pc, ne_eq, not_true, if_false]

/-- A COMMIT with another instruction behind it, of a slot without queues and a context without signatures (R35, R38). -/
theorem State.commit_continues (issued : s.issues g t 0x02 = true) (cls : (s.fsl g).cls = .background) (room : (s.ctx (s.fsl g).ctx).bg.length < 16)
    (held : (s.fsl g).ctx < s.ctxs.length) (done : (s.fsl g).writes = []) (more : (s.fsl g).pc + 1 < (s.fsl g).prog.length)
    (outs : (s.fsl g).outs = []) (first : (s.ctx (s.fsl g).ctx).bg = []) :
    ∃ u : State, exec (.commit g t) s = .next u ∧ (u.slot g f.slot).micro = (s.fsl g).micro + 1 ∧ (u.slot g f.slot).pc = (s.fsl g).pc + 1 ∧
      (u.slot g f.slot).saved = { s := (s.fsl g).s, a := (s.fsl g).a, pc := (s.fsl g).pc + 1, eCount := 0 } ∧ (u.slot g f.slot).acc = [] ∧
      (u.slot g f.slot).eCount = 0 ∧ (u.ctx (s.fsl g).ctx).bg = [{ micro := (s.fsl g).micro, sig := (s.fsl g).accOf (s.fsl g).micro }] ∧
      (u.firing g).isSome = true ∧ u.gal = s.gal := by
  have charged := h.spend t
  have committed := charged.congr (State.commitAt_seats (s.spend g t) g f.slot (s.fsl g).pc)
  have slot := (State.goTo_slot committed ((s.fsl g).pc + 1)).trans
    (congrArg (fun x : Slot => { x with pc := (s.fsl g).pc + 1 }) (State.commitAt_slot (s.fsl g).pc charged.inside))
  have inside : ¬ (((s.spend g t).commitAt g f.slot (s.fsl g).pc).fsl g).prog.length ≤ (s.fsl g).pc + 1 := by
    rw [State.fsl_prog_congr (State.commitAt_programs _ g f.slot _), State.spend_prog]
    omega
  have ran := State.issue_commit h issued cls room done
  simp only [State.advance, inside, if_false] at ran
  refine ⟨_, ran, ?micro, ?pc, ?saved, ?acc, ?count, ?bg, ?firing, ?gal⟩
  case micro => exact (congrArg Slot.micro slot).trans (congrArg (· + 1) (h.settled (t := t) (p := Slot.micro) (fun _ _ _ _ _ => rfl) fun _ _ => rfl))
  case pc => exact congrArg Slot.pc slot
  case saved =>
    refine (congrArg Slot.saved slot).trans ?_
    rw [Slot.committed, h.settled (t := t) (p := Slot.s) (fun _ _ _ _ _ => rfl) fun _ _ => rfl,
      h.settled (t := t) (p := Slot.a) (fun _ _ _ _ _ => rfl) fun _ _ => rfl]
  case acc => exact congrArg Slot.acc slot
  case count => exact congrArg Slot.eCount slot
  case bg =>
    have number := h.spent (t := t) (p := Slot.ctx) fun _ _ => rfl
    have signed := State.commitAt_bg (s := s.spend g t) (pc := (s.fsl g).pc) ((h.spent (t := t) (p := Slot.outs) fun _ _ => rfl).trans outs)
      ((h.spent (t := t) (p := Slot.writes) fun _ _ => rfl).trans done) (by rwa [number, State.spend_ctxs]) (by rwa [number, State.ctx, State.spend_ctxs])
    rwa [number, h.spent (t := t) (p := Slot.micro) fun _ _ => rfl, h.spent (t := t) (p := (Slot.accOf · (s.fsl g).micro)) fun _ _ => rfl] at signed
  case firing =>
    have goes := committed.congr (State.withSlot_seats _ g (((s.spend g t).commitAt g f.slot (s.fsl g).pc).fslot g) fun sl => { sl with pc := (s.fsl g).pc + 1 })
    exact Option.isSome_iff_exists.mpr ⟨_, goes.fires⟩
  case gal =>
    refine Eq.trans ?_ ((State.settled_keeps (p := State.gal) (fun _ _ _ => rfl) ((h.spent (t := t) (p := Slot.writes) fun _ _ => rfl).trans done)).trans
      (State.spend_keeps (p := State.gal) (g := g) (fun _ _ => rfl) s t))
    rw [State.commitAt_eq]
    rfl

/-- A COMMIT as the last instruction commits, and then the firing ends with cause 0x04 (R115). -/
theorem State.commit_falls_through (issued : s.issues g t 0x02 = true) (cls : (s.fsl g).cls = .background) (room : (s.ctx (s.fsl g).ctx).bg.length < 16)
    (done : (s.fsl g).writes = []) (last : (s.fsl g).pc + 1 = (s.fsl g).prog.length) (sound : f.veinFaults = 0) :
    ∃ u : State, exec (.commit g t) s = .next u ∧ (u.slot g f.slot).micro = (s.fsl g).micro + 1 ∧ (u.slot g f.slot).state = .halted ∧
      (u.slot g f.slot).cause = 4 := by
  have charged := h.spend t
  have committed := charged.congr (State.commitAt_seats (s.spend g t) g f.slot (s.fsl g).pc)
  have slot := State.commitAt_slot (s.fsl g).pc charged.inside
  have beyond : (((s.spend g t).commitAt g f.slot (s.fsl g).pc).fsl g).prog.length ≤ (s.fsl g).pc + 1 := by
    rw [State.fsl_prog_congr (State.commitAt_programs _ g f.slot _), State.spend_prog, last]
  have ran := State.issue_commit h issued cls room done
  simp only [State.advance, beyond, if_true] at ran
  rw [committed.fslot, State.progFault_ends (by rw [committed.fires]; rfl)] at ran
  obtain ⟨e, ended, idle⟩ := (committed.congr (State.faulted_seats _ g f.slot 0x04 (s.fsl g).pc)).idles sound
  have background := (congrArg Slot.cls slot).trans ((h.settled (t := t) (p := Slot.cls) (fun _ _ _ _ _ => rfl) fun _ _ => rfl).trans cls)
  obtain ⟨micro, state, cause⟩ := State.faulted_background (cause := 0x04) (pc := (s.fsl g).pc) committed.inside background
  refine ⟨_, ran, ?_⟩
  rw [ended, State.idled_slot idle]
  have counted := h.settled (t := t) (p := Slot.micro) (fun _ _ _ _ _ => rfl) fun _ _ => rfl
  exact ⟨micro.trans ((congrArg Slot.micro slot).trans (congrArg (· + 1) counted)), state, cause⟩

end

/-- Settles O53: a YIELD releases and idles its Geode or faults before any effect; a COMMIT of a BACKGROUND slot settles its work, notes its signature
and goes on, or falls off the end of the program. -/
theorem yieldAndCommit : Obligations.YieldAndCommit := by
  unfold Obligations.YieldAndCommit
  intro s g t f fires geodes slots stays
  have h : s.Fires g f := ⟨fires, ⟨geodes, slots⟩, stays⟩
  dsimp only
  refine ⟨fun issued done below cls missed crossed sound => State.yield_ends h issued done rfl below cls missed crossed sound,
    fun done beyond => State.faults_of_body rfl rfl ?beyond, fun cls => State.does_of_body rfl rfl ?plain rfl,
    fun issued cls room held done more outs _ first _ => State.commit_continues h issued cls room held done more outs first,
    fun issued cls room done last _ sound => State.commit_falls_through h issued cls room done last sound⟩
  case beyond =>
    simp only [State.spend_drained done, Bool.not_true, Bool.false_eq_true, if_false, State.spend_prog, State.spend_pc]
    exact if_pos beyond
  case plain =>
    refine if_pos ?_
    rwa [State.spend_cls]

end Sys2Proof.Machine
end

-- Calcite blocks.
section
/-!
PROOFS of 07_calcite.md. The split of an element, the bit stream, the three forms a coder writes, and their expansion (O59).
-/
namespace Sys2Proof.Machine

/-! ### The split of an element (R160) -/

section
variable {bf : Bool} {x : Nat}

theorem calJoin_calCode_calRaw (h : x < if bf then 65536 else 256) : calJoin bf (calCode bf x) (calRaw bf x) = x := by
  cases bf <;> simp only [calJoin, calCode, calRaw, fld, Bool.false_eq_true, if_true, if_false] at h ⊢ <;> omega

theorem calRaw_lt : calRaw bf x < 2 ^ calW bf := by
  cases bf <;> simp only [calRaw, calW, fld, Bool.false_eq_true, if_true, if_false] <;> omega

theorem calCode_le : calCode bf x ≤ if bf then 255 else 15 := by
  cases bf <;> simp only [calCode, fld, Bool.false_eq_true, if_true, if_false] <;> omega

end

/-! ### The range of the exponent codes (R166) -/

theorem le_foldl_min_iff {l : List Nat} {a c : Nat} : c ≤ l.foldl min a ↔ c ≤ a ∧ ∀ x ∈ l, c ≤ x := by
  induction l generalizing a with
  | nil => simp
  | cons y t ih => simp [ih, and_assoc]

theorem foldl_max_le_iff {l : List Nat} {a c : Nat} : l.foldl max a ≤ c ↔ a ≤ c ∧ ∀ x ∈ l, x ≤ c := by
  induction l generalizing a with
  | nil => simp
  | cons y t ih => simp [ih, and_assoc]

section
variable {bf : Bool} {x : Nat} {xs : List Nat}

theorem codeRange_lo_le (h : x ∈ xs) : (codeRange bf xs).1 ≤ calCode bf x :=
  (le_foldl_min_iff.mp le_rfl).2 _ (List.mem_map_of_mem h)

theorem le_codeRange_hi (h : x ∈ xs) : calCode bf x ≤ (codeRange bf xs).2 :=
  (foldl_max_le_iff.mp le_rfl).2 _ (List.mem_map_of_mem h)

theorem codeRange_hi_le : (codeRange bf xs).2 ≤ if bf then 255 else 15 := by
  refine foldl_max_le_iff.mpr ⟨Nat.zero_le _, fun c hc => ?_⟩
  obtain ⟨x, -, rfl⟩ := List.mem_map.mp hc
  exact calCode_le

theorem codeRange_lo_limit (h : xs ≠ []) : (codeRange bf xs).1 ≤ if bf then 255 else 15 := by
  obtain ⟨x, hx⟩ := List.exists_mem_of_ne_nil xs h
  exact (codeRange_lo_le hx).trans calCode_le

theorem calDelta_some {span d : Nat} (h : calDelta span = some d) : d ≤ 4 ∧ span < 2 ^ d := by
  have covers := List.find?_some h
  have listed := List.mem_range.mp (List.mem_of_find?_eq_some h)
  have pos := Nat.two_pow_pos d
  rw [decide_eq_true_eq] at covers
  omega

end

/-! ### The bit stream (R164) -/

/-- The bits that some fields take. -/
def fieldsWidth (l : List (Nat × Nat)) : Nat := (l.map Prod.snd).sum

theorem packFields_lt (l : List (Nat × Nat)) : packFields l < 2 ^ fieldsWidth l := by
  induction l with
  | nil => decide
  | cons p t ih =>
    have low : p.1 % 2 ^ p.2 < 2 ^ p.2 := Nat.mod_lt _ (Nat.two_pow_pos _)
    have total : fieldsWidth (p :: t) = p.2 + fieldsWidth t := List.sum_cons
    rw [packFields, total, pow_add]
    calc p.1 % 2 ^ p.2 + 2 ^ p.2 * packFields t < 2 ^ p.2 * (packFields t + 1) := by rw [mul_add, mul_one, add_comm]; omega
      _ ≤ 2 ^ p.2 * 2 ^ fieldsWidth t := Nat.mul_le_mul_left _ ih

theorem packFields_append (a b : List (Nat × Nat)) : packFields (a ++ b) = packFields a + 2 ^ fieldsWidth a * packFields b := by
  induction a with
  | nil => simp [packFields, fieldsWidth]
  | cons p t ih =>
    have total : fieldsWidth (p :: t) = p.2 + fieldsWidth t := List.sum_cons
    rw [List.cons_append, packFields, packFields, ih, total, pow_add]
    ring

/-- The first section of a stream, and what follows it. -/
theorem packFields_append_mod (a b : List (Nat × Nat)) : packFields (a ++ b) % 2 ^ fieldsWidth a = packFields a := by
  rw [packFields_append, Nat.add_mul_mod_self_left, Nat.mod_eq_of_lt (packFields_lt a)]

theorem packFields_append_div (a b : List (Nat × Nat)) : packFields (a ++ b) / 2 ^ fieldsWidth a = packFields b := by
  rw [packFields_append, Nat.add_mul_div_left _ _ (Nat.two_pow_pos _), Nat.div_eq_of_lt (packFields_lt a), Nat.zero_add]

theorem fieldsWidth_append (a b : List (Nat × Nat)) : fieldsWidth (a ++ b) = fieldsWidth a + fieldsWidth b := by
  simp [fieldsWidth]

theorem fieldsWidth_map (w : Nat) (f : Nat → Nat) (l : List Nat) : fieldsWidth (l.map fun x => (f x, w)) = l.length * w := by
  simp [fieldsWidth, Function.comp_def]

theorem fld_skip (n a i w : Nat) : fld n (a + i) w = fld (n / 2 ^ a) i w := by
  rw [fld, fld, pow_add, Nat.div_div_eq_div_mul]

/-- A section of equal fields reads back, whatever follows it. -/
theorem fields_of_packFields {w : Nat} {f : Nat → Nat} {l : List Nat} (t : List (Nat × Nat)) (h : ∀ x ∈ l, f x < 2 ^ w) :
    ((List.range l.length).map fun i => fld (packFields ((l.map fun x => (f x, w)) ++ t)) (i * w) w) = l.map f := by
  induction l with
  | nil => rfl
  | cons x l ih =>
    obtain ⟨first, others⟩ := List.forall_mem_cons.mp h
    have stream : packFields (((x :: l).map fun x => (f x, w)) ++ t) = f x + 2 ^ w * packFields ((l.map fun x => (f x, w)) ++ t) :=
      congrArg (· + _) (Nat.mod_eq_of_lt first)
    have here : fld (f x + 2 ^ w * packFields ((l.map fun x => (f x, w)) ++ t)) (0 * w) w = f x := by
      rw [fld, zero_mul, pow_zero, Nat.div_one, Nat.add_mul_mod_self_left, Nat.mod_eq_of_lt first]
    have next (i : Nat) : fld (f x + 2 ^ w * packFields ((l.map fun x => (f x, w)) ++ t)) ((i + 1) * w) w =
        fld (packFields ((l.map fun x => (f x, w)) ++ t)) (i * w) w := by
      rw [Nat.succ_mul, Nat.add_comm (i * w), fld_skip, Nat.add_mul_div_left _ _ (Nat.two_pow_pos w), Nat.div_eq_of_lt first, Nat.zero_add]
    rw [stream, List.length_cons, List.range_succ_eq_map, List.map_cons, here, List.map_map, List.map_cons, ← ih others]
    simp only [Function.comp_def, next]

theorem bitAt_eq_fld (n i : Nat) : bitAt n i = (fld n (i * 1) 1 == 1) := by
  rw [bitAt, fld, mul_one, pow_one]

/-- A mask reads back from its bits. -/
theorem bits_of_packFields (p : Nat → Bool) (xs : List Nat) :
    (List.range xs.length).map (bitAt (packFields (xs.map fun x => (bit (p x), 1)))) = xs.map p := by
  have single (x : Nat) : bit (p x) < 2 ^ 1 := by cases p x <;> decide
  have read := congrArg (List.map (· == 1)) (fields_of_packFields (f := fun x => bit (p x)) (l := xs) [] fun x _ => single x)
  rw [List.append_nil, List.map_map, List.map_map] at read
  have flag (x : Nat) : (bit (p x) == 1) = p x := by cases p x <;> rfl
  simpa only [Function.comp_def, ← bitAt_eq_fld, flag] using read

/-! ### Byte strings (R6) -/

theorem take_leBytes {m k : Nat} (n : Nat) (h : m ≤ k) : (leBytes k n).take m = leBytes m n := by
  induction m generalizing k n with
  | zero => rfl
  | succ m ih =>
    obtain ⟨k, rfl⟩ := Nat.exists_eq_succ_of_ne_zero (Nat.ne_of_gt (Nat.lt_of_lt_of_le (Nat.succ_pos m) h))
    rw [leBytes, leBytes, List.take_succ_cons, ih _ (Nat.le_of_succ_le_succ h)]

theorem calBytes_length (bf : Bool) (xs : List Nat) : (calBytes bf xs).length = xs.length * if bf then 2 else 1 := by
  simp [calBytes, List.length_flatMap]

theorem elemsOf_flatMap_leBytes {sz : Nat} {xs : List Nat} (h : ∀ x ∈ xs, x < 256 ^ sz) :
    elemsOf sz xs.length (xs.flatMap fun x => leBytes sz x) = xs := by
  induction xs with
  | nil => rfl
  | cons x xs ih =>
    obtain ⟨first, others⟩ := List.forall_mem_cons.mp h
    rw [List.length_cons, elemsOf, List.flatMap_cons, List.take_left' (leBytes_length sz x), List.drop_left' (leBytes_length sz x), ih others,
      leNat_leBytes, Nat.mod_eq_of_lt first]

/-! ### What the coder writes (R163, R166) -/

/-- The coded elements of a block: every element without a mask, the ones that are not +0 with one (R161). -/
def calKept (zf : Bool) (xs : List Nat) : List Nat := if zf then xs.filter (· != 0) else xs

/-- The bits of the mask that precedes the body of a masked block. -/
def calMaskFields (zf : Bool) (xs : List Nat) : List (Nat × Nat) := if zf then xs.map fun x => (bit (x != 0), 1) else []

/-- The stream of a coded form with delta width `d`: mask, raw fields and deltas (R164). -/
def calStream (bf zf : Bool) (d : Nat) (xs : List Nat) : List (Nat × Nat) :=
  calMaskFields zf xs ++ (calKept zf xs).map (fun x => (calRaw bf x, calW bf)) ++
    (calKept zf xs).map fun x => (calCode bf x - (codeRange bf (calKept zf xs)).1, d)

/-- The coded form of a block with delta width `d`. -/
def calCoded (bf zf : Bool) (d : Nat) (xs : List Nat) : List Byte :=
  leBytes 2 ((codeRange bf (calKept zf xs)).1 + d * 2 ^ 8 + bit zf * 2 ^ 11) ++
    leBytes (calSize bf zf (calKept zf xs).length d - 2) (packFields (calStream bf zf d xs))

/-- The escape form of a block. -/
def calEscape (bf : Bool) (xs : List Nat) : List Byte := leBytes 2 ((codeRange bf xs).2 + 2 ^ 12) ++ calBytes bf xs

/-- The span of the exponent codes that a form has to cover. -/
def calCodeSpan (bf zf : Bool) (xs : List Nat) : Nat := (codeRange bf (calKept zf xs)).2 - (codeRange bf (calKept zf xs)).1

/-- What the coder writes once it has picked whether to mask. -/
def calForm (bf zf : Bool) (xs : List Nat) : List Byte :=
  match calDelta (calCodeSpan bf zf xs) with
  | some d => if 64 < calSize bf zf (calKept zf xs).length d then calEscape bf xs else calCoded bf zf d xs
  | none => calEscape bf xs

section
variable {bf zf : Bool} {d : Nat} {xs : List Nat}

theorem calKept_ne_nil (h : ¬ ∀ x ∈ xs, x = 0) : calKept zf xs ≠ [] := by
  push Not at h
  obtain ⟨x, mem, nonzero⟩ := h
  refine List.ne_nil_of_mem (a := x) ?_
  cases zf
  · exact mem
  · exact List.mem_filter.mpr ⟨mem, bne_iff_ne.mpr nonzero⟩

theorem calEncode_zero (h : ∀ x ∈ xs, x = 0) : calEncode bf xs = [0x00, 0x05] := by
  have none : xs.filter (· != 0) = [] := List.filter_eq_nil_iff.mpr fun x hx => by simp [h x hx]
  simp only [calEncode, none, List.isEmpty_nil, if_true]

/-- A block that is not zero throughout takes one of the two coded forms, or is escaped for want of a delta width or for its length. -/
theorem calEncode_nonzero (h : ¬ ∀ x ∈ xs, x = 0) : ∃ zf, calEncode bf xs = calForm bf zf xs := by
  have coded : ¬ (xs.filter (· != 0)).isEmpty = true := fun empty => calKept_ne_nil (zf := true) h (List.isEmpty_iff.mp empty)
  rw [calEncode, if_neg coded]
  extract_lets r0 r1 size s0 s1 zf picked s lo d header mask
  refine ⟨zf, ?_⟩
  clear_value zf
  have length : picked = (calDelta (calCodeSpan bf zf xs)).map (calSize bf zf s.length) := by cases zf <;> rfl
  have width : d = (calDelta (calCodeSpan bf zf xs)).getD 0 := by cases zf <;> rfl
  have low : lo = (codeRange bf (calKept zf xs)).1 := by cases zf <;> rfl
  clear_value picked lo d
  subst length width low header
  rw [calForm]
  cases calDelta (calCodeSpan bf zf xs) <;> rfl

end

/-! ### Headers and lengths (R162, R163) -/

theorem calHeader_leBytes {h : Nat} (t : List Byte) (below : h < 256 ^ 2) :
    calHeader (leBytes 2 h ++ t) = ⟨fld h 0 8, fld h 8 3, bitAt h 11, bitAt h 12, fld h 13 3⟩ := by
  rw [calHeader, List.take_left' (leBytes_length 2 h), leNat_leBytes, Nat.mod_eq_of_lt below]

section
variable {bf zf : Bool} {d : Nat} {xs : List Nat}

theorem codeLimit_lt : (if bf then 255 else 15) < 256 := by cases bf <;> decide

theorem calHeader_calEscape : calHeader (calEscape bf xs) = ⟨(codeRange bf xs).2, 0, false, true, 0⟩ := by
  have below : (codeRange bf xs).2 < 256 := codeRange_hi_le.trans_lt codeLimit_lt
  rw [calEscape, calHeader_leBytes _ (by omega)]
  simp only [fld, bitAt, CalHeader.mk.injEq, beq_iff_eq, beq_eq_false_iff_ne]
  omega

theorem calHeader_calCoded (some_kept : calKept zf xs ≠ []) (narrow : d ≤ 4) :
    calHeader (calCoded bf zf d xs) = ⟨(codeRange bf (calKept zf xs)).1, d, zf, false, 0⟩ := by
  have below : (codeRange bf (calKept zf xs)).1 < 256 := (codeRange_lo_limit some_kept).trans_lt codeLimit_lt
  have flag : bit zf ≤ 1 := by cases zf <;> decide
  rw [calCoded, calHeader_leBytes _ (by omega)]
  generalize (codeRange bf (calKept zf xs)).1 = lo at below
  cases zf <;>
    simp only [fld, bitAt, bit, CalHeader.mk.injEq, beq_iff_eq, beq_eq_false_iff_ne, if_true, Bool.false_eq_true, if_false] <;>
    omega

theorem legal_escape {hi : Nat} (limit : hi ≤ if bf then 255 else 15) : CalHeader.legal bf ⟨hi, 0, false, true, 0⟩ = true := by
  cases bf
  · simpa [CalHeader.legal] using Nat.lt_succ_of_le limit
  · rfl

theorem legal_coded {lo : Nat} (limit : lo ≤ if bf then 255 else 15) (narrow : d ≤ 4) : CalHeader.legal bf ⟨lo, d, zf, false, 0⟩ = true := by
  cases bf <;> simp [CalHeader.legal] at limit ⊢ <;> omega

theorem calEscape_length (full : xs.length = calN bf) : (calEscape bf xs).length = 66 := by
  rw [calEscape, List.length_append, leBytes_length, calBytes_length, full]
  cases bf <;> rfl

theorem two_le_calSize (n : Nat) : 2 ≤ calSize bf zf n d := Nat.le_add_right _ _

theorem calCoded_length : (calCoded bf zf d xs).length = calSize bf zf (calKept zf xs).length d := by
  rw [calCoded, List.length_append, leBytes_length, leBytes_length, Nat.add_sub_cancel' (two_le_calSize _)]

/-! ### Expansion of an escape block (R181) -/

theorem elemsOf_calBytes (h : ∀ x ∈ xs, x < if bf then 65536 else 256) : elemsOf (if bf then 2 else 1) xs.length (calBytes bf xs) = xs := by
  refine elemsOf_flatMap_leBytes fun x hx => (h x hx).trans_eq ?_
  cases bf <;> rfl

theorem calDecode_calEscape (full : xs.length = calN bf) (bounded : ∀ x ∈ xs, x < if bf then 65536 else 256) :
    calDecode bf 66 (calEscape bf xs) = .ok xs := by
  have need : calNeed bf (calEscape bf xs) 66 = 66 := by rw [calNeed, calHeader_calEscape]; rfl
  have elements : elemsOf (if bf then 2 else 1) (calN bf) ((calEscape bf xs).drop 2) = xs := by
    rw [calEscape, List.drop_left' (leBytes_length 2 _), ← full, elemsOf_calBytes bounded]
  have within : xs.any (fun x => decide ((codeRange bf xs).2 < calCode bf x)) = false :=
    List.any_eq_false.mpr fun x hx => by simpa using le_codeRange_hi hx
  simp [calDecode, calHeader_calEscape, legal_escape codeRange_hi_le, need, elements, within]

/-! ### Expansion of a coded form (R164, R181) -/

/-- Whether an element is coded (R161). -/
def calKeeps (zf : Bool) (x : Nat) : Bool := !zf || x != 0

theorem calKept_eq_filter (zf : Bool) (xs : List Nat) : calKept zf xs = xs.filter (calKeeps zf) := by
  cases zf
  · exact (List.filter_true xs).symm
  · rfl

theorem spread_filter {p : Nat → Bool} (h : ∀ x ∈ xs, p x = false → x = 0) : spread (xs.map p) (xs.filter p) = xs := by
  induction xs with
  | nil => rfl
  | cons x xs ih =>
    obtain ⟨first, others⟩ := List.forall_mem_cons.mp h
    cases kept : p x
    · rw [List.map_cons, kept, List.filter_cons_of_neg (Bool.not_eq_true _ ▸ kept), spread, ih others, first kept]
    · rw [List.map_cons, kept, List.filter_cons_of_pos kept, spread, ih others]

theorem spread_calKept : spread (xs.map (calKeeps zf)) (calKept zf xs) = xs := by
  rw [calKept_eq_filter]
  refine spread_filter fun x _ dropped => ?_
  simp only [calKeeps, Bool.or_eq_false_iff, bne_eq_false_iff_eq] at dropped
  exact dropped.2

theorem count_calKeeps : ((xs.map (calKeeps zf)).filter id).length = (calKept zf xs).length := by
  rw [calKept_eq_filter, List.filter_map, List.length_map]
  rfl

theorem calMaskFields_width : fieldsWidth (calMaskFields zf xs) = if zf then xs.length else 0 := by
  cases zf
  · rfl
  · exact (fieldsWidth_map 1 _ xs).trans (mul_one _)

/-- The stream of a coded form fits its bytes. -/
theorem calStream_lt (full : xs.length = calN bf) :
    packFields (calStream bf zf d xs) < 256 ^ (calSize bf zf (calKept zf xs).length d - 2) := by
  have bits : fieldsWidth (calStream bf zf d xs) ≤ 8 * (calSize bf zf (calKept zf xs).length d - 2) := by
    rw [calStream, fieldsWidth_append, fieldsWidth_append, calMaskFields_width, fieldsWidth_map, fieldsWidth_map, full, calSize, mul_add]
    omega
  calc packFields (calStream bf zf d xs) < 2 ^ fieldsWidth (calStream bf zf d xs) := packFields_lt _
    _ ≤ 2 ^ (8 * (calSize bf zf (calKept zf xs).length d - 2)) := Nat.pow_le_pow_right (by decide) bits
    _ = _ := Nat.pow_mul 2 8 _

theorem leNat_calCoded_body (full : xs.length = calN bf) :
    leNat (((calCoded bf zf d xs).take (calSize bf zf (calKept zf xs).length d)).drop 2) = packFields (calStream bf zf d xs) := by
  rw [List.take_of_length_le calCoded_length.le, calCoded, List.drop_left' (leBytes_length 2 _), leNat_leBytes, Nat.mod_eq_of_lt (calStream_lt full)]

theorem calMask_calCoded (full : xs.length = calN bf) (lo e : Nat) :
    calMask bf ⟨lo, e, zf, false, 0⟩ (calCoded bf zf d xs) = xs.map (calKeeps zf) := by
  cases zf
  · rw [calMask, if_neg Bool.false_ne_true, ← full]
    exact List.map_const'.symm
  · have room : calN bf / 8 ≤ calSize bf true (calKept true xs).length d - 2 := by rw [calSize, if_pos rfl]; omega
    have whole : 256 ^ (calN bf / 8) = 2 ^ fieldsWidth (calMaskFields true xs) := by
      rw [calMaskFields_width, if_pos rfl, full]
      cases bf <;> rfl
    rw [calMask, if_pos rfl, calCoded, List.drop_left' (leBytes_length 2 _), take_leBytes _ room, leNat_leBytes, whole, calStream, List.append_assoc,
      packFields_append_mod, ← full]
    exact bits_of_packFields (calKeeps true) xs

theorem calNeed_calCoded (full : xs.length = calN bf) (some_kept : calKept zf xs ≠ []) (narrow : d ≤ 4) :
    calNeed bf (calCoded bf zf d xs) (calSize bf zf (calKept zf xs).length d) = calSize bf zf (calKept zf xs).length d := by
  have room : ¬ (zf && decide (calSize bf zf (calKept zf xs).length d < 2 + calN bf / 8)) = true := by
    cases zf
    · exact Bool.false_ne_true
    · rw [Bool.true_and, decide_eq_true_eq, calSize, if_pos rfl]
      omega
  rw [calNeed, calHeader_calCoded some_kept narrow]
  dsimp only
  rw [if_neg Bool.false_ne_true, if_neg (by omega), if_neg room, calMask_calCoded full, count_calKeeps]

/-- The body of a coded form: raw fields, then deltas. -/
theorem calStream_body (full : xs.length = calN bf) : packFields (calStream bf zf d xs) / 2 ^ (if zf then calN bf else 0) =
    packFields ((calKept zf xs).map (fun x => (calRaw bf x, calW bf)) ++
      (calKept zf xs).map fun x => (calCode bf x - (codeRange bf (calKept zf xs)).1, d)) := by
  rw [calStream, List.append_assoc, ← full, ← calMaskFields_width, packFields_append_div]

theorem raws_of_packFields (s : List Nat) (t : List (Nat × Nat)) :
    ((List.range s.length).map fun i => fld (packFields (s.map (fun x => (calRaw bf x, calW bf)) ++ t)) (i * calW bf) (calW bf)) = s.map (calRaw bf) :=
  fields_of_packFields t fun _ _ => calRaw_lt

/-- A delta width that covers the span of the codes gives back each code, behind the raw fields (R164, R166). -/
theorem codes_of_packFields {s : List Nat} (covers : (codeRange bf s).2 - (codeRange bf s).1 < 2 ^ d) :
    ((List.range s.length).map fun i => (codeRange bf s).1 +
      fld (packFields (s.map (fun x => (calRaw bf x, calW bf)) ++ s.map fun x => (calCode bf x - (codeRange bf s).1, d)))
        (s.length * calW bf + i * d) d) = s.map (calCode bf) := by
  have small : ∀ x ∈ s, calCode bf x - (codeRange bf s).1 < 2 ^ d := fun x hx =>
    (Nat.sub_le_sub_right (le_codeRange_hi hx) _).trans_lt covers
  have deltas := congrArg (List.map ((codeRange bf s).1 + ·)) (fields_of_packFields [] small)
  rw [List.append_nil, List.map_map, List.map_map] at deltas
  simp only [← fieldsWidth_map (calW bf) (calRaw bf), fld_skip, packFields_append_div]
  refine deltas.trans (List.map_congr_left fun x hx => ?_)
  exact Nat.add_sub_cancel' (codeRange_lo_le hx)

theorem zipWith_calJoin {s : List Nat} (bounded : ∀ x ∈ s, x < if bf then 65536 else 256) :
    List.zipWith (calJoin bf) (s.map (calCode bf)) (s.map (calRaw bf)) = s := by
  rw [List.zipWith_map, List.zipWith_self]
  exact (List.map_congr_left fun x hx => calJoin_calCode_calRaw (bounded x hx)).trans (List.map_id s)

theorem mem_of_mem_calKept {x : Nat} (h : x ∈ calKept zf xs) : x ∈ xs := by
  rw [calKept_eq_filter] at h
  exact List.mem_of_mem_filter h

theorem calDecode_calCoded (full : xs.length = calN bf) (bounded : ∀ x ∈ xs, x < if bf then 65536 else 256) (some_kept : calKept zf xs ≠ [])
    (narrow : d ≤ 4) (covers : calCodeSpan bf zf xs < 2 ^ d) (short : calSize bf zf (calKept zf xs).length d ≤ 64) :
    calDecode bf (calSize bf zf (calKept zf xs).length d) (calCoded bf zf d xs) = .ok xs := by
  have two := two_le_calSize (bf := bf) (zf := zf) (d := d) (calKept zf xs).length
  have inRange : ((calKept zf xs).map (calCode bf)).any (fun c => decide ((if bf then 255 else 15) < c)) = false := by
    simp [calCode_le]
  have elements := zipWith_calJoin fun x hx => bounded x (mem_of_mem_calKept (zf := zf) hx)
  simp only [calDecode, calHeader_calCoded some_kept narrow, legal_coded (codeRange_lo_limit some_kept) narrow,
    calNeed_calCoded full some_kept narrow, calMask_calCoded full, count_calKeeps, leNat_calCoded_body full, calStream_body full,
    raws_of_packFields, codes_of_packFields covers, inRange, elements, spread_calKept]
  have count : (calKept zf xs).length ≠ 0 := mt List.length_eq_zero_iff.mp some_kept
  simp [count, Nat.not_lt.mpr two, Nat.not_lt.mpr short, Nat.not_lt.mpr (short.trans (by decide : 64 ≤ 66)), (Nat.lt_succ_of_le narrow).ne]

end

/-! ### The round trip (R165, R166, R168) -/

section
variable {bf : Bool} {xs : List Nat}

theorem calDecode_zero (full : xs.length = calN bf) (h : ∀ x ∈ xs, x = 0) : calDecode bf 2 [0x00, 0x05] = .ok xs := by
  have zeros : xs = List.replicate (calN bf) 0 := List.eq_replicate_iff.mpr ⟨full, h⟩
  rw [zeros]
  cases bf <;> rfl

/-- What a block has to fulfil for the round trip: it expands to the patterns, and its length is within the bounds of R168. -/
def calRestores (bf : Bool) (xs : List Nat) (b : List Byte) : Prop := calDecode bf b.length b = .ok xs ∧ 2 ≤ b.length ∧ b.length ≤ 66

theorem calEscape_restores (full : xs.length = calN bf) (bounded : ∀ x ∈ xs, x < if bf then 65536 else 256) :
    calRestores bf xs (calEscape bf xs) := by
  rw [calRestores, calEscape_length full]
  exact ⟨calDecode_calEscape full bounded, by decide, le_rfl⟩

theorem calForm_restores (zf : Bool) (full : xs.length = calN bf) (bounded : ∀ x ∈ xs, x < if bf then 65536 else 256) (nonzero : ¬ ∀ x ∈ xs, x = 0) :
    calRestores bf xs (calForm bf zf xs) := by
  rw [calForm]
  cases chosen : calDelta (calCodeSpan bf zf xs) with
  | none => exact calEscape_restores full bounded
  | some d =>
    dsimp only
    split
    · exact calEscape_restores full bounded
    case isFalse fits =>
      obtain ⟨narrow, covers⟩ := calDelta_some chosen
      rw [calRestores, calCoded_length]
      exact ⟨calDecode_calCoded full bounded (calKept_ne_nil nonzero) narrow covers (Nat.le_of_not_lt fits), two_le_calSize _, by omega⟩

end

/-- Settles O59: a zero block is its header alone; every other block takes one of the two coded forms or the escape form, and each of them expands to
the patterns it was written from. -/
theorem calciteRoundTrip : Obligations.CalciteRoundTrip := by
  unfold Obligations.CalciteRoundTrip
  intro bf xs full bounded
  by_cases zero : ∀ x ∈ xs, x = 0
  · rw [calEncode_zero zero]
    exact ⟨calDecode_zero full zero, by decide, by decide, fun _ => rfl⟩
  · obtain ⟨zf, written⟩ := calEncode_nonzero (bf := bf) zero
    obtain ⟨restored, least, most⟩ := calForm_restores zf full bounded zero
    rw [written]
    exact ⟨restored, least, most, fun h => absurd h zero⟩

end Sys2Proof.Machine
end

-- The Gallery: slabs that are freed and protected.
section
/-!
PROOFS of 08_gallery.md. SLAB_FREE and SLAB_PROTECT of one slab, their ends when the channels are done (O13).
-/

namespace Sys2Proof.Machine

/-! ### SLAB_FREE and SLAB_PROTECT of one slab (R192, R193, R205) -/

/-- A range of one map entry lies in the map. -/
theorem countOk_one (w : Nat) : countOk (fld w 0 9) 1 = true := by
  have inside : fld w 0 9 < 2 ^ 9 := Nat.mod_lt _ (by decide)
  simp [countOk]
  omega

@[simp] theorem range'_one (i : Nat) : range' i 1 = [i] := rfl

section
variable {s : State} {m : Nat} {c : Cmd} {e : MapEnt} (field : ctxField c < 24) (one : fld (c.word 2) 0 10 = 1) (made : s.notFree (ctxField c) = true)
  (entry : (s.ctx (ctxField c)).ent (fld (c.word 1) 0 9) = some e)
include field one made entry

theorem slabFree_owned (write : e.write = true) (mapper : s.mappers e.slab = [ctxField c]) (still : s.ctxRuns (ctxField c) = false) :
    slabFree m c s = .ok ((s.startZero e.slab).setPhase m c 1 [e.slab]) := by
  have whole : (s.withCtx (ctxField c) fun y => { y with map := y.map }) = s := State.withCtx_same rfl
  simp [slabFree, one, entry, need_bind, field, countOk_one, made, write, mapper, still, State.slabBusy, whole]
  rfl

theorem slabFree_share (write : e.write = false) (still : s.ctxRuns (ctxField c) = false) :
    slabFree m c s = .ok ((s.withCtx (ctxField c) fun y => { y with map := y.map.filter fun z => z.1 != fld (c.word 1) 0 9 }).finish m c sOk [] [0]) := by
  simp [slabFree, one, entry, need_bind, field, countOk_one, made, write, still]
  rfl

theorem slabProtect_one (write : e.write = true) (plain : e.prot = false) (uncoded : (s.gal.slab e.slab).coded = false)
    (still : s.slabBusy e.slab = false) (keys : s.sec.galSet.length = 8) :
    slabProtect m c s = .ok (((s.draw.1.withGal fun g =>
      g.withSlab e.slab fun y => { y with converting := true, epoch := s.draw.2 % 2 ^ 64 }).withShelf fun h => h.dropSlab e.slab).setPhase m c 1 [e.slab]) := by
  simp [slabProtect, one, entry, need_bind, field, countOk_one, made, write, plain, uncoded, still, keys]
  rfl

end

section
variable {s : State} {sl : Nat}

theorem Gallery.wipe_read {g : Gallery} (canonical : g.mem.wf = true) (a : Nat) :
    (g.wipe sl).mem.read a = if galAt sl 0 ≤ a ∧ a < galAt sl (2 ^ 20) then 0 else g.mem.read a := by
  have past : galAt sl (2 ^ 20) = galAt sl 0 + 2 ^ 20 := by simp [galAt]
  rw [past]
  exact Mem.read_clear canonical

theorem Ctx.ent_mem {y : Ctx} {i : Nat} {z : MapEnt} (h : y.ent i = some z) : ∃ e ∈ y.map, e.2 = z := by
  obtain ⟨e, found, rfl⟩ := Option.map_eq_some_iff.mp h
  exact ⟨e, List.mem_of_find?_eq_some found, rfl⟩

/-- A property of all the entries a change leaves in every context. -/
theorem State.ctx_ent_of_map {P : MapEnt → Prop} {f : Ctx → Ctx} {t : State} {l : List Ctx} (ctxs : t.ctxs = l.map f)
    (all : ∀ y, ∀ e ∈ (f y).map, P e.2) (x i : Nat) (z : MapEnt) (h : (t.ctx x).ent i = some z) : P z := by
  obtain ⟨e, mem, rfl⟩ := Ctx.ent_mem h
  by_cases inside : x < l.length
  · have found : t.ctx x = f l[x] := by simp [State.ctx, ctxs, inside]
    exact all _ _ (found ▸ mem)
  · have none : t.ctx x = {} := by simp [State.ctx, ctxs, List.getElem?_eq_none (Nat.le_of_not_lt inside)]
    simp [none] at mem

/-- What the end of a conversion makes of a map entry (R205). -/
def protEntry (sl : Nat) (e : Nat × MapEnt) : Nat × MapEnt := if e.2.slab = sl then (e.1, ⟨sl, e.2.write, true⟩) else e

theorem protEntry_prot {e : Nat × MapEnt} (h : (protEntry sl e).2.slab = sl) : (protEntry sl e).2.prot = true := by
  by_cases mapped : e.2.slab = sl
  · simp [protEntry, mapped]
  · simp [protEntry, mapped] at h

/-- The state at the end of a conversion, before its command answers. -/
def State.convertSlab (s : State) (sl : Nat) : State :=
  { (s.zeroSlab sl).withGal fun g => g.withSlab sl fun _ => { s.gal.slab sl with state := .prot, converting := false } with
    ctxs := s.ctxs.map fun y => { y with map := y.map.map (protEntry sl) } }

theorem execProtectionConversionDone_converts (converting : (s.gal.slab sl).converting = true) :
    execProtectionConversionDone sl s = .next ((s.convertSlab sl).oneDone [0x1A] sl) :=
  if_neg (by simp [converting])

theorem Gallery.withSlab_length (g : Gallery) (f : Slab → Slab) : (g.withSlab sl f).slabs.length = g.slabs.length :=
  List.length_modify ..

theorem State.convertSlab_slab (inside : sl < s.gal.slabs.length) :
    (s.convertSlab sl).gal.slab sl = { s.gal.slab sl with state := .prot, converting := false } := by
  have inside' : sl < ((s.gal.wipe sl).withSlab sl fun _ => {}).slabs.length := (Gallery.withSlab_length _ _).symm ▸ inside
  exact Gallery.slab_withSlab_self inside'

theorem State.convertSlab_slab_ne {k : Nat} (other : k ≠ sl) : (s.convertSlab sl).gal.slab k = s.gal.slab k :=
  (Gallery.slab_withSlab_ne other.symm).trans (Gallery.slab_withSlab_ne (d := s.gal.wipe sl) other.symm)

end

/-- Settles O13: each command's start is its body on one map entry, and what zeroing or a conversion leaves is read off the slab, the map entries and the
memory one by one. -/
theorem slabReleaseAndProtection : Obligations.SlabReleaseAndProtection := by
  unfold Obligations.SlabReleaseAndProtection
  refine ⟨fun s m tag c e sl => ⟨?free, ?zeroed, ?last⟩, fun s m tag c e sl => ⟨?protect, ?converted⟩⟩
  case free =>
    intro ready field one made entry
    constructor
    · intro write mapper still inside canonical
      refine ⟨s.startZero e.slab, State.begin_ready ready (slabFree_owned field one made entry write mapper still), ?_, Gallery.wipe_read canonical, rfl, rfl,
        fun k other => Gallery.slab_withSlab_ne other.symm⟩
      exact congrArg Slab.state (Gallery.slab_withSlab_self (d := s.gal.wipe e.slab) inside)
    · exact fun write still => State.begin_ready ready (slabFree_share field one made entry write still)
  case zeroed =>
    intro zeroing inside canonical
    refine ⟨s.zeroSlab sl, by simp [exec, execSlabZeroed, zeroing], Gallery.slab_withSlab_self (d := s.gal.wipe sl) inside, rfl,
      fun k other => Gallery.slab_withSlab_ne other.symm, State.ctx_ent_of_map (P := fun z => z.slab ≠ sl) rfl ?_, Gallery.wipe_read canonical⟩
    simp
  case last =>
    intro waits op note
    simp [State.oneDone, waits, note, op]
  case protect =>
    exact fun ready field one made entry write plain uncoded still keys =>
      State.begin_ready ready (slabProtect_one field one made entry write plain uncoded still keys)
  case converted =>
    intro converting inside canonical
    refine ⟨s.convertSlab sl, execProtectionConversionDone_converts converting, State.convertSlab_slab inside, rfl,
      fun k other => State.convertSlab_slab_ne other, State.ctx_ent_of_map (P := fun z => z.slab = sl → z.prot = true) rfl ?_, Gallery.wipe_read canonical⟩
    intro y e mem
    obtain ⟨e, -, rfl⟩ := List.mem_map.mp mem
    exact protEntry_prot

end Sys2Proof.Machine
end

-- The Gallery: its fill and its scrub.
section
/-!
PROOFS of 08_gallery.md. SCRUB_CONFIG, the fill and the patrol scrub (O15).
-/

namespace Sys2Proof.Machine

/-! ### SCRUB_CONFIG, the fill and the patrol scrub (R201, R211, R212) -/

theorem scrubConfig_sets {s : State} {c : Cmd} (least : 1 ≤ fld (c.word 0) 1 7) (most : fld (c.word 0) 1 7 ≤ 64) :
    scrubConfig c s = .ok (s.withGal fun g => { g with scrubEn := bitAt (c.word 0) 0, period := fld (c.word 0) 1 7 },
      [w32 (bit s.gal.scrubEn + 2 * s.gal.period)], []) :=
  need_bind (decide_eq_true ⟨least, most⟩)

theorem Gallery.slab_notProt {g : Gallery} (h : ∀ y ∈ g.slabs, y.state ≠ .prot) (sl : Nat) : (g.slab sl).state ≠ .prot := by
  by_cases inside : sl < g.slabs.length
  · simpa [Gallery.slab, inside] using h _ (List.getElem_mem inside)
  · simp [Gallery.slab, List.getElem?_eq_none (Nat.le_of_not_lt inside)]

/-- With no error in the Gallery a checked read finds none. -/
theorem State.galEcc_clean {s : State} (ce : s.gal.ce = []) (ue : s.gal.ue = []) (p n kind : Nat) : s.galEcc p n kind = s := by
  have gal : ({ s.gal with ce := [], ue := [] } : Gallery) = s.gal := by
    conv_rhs => rw [show s.gal = { s.gal with ce := s.gal.ce, ue := s.gal.ue } from rfl, ce, ue]
  simp [State.galEcc, State.withGal, ce, ue, gal]

/-- The Gallery after a fill. -/
def Gallery.filled (g : Gallery) : Gallery :=
  { g with
    initBusy := false, initDone := true, mem := [], poison := [], ce := [], ue := []
    badTag := (List.range 512).flatMap fun sl => if (g.slab sl).state = .prot then range' (4096 * sl) 3968 else [] }

theorem Gallery.filled_badTag {g : Gallery} (plain : ∀ y ∈ g.slabs, y.state ≠ .prot) : g.filled.badTag = [] := by
  simp only [Gallery.filled, List.flatMap_eq_nil_iff]
  exact fun sl _ => if_neg (Gallery.slab_notProt plain sl)

theorem execGalleryInitDone_fills {s : State} (busy : s.gal.initBusy = true) : execGalleryInitDone s = .next (s.withGal Gallery.filled) := 
  if_neg (by simp [busy])

/-- What the last channel's scrub read does to the position when it finds no error. -/
def Gallery.scrubbed (g : Gallery) : Gallery :=
  if g.scrubPos + 1 < 131072 then { g with scrubPos := g.scrubPos + 1 } else { g with scrubPos := 0, passes := (g.passes + 1) % 8192 }

theorem execPatrolScrub_last {s : State} (on : s.gal.scrubEn = true) (isOpen : s.galOpen = true) (agreed : s.pw.agreed.contains 8 = false)
    (ce : s.gal.ce = []) (ue : s.gal.ue = []) (word : Nat) : execPatrolScrub 31 0 word s = .next (s.withGal Gallery.scrubbed) := by
  have clean : ((s.withGal fun g => { g with ce := g.ce, ue := g.ue }).galEcc (linePlace 31 s.gal.scrubPos) 128 1) = s :=
    State.galEcc_clean ce ue _ _ _
  simp only [execPatrolScrub, on, isOpen, agreed]
  simp [clean]
  rfl

/-- Settles O15: SCRUB_CONFIG is its body, the fill leaves an empty memory, and a scrub read that finds no error only moves the position. -/
theorem galleryUpkeep : Obligations.GalleryUpkeep := by
  unfold Obligations.GalleryUpkeep
  intro s m tag c
  refine ⟨?config, ?start, ?fill, ?scrub⟩
  case config => exact fun ready least most => State.run_ready ready (scrubConfig_sets least most)
  case start => exact fun idle => by simp [exec, execGalleryInit, idle]
  case fill =>
    intro busy
    exact ⟨_, execGalleryInitDone_fills busy, rfl, rfl, fun _ => rfl, rfl, rfl, Gallery.filled_badTag, rfl, rfl⟩
  case scrub =>
    intro word on isOpen agreed ce ue
    have last : exec (.patrolScrub 31 0 word) s = .next (s.withGal Gallery.scrubbed) := execPatrolScrub_last on isOpen agreed ce ue word
    constructor
    · intro more
      have moved : s.gal.scrubbed = { s.gal with scrubPos := s.gal.scrubPos + 1 } := if_pos more
      refine ⟨_, last, ?_⟩
      simp [State.withGal, moved]
    · intro atEnd room
      have wrapped : s.gal.scrubbed = { s.gal with scrubPos := 0, passes := (s.gal.passes + 1) % 8192 } := if_neg (by omega)
      have passes : (s.gal.passes + 1) % 8192 = s.gal.passes + 1 := Nat.mod_eq_of_lt (by omega)
      exact ⟨_, last, by simp [State.withGal, wrapped, passes]⟩

end Sys2Proof.Machine
end

-- The memories of the block.
section
/-!
PROOFS of 08_gallery.md. The memories of the block: what keeps them, and what keeps their form. An operation either leaves every memory as it is, which is an equation on `State.mems`, or
writes one through the operations of `Mem`, which keep the canonical form (log entry 4).
-/
namespace Sys2Proof.Machine

/-- The memories of the block. -/
structure Mems where
  gal : Mem
  host : Mem
  pockets : List Mem
  bufs : List Mem
  sram : Mem
  auth : Mem
  boardBuf : Mem
  image : Mem

/-- Every memory is in canonical form. -/
structure Mems.Wf (m : Mems) : Prop where
  gal : m.gal.wf = true
  host : m.host.wf = true
  pockets : ∀ p ∈ m.pockets, Mem.wf p = true
  bufs : ∀ b ∈ m.bufs, Mem.wf b = true
  sram : m.sram.wf = true
  auth : m.auth.wf = true
  boardBuf : m.boardBuf.wf = true
  image : m.image.wf = true

/-- The memories that a state holds. -/
def State.mems (s : State) : Mems :=
  ⟨s.gal.mem, s.host, s.geodes.map Geode.pocket, s.fl.lan.bufs, s.sec.sram, s.fl.auth, s.fl.boardBuf, s.fl.image⟩

theorem State.memWf_iff (s : State) : s.memWf = true ↔ s.mems.Wf := by
  simp only [State.memWf, Bool.and_eq_true, List.all_eq_true]
  constructor
  · rintro ⟨⟨⟨⟨⟨⟨⟨h1, h2⟩, h3⟩, h4⟩, h5⟩, h6⟩, h7⟩, h8⟩
    exact ⟨h1, h2, by simpa [State.mems] using h3, h4, h5, h6, h7, h8⟩
  · rintro ⟨h1, h2, h3, h4, h5, h6, h7, h8⟩
    exact ⟨⟨⟨⟨⟨⟨⟨h1, h2⟩, by simpa [State.mems] using h3⟩, h4⟩, h5⟩, h6⟩, h7⟩, h8⟩

/-! ### Shapes of an operation -/

/-- An update of fields that hold no memory keeps the memories. -/
theorem State.with_mems (s : State) (time drip mtime mbx ctxs mpRecs fcuRecs role recSeq recLost dev streams conduit cores cic shelf pw tw fcu
    toFlint readData free pending) :
    ({ time := time, drip := drip, mtime := mtime, mbx := mbx, geodes := s.geodes, gal := s.gal, ctxs := ctxs, mpRecs := mpRecs, fcuRecs := fcuRecs,
       role := role, recSeq := recSeq, recLost := recLost, dev := dev, streams := streams, conduit := conduit, cores := cores, cic := cic,
       shelf := shelf, pw := pw, tw := tw, fcu := fcu, sec := s.sec, fl := s.fl, host := s.host, toFlint := toFlint, readData := readData,
       free := free, pending := pending } : State).mems = s.mems := rfl

@[simp] theorem State.ite_mems (c : Prop) [Decidable c] (s t : State) : (if c then s else t).mems = if c then s.mems else t.mems := apply_ite _ _ _ _

section
variable {α β : Type}

@[simp] theorem State.ite_fst_mems (c : Prop) [Decidable c] (s t : State × β) :
    (if c then s else t).1.mems = if c then s.1.mems else t.1.mems := apply_ite (fun x : State × β => x.1.mems) _ _ _

@[simp] theorem foldl_mems {f : State → α → State} (h : ∀ s x, (f s x).mems = s.mems) (l : List α) (s : State) : (l.foldl f s).mems = s.mems :=
  foldl_keeps (p := State.mems) h l s

@[simp] theorem foldl_fst_mems {f : State × β → α → State × β} (h : ∀ r x, (f r x).1.mems = r.1.mems) (l : List α) (r : State × β) :
    (l.foldl f r).1.mems = r.1.mems := foldl_keeps (p := fun r : State × β => r.1.mems) h l r

theorem foldl_wf {f : State → α → State} (h : ∀ s x, s.mems.Wf → (f s x).mems.Wf) (l : List α) {s : State} (hs : s.mems.Wf) : (l.foldl f s).mems.Wf :=
  List.foldlRecOn (motive := fun t : State => t.mems.Wf) l f hs fun t ht x _ => h t x ht

theorem foldl_fst_wf {f : State × β → α → State × β} (h : ∀ r x, r.1.mems.Wf → (f r x).1.mems.Wf) (l : List α) {r : State × β} (hr : r.1.mems.Wf) :
    (l.foldl f r).1.mems.Wf :=
  List.foldlRecOn (motive := fun t : State × β => t.1.mems.Wf) l f hr fun t ht x _ => h t x ht

theorem upd_map_pocket {l : List Geode} {g : Nat} {f : Geode → Geode} (h : ∀ d, (f d).pocket = d.pocket) :
    (upd l g f).map Geode.pocket = l.map Geode.pocket := by
  apply List.ext_getElem
  · simp
  · intro n h1 h2
    simp only [upd, List.getElem_map, List.getElem_modify]
    split
    · exact h _
    · rfl

end

/-! ### One object -/

section
variable (s : State)

@[simp] theorem State.withMbx_mems (m : Nat) (f : Mbx → Mbx) : (s.withMbx m f).mems = s.mems := rfl
@[simp] theorem State.withCtx_mems (c : Nat) (f : Ctx → Ctx) : (s.withCtx c f).mems = s.mems := rfl
@[simp] theorem State.withTime_mems (f : TimeSt → TimeSt) : (s.withTime f).mems = s.mems := rfl
@[simp] theorem State.withDev_mems (f : Dev → Dev) : (s.withDev f).mems = s.mems := rfl
@[simp] theorem State.withPw_mems (f : Pw → Pw) : (s.withPw f).mems = s.mems := rfl
@[simp] theorem State.withTw_mems (f : Tw → Tw) : (s.withTw f).mems = s.mems := rfl
@[simp] theorem State.withFcu_mems (f : Fcu → Fcu) : (s.withFcu f).mems = s.mems := rfl
@[simp] theorem State.withShelf_mems (f : Shelf → Shelf) : (s.withShelf f).mems = s.mems := rfl
@[simp] theorem State.withStream_mems (i : Nat) (f : Stream → Stream) : (s.withStream i f).mems = s.mems := rfl
@[simp] theorem State.withCore_mems (h : Nat) (f : Core → Core) : (s.withCore h f).mems = s.mems := rfl
@[simp] theorem State.withCic_mems (h : Nat) (f : Cic → Cic) : (s.withCic h f).mems = s.mems := rfl
@[simp] theorem State.withDrip_mems (f : DripSt → DripSt) : (s.withDrip f).mems = s.mems := rfl

variable {s}

@[simp] theorem State.withGeode_mems {g : Nat} {f : Geode → Geode} (h : ∀ d, (f d).pocket = d.pocket) : (s.withGeode g f).mems = s.mems := by
  simp only [State.mems, State.withGeode, upd_map_pocket h]

@[simp] theorem State.withGal_mems {f : Gallery → Gallery} (h : ∀ g, (f g).mem = g.mem) : (s.withGal f).mems = s.mems := by
  simp only [State.mems, State.withGal, h]

@[simp] theorem State.withSec_mems {f : Sec → Sec} (h : ∀ d, (f d).sram = d.sram) : (s.withSec f).mems = s.mems := by
  simp only [State.mems, State.withSec, h]

theorem State.withFl_mems_at {f : Flint → Flint} (bufs : (f s.fl).lan.bufs = s.fl.lan.bufs) (auth : (f s.fl).auth = s.fl.auth)
    (board : (f s.fl).boardBuf = s.fl.boardBuf) (image : (f s.fl).image = s.fl.image) : (s.withFl f).mems = s.mems := by
  simp only [State.mems, State.withFl, bufs, auth, board, image]

@[simp] theorem State.withFl_mems {f : Flint → Flint} (bufs : ∀ d, (f d).lan.bufs = d.lan.bufs) (auth : ∀ d, (f d).auth = d.auth)
    (board : ∀ d, (f d).boardBuf = d.boardBuf) (image : ∀ d, (f d).image = d.image) : (s.withFl f).mems = s.mems :=
  State.withFl_mems_at (bufs _) (auth _) (board _) (image _)

@[simp] theorem State.withLan_mems {f : Lan → Lan} (h : ∀ d, (f d).bufs = d.bufs) : (s.withLan f).mems = s.mems :=
  State.withFl_mems (fun d => h d.lan) (fun _ => rfl) (fun _ => rfl) fun _ => rfl

variable (s)

@[simp] theorem State.withSlot_mems (g i : Nat) (f : Slot → Slot) : (s.withSlot g i f).mems = s.mems := State.withGeode_mems fun _ => rfl
@[simp] theorem State.withQueue_mems (g q : Nat) (f : Queue → Queue) : (s.withQueue g q f).mems = s.mems := State.withGeode_mems fun _ => rfl
@[simp] theorem State.withFiring_mems (g : Nat) (f : Firing → Firing) : (s.withFiring g f).mems = s.mems := State.withGeode_mems fun _ => rfl
@[simp] theorem State.withFsl_mems (g : Nat) (f : Slot → Slot) : (s.withFsl g f).mems = s.mems := s.withSlot_mems g _ f

end

/-! ### Messages, records and the Gallery's checks (R62 to R64, R200, R209, R416) -/

section
variable (s : State)

@[simp] theorem State.draw_mems : s.draw.1.mems = s.mems := rfl
@[simp] theorem State.sendFlint_mems (kind : Nat) (body : List W32) : (s.sendFlint kind body).mems = s.mems := rfl
@[simp] theorem State.takeFlint_mems (kind : Nat) (body : List W32) : (s.takeFlint kind body).mems = s.mems := rfl
@[simp] theorem State.send_mems (m : Nat) (msg : OutMsg) : (s.send m msg).mems = s.mems := rfl
@[simp] theorem State.event_mems (m code tag n : Nat) (ws : List W32) : (s.event m code tag n ws).mems = s.mems := rfl
@[simp] theorem State.event03_mems (code : Nat) (ws : List W32) : (s.event03 code ws).mems = s.mems := rfl
@[simp] theorem State.respond_mems (m : Nat) (c : Cmd) (status : Nat) (ws : List W32) : (s.respond m c status ws).mems = s.mems := rfl
@[simp] theorem State.recNew_mems (b : Bool) : (s.recNew b).mems = s.mems := by simp [State.recNew]

@[simp] theorem State.addRec_mems (code ctx geode unit strm interval : Nat) (detail : List W32) :
    (s.addRec code ctx geode unit strm interval detail).mems = s.mems := by
  simp [State.addRec, ↓State.with_mems]

@[simp] theorem State.addFcuRec_mems (code unit : Nat) (detail : List W32) : (s.addFcuRec code unit detail).mems = s.mems := by
  simp [State.addFcuRec, ↓State.with_mems]

@[simp] theorem State.galError_mems (p kind : Nat) : (s.galError p kind).mems = s.mems := by simp [State.galError]
@[simp] theorem State.galCorrected_mems (p : Nat) : (s.galCorrected p).mems = s.mems := by simp [State.galCorrected]
@[simp] theorem State.galEcc_mems (p n kind : Nat) : (s.galEcc p n kind).mems = s.mems := by simp [State.galEcc]
@[simp] theorem State.granEcc_mems (p : Nat) : (s.granEcc p).mems = s.mems := by simp [State.granEcc]
@[simp] theorem State.galReadP_mems (p n : Nat) : (s.galReadP p n).1.mems = s.mems := by simp [State.galReadP]
@[simp] theorem State.galRead_mems (c a n : Nat) : (s.galRead c a n).1.mems = s.mems := by simp [State.galRead]
end

end Sys2Proof.Machine
end

-- Memories under the Gallery and the sequencer.
section
/-!
PROOFS of 08_gallery.md. Memories under the Gallery and the sequencer: writes to the Gallery, a Pocket and host memory keep the form; the results of the parts of an instruction.
-/
namespace Sys2Proof.Machine

section
variable {s : State}

theorem Mems.Wf.of_eq {m n : Mems} (h : m.Wf) (e : n = m) : n.Wf := e ▸ h

theorem Mems.Wf.of_pair {α : Type} {p : State × α} {t : State} {a : α} (e : p = (t, a)) (h : p.1.mems.Wf) : t.mems.Wf := by
  subst e
  exact h

@[simp] theorem Mems.ite_wf (c : Prop) [Decidable c] (m n : Mems) : (if c then m else n).Wf ↔ (c → m.Wf) ∧ (¬ c → n.Wf) := by
  split <;> simp [*]

theorem State.ite_wf {c : Prop} [Decidable c] {t u : State} (ht : t.mems.Wf) (hu : u.mems.Wf) : (if c then t else u).mems.Wf := by
  split
  · exact ht
  · exact hu

/-- A write to the Gallery's memory. -/
theorem State.withGal_wf {f : Gallery → Gallery} (h : s.mems.Wf) (hf : ∀ g : Gallery, g.mem.wf = true → (f g).mem.wf = true) :
    (s.withGal f).mems.Wf :=
  { h with gal := hf _ h.gal }

/-- A write to a Pocket. -/
theorem State.withGeode_wf {g : Nat} {f : Geode → Geode} (h : s.mems.Wf) (hf : ∀ d : Geode, d.pocket.wf = true → (f d).pocket.wf = true) :
    (s.withGeode g f).mems.Wf :=
  (s.withGeode g f).memWf_iff.mp (State.withGeode_memWf (s.memWf_iff.mpr h) hf)

/-- A write to host memory. -/
theorem State.host_wf {m : Mem} (h : s.mems.Wf) (hm : m.wf = true) : ({ s with host := m } : State).mems.Wf := { h with host := hm }

theorem State.galStore_wf (h : s.mems.Wf) (p : Nat) (bytes : List Byte) (poison : Bool) : (s.galStore p bytes poison).mems.Wf := by
  simp only [State.galStore]
  split
  · exact h
  · exact State.withGal_wf (h.of_eq (by simp)) fun _ hg => Mem.writeN_wf hg

theorem State.galStoreGran_wf (h : s.mems.Wf) (p : Nat) (bytes : List Byte) (poison : Bool) : (s.galStoreGran p bytes poison).mems.Wf := by
  simp only [State.galStoreGran]
  split
  · exact State.galStore_wf (h.of_eq (by simp)) _ _ _
  · split
    · exact h.of_eq (by simp)
    · exact State.galStore_wf (h.of_eq (by simp)) _ _ _

theorem State.galStoreProt_wf (k : Nat) (h : s.mems.Wf) (p : Nat) (bytes : List Byte) (poison : Bool) :
    (State.galStoreProt k s p bytes poison).mems.Wf := by
  induction k generalizing s p bytes with
  | zero => exact h
  | succ k ih =>
    simp only [State.galStoreProt]
    split
    · exact h
    · exact ih (State.galStoreGran_wf h _ _ _) _ _

theorem State.galWriteP_wf (h : s.mems.Wf) (p : Nat) (bytes : List Byte) (poison : Bool) : (s.galWriteP p bytes poison).mems.Wf := by
  unfold State.galWriteP
  split
  · exact h
  · split
    · exact State.galStoreProt_wf _ h _ _ _
    · exact State.galStore_wf h _ _ _

theorem State.galWrite_wf (h : s.mems.Wf) (c a : Nat) (bytes : List Byte) (poison : Bool) : (s.galWrite c a bytes poison).mems.Wf :=
  foldl_fst_wf (fun _ _ hr => State.galWriteP_wf hr _ _ _) _ (by exact h)

theorem State.storeWrites_wf (h : s.mems.Wf) (c : Nat) (l : List GalWrite) : (s.storeWrites c l).mems.Wf :=
  foldl_wf (fun t w ht => by split; exacts [State.galWrite_wf ht _ _ _ _, ht]) l h

theorem State.pocketWrite_wf (h : s.mems.Wf) (g p : Nat) (bytes : List Byte) (poison : Bool) : (s.pocketWrite g p bytes poison).mems.Wf :=
  State.withGeode_wf h fun _ hd => Mem.writeN_wf hd

end
section
variable (s : State)
@[simp] theorem State.creditBack_mems (g q n : Nat) : (s.creditBack g q n).mems = s.mems := by
  unfold State.creditBack
  split <;> simp

@[simp] theorem State.discardQueue_mems (g q : Nat) : (s.discardQueue g q).mems = s.mems := by simp [State.discardQueue]

@[simp] theorem State.fixInterval_mems (g : Nat) : (s.fixInterval g).mems = s.mems := by
  unfold State.fixInterval
  split <;> simp

@[simp] theorem State.randoms_mems (g k : Nat) : (s.randoms g k).1.mems = s.mems := by simp [State.randoms]
@[simp] theorem State.geodeFault_mems (g b : Nat) : (s.geodeFault g b).mems = s.mems := by simp [State.geodeFault]
@[simp] theorem State.entryUe_mems (g q c : Nat) (e : Entry) : (s.entryUe g q c e).mems = s.mems := by simp [State.entryUe]
@[simp] theorem State.release_mems (g i : Nat) : (s.release g i).mems = s.mems := by simp [State.release]
@[simp] theorem State.dropOutputs_mems (g i : Nat) : (s.dropOutputs g i).mems = s.mems := by simp [State.dropOutputs]
@[simp] theorem State.dropHeld_mems (g i : Nat) : (s.dropHeld g i).mems = s.mems := by simp [State.dropHeld]
@[simp] theorem State.unpop_mems (g i : Nat) : (s.unpop g i).mems = s.mems := by simp [State.unpop]
@[simp] theorem State.missing_mems (g i n : Nat) : (s.missing g i n).mems = s.mems := by simp [State.missing]
@[simp] theorem State.dropIn_mems (g i n : Nat) : (s.dropIn g i n).1.mems = s.mems := by simp [State.dropIn]
@[simp] theorem State.restoreBg_mems (g i : Nat) : (s.restoreBg g i).mems = s.mems := by simp [State.restoreBg]
@[simp] theorem State.abandon_mems (g i n : Nat) : (s.abandon g i n).mems = s.mems := by simp [State.abandon]
@[simp] theorem State.zeroBudgets_mems (c : Nat) : (s.zeroBudgets c).mems = s.mems := by simp [State.zeroBudgets]
@[simp] theorem State.haltCtx_mems (c g i : Nat) (b : Bool) : (s.haltCtx c g i b).mems = s.mems := by simp [State.haltCtx]
@[simp] theorem State.faultRec_mems (g i : Nat) : (s.faultRec g i).mems = s.mems := by simp [State.faultRec]
@[simp] theorem State.retire_mems (g : Nat) : (s.retire g).mems = s.mems := by simp [State.retire]
@[simp] theorem State.retireVein_mems (g : Nat) : (s.retireVein g).mems = s.mems := by simp [State.retireVein]
@[simp] theorem State.faultyVeins_mems (g n : Nat) : (s.faultyVeins g n).mems = s.mems := by simp [State.faultyVeins]
@[simp] theorem State.endFiring_mems (g : Nat) : (s.endFiring g).mems = s.mems := by
  unfold State.endFiring
  split <;> simp
@[simp] theorem State.progFault_mems (g i c p : Nat) : (s.progFault g i c p).mems = s.mems := by simp [State.progFault]
@[simp] theorem State.charge_mems (g t : Nat) : (s.charge g t).mems = s.mems := by simp [State.charge]
@[simp] theorem State.spend_mems (g t : Nat) : (s.spend g t).mems = s.mems := by simp [State.spend]
@[simp] theorem State.advance_mems (g pc : Nat) (f : Flow) : (s.advance g pc f).mems = s.mems := by
  cases f <;> simp [State.advance]
@[simp] theorem State.setS_mems (g i : Nat) (v : W32) : (s.setS g i v).mems = s.mems := by simp [State.setS]
@[simp] theorem State.setA_mems (g i v : Nat) : (s.setA g i v).mems = s.mems := by simp [State.setA]
@[simp] theorem State.setV_mems (g i : Nat) (v : VReg) : (s.setV g i v).mems = s.mems := by simp [State.setV]
@[simp] theorem State.pocketEcc_mems (g p n : Nat) : (s.pocketEcc g p n).mems = s.mems := by simp [State.pocketEcc]
@[simp] theorem State.pocketRead_mems (g p n : Nat) : (s.pocketRead g p n).1.mems = s.mems := by simp [State.pocketRead]
end

/-! ### Results of the parts of an instruction -/

/-- What a part of an instruction gives has its memories in form: the state it goes on with, or the one it had reached before it stopped. -/
def Res.Wf {α : Type} (out : α → State) : Res α → Prop
  | .ok a => (out a).mems.Wf
  | .error e => ∀ u, e.reached = some u → u.mems.Wf

section
variable {α β : Type} {out : α → State} {out' : β → State} {s : State}

theorem Res.pure_wf {a : α} (h : (out a).mems.Wf) : Res.Wf out (pure a) := h
theorem Res.stop_wf (c : Nat) : Res.Wf out (stop c) := by rintro _ ⟨⟩

theorem Res.bind_wf {r : Res α} {f : α → Res β} (hr : r.Wf out) (hf : ∀ a, (out a).mems.Wf → (f a).Wf out') : (r >>= f).Wf out' := by
  cases r with
  | error e => exact hr
  | ok a => exact hf a hr

theorem Res.ite_wf {c : Prop} [Decidable c] {x y : Res α} (hx : x.Wf out) (hy : y.Wf out) : (if c then x else y).Wf out := by
  split
  · exact hx
  · exact hy

/-- Two ways to a state, and what follows either. -/
theorem Res.ite_bind_wf {c : Prop} [Decidable c] {x y : Res α} {f : α → Res β} (hx : x.Wf out) (hy : y.Wf out)
    (hf : ∀ a, (out a).mems.Wf → (f a).Wf out') : (if c then x >>= f else y >>= f).Wf out' :=
  Res.ite_wf (Res.bind_wf hx hf) (Res.bind_wf hy hf)

theorem held_wf {r : Res α} (h : s.mems.Wf) (hr : r.Wf out) : (held s r).Wf out := by
  unfold held
  split
  · rintro u ⟨⟩
    exact h
  · exact hr

end

end Sys2Proof.Machine
end

-- Checks of an instruction.
section
/-!
PROOFS of 08_gallery.md. Checks of an instruction: parts of an instruction that reach no state of their own.
-/
namespace Sys2Proof.Machine

/-! ### Checks: parts that stop with no state reached -/

/-- A part that reaches no state of its own: where it stops, it stops before any effect. -/
def Res.Check {α : Type} (r : Res α) : Prop := ∀ e, r = .error e → e.reached = none

section
variable {α β : Type} {out : α → State} {out' : β → State} {s : State}

@[simp] theorem Res.ok_check (a : α) : Res.Check (.ok a : Res α) := fun _ h => by cases h
@[simp] theorem Res.pure_check (a : α) : Res.Check (pure a : Res α) := fun _ h => by cases h
@[simp] theorem Res.stop_check (c : Nat) : Res.Check (stop c : Res α) := fun _ h => by cases h; rfl

theorem Res.bind_check {r : Res α} {f : α → Res β} : Res.Check (r >>= f) ↔ r.Check ∧ ∀ a, r = .ok a → (f a).Check := by
  cases r with
  | error e => exact ⟨fun h => ⟨fun _ he => h _ (by cases he; rfl), fun _ ha => by cases ha⟩, fun h _ he => h.1 _ (by cases he; rfl)⟩
  | ok a => exact ⟨fun h => ⟨Res.ok_check a, fun _ hb => by cases hb; exact h⟩, fun h => h.2 a rfl⟩

theorem Res.map_check {r : Res α} {f : α → β} : Res.Check (Except.map f r) ↔ r.Check := by
  cases r with
  | error e => exact ⟨fun h _ he => h _ (by cases he; rfl), fun h _ he => h _ (by cases he; rfl)⟩
  | ok a => exact ⟨fun _ => Res.ok_check a, fun _ => Res.ok_check (f a)⟩

theorem Res.fmap_check {r : Res α} {f : α → β} : Res.Check (f <$> r) ↔ r.Check := Res.map_check

theorem Res.ite_check {c : Prop} [Decidable c] {x y : Res α} : (if c then x else y).Check ↔ (c → x.Check) ∧ (¬ c → y.Check) := by
  split <;> simp [*]

/-- What follows a check may count on the state before it. -/
theorem Res.check_wf {r : Res α} {f : α → Res β} (hr : r.Check) (hf : ∀ a, r = .ok a → (f a).Wf out') : (r >>= f).Wf out' := by
  cases r with
  | error e =>
    intro u hu
    cases (hr e rfl).symm.trans hu
  | ok a => exact hf a rfl

end

@[simp] theorem readDesc_check (w : Nat) : (readDesc w).Check := by
  simp only [readDesc]
  split
  · simp [Res.ite_check]
  · simp

@[simp] theorem State.desc_check (s : State) (g i : Nat) : (s.desc g i).Check := readDesc_check _
@[simp] theorem Desc.bounds_check (d : Desc) (r c : Nat) : (d.bounds r c).Check := by simp [Desc.bounds, Res.ite_check]
@[simp] theorem State.pocketAt_check (s : State) (g a n : Nat) : (s.pocketAt g a n).Check := by simp [State.pocketAt, Res.ite_check]
@[simp] theorem State.memCheck_check (s : State) (g : Nat) (l : Loc) (a n : Nat) (w : Bool) : (s.memCheck g l a n w).Check := by
  cases l <;> simp [State.memCheck, Res.ite_check]
@[simp] theorem State.codedCheck_check (s : State) (g : Nat) (d : Desc) (w : Bool) :
    (s.codedCheck g d w).Check := by simp [State.codedCheck, Res.ite_check]
@[simp] theorem State.queueCheck_check (s : State) (g : Nat) (d : Desc) (i r : Bool) : (s.queueCheck g d i r).Check := by
  simp [State.queueCheck, Res.ite_check]
@[simp] theorem State.qCheck_check (s : State) (g w : Nat) (i : Bool) : (s.qCheck g w i).Check := by simp [State.qCheck, Res.ite_check]
@[simp] theorem qType_check (w fmt : Nat) : (qType w fmt).Check := by
  unfold qType
  split <;> simp [Res.ite_check]
@[simp] theorem aluOp_check (f : Nat) (x : W32) (imm : Nat) : (aluOp f x imm).Check := by
  unfold aluOp
  split <;> simp
@[simp] theorem cmpOp_check (f : Nat) (x y : W32) : (cmpOp f x y).Check := by
  unfold cmpOp
  split <;> simp
@[simp] theorem State.special_check (s : State) (g k : Nat) : (s.special g k).Check := by
  simp only [State.special]
  split <;> simp

@[simp] theorem State.matArgs_check (s : State) (g w : Nat) : (s.matArgs g w).Check := by
  simp [State.matArgs, Res.ite_check, Res.bind_check, Res.map_check, Res.fmap_check, *]

@[simp] theorem State.moveArgs_check (s : State) (g w : Nat) (z : Bool) : (s.moveArgs g w z).Check := by
  simp [State.moveArgs, Res.ite_check, Res.bind_check, Res.map_check, Res.fmap_check]
  grind [Res.stop_check, Res.pure_check, State.queueCheck_check, State.codedCheck_check]

end Sys2Proof.Machine
end

-- Memories under the parts of an instruction.
section
/-!
PROOFS of 08_gallery.md. Memories under the parts of an instruction: blocks, tiles and rows.
-/
namespace Sys2Proof.Machine

/-! ### The parts of an instruction -/

section
variable (s : State)

@[simp] theorem State.calError_mems (g src : Nat) (isQueue : Bool) (which cause block : Nat) :
    (s.calError g src isQueue which cause block).mems = s.mems := by
  simp [State.calError]

@[simp] theorem State.convert_mems (g : Nat) (t : EType) (rnd : Bool) (trk : Option Nat) (poison : Bool) (lanes : List W32) :
    (s.convert g t rnd trk poison lanes).1.mems = s.mems := by
  cases trk <;> simp [State.convert]

@[simp] theorem logEntry_mems (g src q pos half : Nat) (l : List (Except Nat (List Nat))) : (logEntry g src q pos half s l).mems = s.mems := by
  induction l generalizing half with
  | nil => rfl
  | cons x l ih =>
    cases x with
    | ok => exact ih _
    | error => exact State.calError_mems _ _ _ _ _ _ _

@[simp] theorem State.entryBlks_mems (g src q pos : Nat) (t : EType) (coded : Bool) (e : Entry) :
    (s.entryBlks g src q pos t coded e).1.mems = s.mems := by
  simp [State.entryBlks]

@[simp] theorem State.galQueue_mems (g : Nat) (w : GalWrite) : (s.galQueue g w).mems = s.mems := by simp [State.galQueue]
@[simp] theorem State.foldBlk_mems (g : Nat) (l : Loc) (a : Nat) (b : List Byte) (p : Bool) : (s.foldBlk g l a b p).mems = s.mems := by
  simp [State.foldBlk]
@[simp] theorem State.foldGroup_mems (g : Nat) (l : Loc) (bs : List (List Byte × Bool)) (a : Nat) : (State.foldGroup g l bs s a).mems = s.mems := by
  induction bs generalizing s a with
  | nil => rfl
  | cons b bs ih => simp [State.foldGroup, ih]
@[simp] theorem State.asOne_mems (g n total : Nat) : (s.asOne g n total).mems = s.mems := by simp [State.asOne]
@[simp] theorem State.post_mems (g w size : Nat) : (s.post g w size).mems = s.mems := by simp [State.post]
@[simp] theorem State.qPost_mems (g w st : Nat) : (s.qPost g w st).mems = s.mems := by simp [State.qPost]
@[simp] theorem State.loadEntries_mems (g v : Nat) (t : EType) (es : List Entry) : (s.loadEntries g v t es).mems = s.mems := by
  induction es generalizing s v with
  | nil => rfl
  | cons e es ih => simp [State.loadEntries, ih]

@[simp] theorem State.ownRead_mems (g a n : Nat) : (s.ownRead g a n).1.mems = s.mems := by simp [State.ownRead]
end

section
variable {s : State} (h : s.mems.Wf)
include h

theorem State.memRead_wf (g : Nat) (l : Loc) (a n : Nat) : (s.memRead g l a n).Wf Prod.fst :=
  Res.check_wf (s.memCheck_check g l a n false) fun _ _ => by
    split <;> exact h.of_eq (by simp)

theorem State.memWrite_wf (g : Nat) (l : Loc) (a : Nat) (bytes : List Byte) (poison fold : Bool) : (s.memWrite g l a bytes poison fold).Wf id :=
  Res.check_wf (s.memCheck_check g l a bytes.length true) fun _ _ => by
    split
    · exact State.pocketWrite_wf h _ _ _ _
    · exact h.of_eq (s.galQueue_mems g _)

theorem State.locate_wf (g : Nat) (d : Desc) (k : Nat) : (s.locate g d k).Wf Prod.fst :=
  Res.bind_wf (State.memRead_wf h _ _ _ _) fun _ h1 => held_wf h1 <|
    Res.bind_wf (State.memRead_wf h1 _ _ _ _) fun _ h2 => held_wf h2 <|
      Res.bind_wf (State.memRead_wf h2 _ _ _ _) fun _ h3 => h3

theorem State.codedBlk_wf (g src reg : Nat) (d : Desc) (k : Nat) : (s.codedBlk g src reg d k).Wf Prod.fst := by
  refine Res.bind_wf (State.locate_wf h g d k) fun r h1 => held_wf h1 ?_
  refine Res.ite_bind_wf (State.memRead_wf h1 _ _ _ _) (Res.pure_wf h1) fun r h2 => Res.ite_wf (Res.pure_wf h2) ?_
  dsimp only
  split
  · exact h2.of_eq (State.calError_mems _ _ _ _ _ _ _)
  · exact h2

theorem State.tensorBlk_wf (g src reg : Nat) (d : Desc) (r c : Nat) : (s.tensorBlk g src reg d r c).Wf Prod.fst :=
  Res.check_wf (d.bounds_check r c) fun _ _ =>
    Res.ite_wf (State.codedBlk_wf h _ _ _ _ _) (Res.bind_wf (State.memRead_wf h _ _ _ _) fun _ h1 => h1)

theorem State.pop_wf (g q : Nat) : (s.pop g q).Wf Prod.fst := by
  unfold State.pop
  split
  · exact Res.stop_wf _
  · refine Res.ite_wf (Res.stop_wf _) (Res.ite_wf (Res.stop_wf _) (Res.ite_wf (Res.stop_wf _) ?_))
    split
    · exact Res.stop_wf _
    · exact h.of_eq (by simp)

theorem State.popN_wf (k g q : Nat) : (State.popN k s g q).Wf Prod.fst := by
  induction k generalizing s with
  | zero => exact h
  | succ k ih => exact Res.bind_wf (State.pop_wf h _ _) fun _ h1 => held_wf h1 <| Res.bind_wf (ih h1) fun _ h2 => h2

theorem State.push_wf (g q : Nat) (e : Entry) : (s.push g q e).Wf id := by
  unfold State.push
  split
  · exact Res.stop_wf _
  · exact Res.ite_wf (Res.stop_wf _) (Res.ite_wf (h.of_eq (s.withQueue_mems g q _)) (Res.ite_wf (Res.stop_wf _) (h.of_eq (by simp))))

/-! #### MATMUL (R120 to R122) -/

theorem State.tileRows_wf (g : Nat) (a : MatArgs) (l : List Nat) : (s.tileRows g a l).Wf Prod.fst := by
  induction l generalizing s with
  | nil => exact h
  | cons i l ih => exact Res.bind_wf (State.tensorBlk_wf h _ _ _ _ _ _) fun _ h1 => held_wf h1 <| Res.bind_wf (ih h1) fun _ h2 => h2

theorem State.tile_wf (g : Nat) (a : MatArgs) : (s.tile g a).Wf Prod.fst := by
  simp only [State.tile]
  split
  · exact h.of_eq (State.withGeode_mems fun _ => rfl)
  · exact Res.bind_wf (State.tileRows_wf h _ _ _) fun _ h1 => h1.of_eq (State.withGeode_mems fun _ => rfl)

theorem State.xBlk_wf (g : Nat) (a : MatArgs) (m : Nat) (xs : XState) : (s.xBlk g a m xs).Wf Prod.fst := by
  refine Res.ite_wf ?_ (Res.bind_wf (State.tensorBlk_wf h _ _ _ _ _ _) fun _ h1 => h1)
  split
  · exact h
  · exact Res.bind_wf (State.pop_wf h _ _) fun _ h1 => h1.of_eq (State.entryBlks_mems _ _ _ _ _ _ _ _)

theorem State.pRow_wf (g : Nat) (a : MatArgs) (m : Nat) : (s.pRow g a m).Wf Prod.fst := by
  simp only [State.pRow]
  split
  · exact Res.check_wf (Desc.bounds_check _ _ _) fun _ _ => Res.bind_wf (State.memRead_wf h _ _ _ _) fun _ h1 => h1
  · exact h
  · exact h

theorem State.yPocket_wf (g : Nat) (a : MatArgs) (m : Nat) (ys : List Nat) (poison : Bool) : (s.yPocket g a m ys poison).Wf id :=
  Res.check_wf (Desc.bounds_check _ _ _) fun _ _ => Res.check_wf (State.pocketAt_check _ _ _ _) fun _ _ => State.pocketWrite_wf h _ _ _ _

theorem State.deliverY_wf (g : Nat) (a : MatArgs) (vein : Option Nat) (half : Option (List Nat × Bool)) (r : YRow) :
    (s.deliverY g a vein half r).Wf Prod.fst := by
  unfold State.deliverY
  extract_lets s0 broken T
  split
  next s1 lanes numbers =>
    split
    next s2 ys converted =>
      have h0 : s0.mems.Wf := h.of_eq (by simp [s0])
      have h1 : s1.mems.Wf := Mems.Wf.of_pair numbers (h0.of_eq (by simp [↓State.with_mems]))
      have h2 : s2.mems.Wf := Mems.Wf.of_pair converted (h1.of_eq (by simp))
      refine held_wf h2 (Res.ite_wf ?_ (Res.ite_wf ?_ ?_))
      · exact Res.bind_wf (State.yPocket_wf h2 _ _ _ _ _) fun _ h3 => h3
      · exact Res.bind_wf (State.push_wf h2 _ _ _) fun _ h3 => h3
      · split
        · exact h2
        · exact Res.bind_wf (State.push_wf h2 _ _ _) fun _ h3 => h3

theorem State.deliverRows_wf (g : Nat) (a : MatArgs) (vein : Option Nat) (rows : List YRow) (half : Option (List Nat × Bool)) :
    (State.deliverRows g a vein rows s half).Wf Prod.fst := by
  induction rows generalizing s half with
  | nil => exact h
  | cons r rows ih => exact Res.bind_wf (State.deliverY_wf h _ _ _ _ _) fun _ h1 => held_wf h1 (ih h1 _)

theorem State.matRows_wf (g : Nat) (a : MatArgs) (tile : Tile) (vein : Option Nat) (k m : Nat) (c : MatSt) :
    (State.matRows g a tile vein k s m c).Wf id := by
  induction k generalizing s m c with
  | zero => exact Res.bind_wf (State.deliverRows_wf h _ _ _ _ _) fun _ h1 => h1
  | succ k ih => exact Res.bind_wf (State.deliverRows_wf h _ _ _ _ _) fun _ h1 => held_wf h1 <|
      Res.bind_wf (State.xBlk_wf h1 _ _ _ _) fun _ h2 => held_wf h2 <|
        Res.bind_wf (State.pRow_wf h2 _ _ _) fun _ h3 => held_wf h3 (ih h3 _ _)

theorem State.matmul_wf (g w : Nat) (vein : Option Nat) : (s.matmul g w vein).Wf Prod.fst :=
  Res.check_wf (s.matArgs_check g w) fun _ _ => Res.bind_wf (State.tile_wf h _ _) fun _ h1 => held_wf h1 <|
    Res.bind_wf (State.matRows_wf h1 _ _ _ _ _ _ _) fun _ h2 => h2

/-! #### MOVE (R125 to R128) -/

theorem State.putRuns_wf (g : Nat) (l : Loc) (b : List (List Byte × Bool)) (a : Nat) : (State.putRuns g l b s a).Wf id := by
  induction b generalizing s a with
  | nil => exact h
  | cons b bs ih => exact Res.bind_wf (State.memWrite_wf h _ _ _ _ _ _) fun _ h1 => held_wf h1 (ih h1 _)

theorem State.putBytes_wf (g : Nat) (l : Loc) (a : Nat) (b : List (Byte × Bool)) : (s.putBytes g l a b).Wf id := State.putRuns_wf h _ _ _ _

theorem State.srcBlks_wf (g : Nat) (a : MoveArgs) (d : Desc) (q : XState) (l : List (Nat × Nat)) : (s.srcBlks g a d q l).Wf Prod.fst := by
  induction l generalizing s q with
  | nil => exact h
  | cons rc l ih =>
    refine Res.bind_wf (out := Prod.fst) (Res.ite_wf ?_ (Res.bind_wf (State.tensorBlk_wf h _ _ _ _ _ _) fun _ h1 => h1)) fun _ h1 =>
      held_wf h1 (Res.bind_wf (ih h1 _) fun _ h2 => h2)
    split
    · exact h
    · exact Res.bind_wf (State.pop_wf h _ _) fun _ h1 => h1.of_eq (State.entryBlks_mems _ _ _ _ _ _ _ _)

theorem State.pushBlks_wf (g : Nat) (d : Desc) (k : Nat) (bs : List Blk) : (State.pushBlks g d k s bs).Wf id := by
  induction k generalizing s bs with
  | zero => exact h
  | succ k ih => exact Res.ite_wf h (Res.bind_wf (State.push_wf h _ _ _) fun _ h1 => held_wf h1 (ih h1 _))

theorem State.putBlks_wf (g : Nat) (d : Desc) (l : List ((Nat × Nat) × Blk)) : (s.putBlks g d l).Wf id := by
  induction l generalizing s with
  | nil => exact h
  | cons x l ih => exact Res.check_wf (Desc.bounds_check _ _ _) fun _ _ => Res.bind_wf (State.memWrite_wf h _ _ _ _ _ _) fun _ h1 => held_wf h1 (ih h1)

theorem State.putGroups_wf (g : Nat) (d : Desc) (k off : Nat) (bs : List (List Byte × Bool)) : (State.putGroups g d k s off bs).Wf Prod.fst := by
  induction k generalizing s off bs with
  | zero => exact h
  | succ k ih => exact Res.bind_wf (State.putBytes_wf h _ _ _ _) fun _ h1 => held_wf h1 <|
      Res.bind_wf (ih (h1.of_eq (State.foldGroup_mems _ _ _ _ _)) _ _) fun _ h2 => h2

theorem State.putCoded_wf (g : Nat) (d : Desc) (blocks : List (List Byte × Bool)) : (s.putCoded g d blocks).Wf id :=
  Res.bind_wf (State.putGroups_wf h _ _ _ _ _) fun _ h1 => held_wf h1 <| Res.bind_wf (State.putBytes_wf h1 _ _ _ _) fun _ h2 => h2.of_eq (by simp)

theorem State.readFlagged_wf (g : Nat) (l : Loc) (k a : Nat) : (State.readFlagged g l k s a).Wf Prod.fst := by
  induction k generalizing s a with
  | zero => exact h
  | succ k ih => exact Res.bind_wf (State.memRead_wf h _ _ _ _) fun _ h1 => held_wf h1 <| Res.bind_wf (ih h1 _) fun _ h2 => h2

theorem State.copyCoded_wf (g : Nat) (x d : Desc) : (s.copyCoded g x d).Wf id :=
  Res.bind_wf (State.readFlagged_wf h _ _ _ _) fun _ h1 => held_wf h1 <| Res.bind_wf (State.readFlagged_wf h1 _ _ _ _) fun _ h2 => held_wf h2 <|
    Res.bind_wf (State.putBytes_wf h2 _ _ _ _) fun _ h3 => held_wf h3 (State.putBytes_wf h3 _ _ _ _)

theorem State.foldCopied_wf (g : Nat) (x d : Desc) (n k : Nat) : (State.foldCopied g x d n k s).Wf id := by
  induction k generalizing s with
  | zero => exact h
  | succ k ih =>
    exact Res.bind_wf (State.memRead_wf h _ _ _ _) fun _ h1 => held_wf h1 <| Res.ite_wf (held_wf h1 (ih h1)) <|
      Res.bind_wf (State.memRead_wf h1 _ _ _ _) fun _ h2 => held_wf h2 <| Res.ite_wf (held_wf h2 (ih h2)) <|
        Res.bind_wf (State.memRead_wf h2 _ _ _ _) fun _ h3 => held_wf h3 (ih (h3.of_eq (State.foldBlk_mems _ _ _ _ _ _)))

theorem State.move_wf (g w : Nat) (zero : Bool) : (s.move g w zero).Wf Prod.fst := by
  refine Res.check_wf (s.moveArgs_check g w zero) fun a _ => Res.ite_wf h ?_
  split
  · refine Res.ite_wf ?_ ?_
    · exact Res.bind_wf (State.copyCoded_wf h _ _ _) fun _ h1 => held_wf h1 <|
        Res.ite_bind_wf (State.foldCopied_wf h1 _ _ _ _ _) (Res.pure_wf h1) fun _ h2 => Res.pure_wf h2
    · refine Res.bind_wf (State.srcBlks_wf h _ _ _ _ _) fun _ h1 => held_wf h1 (Res.ite_wf ?_ (Res.ite_wf ?_ ?_))
      · exact Res.bind_wf (State.pushBlks_wf h1 _ _ _ _) fun _ h2 => h2.of_eq (by simp)
      · exact Res.bind_wf (State.putCoded_wf h1 _ _ _) fun _ h2 => h2
      · exact Res.bind_wf (State.putBlks_wf h1 _ _ _) fun _ h2 => h2
  · exact Res.ite_bind_wf (State.pushBlks_wf h _ _ _ _) (State.putBlks_wf h _ _ _) fun _ h1 => Res.pure_wf h1

/-! #### Queue instructions and SIG (R129 to R133) -/

theorem State.storeEntries_wf (g a st : Nat) (es : List Entry) : (s.storeEntries g a st es).Wf id := by
  induction es generalizing s a with
  | nil => exact h
  | cons e es ih =>
    exact Res.ite_bind_wf (out := id) (Res.pure_wf h) (Res.check_wf (State.pocketAt_check _ _ _ _) fun _ _ =>
      Res.pure_wf (State.pocketWrite_wf h _ _ _ _)) fun _ h1 => held_wf h1 (ih h1 _)

theorem State.pushPocket_wf (g q st k a : Nat) : (State.pushPocket g q st k s a).Wf id := by
  induction k generalizing s a with
  | zero => exact h
  | succ k ih =>
    refine Res.check_wf (State.pocketAt_check _ _ _ _) fun p _ => ?_
    have h1 : (s.pocketRead g p st).1.mems.Wf := h.of_eq (State.pocketRead_mems _ _ _ _)
    exact held_wf h1 (Res.bind_wf (State.push_wf h1 _ _ _) fun _ h2 => held_wf h2 (ih h2 _))

theorem State.pushV_wf (g q w : Nat) (t : EType) (k v : Nat) : (State.pushV g q w t k s v).Wf id := by
  induction k generalizing s v with
  | zero => exact h
  | succ k ih =>
    have h1 := h.of_eq (s.convert_mems g t (bitAt w 29) (if bitAt w 28 then some (fld w 26 2) else none) (s.vreg g v).poison (s.vreg g v).lanes)
    exact held_wf h1 (Res.bind_wf (State.push_wf h1 _ _ _) fun _ h2 => held_wf h2 (ih h2 _))

theorem State.sigFold_wf (g : Nat) (d : Desc) (l : List (Nat × Nat)) : (s.sigFold g d l).Wf id := by
  induction l generalizing s with
  | nil => exact h
  | cons x l ih =>
    refine Res.check_wf (Desc.bounds_check _ _ _) fun _ _ => Res.bind_wf (State.memRead_wf h _ _ _ _) fun r h1 => ?_
    have h2 := fun f => h1.of_eq (r.1.withFsl_mems g f)
    exact held_wf (h2 _) (ih (h2 _))

end

end Sys2Proof.Machine
end

-- Memories under the Geode's instructions.
section
/-!
PROOFS of 08_gallery.md. Memories under the Geode's instructions: one rule per instruction.
-/
namespace Sys2Proof.Machine

/-- A next state whose memories are in form. -/
def Out.Wf : Out → Prop
  | .next t => t.mems.Wf
  | _ => True

@[simp] theorem Out.next_wf (t : State) : Out.Wf (.next t) ↔ t.mems.Wf := Iff.rfl

@[simp] theorem Out.ite_wf (c : Prop) [Decidable c] (x y : Out) : Out.Wf (if c then x else y) ↔ (c → x.Wf) ∧ (¬ c → y.Wf) := by
  split <;> simp [*]

section
variable {s : State} (h : s.mems.Wf)
include h

theorem State.issue_wf (g t : Nat) (isOp : Nat → Bool) {body : Nat → State → Res (State × Flow)}
    (hb : ∀ w u, u.mems.Wf → (body w u).Wf Prod.fst) : (s.issue g t isOp body).mems.Wf := by
  have h1 : (s.spend g t).mems.Wf := h.of_eq (s.spend_mems g t)
  unfold State.issue
  split
  · exact h
  · refine State.ite_wf h (State.ite_wf (h.of_eq (by simp)) (State.ite_wf (h.of_eq (by simp)) ?_))
    split
    next e failed =>
      have found := hb ((s.fsl g).prog.getD (s.fsl g).pc 0).toNat _ h1
      rw [failed] at found
      rw [State.progFault_mems]
      cases reached : e.reached with
      | none => exact h1
      | some u => exact found u reached
    next s2 fl worked =>
      have found := hb ((s.fsl g).prog.getD (s.fsl g).pc 0).toNat _ h1
      rw [worked] at found
      exact Mems.Wf.of_eq found (s2.advance_mems g _ fl)

section
variable (g t : Nat)

theorem execUnassignedOpcode_wf : (execUnassignedOpcode g t s).Wf := State.issue_wf h g t _ fun _ _ _ => Res.stop_wf _
theorem execNop_wf : (execNop g t s).Wf := State.issue_wf h g t _ fun _ _ h1 => h1

theorem State.publishAll_wf (g i : Nat) : (s.publishAll g i).mems.Wf := (State.storeWrites_wf h _ _).of_eq (State.withSlot_mems _ _ _ _)

theorem State.commitAt_wf (g i pc : Nat) : (s.commitAt g i pc).mems.Wf := (State.publishAll_wf h g i).of_eq (by simp [State.commitAt])

omit h in
@[simp] theorem State.finishStop_mems (s : State) (g i : Nat) : (s.finishStop g i).mems = s.mems := State.withSlot_mems _ _ _ _

omit h in
@[simp] theorem State.yieldAt_mems (s : State) (g p : Nat) : (s.yieldAt g p).mems = s.mems := by
  unfold State.yieldAt
  split <;> simp

theorem execYieldI_wf : (execYieldI g t s).Wf :=
  State.issue_wf h g t _ fun _ u h1 => Res.ite_wf h1 (Res.ite_wf (Res.stop_wf _) (h1.of_eq (u.yieldAt_mems _ _)))

theorem execCommit_wf : (execCommit g t s).Wf :=
  State.issue_wf h g t _ fun _ _ h1 => Res.ite_wf h1 (Res.ite_wf h1 (State.commitAt_wf h1 _ _ _))

theorem execSeti_wf : (execSeti g t s).Wf := State.issue_wf h g t _ fun _ _ h1 => h1.of_eq (State.setS_mems _ _ _ _)
theorem execAddi_wf : (execAddi g t s).Wf := State.issue_wf h g t _ fun _ _ h1 => h1.of_eq (State.setS_mems _ _ _ _)
theorem execAdd_wf : (execAdd g t s).Wf := State.issue_wf h g t _ fun _ _ h1 => h1.of_eq (State.setS_mems _ _ _ _)
theorem execSub_wf : (execSub g t s).Wf := State.issue_wf h g t _ fun _ _ h1 => h1.of_eq (State.setS_mems _ _ _ _)
theorem execMuli_wf : (execMuli g t s).Wf := State.issue_wf h g t _ fun _ _ h1 => h1.of_eq (State.setS_mems _ _ _ _)
theorem execAlui_wf : (execAlui g t s).Wf :=
  State.issue_wf h g t _ fun _ _ h1 => Res.check_wf (aluOp_check _ _ _) fun _ _ => h1.of_eq (State.setS_mems _ _ _ _)
theorem execRdspec_wf : (execRdspec g t s).Wf :=
  State.issue_wf h g t _ fun _ _ h1 => Res.check_wf (State.special_check _ _ _) fun _ _ => h1.of_eq (State.setS_mems _ _ _ _)
theorem execLoopI_wf : (execLoopI g t s).Wf := State.issue_wf h g t _ fun _ _ h1 => h1.of_eq (State.setS_mems _ _ _ _)
theorem execBr_wf : (execBr g t s).Wf := State.issue_wf h g t _ fun _ _ h1 => h1
theorem execBcmp_wf : (execBcmp g t s).Wf := State.issue_wf h g t _ fun _ _ h1 => Res.check_wf (cmpOp_check _ _ _) fun _ _ => h1
theorem execAset_wf : (execAset g t s).Wf := State.issue_wf h g t _ fun _ _ h1 => Res.ite_wf (Res.stop_wf _) (h1.of_eq (State.setA_mems _ _ _ _))
theorem execTset_wf : (execTset g t s).Wf := State.issue_wf h g t _ fun _ _ h1 => Res.ite_wf (Res.stop_wf _) (h1.of_eq (State.withFsl_mems _ _ _))
theorem execSld_wf : (execSld g t s).Wf :=
  State.issue_wf h g t _ fun _ _ h1 => Res.ite_wf (Res.stop_wf _) <| Res.ite_wf (Res.stop_wf _) <| Res.check_wf (State.pocketAt_check _ _ _ _) fun _ _ =>
    Res.ite_wf (held_wf (h1.of_eq (State.pocketRead_mems _ _ _ _)) (Res.stop_wf _)) (h1.of_eq (by simp))
theorem execScaleGet_wf : (execScaleGet g t s).Wf := State.issue_wf h g t _ fun _ _ h1 => h1.of_eq (State.setS_mems _ _ _ _)
theorem execScaleSet_wf : (execScaleSet g t s).Wf :=
  State.issue_wf h g t _ fun _ _ h1 => Res.ite_wf (h1.of_eq (State.withFsl_mems _ _ _)) (Res.stop_wf _)
theorem execScaleObserve_wf : (execScaleObserve g t s).Wf :=
  State.issue_wf h g t _ fun _ _ h1 => Res.ite_wf h1 (h1.of_eq (State.withFsl_mems _ _ _))
theorem execScaleHold_wf : (execScaleHold g t s).Wf := State.issue_wf h g t _ fun _ _ h1 => h1.of_eq (State.withFsl_mems _ _ _)
theorem execSigFold_wf : (execSigFold g t s).Wf :=
  State.issue_wf h g t _ fun _ _ h1 => Res.check_wf (State.desc_check _ _ _) fun _ _ => Res.ite_wf (Res.stop_wf _) <| Res.ite_wf (Res.stop_wf _) <|
    Res.bind_wf (State.sigFold_wf h1 _ _ _) fun _ h2 => h2
theorem execSigRead_wf : (execSigRead g t s).Wf := State.issue_wf h g t _ fun _ _ h1 => h1.of_eq (State.setS_mems _ _ _ _)

theorem execVld_wf : (execVld g t s).Wf := State.issue_wf h g t _ fun _ _ h1 => by
  dsimp only
  split
  · exact Res.stop_wf _
  · exact Res.check_wf (State.pocketAt_check _ _ _ _) fun _ _ => h1.of_eq (by simp)

theorem execVst_wf : (execVst g t s).Wf := State.issue_wf h g t _ fun _ u h1 => by
  dsimp only
  split
  · exact Res.stop_wf _
  · refine Res.check_wf (State.pocketAt_check _ _ _ _) fun _ _ => ?_
    exact (State.pocketWrite_wf (h1.of_eq (u.convert_mems _ _ _ _ _ _)) _ _ _ _).of_eq (State.post_mems _ _ _ _)

theorem execVop_wf : (execVop g t s).Wf := State.issue_wf h g t _ fun _ _ h1 => by
  dsimp only
  split
  · exact Res.stop_wf _
  · exact h1.of_eq (State.setV_mems _ _ _ _)
theorem execVopi_wf : (execVopi g t s).Wf := State.issue_wf h g t _ fun _ _ h1 => by
  dsimp only
  split
  · exact Res.stop_wf _
  · exact h1.of_eq (State.setV_mems _ _ _ _)
theorem execVfma_wf : (execVfma g t s).Wf := State.issue_wf h g t _ fun _ _ h1 => h1.of_eq (State.setV_mems _ _ _ _)
theorem execVun_wf : (execVun g t s).Wf := State.issue_wf h g t _ fun _ _ h1 => by
  dsimp only
  split
  · exact Res.stop_wf _
  · exact h1.of_eq (State.setV_mems _ _ _ _)
theorem execVexpsub_wf : (execVexpsub g t s).Wf := State.issue_wf h g t _ fun _ _ h1 => h1.of_eq (State.setV_mems _ _ _ _)
theorem execVred_wf : (execVred g t s).Wf := State.issue_wf h g t _ fun _ _ h1 => by
  dsimp only
  split
  · exact Res.stop_wf _
  · exact h1.of_eq (State.setV_mems _ _ _ _)
theorem execVbcast_wf : (execVbcast g t s).Wf := State.issue_wf h g t _ fun _ _ h1 => by
  dsimp only
  split
  · exact h1.of_eq (State.setV_mems _ _ _ _)
  · exact h1.of_eq (State.setV_mems _ _ _ _)
  · exact Res.stop_wf _
theorem execVsel_wf : (execVsel g t s).Wf := State.issue_wf h g t _ fun _ _ h1 => h1.of_eq (State.setV_mems _ _ _ _)
theorem execVmoments_wf : (execVmoments g t s).Wf := State.issue_wf h g t _ fun _ _ h1 => Res.ite_wf (Res.stop_wf _) (h1.of_eq (by simp))
theorem execVadamw_wf : (execVadamw g t s).Wf := State.issue_wf h g t _ fun _ _ h1 => Res.ite_wf (Res.stop_wf _) (h1.of_eq (by simp))
theorem execVcvt_wf : (execVcvt g t s).Wf := State.issue_wf h g t _ fun _ _ h1 => by
  dsimp only
  split
  · exact h1.of_eq (State.setV_mems _ _ _ _)
  · exact h1.of_eq (State.setV_mems _ _ _ _)
  · exact Res.stop_wf _
theorem execMatmul_wf (vein : Option Nat) : (execMatmul g t vein s).Wf := State.issue_wf h g t _ fun _ _ h1 => State.matmul_wf h1 _ _ _
theorem execMatmulT_wf (vein : Option Nat) : (execMatmulT g t vein s).Wf := State.issue_wf h g t _ fun _ _ h1 => State.matmul_wf h1 _ _ _
theorem execMoveI_wf : (execMoveI g t s).Wf := State.issue_wf h g t _ fun _ _ h1 => State.move_wf h1 _ _ _
theorem execMoveZero_wf : (execMoveZero g t s).Wf := State.issue_wf h g t _ fun _ _ h1 => State.move_wf h1 _ _ _

theorem execQpop_wf : (execQpop g t s).Wf :=
  State.issue_wf h g t _ fun _ _ h1 => Res.check_wf (State.qCheck_check _ _ _ _) fun _ _ => Res.ite_wf (Res.stop_wf _) <| Res.ite_wf
    (Res.check_wf (qType_check _ _) fun _ _ => Res.ite_wf (Res.stop_wf _) <| Res.bind_wf (State.popN_wf h1 _ _ _) fun _ h2 => h2.of_eq (by simp))
    (Res.check_wf (State.pocketAt_check _ _ _ _) fun _ _ => Res.bind_wf (State.popN_wf h1 _ _ _) fun _ h2 => held_wf h2 <|
      Res.bind_wf (State.storeEntries_wf h2 _ _ _ _) fun _ h3 => h3.of_eq (by simp))
theorem execQskip_wf : (execQskip g t s).Wf :=
  State.issue_wf h g t _ fun _ _ h1 => Res.check_wf (State.qCheck_check _ _ _ _) fun _ _ => Res.bind_wf (State.popN_wf h1 _ _ _) fun _ h2 => h2.of_eq (by simp)
theorem execQpush_wf : (execQpush g t s).Wf :=
  State.issue_wf h g t _ fun _ _ h1 => Res.check_wf (State.qCheck_check _ _ _ _) fun _ _ => Res.ite_wf (Res.stop_wf _) <| Res.ite_wf
    (Res.check_wf (qType_check _ _) fun _ _ => Res.ite_wf (Res.stop_wf _) <| Res.bind_wf (State.pushV_wf h1 _ _ _ _ _ _) fun _ h2 => h2.of_eq (by simp))
    (Res.bind_wf (State.pushPocket_wf h1 _ _ _ _ _) fun _ h2 => h2.of_eq (by simp))
theorem execQfwd_wf : (execQfwd g t s).Wf := State.issue_wf h g t _ fun _ _ h1 => Res.ite_wf (Res.stop_wf _) <| Res.ite_wf (Res.stop_wf _) <| by
  split
  · exact Res.stop_wf _
  · exact Res.bind_wf (State.push_wf h1 _ _ _) fun _ h2 => h2.of_eq (by simp)

end
end

end Sys2Proof.Machine
end

-- Memories under the sequencer and mailbox commands.
section
/-!
PROOFS of 08_gallery.md. Memories under the sequencer and mailbox commands: the shapes `run` and `begin` of a command.
-/
namespace Sys2Proof.Machine

/-! ### The sequencer's events (R82, R97 to R106) -/

section
variable (s : State)
@[simp] theorem State.conflictFault_mems (g : Nat) : (s.conflictFault g).mems = s.mems := by
  unfold State.conflictFault
  split
  · rfl
  · split <;> simp
@[simp] theorem State.deliver_mems (g q : Nat) (e : Entry) : (s.deliver g q e).mems = s.mems := by simp [State.deliver]
@[simp] theorem State.katStart_mems (g : Nat) : (s.katStart g).mems = s.mems := by
  simp only [State.katStart]
  split <;> simp
@[simp] theorem State.retireReq_mems (g : Nat) : (s.retireReq g).mems = s.mems := by simp [State.retireReq]
end
section
variable {s : State} (h : s.mems.Wf)
include h

theorem State.emptySlot_wf (g i : Nat) : (s.emptySlot g i).mems.Wf := (State.publishAll_wf h g i).of_eq (State.withSlot_mems _ _ _ _)

theorem State.publish_wf (g i : Nat) : (s.publish g i).mems.Wf :=
  State.ite_wf h ((State.storeWrites_wf h _ _).of_eq (State.withSlot_mems _ _ _ _))

theorem State.setSlotState_wf (g i v : Nat) : (s.setSlotState g i v).mems.Wf := by
  have emptied := (State.publishAll_wf h g i).of_eq (State.withSlot_mems _ g i Slot.clear)
  simp only [State.setSlotState]
  split
  · exact h.of_eq (by simp)
  · exact h.of_eq (by simp)
  · exact emptied
  · exact emptied
  · exact h

theorem execMoveGalleryWriteDone_wf (g slot k : Nat) : (execMoveGalleryWriteDone g slot k s).Wf := by
  simp only [execMoveGalleryWriteDone]
  split
  · exact h
  · rw [Out.ite_wf]
    exact ⟨fun _ => h, fun _ => State.publish_wf (h.of_eq (s.withSlot_mems _ _ _)) _ _⟩

theorem execFiringStart_wf (g slot : Nat) : (execFiringStart g slot s).Wf := by simp [execFiringStart, h]
theorem execMarkerHandling_wf (g slot q : Nat) : (execMarkerHandling g slot q s).Wf := by simp [execMarkerHandling, h]
theorem execBlockArrival_wf (g q : Nat) (parity : Bool) : (execBlockArrival g q parity s).Wf := by
  simp only [execBlockArrival]
  split <;> simp [h]
theorem execCreditReturn_wf (g q : Nat) : (execCreditReturn g q s).Wf := by simp [execCreditReturn, h]
theorem execFiringLimit_wf (g : Nat) : (execFiringLimit g s).Wf := by
  unfold execFiringLimit
  split <;> simp [h]
theorem execProgramFaultHandling_wf (g slot : Nat) : (execProgramFaultHandling g slot s).Wf := by
  simp [execProgramFaultHandling, h, State.emptySlot_wf]
theorem execVeinRepairDone_wf (g : Nat) : (execVeinRepairDone g s).Wf := by simp [execVeinRepairDone, h]
theorem execKatStart_wf (g : Nat) : (execKatStart g s).Wf := by simp [execKatStart, h]
theorem execKatDone_wf (g : Nat) (unit : Option Nat) : (execKatDone g unit s).Wf := by simp [execKatDone, h]
theorem execGeodeRetire_wf (g : Nat) : (execGeodeRetire g s).Wf := by simp [execGeodeRetire, h]
theorem execSlotStateWrite_wf (g slot v : Nat) : (execSlotStateWrite g slot v s).Wf := State.setSlotState_wf h g slot v
theorem execQueueDiscard_wf (g q : Nat) : (execQueueDiscard g q s).Wf := by simp [execQueueDiscard, h]
theorem execPocketScrub_wf (g err word : Nat) : (execPocketScrub g err word s).Wf := by simp [execPocketScrub, h]
end

/-! ### Mailbox commands (R61 to R66, R72, R273) -/

/-- Where a body does not reject, its result has the property. -/
def Grants {ε α : Type} (P : α → Prop) : Except ε α → Prop
  | .ok a => P a
  | .error _ => True

section
variable {ε α β : Type} (P : α → Prop)

@[simp] theorem Grants.ok_iff (a : α) : Grants P (.ok a : Except ε α) ↔ P a := Iff.rfl
@[simp] theorem Grants.pure_iff (a : α) : Grants P (pure a : Except ε α) ↔ P a := Iff.rfl
@[simp] theorem Grants.of_true (x : Except ε α) : Grants (fun _ => True) x := by cases x <;> trivial
@[simp] theorem Grants.error (e : ε) : Grants P (.error e) := trivial

@[simp] theorem Grants.bind_iff (x : Except ε β) (f : β → Except ε α) : Grants P (x >>= f) ↔ Grants (fun b => Grants P (f b)) x := by
  cases x <;> rfl

@[simp] theorem Grants.map_iff (x : Except ε β) (f : β → α) : Grants P (f <$> x) ↔ Grants (fun b => P (f b)) x := by
  cases x <;> rfl

@[simp] theorem Grants.ite_iff (c : Prop) [Decidable c] (x y : Except ε α) :
    Grants P (if c then x else y) ↔ (c → Grants P x) ∧ (¬ c → Grants P y) := by
  split <;> simp [*]

@[simp] theorem Grants.need_iff (p : Unit → Prop) (b : Bool) (e : Nat) : Grants p (need b e) ↔ (b = true → p ()) := by
  cases b <;> simp [need]

theorem Grants.of_bind {P : α → Prop} {x : Except ε β} {f : β → Except ε α} (h : ∀ b, Grants P (f b)) : Grants P (x >>= f) := by
  cases x
  · trivial
  · exact h _

theorem Grants.of_need_bind {P : α → Prop} {b : Bool} {e : Nat} {f : Unit → Except (Nat × List W32) α} (h : Grants P (f ())) :
    Grants P (need b e >>= f) := by
  cases b
  · trivial
  · exact h
end

section
variable (s : State)

@[simp] theorem State.mpEvent_mems (m : Nat) (msg : OutMsg) : (s.mpEvent m msg).mems = s.mems := rfl
@[simp] theorem State.flush_mems (m : Nat) (cmd rsp : Bool) : (s.flush m cmd rsp).mems = s.mems := by simp [State.flush]
@[simp] theorem State.reject_mems (m : Nat) (h : W32) (status : Nat) : (s.reject m h status).mems = s.mems := rfl
@[simp] theorem State.resync_mems (m code tag n : Nat) : (s.resync m code tag n).mems = s.mems := rfl
@[simp] theorem State.loseFraming_mems (m : Nat) (h : W32) (words : List InWord) :
    (s.loseFraming m h words).mems = s.mems := by simp [State.loseFraming]
@[simp] theorem State.admitMsg_mems (m : Nat) (h : W32) (words : List InWord) : (s.admitMsg m h words).mems = s.mems := by
  simp only [State.admitMsg]
  split
  · rfl
  · split
    · rfl
    · split <;> rfl
@[simp] theorem State.readMsg_mems (m : Nat) (h : W32) (words : List InWord) : (s.readMsg m h words).mems = s.mems := by simp [State.readMsg]
@[simp] theorem State.visit_mems (m : Nat) : (s.visit m).mems = s.mems := by
  simp only [State.visit]
  split
  · simp
  · split <;> simp
@[simp] theorem State.finish_mems (m : Nat) (c : Cmd) (status : Nat) (words : List W32) (choices : List Nat) :
    (s.finish m c status words choices).mems = s.mems := by simp [State.finish]
@[simp] theorem State.setPhase_mems (m : Nat) (c : Cmd) (phase : Nat) (note : List Nat) : (s.setPhase m c phase note).mems = s.mems := rfl
end

/-- What a command's body answers has its memories in form. -/
abbrev Answer.Wf (r : Answer) : Prop := Grants (fun x => x.1.mems.Wf) r
/-- What the start of a command answers has its memories in form. -/
abbrev Begun.Wf (r : Begun) : Prop := Grants (fun t => t.mems.Wf) r

section
variable {s : State} (h : s.mems.Wf)
include h

theorem State.runBody_wf (m : Nat) (c : Cmd) {body : State → Answer} (hb : (body s).Wf) : (s.runBody m c body).mems.Wf := by
  unfold State.runBody
  split
  · exact h.of_eq (by simp)
  · split
    · exact h.of_eq (by simp)
    next t ws ch answered =>
      rw [answered] at hb
      exact Mems.Wf.of_eq hb (by simp)

theorem State.beginBody_wf (m : Nat) (c : Cmd) {body : State → Begun} (hb : (body s).Wf) : (s.beginBody m c body).mems.Wf := by
  unfold State.beginBody
  split
  · exact h.of_eq (by simp)
  · split
    · exact h.of_eq (by simp)
    next t begun =>
      rw [begun] at hb
      exact hb

theorem State.run_wf (m tag op : Nat) {body : Cmd → State → Answer} (hb : ∀ c, (body c s).Wf) : (s.run m tag op body).Wf := by
  unfold State.run
  split
  · exact h
  · rw [Out.ite_wf]
    exact ⟨fun _ => h, fun _ => State.runBody_wf h _ _ (hb _)⟩

theorem State.begin_wf (m tag op : Nat) {body : Cmd → State → Begun} (hb : ∀ c, (body c s).Wf) : (s.begin m tag op body).Wf := by
  unfold State.begin
  split
  · exact h
  · rw [Out.ite_wf]
    exact ⟨fun _ => h, fun _ => State.beginBody_wf h _ _ (hb _)⟩

theorem execMpAcceptCommand_wf : (execMpAcceptCommand s).Wf := by
  unfold execMpAcceptCommand
  split
  · exact h
  · split <;> simp [h]
theorem execCmdPayloadTimeout_wf (m : Nat) : (execCmdPayloadTimeout m s).Wf := by
  unfold execCmdPayloadTimeout
  split <;> simp [h]
theorem execHeldMessageWrite_wf (m : Nat) : (execHeldMessageWrite m s).Wf := by
  simp only [execHeldMessageWrite]
  split
  · exact h
  · split
    · simp [h]
    · split <;> simp [h]
end

end Sys2Proof.Machine
end

-- Memories under the time commands.
section
/-!
PROOFS of 08_gallery.md. Memories under the time commands: the counter, the schedule and the clock.
-/
namespace Sys2Proof.Machine

/-! ### What leaves every memory as it is -/

section
variable {s : State}

@[simp] theorem State.jump_mems (s : State) (d : Int) : (s.jump d).mems = s.mems := by simp [State.jump]
@[simp] theorem State.takeStep_mems (s : State) : (s.takeStep).mems = s.mems := by simp [State.takeStep]
@[simp] theorem State.cycles_mems (s : State) (k : Nat) : (s.cycles k).mems = s.mems := by simp [State.cycles, ↓State.with_mems]
@[simp] theorem State.advanceTo_mems (s : State) (t : Int) : (s.advanceTo t).mems = s.mems := by simp [State.advanceTo]
@[simp] theorem State.stepBefore_mems (s : State) (t : Int) : (s.stepBefore t).mems = s.mems := by simp [State.stepBefore]
@[simp] theorem State.idle_mems (s : State) : (s.idle).mems = s.mems := by simp [State.idle]
@[simp] theorem State.writeBudgets_mems (s : State) (c : Nat) : (s.writeBudgets c).mems = s.mems := by simp [State.writeBudgets]
@[simp] theorem State.rebudget_mems (s : State) : (s.rebudget).mems = s.mems := by simp [State.rebudget]
@[simp] theorem State.servo_mems (s : State) (edge : Edge) (e : Int) : (s.servo edge e).mems = s.mems := by simp [State.servo]

end

section
variable {s : State} (h : s.mems.Wf)
include h

/-! ### Register reads and writes of Quartz (R43, R44): requesters 0 to 7 are the cores, 8 the MP -/

theorem execQtzNowFracRead_wf (req : Nat) : (execQtzNowFracRead req s).Wf := by simp [execQtzNowFracRead, ↓State.with_mems, h]
theorem execDripCountLoRead_wf (req : Nat) : (execDripCountLoRead req s).Wf := by simp [execDripCountLoRead, ↓State.with_mems, h]
theorem execQtzStatusRead_wf (req : Nat) : (execQtzStatusRead req s).Wf := by simp [execQtzStatusRead, ↓State.with_mems, h]
theorem execQtzStepWrite_wf (req : Nat) (v : W32) : (execQtzStepWrite req v s).Wf := by simp [execQtzStepWrite, h]

/-! ### SET_DRIP (R28, R279, R453) -/

theorem setDripStart_wf (c : Cmd) (ch : List Nat) : Answer.Wf (setDripStart c ch s) := by simp [setDripStart, h]
theorem execSetDripStart_wf (m tag : Nat) : (execSetDripStart m tag s).Wf := by
  unfold execSetDripStart
  split
  · exact h
  · rw [Out.ite_wf]
    exact ⟨fun _ => State.run_wf h m tag _ fun _ => setDripStart_wf h _ _, fun _ => h⟩
theorem setDrip_wf (c : Cmd) (ch : List Nat) : Answer.Wf (setDrip c ch s) := by simp [setDrip, h]
theorem execSetDrip_wf (m tag : Nat) : (execSetDrip m tag s).Wf := by
  unfold execSetDrip
  split
  · exact h
  · rw [Out.ite_wf]
    exact ⟨fun _ => h, fun _ => State.run_wf h m tag _ fun _ => setDrip_wf h _ _⟩

/-! ### TIME_SET, TIME_READ, PPS_CONFIG (R282) -/

theorem execTimeSet_wf (m tag : Nat) : (execTimeSet m tag s).Wf := State.run_wf h m tag _ fun _ => by simp [h]
theorem execTimeRead_wf (m tag : Nat) : (execTimeRead m tag s).Wf := State.run_wf h m tag _ fun _ => by simp [h]
theorem execPpsConfig_wf (m tag : Nat) : (execPpsConfig m tag s).Wf := State.run_wf h m tag _ fun _ => by simp [h]

/-! ### PPS_IN and the servo (R45, R46) -/

theorem execPpsInEdge_wf (phase : Nat) : (execPpsInEdge phase s).Wf := by simp [execPpsInEdge, h]
theorem execTimeAdjust_wf (m tag : Nat) : (execTimeAdjust m tag s).Wf :=
  State.run_wf h m tag _ fun c => by
    simp only [Answer.Wf, Grants.bind_iff, Grants.need_iff]
    intro _ _
    split <;> simp [h]
theorem execTimeServoSecond_wf : (execTimeServoSecond s).Wf := by
  simp only [execTimeServoSecond]
  split
  · exact h
  · split
    · simp [h]
    · split <;> simp [h]

/-! ### PPS_OUT (R48) -/

theorem execPpsOutEdge_wf : (execPpsOutEdge s).Wf := by simp [execPpsOutEdge, h]

end

end Sys2Proof.Machine
end

-- Memories under the Shelf.
section
/-!
PROOFS of 08_gallery.md. Memories under the Shelf: lines, sectors and the drain.
-/
namespace Sys2Proof.Machine

/-! ### What leaves every memory as it is -/

section
variable {s : State}

@[simp] theorem State.backRead_mems (s : State) (p : Place) (n : Nat) (ext : List Byte) : (s.backRead p n ext).1.mems = s.mems := by
  simp [State.backRead]
@[simp] theorem State.shelfUe_mems (s : State) (p : Place) : (s.shelfUe p).mems = s.mems := by
  rw [State.shelfUe, State.addRec_mems]
  exact foldl_mems (fun t k => State.withCic_mems t k _) _ _
@[simp] theorem State.shelfEcc_mems (s : State) (p : Place) : (s.shelfEcc p).1.mems = s.mems := by
  unfold State.shelfEcc
  split <;> simp
@[simp] theorem State.dropSector_mems (s : State) (p : Place) : (s.dropSector p).mems = s.mems := by simp [State.dropSector]
@[simp] theorem State.killRes_mems (s : State) (who : Nat) (p : Place) (n : Nat) : (s.killRes who p n).mems = s.mems := by
  simp [State.killRes, ↓State.with_mems]

end

section
variable {s : State} (h : s.mems.Wf)
include h

/-! ### Memory behind the Shelf -/

theorem State.backWrite_wf (p : Place) (b : List Byte) : (s.backWrite p b).mems.Wf :=
  State.ite_wf (State.host_wf h (Mem.writeN_wf h.host)) (State.galWriteP_wf h _ _ _)
theorem State.writeBack_wf (host : Bool) (a : Nat) (x : Sector) : (s.writeBack host a x).mems.Wf :=
  have written := State.backWrite_wf h (host, a) x.data
  State.ite_wf written (written.of_eq (State.withGal_mems fun _ => rfl))

/-! ### Errors (R308, R310) -/

theorem State.cleanSector_wf (p : Place) : (s.cleanSector p).mems.Wf := by
  unfold State.cleanSector
  split
  · exact State.ite_wf h ((State.writeBack_wf (h.of_eq (s.shelfEcc_mems p)) _ _ _).of_eq (State.withShelf_mems _ _))
  · exact h

/-! ### Gathered streaming stores (R305) -/

theorem State.flushGather_wf (k : Nat) : (s.flushGather k).mems.Wf := by
  unfold State.flushGather
  split
  · exact h
  · exact foldl_wf (fun _ _ ht => State.backWrite_wf ht _ _) _ (h.of_eq (s.withShelf_mems _))
theorem State.flushAt_wf (p : Place) (n : Nat) : (s.flushAt p n).mems.Wf :=
  foldl_wf (fun _ _ ht => by
    split
    · exact State.ite_wf (State.flushGather_wf ht _) ht
    · exact ht) _ h

/-! ### DMA, MP invalidation (R299, R302) -/

theorem State.dmaReadP_wf (p n : Nat) : (s.dmaReadP p n).1.mems.Wf :=
  (State.flushAt_wf h (false, p) n).of_eq (by simp [State.dmaReadP])
theorem State.dmaWriteP_wf (p : Nat) (b : List Byte) : (s.dmaWriteP p b).mems.Wf := by
  simp only [State.dmaWriteP]
  refine Mems.Wf.of_eq ?_ (foldl_mems (fun _ _ => by simp) _ _)
  rw [State.killRes_mems]
  exact State.galWriteP_wf (foldl_wf (fun _ _ ht => State.ite_wf (State.cleanSector_wf ht _) ht) _ (State.flushAt_wf h _ _)) _ _ _
theorem State.dmaRead_wf (c a n : Nat) : (s.dmaRead c a n).1.mems.Wf :=
  by
  refine foldl_fst_wf (fun r x hr => ?_) _ h
  exact State.dmaReadP_wf hr x.1 x.2
theorem State.dmaWrite_wf (c a : Nat) (bytes : List Byte) : (s.dmaWrite c a bytes).mems.Wf :=
  foldl_fst_wf (fun _ _ hr => State.dmaWriteP_wf hr _ _) _ (by exact h)

end

end Sys2Proof.Machine
end

-- Memories under the Gallery's commands.
section
/-!
PROOFS of 08_gallery.md. Memories under the Gallery's commands: slabs, transfers, images and the scrub.
-/
namespace Sys2Proof.Machine

/-! ### What leaves every memory as it is -/

section
variable {s : State}

@[simp] theorem Gallery.foldl_withSlab_mem (f : Slab → Slab) (l : List Nat) (g : Gallery) : (l.foldl (fun g sl => g.withSlab sl f) g).mem = g.mem :=
  foldl_keeps (p := Gallery.mem) (f := fun g sl => g.withSlab sl f) (fun _ _ => rfl) l g
@[simp] theorem State.oneDone_mems (s : State) (ops : List Nat) (sl : Nat) : (s.oneDone ops sl).mems = s.mems := by
  unfold State.oneDone
  split <;> simp
@[simp] theorem State.dmaStride_mems (s : State) (k : Nat) (pieces : List (Nat × Nat)) : (s.dmaStride k pieces).mems = s.mems := by
  simp [State.dmaStride]

end

section
variable {s : State} (h : s.mems.Wf)
include h

/-! ### Slabs -/

theorem slabAlloc_wf (c : Cmd) (ch : List Nat) : Answer.Wf (slabAlloc c ch s) := by
  simp only [slabAlloc]
  split
  · simp [bad]
  · simp [h]
theorem slabShare_wf (c : Cmd) : Answer.Wf (slabShare c s) := by simp [slabShare, h]
theorem execSlabAlloc_wf (m tag : Nat) : (execSlabAlloc m tag s).Wf := by
  unfold execSlabAlloc
  split
  · exact h
  · exact (Out.ite_wf _ _ _).mpr ⟨fun _ => h, fun _ => State.run_wf h m tag _ fun _ => slabAlloc_wf h _ _⟩
theorem execSlabAllocShare_wf (m tag : Nat) : (execSlabAllocShare m tag s).Wf := by
  unfold execSlabAllocShare
  split
  · exact h
  · exact (Out.ite_wf _ _ _).mpr ⟨fun _ => State.run_wf h m tag _ fun _ => slabShare_wf h _, fun _ => h⟩

/-! ### SLAB_FREE, SLAB_ZEROED (R192, R193, R284, R302) -/

theorem State.startZero_wf (sl : Nat) : (s.startZero sl).mems.Wf :=
  (State.withGal_wf h fun _ hg => Mem.clear_wf hg).of_eq (State.withShelf_mems _ _)
theorem slabFree_wf (m : Nat) (c : Cmd) : Begun.Wf (slabFree m c s) := by
  have zeroing (l : List Nat) (x : Nat) (f : Ctx → Ctx) : (l.foldl (fun s sl => s.startZero sl) (s.withCtx x f)).mems.Wf :=
    foldl_wf (fun _ sl ht => State.startZero_wf ht sl) l h
  simp [slabFree, h, zeroing]
theorem execSlabFree_wf (m tag : Nat) : (execSlabFree m tag s).Wf := State.begin_wf h m tag _ fun _ => slabFree_wf h _ _
theorem State.zeroSlab_wf (sl : Nat) : (s.zeroSlab sl).mems.Wf :=
  (State.withGal_wf h (f := fun g => (g.wipe sl).withSlab sl fun _ => {}) fun _ hg => Mem.clear_wf hg).of_eq rfl
theorem execSlabZeroed_wf (sl : Nat) : (execSlabZeroed sl s).Wf := by
  simp [execSlabZeroed, h, State.zeroSlab_wf]

/-! ### SLAB_PROTECT (R205) -/

theorem slabProtect_wf (m : Nat) (c : Cmd) : Begun.Wf (slabProtect m c s) := by
  simp [slabProtect, h, Gallery.withSlab]
theorem execSlabProtect_wf (m tag : Nat) : (execSlabProtect m tag s).Wf := State.begin_wf h m tag _ fun _ => slabProtect_wf h _ _
theorem execProtectionConversionDone_wf (sl : Nat) : (execProtectionConversionDone sl s).Wf := by
  by_cases converting : (s.gal.slab sl).converting = true
  · rw [execProtectionConversionDone_converts converting]
    exact (State.zeroSlab_wf h sl).of_eq (State.oneDone_mems _ _ _)
  · simpa [execProtectionConversionDone, converting] using h

/-! ### Transfers (R284, R275, R276) -/

theorem startXfer_wf (m : Nat) (write : Bool) (extra : State → Nat → Except (Nat × List W32) Unit) (c : Cmd) :
    Begun.Wf (startXfer m write extra c s) := by
  simp [startXfer, Grants.bind_iff, h]
theorem execDmaIn_wf (m tag : Nat) : (execDmaIn m tag s).Wf :=
  State.begin_wf h m tag _ fun _ => startXfer_wf h _ _ _ _
theorem execDmaOut_wf (m tag : Nat) : (execDmaOut m tag s).Wf :=
  State.begin_wf h m tag _ fun _ => startXfer_wf h _ _ _ _
theorem imageLoad_wf (m : Nat) (c : Cmd) : Begun.Wf (imageLoad m c s) := startXfer_wf h _ _ _ _
theorem execImageLoad_wf (m tag : Nat) : (execImageLoad m tag s).Wf := State.begin_wf h m tag _ fun _ => imageLoad_wf h _ _
theorem State.endIn_wf (m : Nat) (c : Cmd) (data : List Byte) (failed : Option Nat) : (s.endIn m c data failed).mems.Wf := by
  have written (b : List Byte) : (s.dmaWrite (ctxField c) (c.word 3) b).mems.Wf := State.dmaWrite_wf h _ _ _
  unfold State.endIn
  split
  · simpa using written _
  · simp [written]
theorem State.endOut_wf (m : Nat) (c : Cmd) (failed : Option Nat) : (s.endOut m c failed).mems.Wf := by
  have read (x a n k : Nat) : ({ (s.dmaRead x a n).1 with host := (s.dmaRead x a n).1.host.writeN k (s.dmaRead x a n).2.1 } : State).mems.Wf :=
    State.host_wf (State.dmaRead_wf h _ _ _) (Mem.writeN_wf (State.dmaRead_wf h _ _ _).host)
  unfold State.endOut
  dsimp only
  split <;> simp [read]

/-! ### IMAGE_VERIFY and INDEX_BUILD (R109, R177, R284) -/

theorem State.walkBlocks_wf (bf full : Bool) (c base stride k o : Nat) (l : List Nat) :
    (State.walkBlocks bf full c base stride s k o l).1.mems.Wf := by
  induction l generalizing s k o with
  | nil => exact h
  | cons len t ih =>
    have read : (s.dmaRead c (base + o) len).1.mems.Wf := State.dmaRead_wf h _ _ _
    simp only [State.walkBlocks]
    split
    · exact h
    split
    · exact h
    split
    · exact read
    split
    · split
      · exact ih read _ _
      · exact read
    · exact ih read _ _
theorem State.walkGroups_wf (bf full : Bool) (c base stride n j k o : Nat) (idx : List Nat) :
    (State.walkGroups bf full c base stride n j s k o idx).1.mems.Wf := by
  induction j generalizing s k o idx with
  | zero => exact h
  | succ j ih =>
    have read (a : Nat) : (s.dmaRead c a 16).1.mems.Wf := State.dmaRead_wf h _ _ _
    simp only [State.walkGroups]
    split
    · exact h
    split
    · exact read _
    split
    next walked => exact Mems.Wf.of_pair walked (State.walkBlocks_wf (read _) ..)
    next walked => exact ih (Mems.Wf.of_pair walked (State.walkBlocks_wf (read _) ..)) ..
theorem State.walk_wf (bf full : Bool) (c base stride n : Nat) : (s.walk bf full c base stride n).1.mems.Wf := State.walkGroups_wf h ..
theorem imageVerify_wf (m : Nat) (c : Cmd) : Begun.Wf (imageVerify m c s) := by simp [imageVerify, h]
theorem execImageVerify_wf (m tag : Nat) : (execImageVerify m tag s).Wf := State.begin_wf h m tag _ fun _ => imageVerify_wf h _ _
theorem execImageVerifyDone_wf (m tag : Nat) : (execImageVerifyDone m tag s).Wf := by
  have read (x a n : Nat) : (s.dmaRead x a n).1.mems.Wf := State.dmaRead_wf h _ _ _
  unfold execImageVerifyDone
  split
  · exact h
  split
  · exact h
  dsimp only
  split
  · split <;> (next walked => exact (Mems.Wf.of_pair walked (State.walk_wf h ..)).of_eq (by simp))
  · simp [read]
theorem indexBuild_wf (m : Nat) (c : Cmd) : Begun.Wf (indexBuild m c s) := by simp [indexBuild, h]
theorem execIndexBuild_wf (m tag : Nat) : (execIndexBuild m tag s).Wf := State.begin_wf h m tag _ fun _ => indexBuild_wf h _ _
theorem execIndexBuildDone_wf (m tag : Nat) : (execIndexBuildDone m tag s).Wf := by
  unfold execIndexBuildDone
  split
  · exact h
  split
  · exact h
  dsimp only
  split
  next walked => simpa using Mems.Wf.of_pair walked (State.walk_wf h ..)
  next walked => simpa using Mems.Wf.of_pair walked (State.walk_wf h ..)
  next walked => simpa using State.dmaWrite_wf (Mems.Wf.of_pair walked (State.walk_wf h ..)) _ _ _

/-! ### Scrub and fill (R201, R211, R212) -/

theorem scrubConfig_wf (c : Cmd) : Answer.Wf (scrubConfig c s) := by simp [scrubConfig, h]
theorem execScrubConfig_wf (m tag : Nat) : (execScrubConfig m tag s).Wf := State.run_wf h m tag _ fun _ => scrubConfig_wf h _
theorem execGalleryInit_wf : (execGalleryInit s).Wf := by simp [execGalleryInit, h]
theorem execGalleryInitDone_wf : (execGalleryInitDone s).Wf := by
  have filled (f : Gallery → Gallery) (hf : (f s.gal).mem = []) :
    (s.withGal f).mems.Wf := { h with gal := by simp [State.mems, State.withGal, hf, Mem.nil_wf] }
  simp [execGalleryInitDone, h, filled]
theorem execPatrolScrub_wf (ch err word : Nat) : (execPatrolScrub ch err word s).Wf := by
  have moved (g : Gallery) :
    (if g.scrubPos + 1 < 131072 then { g with scrubPos := g.scrubPos + 1 } else { g with scrubPos := 0, passes :=
      (g.passes + 1) % 8192 }).mem = g.mem := by
    split <;> rfl
  simp [execPatrolScrub, h, moved]

end

end Sys2Proof.Machine
end

-- Memories under streams and the conduit.
section
/-!
PROOFS of 08_gallery.md. Memories under streams and the conduit: rings, markers, tiles and frames.
-/
namespace Sys2Proof.Machine

/-! ### What leaves every memory as it is -/

section
variable {s : State}

@[simp] theorem State.count_mems (s : State) (i : Nat) (f : Counters → Counters) : (s.count i f).mems = s.mems := by simp [State.count]
@[simp] theorem State.streamEvent_mems (s : State) (i cause : Nat) : (s.streamEvent i cause).mems = s.mems := by
  simp only [State.streamEvent]
  split
  · simp
  · split <;> simp
@[simp] theorem State.discard_mems (s : State) (i d k : Nat) : (s.discard i d k).mems = s.mems := by simp [State.discard]
@[simp] theorem State.put_mems (s : State) (i : Nat) (d : Nat) (e : Entry) : (s.put i d e).mems = s.mems := by simp [State.put]
@[simp] theorem State.unitIn_mems (s : State) (i j : Nat) : (s.unitIn i j).mems = s.mems := by simp [State.unitIn]
@[simp] theorem State.fill_mems (k : Nat) (s : State) (i : Nat) : (State.fill k s i).mems = s.mems := by
  induction k generalizing s with
  | zero => rfl
  | succ k ih =>
    simp only [State.fill]
    split
    · rfl
    · split <;> simp [ih]
@[simp] theorem State.credit_mems (s : State) (i : Nat) : (s.credit i).mems = s.mems := State.fill_mems _ _ _
@[simp] theorem State.decode_mems (s : State) (i : Nat) (b : Mica) : (s.decode i b).mems = s.mems := by simp [State.decode]
theorem State.pump_mems {s t : State} {i : Nat} (e : s.pump i = some t) : t.mems = s.mems := by
  revert e
  fun_cases State.pump <;> simp
  all_goals (rintro rfl; simp +zetaDelta)
@[simp] theorem State.pumps_mems (k : Nat) (s : State) (i : Nat) : (State.pumps k s i).mems = s.mems := by
  induction k generalizing s with
  | zero => rfl
  | succ k ih =>
    simp only [State.pumps]
    split
    next pumped => rw [ih, State.pump_mems pumped]
    · rfl
@[simp] theorem State.dropMica_mems (s : State) (i : Nat) : (s.dropMica i).mems = s.mems := by
  unfold State.dropMica
  split <;> simp
@[simp] theorem State.cameraTile_mems (s : State) (camera depth chroma mode count bytes : Nat) (blocks : List (Nat × Option (List Nat))) :
    (s.cameraTile camera depth chroma mode count bytes blocks).mems = s.mems := by
  simp only [State.cameraTile]
  split
  · simp
  · split <;> simp
@[simp] theorem State.receive_mems (s : State) (kind : Nat) (raw : List Byte) : (s.receive kind raw).1.mems = s.mems := by
  simp only [State.receive]
  split
  · split
    · exact State.withFl_mems (f := fun d => { d with frames := _ }) (fun _ => rfl) (fun _ => rfl) (fun _ => rfl) fun _ => rfl
    · rfl
  · simp
@[simp] theorem State.feed_mems (s : State) (i ts k : Nat) (payload : List Byte) (poison : Bool) : (s.feed i ts k payload poison).mems = s.mems := by
  simp [State.feed]
@[simp] theorem State.lose_mems (s : State) (kind source n : Nat) : (s.lose kind source n).mems = s.mems := by simp [State.lose]
@[simp] theorem State.feedAll_mems (s : State) (kind source ts : Nat) (payload : List Byte) (poison : Bool) :
    (s.feedAll kind source ts payload poison).mems = s.mems := by
  simp [State.feedAll]
@[simp] theorem State.standIn_mems (s : State) (kind source ts k : Nat) : (s.standIn kind source ts k).mems = s.mems := by simp [State.standIn]
@[simp] theorem State.acceptFrame_mems (s : State) (f : Frame) (poison : Bool) : (s.acceptFrame f poison).mems = s.mems := by
  simp [State.acceptFrame, ↓State.with_mems]
@[simp] theorem State.disagree_mems (s : State) (f : Frame) : (s.disagree f).mems = s.mems := by
  simp only [State.disagree]
  split
  · simp
  · split <;> simp
@[simp] theorem State.takeOut_mems (s : State) (i : Nat) : (s.takeOut i).mems = s.mems := by
  simp only [State.takeOut]
  split <;> [skip; simp]
  split <;> simp
@[simp] theorem State.refuse_mems (s : State) (i o : Nat) : (s.refuse i o).mems = s.mems := by simp [State.refuse]
@[simp] theorem State.readIdx_mems (s : State) (i r : Nat) : (s.readIdx i r).mems = s.mems := by simp [State.readIdx]
@[simp] theorem State.inBoundary_mems (s : State) (i n : Nat) : (s.inBoundary i n).mems = s.mems := by
  simp only [State.inBoundary]
  split <;> simp

end

section
variable {s : State} (h : s.mems.Wf)
include h

/-! ### STREAM_OPEN (R238, R285, R286) -/

theorem streamOpen_wf (c : Cmd) : Answer.Wf (streamOpen c s) := by
  have bound (qs : List (Nat × Nat)) (f : Queue → Queue) :
      (qs.foldl (fun s q => s.withQueue q.1 q.2 f) s).mems.Wf :=
    h.of_eq (foldl_mems (fun t (q : Nat × Nat) => State.withQueue_mems t q.1 q.2 _) _ _)
  unfold streamOpen
  iterate 2 refine Grants.of_need_bind ?_
  split
  · trivial
  iterate 16 refine Grants.of_need_bind ?_
  have header (t : State) (ht : t.mems.Wf) (c : Prop) [Decidable c] (a b : Nat) (x y : List Byte) :
      (if c then { t with host := (t.host.writeN a x).writeN b y } else t).mems.Wf :=
    State.ite_wf (State.host_wf ht (Mem.writeN_wf (Mem.writeN_wf ht.host))) ht
  refine State.ite_wf (Mems.Wf.of_eq (header _ ?_ _ _ _ _ _) (State.sendFlint_mems _ _ _)) (header _ ?_ _ _ _ _ _)
  all_goals exact (bound _ _).of_eq (State.withStream_mems _ _ _)
theorem execStreamOpen_wf (m tag : Nat) : (execStreamOpen m tag s).Wf := State.run_wf h m tag _ fun _ => streamOpen_wf h _
theorem streamStat_wf (c : Cmd) : Answer.Wf (streamStat c s) := by simp [streamStat, h]
theorem execStreamStat_wf (m tag : Nat) : (execStreamStat m tag s).Wf := State.run_wf h m tag _ fun _ => streamStat_wf h _

/-! ### Camera ingest (R239 to R242) -/

theorem execIngestBlockDeliver_wf (i : Nat) (upset : Bool) : (execIngestBlockDeliver i upset s).Wf := by
  simp only [execIngestBlockDeliver]
  split
  · exact h
  split
  · simp [h]
  split
  next pumped => simp [State.pump_mems pumped, h]
  · simp [h]

/-! ### The conduit receiver (R243 to R245, R248) -/

theorem execSampleFrame_wf (raw : List Byte) (upset : Bool) : (execSampleFrame raw upset s).Wf := by
  unfold execSampleFrame
  split
  · exact h
  · split <;> (next received => simp [Mems.Wf.of_pair received (h.of_eq (State.receive_mems ..))])
theorem execLanternEvent_wf (raw : List Byte) (upset : Bool) : (execLanternEvent raw upset s).Wf := by
  unfold execLanternEvent
  split
  · exact h
  · split <;> (next received => simp [Mems.Wf.of_pair received (h.of_eq (State.receive_mems ..))])
theorem execRecordFrame_wf (raw : List Byte) : (execRecordFrame raw s).Wf := by
  unfold execRecordFrame
  split
  · exact h
  · split <;> (next received => simp [Mems.Wf.of_pair received (h.of_eq (State.receive_mems ..))])
theorem execConduitCopy_wf (kind source seq lost ts : Nat) (payload : List Byte) (poison : Bool) :
    (execConduitCopy kind source seq lost ts payload poison s).Wf := by
  simp [execConduitCopy, ↓State.with_mems, h]
theorem execTwinLate_wf (source ts : Nat) : (execTwinLate source ts s).Wf := by simp [execTwinLate, ↓State.with_mems, h]

/-! ### Host rings (R249 to R253) -/

theorem State.ringPut_wf (i : Nat) (e : Entry) : (s.ringPut i e).mems.Wf :=
  (State.host_wf h (Mem.writeN_wf h.host)).of_eq (State.withStream_mems _ _ _)
theorem State.ringIndex_wf (i : Nat) : (s.ringIndex i).mems.Wf :=
  State.ite_wf h ((State.host_wf h (Mem.writeN_wf h.host)).of_eq (State.withStream_mems _ _ _))
theorem State.putMark_wf (i : Nat) (e : Entry) : (s.putMark i e).mems.Wf := (State.ringPut_wf h i e).of_eq (by simp [State.putMark])
theorem State.flushHeld_wf (i : Nat) : (s.flushHeld i).mems.Wf := by
  unfold State.flushHeld
  split
  · simp [h, State.putMark_wf]
  · exact h
theorem State.mark_wf (i : Nat) (e : Entry) : (s.mark i e).mems.Wf := by
  have flushed : (s.flushHeld i).mems.Wf := State.flushHeld_wf h i
  simp [State.mark, flushed, State.putMark_wf]
theorem State.closeTo_wf (i d : Nat) :
    (s.closeTo i d).mems.Wf := foldl_wf (fun _ _ ht => (State.mark_wf ht i _).of_eq (State.withStream_mems _ _ _)) _ h
theorem State.closeBefore_wf (i o : Nat) : (s.closeBefore i o).mems.Wf := State.ite_wf (State.closeTo_wf h _ _) h
theorem State.putData_wf (i : Nat) (e : Entry) : (s.putData i e).mems.Wf := by
  have put (e : Entry) : (s.ringPut i e).mems.Wf := State.ringPut_wf h i e
  simp [State.putData, put]
theorem State.drain1_wf (i : Nat) : (s.drain1 i).mems.Wf := by
  have closed (o : Nat) : (s.closeBefore i o).mems.Wf := State.closeBefore_wf h i o
  have taken (o : Nat) : ((s.closeBefore i o).takeOut i).mems.Wf := (closed o).of_eq (State.takeOut_mems _ _)
  unfold State.drain1
  split
  · exact h
  · simp [h, closed, State.mark_wf (taken _), State.putData_wf (taken _)]
theorem execRingEntryWrite_wf (i : Nat) : (execRingEntryWrite i s).Wf := by
  simp [execRingEntryWrite, h, State.flushHeld_wf, State.drain1_wf]
theorem execRingWriteIndexUpdate_wf (i : Nat) : (execRingWriteIndexUpdate i s).Wf := by
  simp [execRingWriteIndexUpdate, h, State.ringIndex_wf]
theorem execRingReadIndexRead_wf (i : Nat) (r : Nat) : (execRingReadIndexRead i r s).Wf := by simp [execRingReadIndexRead, h]
theorem execHostLinkReject_wf (i : Nat) : (execHostLinkReject i s).Wf := by simp [execHostLinkReject, h]

/-! ### The drip boundary (R37, R252, R256) -/

theorem State.outBoundary_wf (i n r : Nat) : (s.outBoundary i n r).mems.Wf := by
  have read : (s.readIdx i r).mems.Wf := h.of_eq (State.readIdx_mems ..)
  have marked (l : List (Nat × Nat)) {t : State} (ht : t.mems.Wf) :
      (l.foldl (fun (s : State) (d : Nat × Nat) => (s.closeBefore i d.1).mark i (s.streamMarker i d.1 d.2)) t).mems.Wf :=
    foldl_wf (fun _ _ ht => State.mark_wf (State.closeBefore_wf ht _ _) _ _) l ht
  have flushed : ((s.readIdx i r).flushHeld i).mems.Wf := State.flushHeld_wf read i
  simp only [State.outBoundary]
  split
  · simpa using h
  refine (State.ringIndex_wf ?_ i).of_eq (State.withStream_mems _ _ _)
  split
  · have discarded (l : List Entry) {t : State} (ht : t.mems.Wf) : (l.foldl (fun (s : State) (e : Entry) => s.discard i (near64 n e.origin) 1) t).mems.Wf :=
      foldl_wf (fun _ _ ht => ht.of_eq (State.discard_mems ..)) l ht
    refine State.ite_wf (State.closeTo_wf ?_ _ _) ?_
    all_goals exact (marked _ (discarded _ (flushed.of_eq (State.withQueue_mems ..)))).of_eq (State.withStream_mems _ _ _)
  · exact flushed
theorem State.streamsBoundary_wf (n : Nat) (reads : List (Nat × Nat)) : (s.streamsBoundary n reads).mems.Wf := by
  refine foldl_wf (fun t i ht => ?_) _ h
  have opened := ht.of_eq (t.withStream_mems i fun x => { x with sent := [] })
  exact State.ite_wf ht (State.ite_wf (State.outBoundary_wf opened _ _ _) (opened.of_eq (State.inBoundary_mems ..)))

/-! ### STREAM_CLOSE (R261) -/

theorem State.closeOut_wf (k i : Nat) (ok : Bool) (w d : Nat) : (State.closeOut k s i ok w d).1.mems.Wf := by
  induction k generalizing s ok w d with
  | zero => exact h
  | succ k ih =>
    have taken : (s.takeOut i).mems.Wf := h.of_eq (State.takeOut_mems ..)
    simp only [State.closeOut]
    split
    · exact h
    next e _ =>
    have closed : (if ok then (s.takeOut i).closeBefore i (near64 s.drip.count e.origin) else s.takeOut i).mems.Wf :=
      State.ite_wf (State.closeBefore_wf taken i _) taken
    generalize (if ok then (s.takeOut i).closeBefore i (near64 s.drip.count e.origin) else s.takeOut i) = t at closed ⊢
    have put : (if e.marker then t.putMark i e else t.putData i e).mems.Wf := State.ite_wf (State.putMark_wf closed _ _) (State.putData_wf closed _ _)
    simp only [State.ite_fst_mems, Mems.ite_wf]
    exact ⟨fun _ => ih (closed.of_eq (State.refuse_mems ..)) .., fun _ => ⟨fun _ => ih put .., fun _ => ih closed ..⟩⟩
theorem State.closeStream_wf (i r : Nat) : (s.closeStream i r).1.mems.Wf := by
  have freed (l : List (Nat × Nat)) {t : State} (ht : t.mems.Wf) :
    ((l.foldl (fun s p => (s.discardQueue p.1 p.2).withQueue p.1 p.2 fun w => { w with bind := 0, peer := 0, peerQ :=
      0 }) t).withStream i fun _ => {}).mems.Wf :=
    ht.of_eq (by simp)
  have read : (if (s.stream i).state = 1 then s.readIdx i r else s).mems.Wf := State.ite_wf (h.of_eq (State.readIdx_mems ..)) h
  have flushed := State.ite_wf (c := (s.stream i).state = 1) (State.flushHeld_wf read i) read
  have written (k : Nat) (ok : Bool) (w d : Nat) := State.closeOut_wf flushed k i ok w d
  simp only [State.closeStream]
  split
  · exact freed _ (State.ringIndex_wf (State.ite_wf (State.closeTo_wf (written _ _ _ _) _ _) (written _ _ _ _)) _)
  · exact (freed _ h).of_eq (State.withDev_mems ..)
theorem streamClose_wf (c : Cmd) (r : Nat) : Answer.Wf (streamClose c r s) := by
  simp [streamClose, State.closeStream_wf h]
theorem execStreamClose_wf (m tag r : Nat) : (execStreamClose m tag r s).Wf := State.run_wf h m tag _ fun _ => streamClose_wf h _ _

end

end Sys2Proof.Machine
end

-- Memories under contexts.
section
/-!
PROOFS of 08_gallery.md. Memories under contexts: context commands and checkpoints.
-/
namespace Sys2Proof.Machine

/-! ### What leaves every memory as it is -/

section
variable {s : State}

@[simp] theorem State.drawWords_mems (k : Nat) (s : State) : (State.drawWords k s).1.mems = s.mems := by
  induction k generalizing s with
  | zero => rfl
  | succ k ih => simp [State.drawWords, ih]
@[simp] theorem State.rtcAt_mems (s : State) (t : Nat) : (s.rtcAt t).mems = s.mems := by simp [State.rtcAt]
@[simp] theorem Flint.frame_mems (f : Flint) (kind source ts : Nat) (payload : List Byte) :
    (f.frame kind source ts payload).lan = f.lan ∧ (f.frame kind source ts payload).auth = f.auth ∧
      (f.frame kind source ts payload).boardBuf = f.boardBuf ∧ (f.frame kind source ts payload).image = f.image := by
  unfold Flint.frame
  dsimp only
  split
  · split <;> exact ⟨rfl, rfl, rfl, rfl⟩
  · exact ⟨rfl, rfl, rfl, rfl⟩
@[simp] theorem State.frame_mems (s : State) (kind source ts : Nat) (payload : List Byte) : (s.frame kind source ts payload).mems = s.mems := by
  simp [State.frame]
@[simp] theorem State.flintSay_mems (s : State) (kind tag status : Nat) (body : List W32) : (s.flintSay kind tag status body).mems = s.mems := by
  simp [State.flintSay]
@[simp] theorem State.imageQueues_mems (s : State) (g : Nat) (b : List Byte) : (s.imageQueues g b).mems = s.mems := by simp [State.imageQueues]
@[simp] theorem State.bindQueue_mems (s : State) (g : Nat) (e : BindEnt) : (s.bindQueue g e).mems = s.mems := by simp [State.bindQueue]
@[simp] theorem State.stopNow_mems (s : State) (x : Nat) : (s.stopNow x).mems = s.mems := by simp [State.stopNow]

end

section
variable {s : State} (h : s.mems.Wf)
include h

/-! ### Keys and tags (R70, R342 to R345, R421) -/

theorem State.kcMsg_wf (kind : Nat) (body : List W32) (ctr : Nat) (tag : List W32) {act : State → State}
    (acts : ∀ t : State, t.mems.Wf → (act t).mems.Wf) : (s.kcMsg kind body ctr tag act).Wf := by
  have taken : ((s.takeFlint kind body).withFl fun f => { f with kcCtr := some ctr }).mems.Wf := h.of_eq (by simp)
  simp [State.kcMsg, h, acts _ taken]

/-! ### CTX_CREATE (R215) -/

theorem ctxCreate_wf (c : Cmd) (ch : List Nat) : Answer.Wf (ctxCreate c ch s) := by
  unfold ctxCreate
  refine Grants.of_need_bind ?_
  split
  · trivial
  iterate 10 refine Grants.of_need_bind ?_
  simp [h]
theorem execCtxCreate_wf (m tag : Nat) : (execCtxCreate m tag s).Wf := State.run_wf h m tag _ fun _ => ctxCreate_wf h _ _

/-! ### Images and Pocket windows (R108 to R110, R220) -/

theorem State.readImage_wf (x a : Nat) : (s.readImage x a).1.mems.Wf := by
  have first : (s.dmaRead x a 128).1.mems.Wf := State.dmaRead_wf h _ _ _
  simp [State.readImage, h, first, State.dmaRead_wf first]

/-! ### CTX_BIND (R220, R221, R285, R286) -/

theorem ctxBind_wf (c : Cmd) (ch : List Nat) : Answer.Wf (ctxBind c ch s) := by
  unfold ctxBind
  iterate 5 refine Grants.of_need_bind ?_
  split
  · trivial
  next read =>
  have read := Mems.Wf.of_pair read (State.readImage_wf h _ _)
  iterate 4 refine Grants.of_need_bind ?_
  split
  · trivial
  iterate 5 refine Grants.of_need_bind ?_
  split
  · trivial
  refine Grants.of_need_bind ?_
  simp [read]
theorem execCtxBind_wf (m tag : Nat) : (execCtxBind m tag s).Wf := State.run_wf h m tag _ fun _ => ctxBind_wf h _ _

/-! ### CTX_START (R219, R222, R266) -/

theorem ctxStart_wf (c : Cmd) (ch : List Nat) : Answer.Wf (ctxStart c ch s) := by simp [ctxStart, h]
theorem execCtxStart_wf (m tag : Nat) : (execCtxStart m tag s).Wf := State.run_wf h m tag _ fun _ => ctxStart_wf h _ _

/-! ### CTX_STOP (R223) -/

theorem ctxStop_wf (m : Nat) (c : Cmd) : Begun.Wf (ctxStop m c s) := by simp [ctxStop, h]
theorem execCtxStop_wf (m tag : Nat) : (execCtxStop m tag s).Wf := State.begin_wf h m tag _ fun _ => ctxStop_wf h _ _
theorem execCtxStopComplete_wf (ctx : Nat) : (execCtxStopComplete ctx s).Wf := by
  unfold execCtxStopComplete
  split <;> simp [h]

/-! ### CTX_DESTROY (R226) -/

theorem State.tearDown_wf (x : Nat) (reads : List (Nat × Nat)) : (s.tearDown x reads).mems.Wf := by
  have emptied : ((s.slotsOf x).foldl (fun s z => s.emptySlot z.1 z.2) s).mems.Wf := foldl_wf (fun _ _ ht => State.emptySlot_wf ht _ _) _ h
  have closed (t : State) (ht : t.mems.Wf) := foldl_wf (fun (t : State) (i : Nat) (ht : t.mems.Wf) => State.ite_wf
    (c := (t.stream i).state ≠ 0 ∧ (t.stream i).ctx = x) (State.closeStream_wf ht i ((getKey reads i).getD (t.stream i).rIdx)) ht) (List.range 64) ht
  exact (foldl_wf (fun _ sl ht => State.startZero_wf ht sl) _ (closed _ (emptied.of_eq (by simp)))).of_eq (State.withCtx_mems _ _ _)
theorem ctxDestroy_wf (reads : List (Nat × Nat)) (m : Nat) (c : Cmd) : Begun.Wf (ctxDestroy reads m c s) := by
  simp [ctxDestroy, State.tearDown_wf h]
theorem execCtxDestroy_wf (m tag : Nat) (reads : List (Nat × Nat)) : (execCtxDestroy m tag reads s).Wf :=
  State.begin_wf h m tag _ fun _ => ctxDestroy_wf h _ _ _

/-! ### Checkpoints (R227 to R229) -/

theorem State.slabRec_wf (i : Nat) (e : MapEnt) : (s.slabRec i e).1.mems.Wf := by
  unfold State.slabRec
  generalize 2 ^ 20 = n
  dsimp only
  split
  · exact State.dmaReadP_wf h _ _
  · exact h
theorem State.ckptRaw_wf (x : Nat) : (s.ckptRaw x).1.mems.Wf := by
  have records (l : List (Nat × MapEnt)) :
    (l.foldl (fun (r : State × List Byte) e => ((r.1.slabRec e.1 e.2).1, r.2 ++ (r.1.slabRec e.1 e.2).2)) (s, [])).1.mems.Wf :=
    foldl_fst_wf (r := (s, [])) (fun _ e hr => by exact State.slabRec_wf hr e.1 e.2) l h
  simp only [State.ckptRaw]
  exact records _
theorem ckptSave_wf (m : Nat) (c : Cmd) : Begun.Wf (ckptSave m c s) := by simp [ckptSave, h]
theorem execCtxCheckpointSave_wf (m tag : Nat) : (execCtxCheckpointSave m tag s).Wf := by
  unfold execCtxCheckpointSave
  split
  · exact h
  · exact (Out.ite_wf _ _ _).mpr ⟨fun _ => h, fun _ => State.begin_wf h m tag _ fun _ => ckptSave_wf h _ _⟩
theorem ckptRestore_wf (m : Nat) (ch : List Nat) (c : Cmd) : Begun.Wf (ckptRestore m ch c s) := by simp [ckptRestore, h]
theorem execCtxCheckpointRestore_wf (m tag : Nat) : (execCtxCheckpointRestore m tag s).Wf := by
  unfold execCtxCheckpointRestore
  split
  · exact h
  · exact (Out.ite_wf _ _ _).mpr ⟨fun _ => State.begin_wf h m tag _ fun _ => ckptRestore_wf h _ _ _, fun _ => h⟩
theorem State.ckptImage_wf (x : Nat) (slabs : List SlabIn) (a n : Nat) : (s.ckptImage x slabs a n).1.mems.Wf := by
  unfold State.ckptImage
  split
  · exact h
  · split
    · exact State.dmaRead_wf h _ _ _
    · exact h
theorem State.restoreSlot_wf (x : Nat) (imgs : List (Nat × Nat × Nat)) (r : List Byte × List Byte) : (s.restoreSlot x imgs r).mems.Wf := by
  have read (a n : Nat) : ((s.dmaRead x a 128).1.dmaRead x a n).1.mems.Wf := State.dmaRead_wf (State.dmaRead_wf h _ _ _) _ _ _
  have ended (t : State) (ht : t.mems.Wf) (k n g a : Nat) (b : List Byte) :
      (if k = n then t.withGeode g fun d => { d with pocket := (d.pocket.clear a b.length).writeN a b, poison := writeMarks d.poison a b.length false }
        else t).mems.Wf :=
    State.ite_wf (State.withGeode_wf ht fun _ hd => Mem.writeN_wf (Mem.clear_wf hd)) ht
  simp only [State.restoreSlot]
  refine ended _ ?_ _ _ _ _ _
  refine Mems.Wf.of_eq ?_ (foldl_mems (fun t q => ?_) _ _)
  · rw [State.withSlot_mems, State.imageQueues_mems, State.withSlot_mems]
    exact read _ _
  · split
    · split <;> simp
    · rfl
theorem State.endRestore_wf (m : Nat) (c : Cmd) (data : List Byte) (ch : List Nat) : (s.endRestore m c data ch).mems.Wf := by
  have checked (used : List (Nat × Nat × Nat)) (slabs : List SlabIn) : (used.foldl (fun (r : State × List Bool) i =>
      ((r.1.ckptImage (ctxField c) slabs (i.1 + 68) 4).1, r.2 ++ [imgField (r.1.ckptImage (ctxField c) slabs (i.1 + 68) 4).2 0 4 == i.2.2])) (s, [])).1.mems.Wf :=
    foldl_fst_wf (r := (s, [])) (fun _ _ hr => by exact State.ckptImage_wf hr _ _ _ _) _ h
  simp only [State.endRestore]
  split
  · simpa using h
  split
  · simpa using h
  split
  · simpa using checked _ _
  split
  · simpa using checked _ _
  · rw [State.finish_mems, State.withCtx_mems]
    refine foldl_wf (fun t r ht => State.restoreSlot_wf ht _ _ r) _ (foldl_wf (fun t z ht => ?_) _ (checked _ _))
    exact State.dmaWriteP_wf (ht.of_eq (by simp [Gallery.withSlab])) _ _
theorem State.endSave_wf (m : Nat) (c : Cmd) (failed : Option Nat) : (s.endSave m c failed).mems.Wf := by
  have written (b : List Byte) :
    ({ (s.ckptRaw (ctxField c)).1 with host :=
      (s.ckptRaw (ctxField c)).1.host.writeN ((s.ckptRaw (ctxField c)).1.ctx (ctxField c)).ckAddr b } : State).mems.Wf :=
    State.host_wf (State.ckptRaw_wf h _) (Mem.writeN_wf (State.ckptRaw_wf h _).host)
  unfold State.endSave
  dsimp only
  split <;> simp [written]
theorem execDmaTransferDone_wf (m tag : Nat) (data : List Byte) (failed : Option Nat) : (execDmaTransferDone m tag data failed s).Wf := by
  simp only [execDmaTransferDone]
  split
  · exact State.endIn_wf h ..
  · exact State.endIn_wf h ..
  · exact State.endOut_wf h ..
  · split
    · split
      · simp [h]
      · exact State.endRestore_wf h ..
    · exact State.endSave_wf h ..
  · exact h

end

end Sys2Proof.Machine
end

-- Memories under the registers.
section
/-!
PROOFS of 08_gallery.md. Memories under the registers: reads and writes by requester, power requests.
-/
namespace Sys2Proof.Machine

/-! ### What leaves every memory as it is -/

section
variable {s : State}

@[simp] theorem State.readEffect_mems (s : State) (who : Nat) (r : Reg) : (s.readEffect who r).mems = s.mems := by
  fun_cases State.readEffect <;> simp
@[simp] theorem State.readReg_mems (s : State) (who : Nat) (r : Reg) : (s.readReg who r).1.mems = s.mems := by simp [State.readReg]
@[simp] theorem State.twinEvent_mems (s : State) : (s.twinEvent).mems = s.mems := by simp [State.twinEvent]
@[simp] theorem State.setHold_mems (s : State) (b : Bool) : (s.setHold b).mems = s.mems := by simp [State.setHold]
theorem State.geodes_mems {s : State} {f : Geode → Geode} (keeps : ∀ d, (f d).pocket = d.pocket) :
    ({ s with geodes := s.geodes.map f } : State).mems = s.mems := by
  simp [State.mems, Function.comp_def, keeps]
@[simp] theorem State.endCdSession_mems (s : State) (reason : Nat) : (s.endCdSession reason).mems = s.mems := by
  have running := State.geodes_mems (s := s) (f := fun d => { d with halted := false, step := false }) fun _ => rfl
  simp [State.endCdSession, running]
@[simp] theorem State.writeCic_mems (s : State) (who b v : Nat) (r : Reg) : (s.writeCic who b v r).mems = s.mems := by
  fun_cases State.writeCic <;> simp
@[simp] theorem State.pwrEvent_mems (s : State) : (s.pwrEvent).mems = s.mems := by simp [State.pwrEvent]
@[simp] theorem State.rollback_mems (s : State) (outcome block cause : Nat) : (s.rollback outcome block cause).mems = s.mems := by
  unfold State.rollback
  split <;> simp
@[simp] theorem State.ackWakes_mems (s : State) (bits : Nat) : (s.ackWakes bits).mems = s.mems := by simp [State.ackWakes]
@[simp] theorem State.abortWake_mems (s : State) (bits : Nat) : (s.abortWake bits).mems = s.mems := by simp [State.abortWake]
@[simp] theorem State.answerCommit_mems (s : State) : (s.answerCommit).mems = s.mems := by simp [State.answerCommit]
@[simp] theorem State.wakeActs_mems (s : State) : (s.wakeActs).mems = s.mems := by
  unfold State.wakeActs
  split <;> simp
@[simp] theorem State.raiseLevel_mems (s : State) (k : Nat) : (s.raiseLevel k).mems = s.mems := by simp [State.raiseLevel]
@[simp] theorem State.dropLevel_mems (s : State) (k : Nat) : (s.dropLevel k).mems = s.mems := by simp [State.dropLevel]
@[simp] theorem State.raiseEdge_mems (s : State) (k : Nat) : (s.raiseEdge k).mems = s.mems := by simp [State.raiseEdge]
@[simp] theorem State.askBlock_mems (s : State) (b target : Nat) (busy : List Nat) (again : Bool) :
    (s.askBlock b target busy again).1.mems = s.mems := by
  unfold State.askBlock
  split <;> simp [↓State.with_mems]
@[simp] theorem State.startPending_mems (s : State) : (s.startPending).mems = s.mems := by simp [State.startPending]
@[simp] theorem State.refused_mems (s : State) (b cause : Nat) : (s.refused b cause).mems = s.mems := by simp [State.refused]
@[simp] theorem State.askFrom_mems (k : Nat) (s : State) (b : Nat) (busy : List Nat) (again : Bool) :
    (State.askFrom k s b busy again).mems = s.mems := by
  induction k generalizing s b again with
  | zero => rfl
  | succ k ih =>
    have asked (t : Nat) : (if b = 1 then (s, Verdict.delay) else s.askBlock b t busy again).1.mems = s.mems := by simp
    simp only [State.askFrom]
    split
    · rfl
    split
    · simp
    split
    · simp
    split
    · exact ih ..
    next t _ _ _ _ =>
    have asked := asked t
    generalize (if b = 1 then (s, Verdict.delay) else s.askBlock b t busy again) = p at asked ⊢
    split
    · simpa using asked
    · simpa using asked
    · split
      · simpa using asked
      · rw [ih]
        exact asked
@[simp] theorem State.latchPads_mems (s : State) : (s.latchPads).mems = s.mems := by simp [State.latchPads]

end

section
variable {s : State} (h : s.mems.Wf)
include h

/-! ### Operations that a write starts -/

theorem State.writeGReg_wf (g v : Nat) (r : GReg) : (s.writeGReg g v r).mems.Wf := by
  unfold State.writeGReg
  split
  all_goals simp [h, State.setSlotState_wf, apply_ite Geode.pocket]
theorem State.writeReg_wf (who : Nat) (r : Reg) (v : Nat) : (s.writeReg who r v).mems.Wf := by
  unfold State.writeReg
  split
  · exact h
  split
  all_goals simp [h, State.writeGReg_wf, apply_ite Sec.sram]

/-! ### The rows -/

theorem execFcuHoldWrite_wf (b : Bool) : (execFcuHoldWrite b s).Wf := by simp [execFcuHoldWrite, h]
theorem execFcuResultWrite_wf (b : Bool) : (execFcuResultWrite b s).Wf := by simp [execFcuResultWrite, h]
theorem execSecGalKeyWrite_wf (n : Nat) (w : W32) : (execSecGalKeyWrite n w s).Wf := State.writeReg_wf h ..
theorem execFwLockWrite_wf : (execFwLockWrite s).Wf := by simp [execFwLockWrite, h]
theorem execCicIpi_wf (req : Nat) (v : Nat) : (execCicIpi req v s).Wf := State.writeReg_wf h ..
theorem execDoorbell_wf (b v : Nat) : (execDoorbell b v s).Wf := State.writeReg_wf h ..
theorem execMachineTimer_wf (b : Nat) : (execMachineTimer b s).Wf := h

end

end Sys2Proof.Machine
end

-- Memories under Flint.
section
/-!
PROOFS of 08_gallery.md. Memories under Flint: weighing, Lantern, records, modes and resets.
-/
namespace Sys2Proof.Machine

/-! ### What leaves every memory as it is -/

section
variable {s : State}

@[simp] theorem Flint.compare_mems (f : Flint) (drip index : Nat) (twin : Int) :
    (f.compare drip index twin).lan = f.lan ∧ (f.compare drip index twin).auth = f.auth ∧ (f.compare drip index twin).boardBuf = f.boardBuf ∧
    (f.compare drip index twin).image = f.image := by
  fun_cases Flint.compare <;> simp
@[simp] theorem Flint.notice_mems (f : Flint) (drip index : Nat) (twin : Int) :
    (f.notice drip index twin).lan = f.lan ∧ (f.notice drip index twin).auth = f.auth ∧ (f.notice drip index twin).boardBuf = f.boardBuf ∧
    (f.notice drip index twin).image = f.image := by
  fun_cases Flint.notice <;> simp
@[simp] theorem Flint.zeroing_mems (f : Flint) (w : Weigh) :
    ((f.zeroing w).1).lan = f.lan ∧ ((f.zeroing w).1).auth = f.auth ∧ ((f.zeroing w).1).boardBuf = f.boardBuf ∧
    ((f.zeroing w).1).image = f.image := by
  fun_cases Flint.zeroing <;> simp
@[simp] theorem Flint.boundary_mems (f : Flint) (initial : Bool) :
    (f.boundary initial).lan = f.lan ∧ (f.boundary initial).auth = f.auth ∧ (f.boundary initial).boardBuf = f.boardBuf ∧
    (f.boundary initial).image = f.image := by
  fun_cases Flint.boundary <;> exact ⟨rfl, rfl, rfl, rfl⟩
@[simp] theorem State.fire_mems (s : State) (st ts : Nat) (x : Nat × Rule) : (s.fire st ts x).mems = s.mems := by simp [State.fire]
@[simp] theorem Lan.sample_bufs (l : Lan) (st : Nat) (f : List Int) : (l.sample st f).1.bufs = l.bufs := rfl
@[simp] theorem Lan.boundary_bufs (l : Lan) : l.boundary.1.bufs = l.bufs := by
  unfold Lan.boundary
  dsimp only
  split <;> rfl
@[simp] theorem State.lantern_mems (s : State) (codes : List Int) (w : Weigh) (reads : List (Nat × Nat × List Byte)) (skip : Bool) (ts : Nat) :
    (s.lantern codes w reads skip ts).mems = s.mems := by
  simp only [State.lantern]
  split
  · simp
  · rw [foldl_mems fun t x => State.fire_mems t _ _ x]
    exact State.withFl_mems_at rfl rfl rfl rfl
@[simp] theorem State.lanStatus_mems (s : State) (ts k : Nat) : (s.lanStatus ts k).mems = s.mems := by simp [State.lanStatus]
@[simp] theorem State.drop_mems (s : State) (new : List (List Int)) (volts : Nat) (reads' : List (Nat × Nat × List Byte)) (skip : Bool) :
    (s.drop new volts reads' skip).mems = s.mems := by
  unfold State.drop
  extract_lets f codes reads w ts key x note f1 f2 flags on rises makes gross item
  have compared : f2.lan = f.lan ∧ f2.auth = f.auth ∧ f2.boardBuf = f.boardBuf ∧ f2.image = f.image := by
    cases e : note <;> simp [f2, e, f1]
  clear_value f2 makes item flags
  obtain ⟨lan, auth, board, image⟩ := compared
  have zeroed := Flint.zeroing_mems f2 w
  generalize f2.zeroing w = z at zeroed ⊢
  obtain ⟨f3, initial⟩ := z
  dsimp -zeta only at zeroed ⊢
  extract_lets s1 s2 sent s3 s4 s5
  have weighed :
    s1.mems = s.mems :=
      State.withFl_mems_at (by simp [zeroed, lan, f]) (by simp [zeroed, auth, f]) (by simp [zeroed, board, f]) (by simp [zeroed, image, f])
  clear_value s1
  have noticed : s2.mems = s.mems := by simp [s2, weighed]
  clear_value s2
  have framed : s3.mems = s.mems := by simp [s3, sent, noticed]
  clear_value s3
  have sampled : s4.mems = s.mems := by simp [s4, framed]
  clear_value s4
  have stepped : s5.mems = s.mems := by
    refine (State.withFl_mems_at ?_ ?_ ?_ ?_).trans sampled <;> dsimp only <;> split_ifs <;> simp
  simp [stepped]
@[simp] theorem State.rtcLatch_mems (s : State) (stamp : Nat) : (s.rtcLatch stamp).mems = s.mems := by simp [State.rtcLatch]
@[simp] theorem Flint.audits_mems (f : Flint) (ts kind v ident value : Nat) :
    (f.audits ts kind v ident value).lan = f.lan ∧ (f.audits ts kind v ident value).auth = f.auth ∧
    (f.audits ts kind v ident value).boardBuf = f.boardBuf ∧ (f.audits ts kind v ident value).image = f.image := by
  simp [Flint.audits]
@[simp] theorem State.change_mems (s : State) (kind v ident value : Nat) : (s.change kind v ident value).mems = s.mems := rfl
@[simp] theorem State.endSession_mems (s : State) (die reason : Nat) : (s.endSession die reason).mems = s.mems := by
  unfold State.endSession
  split <;> simp

end

section
variable {s : State} (h : s.mems.Wf)
include h

/-! ### The drop (R40, R41, R243, R319, R327) -/

theorem execFlintDropSample_wf (codes : List (List Int)) (volts : Nat) (reads : List (Nat × Nat × List Byte)) (skip : Bool) :
    (execFlintDropSample codes volts reads skip s).Wf := by
  simp [execFlintDropSample, h]
theorem execRtcWake_wf (codes : List (List Int)) (volts : Nat) (reads : List (Nat × Nat × List Byte)) : (execRtcWake codes volts reads s).Wf := by
  have cleared (t : State) (c : Bool) :
    (if c then (t.withFl fun f => { f with brown := false }).raiseLevel 10 else t).mems = t.mems := by split <;> simp
  simp only [execRtcWake]
  split
  · exact h
  split
  · exact h.of_eq (by simp)
  · refine h.of_eq ((State.withLan_mems fun _ => rfl).trans ((cleared _ _).trans ((State.drop_mems ..).trans ?_)))
    exact (State.withFl_mems_at (Lan.boundary_bufs _) rfl rfl rfl).trans (by simp)

/-! ### Weight records (R327 to R330) -/

theorem execWeightRecordDecision_wf : (execWeightRecordDecision s).Wf := by
  simp only [execWeightRecordDecision]
  split <;> simp [h]
theorem execWeightRecordSigned_wf : (execWeightRecordSigned s).Wf := by
  unfold execWeightRecordSigned
  split <;> simp [h]

/-! ### Timing (R40, R41) -/

theorem execTiming_wf (body : List W32) (ctr : Nat) (tag : List W32) (rtc : Nat) : (execTiming body ctr tag rtc s).Wf :=
  State.kcMsg_wf h _ _ _ _ fun t ht => ht.of_eq (by simp)
theorem execTimingHoldover_wf : (execTimingHoldover s).Wf := by simp [execTimingHoldover, h]

/-! ### Keys and modes (R344, R345) -/

theorem execHello_wf : (execHello s).Wf := by simp [execHello, h]
theorem execModeMsg_wf (body : List W32) (ctr : Nat) (tag : List W32) : (execModeMsg body ctr tag s).Wf :=
  State.kcMsg_wf h _ _ _ _ fun t ht => ht.of_eq (by simp)
theorem execPairCertificate_wf (body : List W32) (ctr : Nat) (tag : List W32) (certOk : Bool) : (execPairCertificate body ctr tag certOk s).Wf :=
  State.kcMsg_wf h _ _ _ _ fun t ht => ht.of_eq (State.withFl_mems_at (by split <;> rfl) (by split <;> rfl) (by split <;> rfl) (by split <;> rfl))
theorem execPairTwinCmp_wf (body : List W32) (ctr : Nat) (tag : List W32) : (execPairTwinCmp body ctr tag s).Wf :=
  State.kcMsg_wf h _ _ _ _ fun t ht => ht.of_eq (by simp)
theorem execTwinCmpRelay_wf (body : List W32) : (execTwinCmpRelay body s).Wf := by simp [execTwinCmpRelay, ↓State.with_mems, h]

/-! ### CAL_EN_N (R335, R337) -/

theorem execCalEnNAsserted_wf : (execCalEnNAsserted s).Wf := by simp [execCalEnNAsserted, h]
theorem execCalEnNDeasserted_wf : (execCalEnNDeasserted s).Wf := by simp [execCalEnNDeasserted, h]

/-! ### Flint resets (R348, R350, R351) -/

theorem State.flintReset_wf : s.flintReset.mems.Wf := by
  have lost (t : State) (f : Flint → Flint) (ht : t.mems.Wf) (bufs : (f t.fl).lan.bufs = [[], []]) (auth : (f t.fl).auth = []) (board : (f t.fl).boardBuf = [])
      (image : (f t.fl).image = []) : (t.withFl f).mems.Wf :=
    { ht with
      bufs := by simp [State.mems, State.withFl, bufs, Mem.nil_wf]
      auth := by simp [State.mems, State.withFl, auth, Mem.nil_wf]
      boardBuf := by simp [State.mems, State.withFl, board, Mem.nil_wf]
      image := by simp [State.mems, State.withFl, image, Mem.nil_wf] }
  have ended : (s.endSession 1 5).mems.Wf := h.of_eq (State.endSession_mems ..)
  simp only [State.flintReset]
  split
  · rw [State.flintSay_mems]
    exact lost _ _ ended rfl rfl rfl rfl
  · exact lost _ _ ended rfl rfl rfl rfl
theorem execFlintReset_wf : (execFlintReset s).Wf := by simp [execFlintReset, h, State.flintReset_wf]
theorem execBrownout_wf : (execBrownout s).Wf := by simp [execBrownout, h, State.flintReset_wf]

end

end Sys2Proof.Machine
end

-- Memories under metrology and device commands.
section
/-!
PROOFS of 08_gallery.md. Memories under metrology and device commands: metrology answers, chunks, the board record.
-/
namespace Sys2Proof.Machine

/-! ### What leaves every memory as it is -/

section
variable {s : State}

@[simp] theorem State.metAnswer_mems (s : State) (key : Option (List Byte)) (c : Cmd) (status : Nat) (body : List W32) (ctr : W32) :
    (s.metAnswer key c status body ctr).mems = s.mems := by
  unfold State.metAnswer
  split <;> simp
@[simp] theorem Grants.metNeed_iff (p : Unit → Prop) (b : Bool) (e : Nat) : Grants p (metNeed b e) ↔ (b = true → p ()) := by
  cases b <;> simp [metNeed]
/-- What a metrology command answers has its memories in form. -/
abbrev MetAns.Wf (r : MetAns) : Prop := Grants (fun x => x.1.mems.Wf) r
@[simp] theorem State.sendChunks_mems (s : State) (kind op k : Nat) (data : List Byte) : (s.sendChunks kind op k data).mems = s.mems :=
  foldl_mems (fun t b => State.sendFlint_mems t kind b) _ _
@[simp] theorem State.acceptBoard_mems (s : State) (b : Board) : (s.acceptBoard b).mems = s.mems := by simp [State.acceptBoard, ↓State.with_mems]
@[simp] theorem State.boardAnswer_mems (s : State) (status : Nat) : (s.boardAnswer status).mems = s.mems := by
  unfold State.boardAnswer
  split <;> simp
@[simp] theorem State.modelAnswer_mems (s : State) (status : Nat) (body : List W32) : (s.modelAnswer status body).mems = s.mems := by
  unfold State.modelAnswer
  split <;> simp
theorem upd_writeN_wf {l : List Mem} (hl : ∀ b ∈ l, Mem.wf b = true) (i o : Nat) (bytes : List Byte) :
    ∀ b ∈ upd l i fun m => m.writeN o bytes, Mem.wf b = true :=
  List.all_eq_true.mp (upd_all_of (List.all_eq_true.mpr hl) fun _ => Mem.writeN_wf)

end

section
variable {s : State} (h : s.mems.Wf)
include h

/-! ### Relay and answer (R69, R70, R341, R343) -/

theorem State.metRun_wf (m tag op : Nat) (sel : Cmd → Bool) {body : List Nat → State → MetAns}
    (runs : ∀ b (t : State), t.mems.Wf → MetAns.Wf (body b t)) : (s.metRun m tag op sel body).Wf := by
  unfold State.metRun
  split
  · exact h
  split
  · exact h
  split
  · simp [h]
  next c _ _ _ _ =>
  dsimp only
  split
  · exact h
  split
  · simp [h]
  have counted : ((s.setPhase m c 1 []).withFl fun f => { f with kmCtr := (c.words.getD (c.words.length - 5) 0).toNat }).mems.Wf := h.of_eq (by simp)
  have ran := runs ((c.words.take (c.words.length - 5)).map fun w => w.toNat) _ counted
  split
  · exact counted.of_eq (State.metAnswer_mems ..)
  next e =>
    rw [e] at ran
    exact Mems.Wf.of_eq ran (State.metAnswer_mems ..)
theorem execFlintResponseRelay_wf (m tag : Nat) : (execFlintResponseRelay m tag s).Wf := by
  unfold execFlintResponseRelay
  split
  · exact h
  split
  · exact h
  · exact h.of_eq (State.withMbx_mems ..)
theorem execMetrologyTimeout_wf (m tag : Nat) : (execMetrologyTimeout m tag s).Wf := by
  unfold execMetrologyTimeout
  split <;> simp [↓State.with_mems, h]

/-! ### MET_READ (R331) -/

theorem metRead_wf (b : List Nat) : MetAns.Wf (metRead b s) := by
  simp only [metRead, Grants.bind_iff, Grants.metNeed_iff]
  intro _
  split
  · trivial
  · exact h
theorem execMetRead_wf (m tag : Nat) : (execMetRead m tag s).Wf :=
  State.metRun_wf h m tag _ _ fun _ _ ht => metRead_wf ht _

/-! ### MET_PARAM_SET (R332 to R334) -/

theorem metParamSet_wf (b : List Nat) : MetAns.Wf (metParamSet b s) := by
  simp [metParamSet, h]
theorem execMetParamSet_wf (m tag : Nat) : (execMetParamSet m tag s).Wf :=
  State.metRun_wf h m tag _ _ fun _ _ ht => metParamSet_wf ht _
theorem metTare_wf (b : List Nat) : MetAns.Wf (metTare b s) := by
  simp [metTare, h]
theorem execTare_wf (m tag : Nat) : (execTare m tag s).Wf :=
  State.metRun_wf h m tag _ _ fun _ _ ht => metTare_wf ht _
theorem metZero_wf (b : List Nat) : MetAns.Wf (metZero b s) := by
  simp [metZero, h]
theorem execZero_wf (m tag : Nat) : (execZero m tag s).Wf :=
  State.metRun_wf h m tag _ _ fun _ _ ht => metZero_wf ht _
theorem metKeyGeneration_wf (b : List Nat) : MetAns.Wf (metKeyGeneration b s) := by
  simp [metKeyGeneration, h]
theorem execKeyGeneration_wf (m tag : Nat) : (execKeyGeneration m tag s).Wf :=
  State.metRun_wf h m tag _ _ fun _ _ ht => metKeyGeneration_wf ht _

/-! ### MET_CAL (R335, R336) -/

theorem metCalStart_wf (b : List Nat) : MetAns.Wf (metCalStart b s) :=
  Grants.of_bind fun _ => by simp [h]
theorem execMetCalStart_wf (m tag : Nat) : (execMetCalStart m tag s).Wf :=
  State.metRun_wf h m tag _ _ fun _ _ ht => metCalStart_wf ht _
theorem metCalCapture_wf (b : List Nat) : MetAns.Wf (metCalCapture b s) := by
  refine Grants.of_bind fun _ => ?_
  dsimp only
  split
  · trivial
  · simp [h]
theorem execMetCalCapture_wf (m tag : Nat) : (execMetCalCapture m tag s).Wf :=
  State.metRun_wf h m tag _ _ fun _ _ ht => metCalCapture_wf ht _
theorem metCalCommit_wf (volts : Nat) (b : List Nat) : MetAns.Wf (metCalCommit volts b s) := by
  refine Grants.of_bind fun _ => ?_
  dsimp only
  split
  · trivial
  · simp [h]
theorem execMetCalCommit_wf (m tag : Nat) (volts : Nat) : (execMetCalCommit m tag volts s).Wf :=
  State.metRun_wf h m tag _ _ fun _ _ ht => metCalCommit_wf ht _ _
theorem metCalAbort_wf (b : List Nat) : MetAns.Wf (metCalAbort b s) := by
  refine Grants.of_bind fun _ => ?_
  split
  · trivial
  · simp [h]
theorem execMetCalAbort_wf (m tag : Nat) : (execMetCalAbort m tag s).Wf :=
  State.metRun_wf h m tag _ _ fun _ _ ht => metCalAbort_wf ht _

/-! ### The audit trail (R339, R340) -/

theorem metLogRead_wf (b : List Nat) : MetAns.Wf (metLogRead b s) := by
  simp [metLogRead, h]
theorem execMetLogRead_wf (m tag : Nat) : (execMetLogRead m tag s).Wf :=
  State.metRun_wf h m tag _ _ fun _ _ ht => metLogRead_wf ht _
theorem metLogAck_wf (b : List Nat) : MetAns.Wf (metLogAck b s) := by
  simp [metLogAck, h]
theorem execMetLogAck_wf (m tag : Nat) : (execMetLogAck m tag s).Wf :=
  State.metRun_wf h m tag _ _ fun _ _ ht => metLogAck_wf ht _

/-! ### IDENTIFY (R74, R279) -/

theorem execIdentify_wf (m tag : Nat) : (execIdentify m tag s).Wf := State.run_wf h m tag _ fun _ => by simp [h]

/-! ### The board record (R280, R447, R448) -/

theorem boardRecord_wf (data : List Byte) (failed : Option Nat) (sigOk : Bool) (m : Nat) (c : Cmd) :
    Begun.Wf (boardRecord data failed sigOk m c s) := by
  simp only [boardRecord]
  split <;> simp [h]
theorem execBoardRecord_wf (m tag : Nat) (data : List Byte) (failed : Option Nat) (sigOk : Bool) : (execBoardRecord m tag data failed sigOk s).Wf :=
  (Out.ite_wf _ _ _).mpr ⟨fun _ => h, fun _ => State.begin_wf h m tag _ fun _ => boardRecord_wf h _ _ _ _ _⟩

/-! ### GET_STATUS (R281) -/

theorem execGetStatus_wf (m tag : Nat) : (execGetStatus m tag s).Wf := State.run_wf h m tag _ fun _ => by simp [h]

/-! ### LAN_MODEL_LOAD and LAN_RULES (R288, R357, R358) -/

theorem lanModelLoad_wf (data : List Byte) (failed : Option Nat) (m : Nat) (c : Cmd) : Begun.Wf (lanModelLoad data failed m c s) := by
  simp [lanModelLoad, h]
theorem execLanModelLoad_wf (m tag : Nat) (data : List Byte) (failed : Option Nat) : (execLanModelLoad m tag data failed s).Wf :=
  State.begin_wf h m tag _ fun _ => lanModelLoad_wf h _ _ _ _
theorem execLanRules_wf (m tag : Nat) : (execLanRules m tag s).Wf := State.run_wf h m tag _ fun _ => by simp [h]

/-! ### LANTERN messages at Flint (R358, R449) -/

/-- A write to the model buffers of Lantern. -/
theorem State.withLan_wf {f : Lan → Lan} (keeps : ∀ l : Lan, (∀ b ∈ l.bufs, Mem.wf b = true) → ∀ b ∈ (f l).bufs, Mem.wf b = true) :
    (s.withLan f).mems.Wf :=
  { h with bufs := keeps _ h.bufs }
theorem execLanternChunk_wf (body : List W32) (ctr : Nat) (tag : List W32) : (execLanternChunk body ctr tag s).Wf :=
  State.kcMsg_wf h _ _ _ _ fun _ ht => State.ite_wf (State.withLan_wf ht fun _ hl => upd_writeN_wf hl _ _ _) ht
theorem execLanternCommit_wf (body : List W32) (ctr : Nat) (tag : List W32) : (execLanternCommit body ctr tag s).Wf :=
  State.kcMsg_wf h _ _ _ _ fun t ht => ht.of_eq (by simp)
theorem execLanternRules_wf (body : List W32) (ctr : Nat) (tag : List W32) : (execLanternRules body ctr tag s).Wf :=
  State.kcMsg_wf h _ _ _ _ fun t ht => ht.of_eq (by simp)
theorem execLanternReport_wf (body : List W32) (ctr : Nat) (tag : List W32) : (execLanternReport body ctr tag s).Wf :=
  State.kcMsg_wf h _ _ _ _ fun t ht => ht.of_eq (by simp)
theorem execLanternBoard_wf (body : List W32) (ctr : Nat) (tag : List W32) (sigOk : Bool) : (execLanternBoard body ctr tag sigOk s).Wf := by
  refine State.kcMsg_wf h _ _ _ _ fun t ht => ?_
  have applied (u : State) (r : Board) :
    (u.withFl fun f => if f.timed then { f with boardNext := some r } else { f with board := some r }).mems = u.mems :=
    State.withFl_mems_at (by split <;> rfl) (by split <;> rfl) (by split <;> rfl) (by split <;> rfl)
  dsimp only
  have stored : (if (chunkOf body).1 + (chunkOf body).2.length ≤ 16384 then
      t.withFl fun f => { f with boardBuf := f.boardBuf.writeN (chunkOf body).1 (chunkOf body).2 } else t).mems.Wf :=
    State.ite_wf { ht with boardBuf := Mem.writeN_wf ht.boardBuf } ht
  generalize (if (chunkOf body).1 + (chunkOf body).2.length ≤ 16384 then
      t.withFl fun f => { f with boardBuf := f.boardBuf.writeN (chunkOf body).1 (chunkOf body).2 } else t) = u at stored ⊢
  split
  · exact stored
  split
  · simpa using stored
  split
  · simpa using stored
  · rw [State.flintSay_mems, applied]
    exact stored

end

end Sys2Proof.Machine
end

-- Memories under resets and power states.
section
/-!
PROOFS of 08_gallery.md. Memories under resets and power states: entry, commit and the resets of the compute die.
-/
namespace Sys2Proof.Machine

/-! ### What leaves every memory as it is -/

section
variable {s : State}

@[simp] theorem State.flintSees_mems (s : State) (reason : Nat) : (s.flintSees reason).mems = s.mems := by simp [State.flintSees]
@[simp] theorem State.dropRecords_mems (s : State) : (s.dropRecords).mems = s.mems := by simp [State.dropRecords, ↓State.with_mems]
@[simp] theorem State.reverseNow_mems (s : State) : (s.reverseNow).mems = s.mems := by simp [State.reverseNow]
@[simp] theorem State.quietClk_mems (s : State) (d k : Nat) : (s.quietClk d k).mems = s.mems := by simp [State.quietClk]
@[simp] theorem State.twinAgrees_mems (s : State) (busy : List Nat) : (s.twinAgrees busy).mems = s.mems := by
  simp only [State.twinAgrees]
  split <;> simp
@[simp] theorem State.commitShallow_mems (s : State) (t : Nat) : (s.commitShallow t).mems = s.mems := by simp [State.commitShallow]
@[simp] theorem Flint.commit_mems (f : Flint) (t : Nat) : (f.commit t).lan.bufs = f.lan.bufs ∧ (f.commit t).auth = f.auth ∧
    (f.commit t).boardBuf = f.boardBuf ∧ (f.commit t).image = f.image := by
  unfold Flint.commit
  split <;> exact ⟨rfl, rfl, rfl, rfl⟩
@[simp] theorem State.setPin_mems (s : State) (n : Nat) (level : Bool) : (s.setPin n level).mems = s.mems := by simp [State.setPin]
@[simp] theorem State.tdoFree_mems (s : State) (bits : Nat) : (s.tdoFree bits).mems = s.mems := by simp [State.tdoFree]
@[simp] theorem State.throttleEvent_mems (s : State) (mean : Nat) : (s.throttleEvent mean).mems = s.mems := by simp [State.throttleEvent]
@[simp] theorem State.setHalved_mems (s : State) (c n : Nat) : (s.setHalved c n).mems = s.mems := by simp [State.setHalved]
theorem State.undoStep_mems {s t : State} (e : s.undoStep = some t) : t.mems = s.mems := by
  unfold State.undoStep at e
  split at e
  · cases e
  · cases e
    simp
theorem State.reduceStep_mems {s t : State} (e : s.reduceStep = some t) : t.mems = s.mems := by
  unfold State.reduceStep at e
  split at e
  · cases e
    simp
  · split at e
    · cases e
    · cases e
      rfl

end

section
variable {s : State} (h : s.mems.Wf)
include h

theorem State.clearCompute_wf : s.clearCompute.mems.Wf :=
  { h with
    gal := Mem.nil_wf
    pockets := fun p hp => by
      obtain ⟨d, hd, rfl⟩ := List.mem_map.mp hp
      rw [List.eq_of_mem_replicate hd]
      rfl
    sram := Mem.nil_wf }
theorem State.computeReset_wf : s.computeReset.mems.Wf := State.clearCompute_wf (h.of_eq (State.flintSees_mems ..))

/-! ### PWR_REQUEST, PWR_STATUS, PAD_RELEASE (R289, R374, R382) -/

theorem pwrRequest_wf (c : Cmd) : Answer.Wf (pwrRequest c s) := by
  simp only [pwrRequest]
  split <;> simp [h]
theorem execPwrRequest_wf (m tag : Nat) : (execPwrRequest m tag s).Wf := by
  have ran := State.run_wf h m tag 0x48 fun c => pwrRequest_wf h c
  unfold execPwrRequest
  split
  next t e =>
    rw [e] at ran
    exact Mems.Wf.of_eq ran (State.reverseNow_mems t)
  · exact ran
theorem execPwrStatus_wf (m tag : Nat) : (execPwrStatus m tag s).Wf := State.run_wf h m tag _ fun _ => by simp [h]
theorem execPadRelease_wf (m tag : Nat) : (execPadRelease m tag s).Wf := State.run_wf h m tag _ fun _ => by simp [h]

/-! ### Operating points (R383 to R385) -/

theorem dvfsSet_wf (c : Cmd) : Answer.Wf (dvfsSet c s) := by simp [dvfsSet, h]
theorem execDvfsSet_wf (m tag : Nat) : (execDvfsSet m tag s).Wf := State.run_wf h m tag _ fun _ => dvfsSet_wf h _
theorem execDvfsChangeStart_wf (lead : Option Nat) : (execDvfsChangeStart lead s).Wf := by
  simp only [execDvfsChangeStart]
  split
  · simp [h]
  · split <;> simp [h]
theorem execDvfsChangeDone_wf : (execDvfsChangeDone s).Wf := by
  unfold execDvfsChangeDone
  split <;> simp [h]

/-! ### The entry handshake (R370 to R374) -/

theorem execPowerHandshakeStart_wf (busy : List Nat) : (execPowerHandshakeStart busy s).Wf := by simp [execPowerHandshakeStart, h]
theorem execBlockAnswer_wf (busy : List Nat) (twin : Nat) : (execBlockAnswer busy twin s).Wf := by
  unfold execBlockAnswer
  split <;> simp [h]
theorem execBlockDelayTimeout_wf (busy : List Nat) : (execBlockDelayTimeout busy s).Wf := by
  simp only [execBlockDelayTimeout]
  split
  · split
    · simp [h]
    · split <;> simp [h]
  · exact h
theorem execFollowerHandshake_wf (target ticks : Nat) (follows : Bool) (busy : List Nat) :
    (execFollowerHandshake target ticks follows busy s).Wf := by
  simp [execFollowerHandshake, h]

/-! ### The commit (R373, R374, R380) -/

theorem State.commitDeep_wf : s.commitDeep.mems.Wf := by
  unfold State.commitDeep
  extract_lets s1
  have ended : s1.mems.Wf := h.of_eq ((State.withFl_mems_at (by simp) (by simp) (by simp) (by simp)).trans (by simp))
  exact (State.clearCompute_wf ended).of_eq (by simp)
theorem State.commitTo_wf (t : Nat) : (s.commitTo t).mems.Wf := by
  unfold State.commitTo
  extract_lets s1
  have raised : s1.mems.Wf := State.ite_wf h h
  clear_value s1
  split
  · simpa using raised
  split
  · exact State.commitDeep_wf raised
  · simpa using raised
theorem execEntryCommit_wf : (execEntryCommit s).Wf := by
  unfold execEntryCommit
  split
  · simp [h, State.commitTo_wf]
  · exact h
theorem execHibernateEntry_wf : (execHibernateEntry s).Wf := by
  unfold execHibernateEntry
  split
  · simp [h, State.commitTo_wf]
  · exact h
theorem execSbSync_wf : (execSbSync s).Wf := by
  unfold execSbSync
  split
  · simp [h, State.commitTo_wf]
  · exact h

/-! ### Wakes (R375 to R377, R381, R441) -/

theorem execWakePin_wf (pin : Nat) (level : Bool) : (execWakePin pin level s).Wf := by simp [execWakePin, h]
theorem execWake_wf (src : Nat) : (execWake src s).Wf := by simp [execWake, h]
theorem execHostAccessWake_wf : (execHostAccessWake s).Wf := by simp [execHostAccessWake, h]
theorem execTckWake_wf : (execTckWake s).Wf := by simp [execTckWake, h]
theorem execSbWake_wf (level : Bool) : (execSbWake level s).Wf := by simp [execSbWake, h]
theorem execHibernateExit_wf : (execHibernateExit s).Wf := by simp [execHibernateExit, h]

/-! ### POWER messages at Flint (R373, R380, R381) -/

theorem execPowerEnter_wf (body : List W32) (ctr : Nat) (tag : List W32) (rtc : Nat) : (execPowerEnter body ctr tag rtc s).Wf :=
  State.kcMsg_wf h _ _ _ _ fun t ht => ht.of_eq (by simp)
theorem execPowerCommit_wf (body : List W32) (ctr : Nat) (tag : List W32) : (execPowerCommit body ctr tag s).Wf := by
  refine State.kcMsg_wf h _ _ _ _ fun t ht => ht.of_eq ?_
  split
  · rw [State.answerCommit_mems]
    exact State.withFl_mems_at (by simp) (by simp) (by simp) (by simp)
  · rfl
theorem execPowerAbort_wf (body : List W32) (ctr : Nat) (tag : List W32) : (execPowerAbort body ctr tag s).Wf :=
  State.kcMsg_wf h _ _ _ _ fun t ht => ht.of_eq (by simp)
theorem execPowerRunning_wf (body : List W32) (ctr : Nat) (tag : List W32) (rtc : Nat) : (execPowerRunning body ctr tag rtc s).Wf :=
  State.kcMsg_wf h _ _ _ _ fun t ht => ht.of_eq (by simp)
theorem execRtcLatch_wf (raw : List Byte) : (execRtcLatch raw s).Wf := by
  unfold execRtcLatch
  split
  · exact h
  split
  · next received =>
    have taken := Mems.Wf.of_pair received (h.of_eq (State.receive_mems ..))
    extract_lets t c s2
    have kept : s2.mems.Wf := taken
    split
    · exact Mems.Wf.of_eq kept ((State.withDev_mems ..).trans (State.withTime_mems ..))
    · exact kept
  · next received => exact Mems.Wf.of_pair received (h.of_eq (State.receive_mems ..))

/-! ### Measured power (R386, R387) -/

theorem execPowerSample_wf (p : Nat) (temps : List Nat) : (execPowerSample p temps s).Wf := by simp [execPowerSample, h]
theorem execThrottle_wf (twin : Nat) : (execThrottle twin s).Wf := by
  have stepped (c d e : Prop) [Decidable c] [Decidable d] [Decidable e] {t : State}
      (step : (if c then none else if d then s.reduceStep else if e then s.undoStep else none) = some t) : t.mems = s.mems := by
    split_ifs at step
    · exact State.reduceStep_mems step
    · exact State.undoStep_mems step
  unfold execThrottle
  split
  · exact h
  dsimp only
  split
  next step => exact h.of_eq ((State.throttleEvent_mems ..).trans (stepped _ _ _ step))
  · exact h
theorem execThermalLimit_wf (sensor temp : Nat) : (execThermalLimit sensor temp s).Wf := by simp [execThermalLimit, h]
theorem execThermalTrip_wf (sensor temp : Nat) : (execThermalTrip sensor temp s).Wf := by simp [execThermalTrip, h]

end

end Sys2Proof.Machine
end

-- Memories under the cores and the host.
section
/-!
PROOFS of 08_gallery.md. Memories under the cores and the host: accesses of the cores, of their caches and of the host.
-/
namespace Sys2Proof.Machine

/-! ### What leaves every memory as it is -/

section
variable {s : State}

@[simp] theorem State.stepped_mems (s : State) (h : Nat) : (s.stepped h).mems = s.mems := by
  refine State.withSec_mems fun d => ?_
  split <;> rfl
@[simp] theorem State.give_mems (s : State) (h v : Nat) : (s.give h v).mems = s.mems := by simp [State.give, ↓State.with_mems]
@[simp] theorem State.accessFault_mems (s : State) (h : Nat) : (s.accessFault h).mems = s.mems := by simp [State.accessFault]
@[simp] theorem State.loaded_mems (s : State) (h : Nat) (b : List Byte) (poison : Bool) : (s.loaded h b poison).mems = s.mems := by
  simp [State.loaded]
@[simp] theorem State.train_mems (s : State) (k : Nat) (p : Place) : (s.train k p).mems = s.mems := by simp [State.train]
@[simp] theorem State.fetch_mems (s : State) (p : Place) (ext : List Byte) : (s.fetch p ext).mems = s.mems := by simp [State.fetch]
@[simp] theorem State.loadBack_mems (s : State) (h : Nat) (p : Place) (n : Nat) (ext : List Byte) : (s.loadBack h p n ext).mems = s.mems := by
  simp [State.loadBack]
@[simp] theorem State.loadHit_mems (s : State) (h : Nat) (p : Place) (n : Nat) (x : Sector) (ue : Bool) : (s.loadHit h p n x ue).mems = s.mems := by
  simp [State.loadHit]
@[simp] theorem State.loadEvicted_mems (s : State) (h : Nat) (p : Place) (n : Nat) (ext : List Byte) : (s.loadEvicted h p n ext).mems = s.mems := by
  simp only [State.loadEvicted]
  split
  · simp
  · split <;> simp
theorem State.loadMiss_mems {s t : State} {who n : Nat} {p : Place} {ext : List Byte} (e : s.loadMiss who p n ext = some t) : t.mems = s.mems := by
  revert e
  fun_cases State.loadMiss <;> simp
  all_goals (rintro rfl; simp)
/-- Where an operation that may have to wait keeps the form, so does its result or the state that waits. -/
theorem State.getD_wf {o : Option State} {s : State} (done : ∀ t, o = some t → t.mems.Wf) (waits : s.mems.Wf) : (o.getD s).mems.Wf := by
  cases o
  · exact waits
  · exact done _ rfl
@[simp] theorem State.storeEvicted_mems (s : State) (p : Place) (b : List Byte) (e : EvEntry) (ext : List Byte) :
    (s.storeEvicted p b e ext).mems = s.mems := by
  simp [State.storeEvicted]

end

section
variable {s : State} (h : s.mems.Wf)
include h

/-! ### Gathered streaming stores (R305) -/

theorem State.noteStore_wf (k : Nat) (at' : Option Place) : (s.noteStore k at').mems.Wf :=
  (State.ite_wf (State.flushGather_wf h k) h).of_eq (State.withShelf_mems ..)

/-! ### Loads -/

theorem State.loadCached_wf {t : State} {who n err : Nat} {p : Place} {ext : List Byte} (e : s.loadCached who p n err ext = some t) : t.mems.Wf := by
  unfold State.loadCached at e
  split at e
  · cases e
    simpa using h
  extract_lets s0 r at e
  have flushed : s0.mems.Wf := (State.flushAt_wf h p n).of_eq (State.withShelf_mems ..)
  clear_value s0
  have served (u : State) (e : r = some u) : u.mems = s0.mems := by
    unfold r at e
    split at e
    · exact State.loadMiss_mems e
    dsimp only at e
    split at e
    · cases e
      simp
    · exact (State.loadMiss_mems e).trans (State.shelfEcc_mems ..)
  obtain ⟨u, found, rfl⟩ := Option.map_eq_some_iff.mp e
  exact flushed.of_eq ((State.train_mems ..).trans (served u found))
theorem execCoreLoad_wf (req addr n err : Nat) (ext : List Byte) : (execCoreLoad req addr n err ext s).Wf := by
  unfold execCoreLoad
  split
  · exact h
  extract_lets u
  have stepped : u.mems.Wf := h.of_eq (State.stepped_mems ..)
  clear_value u
  split
  · simpa using stepped
  · split
    · simpa using stepped
    · split
      · simpa using stepped
      · simpa using stepped
  · split
    · exact State.getD_wf (fun _ e => State.loadCached_wf stepped e) stepped
    · simpa using stepped

/-! ### Stores -/

theorem State.storeHit_wf (p : Place) (b : List Byte) : (s.storeHit p b).mems.Wf := by
  unfold State.storeHit
  extract_lets s1
  have stored : s1.mems.Wf := h.of_eq (State.withShelf_mems ..)
  clear_value s1
  split
  · split
    · exact (State.writeBack_wf stored _ _ _).of_eq (State.withShelf_mems ..)
    · exact stored
  · exact stored
theorem State.storeCached_wf {t : State} {who : Nat} {p : Place} {b ext : List Byte} {stream : Bool}
    (e : s.storeCached who p b stream ext = some t) : t.mems.Wf := by
  unfold State.storeCached at e
  extract_lets s1 det at e
  have noted : s1.mems.Wf := (State.noteStore_wf h who (some p)).of_eq (State.killRes_mems ..)
  clear_value s1 det
  have flushed (n : Nat) : (s1.flushAt p n).mems.Wf := State.flushAt_wf noted p n
  split at e
  · cases e
    exact State.backWrite_wf noted _ _
  split at e
  · cases e
    exact State.storeHit_wf noted _ _
  split at e
  · cases e
    simpa using noted
  split at e
  · cases e
  split at e
  · cases e
    exact State.backWrite_wf (flushed _) _ _
  split at e
  · cases e
    have gathered (f : Shelf → Shelf) : (s1.withShelf f).mems.Wf := noted.of_eq (State.withShelf_mems ..)
    exact State.ite_wf (State.flushGather_wf (gathered _) _) (gathered _)
  split at e
  · split at e
    · obtain rfl := Option.some.inj e
      exact (flushed 64).of_eq (State.withShelf_mems ..)
    · cases e
  split at e
  · cases e
  · obtain rfl := Option.some.inj e
    exact (flushed _).of_eq (State.withShelf_mems ..)
theorem execCoreStore_wf (req addr : Nat) (data : List Byte) (ext : List Byte) : (execCoreStore req addr data ext s).Wf := by
  unfold execCoreStore
  extract_lets n u w
  split
  · exact h
  have stepped : u.mems.Wf := h.of_eq (State.stepped_mems ..)
  clear_value u
  split
  · simpa using stepped
  · split
    · simpa using stepped
    · split
      · exact State.noteStore_wf stepped _ _
      · exact State.writeReg_wf (State.noteStore_wf stepped _ _) _ _ _
  · split
    · exact State.getD_wf (fun _ e => State.storeCached_wf stepped e) stepped
    · exact State.backWrite_wf ((State.noteStore_wf stepped _ _).of_eq (State.killRes_mems ..)) _ _

/-! ### LR, SC and AMO (R298) -/

theorem State.atomicRead_wf {p : Place} {n : Nat} {ext : List Byte} {r : State × List Byte × Bool} (e : s.atomicRead p n ext = some r) :
    r.1.mems.Wf := by
  unfold State.atomicRead at e
  extract_lets s0 at e
  have flushed : s0.mems.Wf := State.flushAt_wf h p n
  clear_value s0
  split at e
  · cases e
    simpa using flushed
  split at e
  · cases e
  dsimp only at e
  split at e
  · cases e
    simpa using flushed
  split at e
  · cases e
    simpa using flushed
  split at e
  · cases e
  split at e
  · cases e
    simpa using flushed
  · cases e
theorem State.atomicWrite_wf (who : Nat) (p : Place) (b : List Byte) : (s.atomicWrite who p b).mems.Wf := by
  unfold State.atomicWrite
  extract_lets s1
  have noted : s1.mems.Wf := (State.noteStore_wf h who (some p)).of_eq (State.killRes_mems ..)
  clear_value s1
  split
  · exact State.backWrite_wf noted _ _
  · exact State.storeHit_wf noted _ _
  · exact State.backWrite_wf noted _ _
theorem execCoreAmo_wf (req addr n op v : Nat) (ext : List Byte) : (execCoreAmo req addr n op v ext s).Wf := by
  unfold execCoreAmo
  split
  · exact h
  extract_lets u
  have stepped : u.mems.Wf := h.of_eq (State.stepped_mems ..)
  clear_value u
  split
  · next p _ =>
    split
    · simpa using stepped
    dsimp only
    split
    · simpa using stepped
    split
    · exact stepped
    next t b bad read =>
    have read : t.mems.Wf := State.atomicRead_wf stepped read
    have written (b : List Byte) : (t.atomicWrite req p b).mems.Wf := State.atomicWrite_wf read _ _ _
    simp [read, written]
  · simpa using stepped

/-! ### FENCE and the cache-block operations (R298, R300) -/

theorem execFence_wf (req : Nat) : (execFence req s).Wf := by
  unfold execFence
  split
  · exact h
  · exact State.flushGather_wf (h.of_eq (State.stepped_mems ..)) _
theorem State.cbo_wf (req addr : Nat) (write : Bool) {f : Place → State → Option State}
    (acts : ∀ p t u, t.mems.Wf → f p t = some u → u.mems.Wf) : (s.cbo req addr write f).Wf := by
  unfold State.cbo
  split
  · exact h
  extract_lets u
  have stepped : u.mems.Wf := h.of_eq (State.stepped_mems ..)
  clear_value u
  split
  · simpa using stepped
  · exact stepped
  · dsimp only
    split
    · exact stepped
    · exact State.getD_wf (fun t e => acts _ _ t (State.flushAt_wf stepped _ _) e) stepped
theorem execCboClean_wf (req addr : Nat) : (execCboClean req addr s).Wf :=
  State.cbo_wf h _ _ _ fun p t u ht e => by
    cases e
    exact State.cleanSector_wf ht p
/-- CBO.FLUSH and CBO.INVAL. -/
theorem State.cboDrop_wf (req addr : Nat) : (s.cbo req addr false fun p s => some ((s.cleanSector p).dropSector p)).Wf :=
  State.cbo_wf h _ _ _ fun p t u ht e => by
    cases e
    exact (State.cleanSector_wf ht p).of_eq (State.dropSector_mems ..)
theorem execCboFlush_wf (req addr : Nat) : (execCboFlush req addr s).Wf := State.cboDrop_wf h _ _
theorem execCboInval_wf (req addr : Nat) : (execCboInval req addr s).Wf := State.cboDrop_wf h _ _
theorem execCboZero_wf (req addr : Nat) : (execCboZero req addr s).Wf :=
  State.cbo_wf h _ _ _ fun _ _ _ ht e => State.storeCached_wf ht e

/-! ### Fills and evictions (R304, R307) -/

theorem execShelfMissFill_wf (k : Nat) (ext : List Byte) : (execShelfMissFill k ext s).Wf := by
  unfold execShelfMissFill
  split
  · exact h
  next x _ =>
  split
  · exact h
  extract_lets p
  have checked := State.shelfEcc_mems (s.withShelf fun h => { h with misses := h.misses.eraseIdx k }) p
  generalize (s.withShelf fun h => { h with misses := h.misses.eraseIdx k }).shelfEcc p = r at checked ⊢
  obtain ⟨s0, ue⟩ := r
  dsimp -zeta only at checked ⊢
  extract_lets here ev on s1
  have found : s0.mems.Wf := h.of_eq (checked.trans (State.withShelf_mems ..))
  have filled : s1.mems.Wf := State.ite_wf found (found.of_eq (State.fetch_mems ..))
  clear_value s1
  split
  · split
    · exact h
    · exact found
  split
  · split
    all_goals simpa using filled
  · split
    · exact State.storeHit_wf filled _ _
    · simpa using filled
    · exact State.backWrite_wf filled _ _
  · exact filled
theorem State.cleanLine_wf (host : Bool) (a : Nat) : (s.cleanLine host a).mems.Wf :=
  foldl_wf (fun _ _ ht => State.cleanSector_wf ht _) _ h
theorem execEvictionWritebackDone_wf (k : Nat) (issue : Bool) (ext : List Byte) : (execEvictionWritebackDone k issue ext s).Wf := by
  unfold execEvictionWritebackDone
  split
  · exact h
  next e _ =>
  split
  · simpa using h
  split
  · exact h
  extract_lets s0 left s1 s2
  have cleaned : s0.mems.Wf := State.cleanLine_wf h _ _
  clear_value s0
  have erased : s1.mems.Wf := cleaned.of_eq (State.withShelf_mems ..)
  clear_value s1
  split
  · exact erased
  have put : s2.mems.Wf := erased.of_eq (State.withShelf_mems ..)
  exact foldl_wf (fun t w ht => State.ite_wf (State.storeHit_wf ht _ _) (State.storeHit_wf (ht.of_eq (State.fetch_mems ..)) _ _)) _ put

/-! ### Disabling the Shelf (R309) -/

theorem execShelfDisable_wf : (execShelfDisable s).Wf := by simp [execShelfDisable, h]
theorem execShelfEnable_wf : (execShelfEnable s).Wf := by simp [execShelfEnable, h]
theorem execShelfDrainDone_wf : (execShelfDrainDone s).Wf := by
  unfold execShelfDrainDone
  split
  · exact h
  extract_lets s0 s1 s2
  have gathered : s0.mems.Wf := foldl_wf (fun t k ht => State.flushGather_wf ht k) _ h
  clear_value s0
  have evicted : s1.mems.Wf :=
    foldl_wf (fun t e ht => foldl_wf (fun t w ht => State.backWrite_wf ht _ _) _ (State.cleanLine_wf ht _ _)) _ gathered
  clear_value s1
  have cleaned : s2.mems.Wf := foldl_wf (fun t l ht => State.cleanLine_wf ht _ _) _ evicted
  exact cleaned

/-! ### One access (R54 to R61) -/

theorem State.perform_wf (a : HostAcc) : (s.perform a).mems.Wf := by
  fun_cases State.perform
  · exact h
  · exact State.writeReg_wf h _ _ _
  · exact h
  · next read =>
    have kept := Mems.Wf.of_pair read (h.of_eq (State.readReg_mems ..))
    exact kept
  · exact h
  · exact h
  · simpa using h
theorem State.releaseHost_wf : (s.releaseHost).mems.Wf :=
  State.ite_wf h (foldl_wf (fun _ a ht => State.perform_wf ht a) _ (h.of_eq (State.withDev_mems ..)))
theorem State.fromHost_wf (a : HostAcc) : (s.fromHost a).Wf := by
  have held (f : Dev → Dev) : ((s.withDev f).raiseLevel 6).releaseHost.mems.Wf := State.releaseHost_wf (h.of_eq (by simp))
  simp [State.fromHost, h, held, State.perform_wf]

/-! ### The rows of the window -/

theorem execMbxCmdDataWrite_wf (m : Nat) (w : W32) (bad : Bool) : (execMbxCmdDataWrite m w bad s).Wf := State.fromHost_wf h _
theorem execMbxRspDataRead_wf (m : Nat) (upset : Bool) : (execMbxRspDataRead m upset s).Wf := State.fromHost_wf h _
theorem execCmdFlush_wf (m : Nat) : (execCmdFlush m s).Wf := State.fromHost_wf h _
theorem execRspFlush_wf (m : Nat) : (execRspFlush m s).Wf := State.fromHost_wf h _
theorem execCmdHeldClear_wf (m : Nat) : (execCmdHeldClear m s).Wf := State.fromHost_wf h _
theorem execFaultCtrlRelease_wf : (execFaultCtrlRelease s).Wf := State.fromHost_wf h _
theorem execWindowAccessRejected_wf (read : Bool) (off width v : Nat) : (execWindowAccessRejected read off width v s).Wf := State.fromHost_wf h _
theorem execCameraTile_wf (camera depth chroma mode count bytes : Nat) (blocks : List (Nat × Option (List Nat))) :
    (execCameraTile camera depth chroma mode count bytes blocks s).Wf := State.fromHost_wf h _

/-! ### Registers by requester -/

theorem execRegisterWrite_wf (who : Nat) (r : Reg) (v : Nat) : (execRegisterWrite who r v s).Wf := by
  simp [execRegisterWrite, h, State.fromHost_wf, State.writeReg_wf]
theorem execClearingRead_wf (who : Nat) (r : Reg) : (execClearingRead who r s).Wf := by
  simp [execClearingRead, ↓State.with_mems, h, State.fromHost_wf]

end

end Sys2Proof.Machine
end

-- Memories under debug and security.
section
/-!
PROOFS of 08_gallery.md. Memories under debug and security: DEBUG messages, firmware images and the debug port.
-/
namespace Sys2Proof.Machine

/-! ### What leaves every memory as it is -/

section
variable {s : State}

@[simp] theorem State.dbgSay_mems (s : State) (op status : Nat) (body : List W32) : (s.dbgSay op status body).mems = s.mems := by simp [State.dbgSay]
@[simp] theorem State.dropCd_mems (s : State) : (s.dropCd).mems = s.mems := by simp [State.dropCd, ↓State.with_mems]
@[simp] theorem State.mpStart_mems (s : State) (version : Nat) : (s.mpStart version).mems = s.mems := by simp [State.mpStart]
@[simp] theorem State.answerFor_mems (s : State) (op status : Nat) (words : List W32) : (s.answerFor op status words).mems = s.mems := by
  unfold State.answerFor
  split <;> simp
@[simp] theorem State.setLife_mems (s : State) (lc : Nat) : (s.setLife lc).mems = s.mems := by simp [State.setLife]
@[simp] theorem State.dbgAnswer_mems (s : State) (op status : Nat) (body : List W32) : (s.dbgAnswer op status body).mems = s.mems := by
  simp only [State.dbgAnswer]
  split
  · simp
  · split <;> simp
  · split <;> simp
  · simp
  · split <;> simp
  · rfl
@[simp] theorem State.dapAck_mems (s : State) (die ack : Nat) (data : Option Nat) : (s.dapAck die ack data).mems = s.mems := by simp [State.dapAck]
@[simp] theorem State.storedRead_mems (s : State) (p : Nat) : (s.storedRead p).1.mems = s.mems := by simp [State.storedRead]
@[simp] theorem State.haltTarget_mems (s : State) (t : Nat) (on : Bool) : (s.haltTarget t on).mems = s.mems := by simp [State.haltTarget]

end

section
variable {s : State} (h : s.mems.Wf)
include h

/-! ### DEBUG messages at Flint (R432) -/

theorem State.dbgMsg_wf (body : List W32) {act : State → State} (acts : ∀ t : State, t.mems.Wf → (act t).mems.Wf) : (s.dbgMsg body act).Wf := by
  simp [State.dbgMsg, h, acts _ (h.of_eq (State.takeFlint_mems ..))]
theorem State.dbgEnd_wf (op : Nat) {r : DbgAns} (ended : MetAns.Wf r) : (s.dbgEnd op r).mems.Wf := by
  unfold State.dbgEnd
  split
  · exact Mems.Wf.of_eq ended (State.dbgSay_mems ..)
  · exact h.of_eq (State.dbgSay_mems ..)
theorem execDebugMsgState_wf : (execDebugMsgState s).Wf :=
  State.dbgMsg_wf h _ fun t ht => ht.of_eq (by simp)
theorem execDebugMsgChallenge_wf (body : List W32) (rtc : Nat) : (execDebugMsgChallenge body rtc s).Wf :=
  State.dbgMsg_wf h _ fun t ht => ht.of_eq (by simp)
theorem unlock_wf (ch : Option Chal) (w : Nat) (sigOk : Bool) : MetAns.Wf (unlock ch w sigOk s) := by
  cases ch with
  | none => trivial
  | some c => simp [unlock, h]
theorem execDebugMsgUnlock_wf (body : List W32) (sigOk : Bool) (rtc : Nat) : (execDebugMsgUnlock body sigOk rtc s).Wf :=
  State.dbgMsg_wf h _ fun t ht =>
    have used : ((t.rtcAt rtc).withFl fun f => { f with chal := none }).mems.Wf := ht.of_eq (by simp)
    State.dbgEnd_wf used 3 (unlock_wf used _ _ _)
theorem execDebugMsgEnd_wf (body : List W32) (ctr : Nat) (tag : List W32) : (execDebugMsgEnd body ctr tag s).Wf :=
  State.kcMsg_wf h _ _ _ _ fun t ht => ht.of_eq (by simp)
theorem execDebugMsgChunk_wf (body : List W32) : (execDebugMsgChunk body s).Wf :=
  State.dbgMsg_wf h _ fun _ ht => State.ite_wf { ht with auth := Mem.writeN_wf ht.auth } ht
theorem advance_wf (tgt len : Nat) (sigOk certOk : Bool) : MetAns.Wf (advance tgt len sigOk certOk s) := by
  unfold advance
  dsimp only
  split
  · trivial
  · simp [h]
theorem execDebugMsgAdvance_wf (body : List W32) (sigOk certOk : Bool) : (execDebugMsgAdvance body sigOk certOk s).Wf :=
  State.dbgMsg_wf h _ fun _ ht => State.dbgEnd_wf ht 6 (advance_wf ht _ _ _ _)

/-! ### Firmware images (R428, R429, R348) -/

theorem execDebugMsgFloor_wf (body : List W32) (sigOk : Bool) : (execDebugMsgFloor body sigOk s).Wf :=
  State.dbgMsg_wf h _ fun t ht => ht.of_eq (by simp)
theorem execDebugMsgSign_wf (body : List W32) (ctr : Nat) (tag : List W32) : (execDebugMsgSign body ctr tag s).Wf :=
  State.kcMsg_wf h _ _ _ _ fun t ht => ht.of_eq (by simp)
theorem flintImage_wf (b : List Byte) (len : Nat) (sigOk : Bool) : MetAns.Wf (flintImage b len sigOk s) := by simp [flintImage, h]
theorem execFirmware_wf (body : List W32) (ctr : Nat) (tag : List W32) (sigOk : Bool) : (execFirmware body ctr tag sigOk s).Wf := by
  refine State.kcMsg_wf h _ _ _ _ fun t ht => ?_
  dsimp only
  have stored : (if (chunkOf body).1 + (chunkOf body).2.length ≤ 524288 then
      t.withFl fun f => { f with image := f.image.writeN (chunkOf body).1 (chunkOf body).2 } else t).mems.Wf :=
    State.ite_wf { ht with image := Mem.writeN_wf ht.image } ht
  generalize (if (chunkOf body).1 + (chunkOf body).2.length ≤ 524288 then
      t.withFl fun f => { f with image := f.image.writeN (chunkOf body).1 (chunkOf body).2 } else t) = u at stored ⊢
  split
  · exact stored
  split
  next installed =>
    have kept := flintImage_wf stored (u.fl.image.readN 0 (byteFld (u.fl.image.readN 16 4) 0 4)) (byteFld (u.fl.image.readN 16 4) 0 4) sigOk
    rw [installed] at kept
    exact Mems.Wf.of_eq kept (State.flintSay_mems ..)
  · exact stored.of_eq (State.flintSay_mems ..)

/-! ### The host's commands (R292) -/

theorem lifecycleAdvance_wf (data : List Byte) (failed : Option Nat) (m : Nat) (c : Cmd) : Begun.Wf (lifecycleAdvance data failed m c s) := by
  have sent (l : List (List W32)) (t : State) :
    (l.foldl (fun u b => u.sendFlint 0xF6 b) t).mems = t.mems := foldl_mems (fun u b => State.sendFlint_mems u _ b) _ _
  simp [lifecycleAdvance, sent, h]
theorem execLifecycleAdvance_wf (m tag : Nat) (data : List Byte) (failed : Option Nat) : (execLifecycleAdvance m tag data failed s).Wf :=
  State.begin_wf h m tag _ fun _ => lifecycleAdvance_wf h _ _ _ _
theorem debugChallenge_wf (m : Nat) (c : Cmd) : Begun.Wf (debugChallenge m c s) := by simp [debugChallenge, h]
theorem execDebugChallenge_wf (m tag : Nat) : (execDebugChallenge m tag s).Wf := State.begin_wf h m tag _ fun _ => debugChallenge_wf h _ _
theorem debugUnlock_wf (m : Nat) (c : Cmd) : Begun.Wf (debugUnlock m c s) := by simp [debugUnlock, h]
theorem execDebugUnlock_wf (m tag : Nat) : (execDebugUnlock m tag s).Wf := State.begin_wf h m tag _ fun _ => debugUnlock_wf h _ _
theorem fwUpdateMp_wf (data : List Byte) (failed : Option Nat) (sigOk : Bool) (m : Nat) (c : Cmd) :
    Begun.Wf (fwUpdateMp data failed sigOk m c s) := by
  simp [fwUpdateMp, h]
theorem execFwUpdateMp_wf (m tag : Nat) (data : List Byte) (failed : Option Nat) (sigOk : Bool) : (execFwUpdateMp m tag data failed sigOk s).Wf := by
  unfold execFwUpdateMp
  split
  · exact h
  · exact (Out.ite_wf _ _ _).mpr ⟨fun _ => h, fun _ => State.begin_wf h m tag _ fun _ => fwUpdateMp_wf h _ _ _ _ _⟩
theorem fwUpdateFlint_wf (data : List Byte) (failed : Option Nat) (m : Nat) (c : Cmd) : Begun.Wf (fwUpdateFlint data failed m c s) := by
  simp [fwUpdateFlint, h]
theorem execFwUpdateFlint_wf (m tag : Nat) (data : List Byte) (failed : Option Nat) : (execFwUpdateFlint m tag data failed s).Wf := by
  unfold execFwUpdateFlint
  split
  · exact h
  · exact (Out.ite_wf _ _ _).mpr ⟨fun _ => State.begin_wf h m tag _ fun _ => fwUpdateFlint_wf h _ _ _ _, fun _ => h⟩

/-! ### The debug port (R431, R433 to R435, R441) -/

theorem State.dap_wf (die level : Nat) {act : State → State} (acts : (act s).mems.Wf) : (s.dap die level act).Wf := by
  unfold State.dap
  split
  · exact h
  split
  · exact (Out.next_wf _).mpr (State.ite_wf (h.of_eq (State.dapAck_mems ..)) acts)
  · exact h.of_eq (State.dapAck_mems ..)
  · exact h

/-! ### What a protected slab stores (R206, R207, log entry 49) -/

theorem execDapRead_wf (die a : Nat) : (execDapRead die a s).Wf := by
  refine State.dap_wf h _ _ ?_
  have free : ((s.draw.1).dapAck die 0 (some (s.draw.2 % 2 ^ 32))).mems = s.mems := by simp
  split_ifs
  · exact h.of_eq free
  · simpa using h
  split
  · simpa using h
  · simpa using h
  · simpa using h
  · split <;> simpa using h
  · simpa using h
  · exact h.of_eq free
theorem execDapWrite_wf (die a : Nat) (v : W32) : (execDapWrite die a v s).Wf := by
  refine State.dap_wf h _ _ ?_
  extract_lets b
  split
  · simpa using h
  split
  · simpa using h
  split
  · simpa using h
  · simpa using State.writeReg_wf h _ _ _
  · split
    · simpa using h
    · simpa using State.galWriteP_wf h _ _ _
  · split
    · simpa using h
    · exact (State.withGeode_wf h fun _ hd => Mem.writeN_wf hd).of_eq (State.dapAck_mems ..)
  · next o _ =>
    have written : (s.withSec fun d => { d with sram := d.sram.writeN o b }).mems.Wf := { h with sram := Mem.writeN_wf h.sram }
    exact written.of_eq (State.dapAck_mems ..)
  · exact (State.host_wf h (Mem.writeN_wf h.host)).of_eq (State.dapAck_mems ..)
theorem execDapHalt_wf (die t : Nat) : (execDapHalt die t s).Wf :=
  State.dap_wf h _ _ (h.of_eq (by simp))
theorem execDapResume_wf (die t : Nat) : (execDapResume die t s).Wf :=
  State.dap_wf h _ _ (h.of_eq (by simp))
theorem execDapStep_wf (die t : Nat) : (execDapStep die t s).Wf :=
  State.dap_wf h _ _ (h.of_eq (by simp))
theorem execDapEnd_wf (die : Nat) : (execDapEnd die s).Wf :=
  State.dap_wf h _ _ (h.of_eq (by simp))
theorem execMbx3Access_wf (write : Bool) (idx : Nat) (v : W32) (upset : Bool) : (execMbx3Access write idx v upset s).Wf := by
  unfold execMbx3Access
  split
  · exact h
  extract_lets s0 regs
  have touched : s0.mems.Wf := h.of_eq (by simp [s0])
  clear_value s0
  split
  · simpa using touched
  split
  · simpa using touched
  · simpa using State.perform_wf touched _
theorem execTrstN_wf : (execTrstN s).Wf := by simp [execTrstN, h]
theorem execDbgCtrlEnd_wf : (execDbgCtrlEnd s).Wf := State.writeReg_wf h _ _ _

end

end Sys2Proof.Machine
end

-- Memories under the drip boundary and the start.
section
/-!
PROOFS of 08_gallery.md. Memories under the drip boundary and the start: Flint's answers, the comparison, the boundary and power-up.
-/
namespace Sys2Proof.Machine

/-! ### What leaves every memory as it is -/

section
variable {s : State}

@[simp] theorem State.powerAnswer_mems (s : State) (tag : Nat) (body : List W32) : (s.powerAnswer tag body).mems = s.mems := by
  unfold State.powerAnswer
  extract_lets n
  split
  · exact State.withPw_mems ..
  · exact State.withPw_mems ..
  · split
    · rfl
    · exact State.withPw_mems ..
  · rfl
@[simp] theorem State.takeKc_mems (s : State) (kc : List Byte) : (s.takeKc kc).mems = s.mems :=
  State.withSec_mems fun _ => by split <;> rfl
@[simp] theorem State.flintAnswer_mems (s : State) (kind tag status : Nat) (body : List W32) :
    (s.flintAnswer kind tag status body).mems = s.mems := by
  unfold State.flintAnswer
  split <;> simp [↓State.with_mems]
@[simp] theorem State.tellTwin_mems (s : State) : (s.tellTwin).mems = s.mems := by simp [State.tellTwin]
@[simp] theorem State.dropFollowed_mems (s : State) : (s.dropFollowed).mems = s.mems :=
  foldl_mems (fun _ _ => foldl_mems (fun t c => State.respond_mems t _ c _ _) _ _) _ _
@[simp] theorem State.setMode_mems (s : State) (m : TwinMode) : (s.setMode m).mems = s.mems := by simp [State.setMode, ↓State.with_mems]
@[simp] theorem State.linkDown_mems (s : State) : (s.linkDown).mems = s.mems := by simp [State.linkDown]
@[simp] theorem State.voidDrip_mems (s : State) (c num : Nat) : (s.voidDrip c num).mems = s.mems := by simp [State.voidDrip]
@[simp] theorem State.mismatch_mems (s : State) (code c num : Nat) (detail : List W32) : (s.mismatch code c num detail).mems = s.mems := by
  simp [State.mismatch]
@[simp] theorem State.judge_mems (s : State) (a b : PkEnt) : (s.judge a b).mems = s.mems := by simp [State.judge]
@[simp] theorem State.matchOwn_mems (s : State) : (s.matchOwn).mems = s.mems := by
  refine foldl_mems (fun t w => ?_) _ _
  split <;> simp
@[simp] theorem State.matchBg_mems (s : State) : (s.matchBg).mems = s.mems := by
  refine foldl_mems (fun _ c => foldl_mems (fun t e => ?_) _ _) _ _
  split
  · rfl
  · split <;> simp
@[simp] theorem State.ageOut_mems (s : State) (d : Nat) : (s.ageOut d).mems = s.mems := by simp [State.ageOut]
@[simp] theorem State.compareTime_mems (s : State) (p : Packet) : (s.compareTime p).mems = s.mems := by
  unfold State.compareTime
  split <;> simp
@[simp] theorem State.comparePk_mems (s : State) (d : Nat) : (s.comparePk d).mems = s.mems := by
  unfold State.comparePk
  split
  · extract_lets s1 new s2 s3
    have compared : s1.mems = s.mems := by simp [s1]
    clear_value s1
    have aged : s3.mems = s.mems := by simp [s3, s2, compared]
    clear_value s3
    simp [compared, aged]
  · rfl
@[simp] theorem State.condemn_mems (s : State) (l : Local) (twin : List Nat) (g : Nat) : (s.condemn l twin g).mems = s.mems := by simp [State.condemn]
@[simp] theorem State.localEnd_mems (s : State) (d : Nat) (twin : List Nat) (l : Local) : (s.localEnd d twin l).mems = s.mems := by
  simp [State.localEnd]
@[simp] theorem State.localise_mems (s : State) (d : Nat) (kats : Option (List Nat)) (retired : List Nat) :
    (s.localise d kats retired).mems = s.mems := by
  unfold State.localise
  split <;> simp
@[simp] theorem State.openDrip_mems (s : State) : (s.openDrip).mems = s.mems := by simp [State.openDrip]
@[simp] theorem State.overrunSlot_mems (s : State) (d g i : Nat) : (s.overrunSlot d g i).mems = s.mems := by
  simp only [State.overrunSlot]
  split
  · simp
  · split <;> simp
@[simp] theorem State.overrun_mems (s : State) (d : Nat) : (s.overrun d).mems = s.mems := by simp [State.overrun]
@[simp] theorem State.reload_mems (s : State) : (s.reload).mems = s.mems := State.geodes_mems fun _ => rfl
@[simp] theorem State.scales_mems (s : State) (d : Nat) : (s.scales d).mems = s.mems := State.geodes_mems fun _ => rfl
@[simp] theorem State.closeSig_mems (s : State) (d c o : Nat) : (s.closeSig d c o).mems = s.mems := by simp [State.closeSig]
@[simp] theorem State.closeSigs_mems (s : State) (d : Nat) : (s.closeSigs d).mems = s.mems := by simp [State.closeSigs]
@[simp] theorem State.dripIrq_mems (s : State) (k : Nat) : (s.dripIrq k).mems = s.mems := by simp [State.dripIrq, ↓State.with_mems]
@[simp] theorem State.sendTiming_mems (s : State) : (s.sendTiming).mems = s.mems := by simp [State.sendTiming]
@[simp] theorem State.sendPacket_mems (s : State) (d : Nat) : (s.sendPacket d).mems = s.mems := by simp [State.sendPacket, ↓State.with_mems]
@[simp] theorem State.modeAtBoundary_mems (s : State) : (s.modeAtBoundary).mems = s.mems := by
  simp only [State.modeAtBoundary]
  split
  · simp
  · split <;> simp
@[simp] theorem State.ownReports_mems (s : State) (d : Nat) : (s.ownReports d).mems = s.mems := by simp [State.ownReports, ↓State.with_mems]
@[simp] theorem State.clockFault_mems (s : State) (domain count : Nat) : (s.clockFault domain count).mems = s.mems := by simp [State.clockFault]
@[simp] theorem State.startKat_mems (s : State) (g : Nat) (unit : Option Nat) : (s.startKat g unit).mems = s.mems := by
  simp only [State.startKat]
  split
  · simp
  · split <;> simp
@[simp] theorem State.veinRec_mems (s : State) (before : List Geode) (g : Nat) : (s.veinRec before g).mems = s.mems := by simp [State.veinRec]

end

section
variable {s : State} (h : s.mems.Wf)
include h

theorem execMailboxResponse_wf (raw : List Byte) : (execMailboxResponse raw s).Wf := by
  unfold execMailboxResponse
  split
  · exact h
  split
  · next received => exact Mems.Wf.of_pair received (h.of_eq (State.receive_mems ..))
  · next received =>
    have taken := Mems.Wf.of_pair received (h.of_eq (State.receive_mems ..))
    extract_lets ws w
    split
    · exact (Out.ite_wf _ _ _).mpr ⟨fun _ => taken, fun _ => taken⟩
    · exact Mems.Wf.of_eq taken (State.flintAnswer_mems ..)

/-! ### What waits for a boundary -/

theorem State.dueAtBoundary_wf (k : Nat) : (s.dueAtBoundary k).mems.Wf := by
  unfold State.dueAtBoundary
  extract_lets s1 s2 s3
  have told : s3.mems.Wf := h.of_eq (by simp [s3, s2, s1, ↓State.with_mems])
  exact foldl_wf (fun t z ht => State.ite_wf (State.setSlotState_wf ht _ _ _) ht) _ told
theorem execDripBoundary_wf (reads : List (Nat × Nat)) (kats : Option (List Nat)) (retired : List Nat) :
    (execDripBoundary reads kats retired s).Wf := by
  unfold execDripBoundary
  split
  · exact h
  extract_lets s1 d late due s2 s3
  have late_wf {t : State} (ht : t.mems.Wf) : (late t due).mems.Wf := State.ite_wf (ht.of_eq (State.rebudget_mems _)) ht
  clear_value late
  have opened : s1.mems.Wf := h.of_eq (by simp [s1])
  clear_value s1
  split
  · exact late_wf (opened.of_eq (State.withPw_mems ..))
  have closed : s2.mems.Wf := opened.of_eq (by simp [s2])
  clear_value s2
  have sent : s3.mems.Wf := (State.streamsBoundary_wf closed d reads).of_eq (by simp [s3])
  clear_value s3
  exact late_wf (State.dueAtBoundary_wf (State.ite_wf (sent.of_eq (State.localise_mems ..)) sent) 1)
theorem execDropStart_wf : (execDropStart s).Wf := by simp [execDropStart, ↓State.with_mems, h]

/-! ### The MP's boundary work (R260, R265, R267) -/

theorem execBoundaryWork_wf : (execBoundaryWork s).Wf := by
  unfold execBoundaryWork
  split <;> simp [↓State.with_mems, h]

/-! ### The exchange (R399, R422) -/

theorem execExchangePacketReceive_wf (raw : List Byte) (named : List Nat) : (execExchangePacketReceive raw named s).Wf := by
  simp only [execExchangePacketReceive]
  split
  · simp [h]
  · split <;> simp [h]
theorem execExchangeTimeout_wf : (execExchangeTimeout s).Wf := by
  unfold execExchangeTimeout
  split <;> simp [h]
theorem execTwinPacketAuthFail_wf : (execTwinPacketAuthFail s).Wf := by simp [execTwinPacketAuthFail, h]

/-! ### Exit from ROOST and TORPOR (R29, R379) -/

theorem State.catchUp_wf (k : Nat) (reads : List (Nat × Nat)) : (s.catchUp k reads).mems.Wf := by
  unfold State.catchUp
  split
  · exact h
  extract_lets ds s1
  have passed : s1.mems.Wf := foldl_wf (fun t d ht => State.streamsBoundary_wf (ht.of_eq (by simp)) d reads) _ h
  exact State.dueAtBoundary_wf (passed.of_eq (by simp)) k
theorem execExitRoostTorpor_wf (reads : List (Nat × Nat)) : (execExitRoostTorpor reads s).Wf := by
  unfold execExitRoostTorpor
  extract_lets bits cause k s1 s2
  split
  · exact h
  have woken : s1.mems.Wf := h.of_eq (by simp [s1])
  clear_value s1
  have quiet : s2.mems.Wf := woken.of_eq (foldl_mems (fun t d => State.quietClk_mems t d 98) _ _)
  clear_value s2
  exact State.releaseHost_wf ((State.catchUp_wf (quiet.of_eq (by simp)) k reads).of_eq (State.pwrEvent_mems _))

/-! ### Power and resets -/

/-- Only the MRAM of Flint stays, which holds no memory of the block. -/
theorem State.mram_wf {f : Flint} (lan : f.lan = {}) (auth : f.auth = []) (board : f.boardBuf = []) (image : f.image = []) :
    (s.withFl fun _ => f).mems.Wf :=
  { h with
    bufs := by simp [State.mems, State.withFl, lan, Mem.nil_wf]
    auth := by simp [State.mems, State.withFl, auth, Mem.nil_wf]
    boardBuf := by simp [State.mems, State.withFl, board, Mem.nil_wf]
    image := by simp [State.mems, State.withFl, image, Mem.nil_wf] }
theorem execAonPowerUp_wf (puf : Bool) : (execAonPowerUp puf s).Wf := by
  unfold execAonPowerUp
  split
  · exact h
  extract_lets f0 enrol f
  have reset : ({ s with pw := {} } : State).mems.Wf := h
  exact (State.mram_wf reset (f := f) rfl rfl rfl rfl).of_eq (State.withDev_mems ..)
theorem State.off_wf : s.off.mems.Wf := by
  unfold State.off
  extract_lets s1
  have kept : s1.mems.Wf := State.mram_wf (h.of_eq (State.flintSees_mems s 4)) rfl rfl rfl rfl
  clear_value s1
  have cleared : s1.clearCompute.dropRecords.mems.Wf := (State.clearCompute_wf kept).of_eq (State.dropRecords_mems _)
  exact { cleared with sram := Mem.nil_wf }
theorem execAonPowerDown_wf : (execAonPowerDown s).Wf := by simp [execAonPowerDown, h, State.off_wf]
theorem execRstNLow_wf : (execRstNLow s).Wf := by simp [execRstNLow, h, State.computeReset_wf]
theorem execRailUndervoltage_wf : (execRailUndervoltage s).Wf := by simp [execRailUndervoltage, h, State.computeReset_wf]

/-! ### The boot ROM (R81, R430, R445) -/

theorem execComputeDieStart_wf (veins down : List Nat) : (execComputeDieStart veins down s).Wf := by
  unfold execComputeDieStart
  split
  · exact h
  have tested : ({ s with geodes := (List.range 32).map fun g => geodeStart (veins.getD g 0) } : State).mems.Wf :=
    { h with
      pockets := fun p hp => by
        obtain ⟨d, hd, rfl⟩ := List.mem_map.mp hp
        obtain ⟨g, -, rfl⟩ := List.mem_map.mp hd
        exact Mem.nil_wf }
  exact tested.of_eq ((State.sendFlint_mems ..).trans (State.withDev_mems ..))
theorem execFlintStateTimeout_wf : (execFlintStateTimeout s).Wf := by simp [execFlintStateTimeout, h]
theorem execPllLockTimeout_wf (domain count : Nat) : (execPllLockTimeout domain count s).Wf := by simp [execPllLockTimeout, h]

/-! ### MP firmware (R421, R446) -/

theorem execFirmwareSelfCalibration_wf (fails : List (Nat × Nat)) : (execFirmwareSelfCalibration fails s).Wf := by
  unfold execFirmwareSelfCalibration
  split
  · exact h
  extract_lets s2 s4 s5 s6
  have greeted : s2.mems.Wf := State.ite_wf (h.of_eq (State.sendFlint_mems ..)) h
  clear_value s2
  have filled : s4.mems.Wf := { greeted with gal := Mem.nil_wf }
  clear_value s4
  have recorded : s6.mems.Wf := filled.of_eq (by simp [s6, s5])
  exact recorded.of_eq (State.withDev_mems ..)

/-! ### The heartbeat and MP SRAM (R56, R413) -/

theorem execHeartbeatTick_wf : (execHeartbeatTick s).Wf := by simp [execHeartbeatTick, h]
theorem execMpSramScrub_wf (errs : List (Nat × Nat)) : (execMpSramScrub errs s).Wf := by simp [execMpSramScrub, h]

end

end Sys2Proof.Machine
end

-- Memories under the twin and injected faults.
section
/-!
PROOFS of 08_gallery.md. Memories under the twin and injected faults: attachment, TWIN_SYNC, the journal, alerts and faults.
-/
namespace Sys2Proof.Machine

/-! ### What leaves every memory as it is -/

section
variable {s : State}

@[simp] theorem State.attach_mems (s : State) (t : TwinId) : (s.attach t).mems = s.mems := by simp [State.attach]
@[simp] theorem State.detach_mems (s : State) : (s.detach).mems = s.mems := by simp [State.detach]
@[simp] theorem State.changeMode_mems (s : State) (m : TwinMode) : (s.changeMode m).mems = s.mems := by simp [State.changeMode]
theorem zip_pockets_wf {l r : List Geode} {f : Geode × Geode → Geode} (made : ∀ a ∈ l, ∀ b ∈ r, (f (a, b)).pocket.wf = true) :
    ∀ p ∈ ((l.zip r).map f).map Geode.pocket, Mem.wf p = true := by
  intro p hp
  obtain ⟨d, hd, rfl⟩ := List.mem_map.mp hp
  obtain ⟨⟨a, b⟩, hw, rfl⟩ := List.mem_map.mp hd
  exact made a (List.of_mem_zip hw).1 b (List.of_mem_zip hw).2
@[simp] theorem State.syncRead_mems (s : State) : (s.syncRead).mems = s.mems := by simp [State.syncRead]
@[simp] theorem State.haltMp_mems (s : State) (detail : Nat) : (s.haltMp detail).mems = s.mems := by simp [State.haltMp]
@[simp] theorem State.upsetQueue_mems (s : State) (code g q b : Nat) : (s.upsetQueue code g q b).mems = s.mems := by simp [State.upsetQueue]
@[simp] theorem State.injectGeode_mems (s : State) (code g v : Nat) : (s.injectGeode code g v).mems = s.mems := by
  unfold State.injectGeode
  split <;> simp
@[simp] theorem State.inject_mems (s : State) (code t : Nat) : (s.inject code t).mems = s.mems := by
  simp only [State.inject]
  split <;> simp

end

section
variable {s : State} (h : s.mems.Wf)
include h

/-! ### TWIN_ATTACH, TWIN_DETACH (R395, R398, R422) -/

theorem execTwinAttach_wf (m tag : Nat) (asked : Bool) (twin : Option TwinId) : (execTwinAttach m tag asked twin s).Wf := by
  have ran := State.run_wf h m tag 0x50 (body := fun _ s => do
    let t ← attachCheck twin s
    pure (s.attach t, w64 t.id ++ [w32 t.fw, w32 t.role], [])) fun _ => Grants.of_bind fun t => by simp [h]
  unfold execTwinAttach
  split
  · split
    · simp [h]
    · exact h
  · exact ran
theorem execTwinDetach_wf (m tag : Nat) (asked : Bool) : (execTwinDetach m tag asked s).Wf := by
  unfold execTwinDetach
  split
  · simp [h]
  · exact State.run_wf h m tag _ fun _ => by simp [h]

/-! ### TWIN_MODE (R290, R396, R452) -/

theorem twinMode_wf (twinRuns twinHolds : Bool) (m : Nat) (c : Cmd) : Begun.Wf (twinMode twinRuns twinHolds m c s) := by simp [twinMode, h]
theorem execTwinMode_wf (m tag : Nat) (twinRuns twinHolds : Bool) (lead : Option Nat) : (execTwinMode m tag twinRuns twinHolds lead s).Wf := by
  unfold execTwinMode
  split
  · simp [h]
  · exact State.begin_wf h m tag _ fun _ => twinMode_wf h _ _ _ _

/-! ### TWIN_SYNC (R406) -/

theorem twinSync_wf (twinHolds : Bool) (m : Nat) (c : Cmd) : Begun.Wf (twinSync twinHolds m c s) := by simp [twinSync, h]
theorem execTwinSync_wf (m tag : Nat) (twinHolds : Bool) : (execTwinSync m tag twinHolds s).Wf :=
  State.begin_wf h m tag _ fun _ => twinSync_wf h _ _ _
theorem State.ringHeader_wf (i : Nat) : (s.ringHeader i).mems.Wf :=
  State.ite_wf h (State.host_wf h (Mem.writeN_wf h.host))
theorem State.pocket_wf {d : Geode} (hd : d ∈ s.geodes) : d.pocket.wf = true := h.pockets _ (List.mem_map_of_mem hd)
theorem State.takeCopy_wf {c : TwinCopy} (copied : c.mem.wf = true) : (s.takeCopy c).mems.Wf := by
  unfold State.takeCopy
  extract_lets _ s1 s2
  have arrived : s1.mems.Wf := { h with gal := copied, pockets := zip_pockets_wf fun d hd _ _ => State.pocket_wf (d := d) h hd }
  clear_value s1
  have retired : s2.mems.Wf := arrived.of_eq (foldl_mems (fun t (w : Geode × Nat) => State.retireReq_mems t w.2) _ _)
  exact foldl_wf (fun t i ht => State.ringHeader_wf ht i) _ retired
theorem execTwinSyncGalleryDone_wf (copy : Option TwinCopy) (pockets : Bool) : (execTwinSyncGalleryDone copy pockets s).Wf := by
  unfold execTwinSyncGalleryDone
  split
  · exact h
  split
  · split
    · simp [h]
    · exact h
  split
  · next c =>
    split
    · exact h
    next checked =>
    have copied : c.mem.wf = true := by
      simp only [Bool.or_eq_true, Bool.not_eq_true', not_or, Bool.not_eq_false] at checked
      exact checked.2
    have taken : (s.takeCopy c).mems.Wf := State.takeCopy_wf h copied
    exact State.ite_wf (taken.of_eq (State.withTw_mems ..)) taken
  · exact h
theorem execPocketPhaseDone_wf (copy : Option TwinCopy) : (execPocketPhaseDone copy s).Wf := by
  unfold execPocketPhaseDone
  split
  · exact h
  split
  · exact h
  extract_lets fin
  have fin_mems (t : State) : (fin t).mems = t.mems := by simp [fin]
  clear_value fin
  split
  · exact h.of_eq ((State.answerFor_mems ..).trans (fin_mems s))
  split
  · exact h
  · next c =>
    split
    · exact h
    next checked =>
    have copied : ∀ d ∈ c.geodes, d.pocket.wf = true := by
      simp only [Bool.or_eq_true, Bool.not_eq_true', not_or, Bool.not_eq_false, List.all_eq_true, Bool.and_eq_true] at checked
      exact fun d hd => (checked.2 d hd).1
    have taken : ({ s with
        geodes := (s.geodes.zip c.geodes).map fun w => w.1.takePocket w.2
        ctxs := (s.ctxs.zip c.ctxs).map fun w => { w.1 with state := w.2.state, done := w.2.done, abandoned := w.2.abandoned } } : State).mems.Wf :=
      { h with pockets := zip_pockets_wf fun _ _ d hd => copied d hd }
    exact taken.of_eq (fin_mems _)

/-! ### The journal (R397) -/

theorem State.runAs_wf (m : Nat) (c : Cmd) (ch : List Nat) (reads : List (Nat × Nat)) : (s.runAs m c ch reads).mems.Wf := by
  unfold State.runAs
  extract_lets go start
  have go_wf {body : State → Answer} (runs : Answer.Wf (body s)) : (go body).mems.Wf := State.runBody_wf h m c runs
  have start_wf {body : State → Begun} (begins : Begun.Wf (body s)) : (start body).mems.Wf := State.beginBody_wf h m c begins
  clear_value go start
  split
  · refine go_wf ?_
    split
    · exact setDripStart_wf h _ _
    · exact setDrip_wf h _ _
  · refine go_wf ?_
    split
    · exact slabShare_wf h _
    · exact slabAlloc_wf h _ _
  · exact start_wf (slabFree_wf h _ _)
  · exact start_wf (slabProtect_wf h _ _)
  · exact start_wf (startXfer_wf h _ _ _ _)
  · exact start_wf (imageLoad_wf h _ _)
  · exact start_wf (indexBuild_wf h _ _)
  · exact go_wf (scrubConfig_wf h _)
  · exact go_wf (ctxCreate_wf h _ _)
  · exact go_wf (ctxBind_wf h _ _)
  · exact go_wf (ctxStart_wf h _ _)
  · exact start_wf (ctxStop_wf h _ _)
  · refine start_wf ?_
    split
    · exact ckptRestore_wf h _ _ _
    · exact ckptSave_wf h _ _
  · exact start_wf (ctxDestroy_wf h _ _ _)
  · exact go_wf (streamOpen_wf h _)
  · exact go_wf (streamClose_wf h _ _)
  · exact h
theorem State.applyEntry_wf (e : Journal) (c : Cmd) (reads : List (Nat × Nat)) : (s.applyEntry e c reads).mems.Wf := by
  unfold State.applyEntry
  split
  · simpa using h
  split
  · simpa using h
  · exact State.runAs_wf h _ _ _ _
theorem State.pumpJournal_wf (k : Nat) (reads : List (Nat × Nat)) : (State.pumpJournal k s reads).mems.Wf := by
  fun_induction State.pumpJournal k s reads with
  | case1 => exact h
  | case2 => exact h
  | case3 k t reads e _ t1 _ ih => exact ih h
  | case4 => exact h
  | case5 k t reads e _ t1 _ c _ _ ih => exact ih (State.applyEntry_wf (s := t1) h _ _ _)
  | case6 => exact h
theorem execJournalEntry_wf (m seq op : Nat) (crc : W32) (status : Nat) (choices : List Nat) (reads : List (Nat × Nat)) :
    (execJournalEntry m seq op crc status choices reads s).Wf := by
  unfold execJournalEntry
  split
  · exact h
  split
  · simp [h]
  extract_lets s1
  have arrived : s1.mems.Wf := State.ite_wf h (h.of_eq (State.withTw_mems ..))
  exact State.pumpJournal_wf arrived _ reads
theorem execJournalTimeout_wf (m tag : Nat) : (execJournalTimeout m tag s).Wf := by
  unfold execJournalTimeout
  split <;> simp [h]

/-! ### Alert frames, holds, failover (R393, R394, R411, R412) -/

theorem execAlertFrame_wf (w : Nat) : (execAlertFrame w s).Wf := by simp [execAlertFrame, h]
theorem State.holdDie_wf : s.holdDie.mems.Wf := State.computeReset_wf (h.of_eq (State.withFcu_mems ..))
theorem execAlertCauseApplied_wf : (execAlertCauseApplied s).Wf := by
  unfold execAlertCauseApplied
  extract_lets f s1 s2
  split
  · exact h
  have applied : s1.mems.Wf := h.of_eq (State.withFcu_mems ..)
  clear_value s1
  split
  · exact State.holdDie_wf applied
  split
  · exact applied
  · exact applied.of_eq (by simp [s2])
theorem execAlertAbsent_wf : (execAlertAbsent s).Wf := by simp [execAlertAbsent, h]
theorem execTwinFailover_wf : (execTwinFailover s).Wf := by simp [execTwinFailover, h]
theorem execHoldEnd_wf : (execHoldEnd s).Wf := by simp [execHoldEnd, h]

/-! ### The FCU's watches (R407 to R409) -/

theorem execHeartbeatMiss_wf : (execHeartbeatMiss s).Wf := by simp [execHeartbeatMiss, h]
theorem execMpLockstepDiverge_wf : (execMpLockstepDiverge s).Wf := by simp [execMpLockstepDiverge, h]
theorem State.clockWindow_wf (domain count : Nat) : (s.clockWindow domain count).Wf := by simp [State.clockWindow, h]
theorem execClockMonitorWindow_wf (domain count : Nat) (ref : Bool) : (execClockMonitorWindow domain count ref s).Wf :=
  State.clockWindow_wf (h.of_eq (State.withDev_mems ..)) _ _

/-! ### FAULT_READ, FAULT_CLEAR (R278, R291, R408, R416) -/

theorem faultRead_wf (c : Cmd) : Answer.Wf (faultRead c s) := by simp [faultRead, ↓State.with_mems, h]
theorem execFaultRead_wf (m tag : Nat) : (execFaultRead m tag s).Wf := State.run_wf h m tag _ fun _ => faultRead_wf h _
theorem faultClear_wf (c : Cmd) : Answer.Wf (faultClear c s) := by simp [faultClear, h]
theorem execFaultClear_wf (m tag : Nat) : (execFaultClear m tag s).Wf := State.run_wf h m tag _ fun _ => faultClear_wf h _

/-! ### FAULT_INJECT (R291, R405, R415) -/

theorem faultInject_wf (c : Cmd) : Answer.Wf (faultInject c s) := by simp [faultInject, h]
theorem execFaultInject_wf (m tag : Nat) : (execFaultInject m tag s).Wf := State.run_wf h m tag _ fun _ => faultInject_wf h _

/-! ### INJECTED_FAULT (R82, R87, R90, R102, R105, R200, R209, R308, R402, R415) -/

theorem execInjectedFault_wf : (execInjectedFault s).Wf := by
  unfold execInjectedFault
  split <;> simp [h]

end

end Sys2Proof.Machine
end

-- Every step keeps the form of every memory.
section
/-!
PROOFS of 08_gallery.md. Every step keeps the form of every memory: one rule per command of the dispatch.
-/
namespace Sys2Proof.Machine

/-! ### The step -/

/-- Every command keeps every memory in form: one rule per row of the dispatch. -/
theorem exec_wf {s : State} (h : s.mems.Wf) (i : Instr) : Out.Wf (exec i s) := by
  cases i <;> simp only [exec]
  case mbxCmdDataWrite => exact execMbxCmdDataWrite_wf h ..
  case mbxRspDataRead => exact execMbxRspDataRead_wf h ..
  case cmdFlush => exact execCmdFlush_wf h ..
  case rspFlush => exact execRspFlush_wf h ..
  case cmdHeldClear => exact execCmdHeldClear_wf h ..
  case faultCtrlRelease => exact execFaultCtrlRelease_wf h
  case windowAccessRejected => exact execWindowAccessRejected_wf h ..
  case registerWrite => exact execRegisterWrite_wf h ..
  case clearingRead => exact execClearingRead_wf h ..
  case mpAcceptCommand => exact execMpAcceptCommand_wf h
  case cmdPayloadTimeout => exact execCmdPayloadTimeout_wf h ..
  case heldMessageWrite => exact execHeldMessageWrite_wf h ..
  case flintResponseRelay => exact execFlintResponseRelay_wf h ..
  case metrologyTimeout => exact execMetrologyTimeout_wf h ..
  case identify => exact execIdentify_wf h ..
  case boardRecord => exact execBoardRecord_wf h ..
  case getStatus => exact execGetStatus_wf h ..
  case setDripStart => exact execSetDripStart_wf h ..
  case setDrip => exact execSetDrip_wf h ..
  case timeSet => exact execTimeSet_wf h ..
  case timeAdjust => exact execTimeAdjust_wf h ..
  case timeRead => exact execTimeRead_wf h ..
  case ppsConfig => exact execPpsConfig_wf h ..
  case slabAlloc => exact execSlabAlloc_wf h ..
  case slabAllocShare => exact execSlabAllocShare_wf h ..
  case slabFree => exact execSlabFree_wf h ..
  case slabZeroed => exact execSlabZeroed_wf h ..
  case slabProtect => exact execSlabProtect_wf h ..
  case dmaIn => exact execDmaIn_wf h ..
  case dmaOut => exact execDmaOut_wf h ..
  case dmaTransferDone => exact execDmaTransferDone_wf h ..
  case imageLoad => exact execImageLoad_wf h ..
  case imageVerify => exact execImageVerify_wf h ..
  case indexBuild => exact execIndexBuild_wf h ..
  case scrubConfig => exact execScrubConfig_wf h ..
  case ctxCreate => exact execCtxCreate_wf h ..
  case ctxBind => exact execCtxBind_wf h ..
  case ctxStart => exact execCtxStart_wf h ..
  case ctxStop => exact execCtxStop_wf h ..
  case ctxStopComplete => exact execCtxStopComplete_wf h ..
  case ctxCheckpointSave => exact execCtxCheckpointSave_wf h ..
  case ctxCheckpointRestore => exact execCtxCheckpointRestore_wf h ..
  case ctxDestroy => exact execCtxDestroy_wf h ..
  case streamOpen => exact execStreamOpen_wf h ..
  case streamClose => exact execStreamClose_wf h ..
  case streamStat => exact execStreamStat_wf h ..
  case metRead => exact execMetRead_wf h ..
  case metParamSet => exact execMetParamSet_wf h ..
  case tare => exact execTare_wf h ..
  case zero => exact execZero_wf h ..
  case keyGeneration => exact execKeyGeneration_wf h ..
  case metCalStart => exact execMetCalStart_wf h ..
  case metCalCapture => exact execMetCalCapture_wf h ..
  case metCalCommit => exact execMetCalCommit_wf h ..
  case metCalAbort => exact execMetCalAbort_wf h ..
  case metLogRead => exact execMetLogRead_wf h ..
  case metLogAck => exact execMetLogAck_wf h ..
  case lanModelLoad => exact execLanModelLoad_wf h ..
  case lanRules => exact execLanRules_wf h ..
  case pwrRequest => exact execPwrRequest_wf h ..
  case pwrStatus => exact execPwrStatus_wf h ..
  case padRelease => exact execPadRelease_wf h ..
  case dvfsSet => exact execDvfsSet_wf h ..
  case dvfsChangeStart => exact execDvfsChangeStart_wf h ..
  case dvfsChangeDone => exact execDvfsChangeDone_wf h
  case twinAttach => exact execTwinAttach_wf h ..
  case twinDetach => exact execTwinDetach_wf h ..
  case twinMode => exact execTwinMode_wf h ..
  case twinSync => exact execTwinSync_wf h ..
  case twinSyncGalleryDone => exact execTwinSyncGalleryDone_wf h ..
  case faultRead => exact execFaultRead_wf h ..
  case faultClear => exact execFaultClear_wf h ..
  case faultInject => exact execFaultInject_wf h ..
  case injectedFault => exact execInjectedFault_wf h
  case lifecycleAdvance => exact execLifecycleAdvance_wf h ..
  case debugChallenge => exact execDebugChallenge_wf h ..
  case debugUnlock => exact execDebugUnlock_wf h ..
  case fwUpdateMp => exact execFwUpdateMp_wf h ..
  case fwUpdateFlint => exact execFwUpdateFlint_wf h ..
  case journalEntry => exact execJournalEntry_wf h ..
  case journalTimeout => exact execJournalTimeout_wf h ..
  case dripBoundary => exact execDripBoundary_wf h ..
  case dropStart => exact execDropStart_wf h
  case boundaryWork => exact execBoundaryWork_wf h
  case exchangePacketReceive => exact execExchangePacketReceive_wf h ..
  case exchangeTimeout => exact execExchangeTimeout_wf h
  case twinPacketAuthFail => exact execTwinPacketAuthFail_wf h
  case qtzStepWrite => exact execQtzStepWrite_wf h ..
  case qtzNowFracRead => exact execQtzNowFracRead_wf h ..
  case dripCountLoRead => exact execDripCountLoRead_wf h ..
  case qtzStatusRead => exact execQtzStatusRead_wf h ..
  case ppsInEdge => exact execPpsInEdge_wf h ..
  case ppsOutEdge => exact execPpsOutEdge_wf h
  case timeServoSecond => exact execTimeServoSecond_wf h
  case timing => exact execTiming_wf h ..
  case timingHoldover => exact execTimingHoldover_wf h
  case flintDropSample => exact execFlintDropSample_wf h ..
  case weightRecordDecision => exact execWeightRecordDecision_wf h
  case weightRecordSigned => exact execWeightRecordSigned_wf h
  case hello => exact execHello_wf h
  case modeMsg => exact execModeMsg_wf h ..
  case pairCertificate => exact execPairCertificate_wf h ..
  case pairTwinCmp => exact execPairTwinCmp_wf h ..
  case firmware => exact execFirmware_wf h ..
  case lanternChunk => exact execLanternChunk_wf h ..
  case lanternCommit => exact execLanternCommit_wf h ..
  case lanternRules => exact execLanternRules_wf h ..
  case lanternReport => exact execLanternReport_wf h ..
  case lanternBoard => exact execLanternBoard_wf h ..
  case powerEnter => exact execPowerEnter_wf h ..
  case powerCommit => exact execPowerCommit_wf h ..
  case powerAbort => exact execPowerAbort_wf h ..
  case powerRunning => exact execPowerRunning_wf h ..
  case debugMsgState => exact execDebugMsgState_wf h
  case debugMsgChallenge => exact execDebugMsgChallenge_wf h ..
  case debugMsgUnlock => exact execDebugMsgUnlock_wf h ..
  case debugMsgEnd => exact execDebugMsgEnd_wf h ..
  case debugMsgChunk => exact execDebugMsgChunk_wf h ..
  case debugMsgAdvance => exact execDebugMsgAdvance_wf h ..
  case debugMsgFloor => exact execDebugMsgFloor_wf h ..
  case debugMsgSign => exact execDebugMsgSign_wf h ..
  case sampleFrame => exact execSampleFrame_wf h ..
  case lanternEvent => exact execLanternEvent_wf h ..
  case mailboxResponse => exact execMailboxResponse_wf h ..
  case recordFrame => exact execRecordFrame_wf h ..
  case rtcLatch => exact execRtcLatch_wf h ..
  case conduitCopy => exact execConduitCopy_wf h ..
  case twinLate => exact execTwinLate_wf h ..
  case cameraTile => exact execCameraTile_wf h ..
  case ingestBlockDeliver => exact execIngestBlockDeliver_wf h ..
  case ringEntryWrite => exact execRingEntryWrite_wf h ..
  case ringWriteIndexUpdate => exact execRingWriteIndexUpdate_wf h ..
  case ringReadIndexRead => exact execRingReadIndexRead_wf h ..
  case hostLinkReject => exact execHostLinkReject_wf h ..
  case firingStart => exact execFiringStart_wf h ..
  case markerHandling => exact execMarkerHandling_wf h ..
  case blockArrival => exact execBlockArrival_wf h ..
  case creditReturn => exact execCreditReturn_wf h ..
  case firingLimit => exact execFiringLimit_wf h ..
  case programFaultHandling => exact execProgramFaultHandling_wf h ..
  case veinRepairDone => exact execVeinRepairDone_wf h ..
  case nop => exact execNop_wf h ..
  case yieldI => exact execYieldI_wf h ..
  case commit => exact execCommit_wf h ..
  case seti => exact execSeti_wf h ..
  case addi => exact execAddi_wf h ..
  case add => exact execAdd_wf h ..
  case sub => exact execSub_wf h ..
  case muli => exact execMuli_wf h ..
  case alui => exact execAlui_wf h ..
  case rdspec => exact execRdspec_wf h ..
  case loopI => exact execLoopI_wf h ..
  case br => exact execBr_wf h ..
  case bcmp => exact execBcmp_wf h ..
  case aset => exact execAset_wf h ..
  case tset => exact execTset_wf h ..
  case sld => exact execSld_wf h ..
  case matmul => exact execMatmul_wf h ..
  case matmulT => exact execMatmulT_wf h ..
  case vld => exact execVld_wf h ..
  case vst => exact execVst_wf h ..
  case vop => exact execVop_wf h ..
  case vopi => exact execVopi_wf h ..
  case vfma => exact execVfma_wf h ..
  case vun => exact execVun_wf h ..
  case vexpsub => exact execVexpsub_wf h ..
  case vred => exact execVred_wf h ..
  case vbcast => exact execVbcast_wf h ..
  case vsel => exact execVsel_wf h ..
  case vmoments => exact execVmoments_wf h ..
  case vadamw => exact execVadamw_wf h ..
  case vcvt => exact execVcvt_wf h ..
  case moveI => exact execMoveI_wf h ..
  case moveZero => exact execMoveZero_wf h ..
  case moveGalleryWriteDone => exact execMoveGalleryWriteDone_wf h ..
  case qpop => exact execQpop_wf h ..
  case qpush => exact execQpush_wf h ..
  case qskip => exact execQskip_wf h ..
  case qfwd => exact execQfwd_wf h ..
  case scaleGet => exact execScaleGet_wf h ..
  case scaleSet => exact execScaleSet_wf h ..
  case scaleObserve => exact execScaleObserve_wf h ..
  case scaleHold => exact execScaleHold_wf h ..
  case sigFold => exact execSigFold_wf h ..
  case sigRead => exact execSigRead_wf h ..
  case slotStateWrite => exact execSlotStateWrite_wf h ..
  case queueDiscard => exact execQueueDiscard_wf h ..
  case katStart => exact execKatStart_wf h ..
  case katDone => exact execKatDone_wf h ..
  case geodeRetire => exact execGeodeRetire_wf h ..
  case pocketScrub => exact execPocketScrub_wf h ..
  case galleryInit => exact execGalleryInit_wf h
  case galleryInitDone => exact execGalleryInitDone_wf h
  case patrolScrub => exact execPatrolScrub_wf h ..
  case coreLoad => exact execCoreLoad_wf h ..
  case coreStore => exact execCoreStore_wf h ..
  case coreAmo => exact execCoreAmo_wf h ..
  case fence => exact execFence_wf h ..
  case cboClean => exact execCboClean_wf h ..
  case cboFlush => exact execCboFlush_wf h ..
  case cboInval => exact execCboInval_wf h ..
  case cboZero => exact execCboZero_wf h ..
  case shelfMissFill => exact execShelfMissFill_wf h ..
  case evictionWritebackDone => exact execEvictionWritebackDone_wf h ..
  case shelfDisable => exact execShelfDisable_wf h
  case shelfEnable => exact execShelfEnable_wf h
  case shelfDrainDone => exact execShelfDrainDone_wf h
  case cicIpi => exact execCicIpi_wf h ..
  case doorbell => exact execDoorbell_wf h ..
  case machineTimer => exact execMachineTimer_wf h ..
  case powerHandshakeStart => exact execPowerHandshakeStart_wf h ..
  case blockAnswer => exact execBlockAnswer_wf h ..
  case blockDelayTimeout => exact execBlockDelayTimeout_wf h ..
  case entryCommit => exact execEntryCommit_wf h
  case hibernateEntry => exact execHibernateEntry_wf h
  case sbSync => exact execSbSync_wf h
  case wake => exact execWake_wf h ..
  case wakePin => exact execWakePin_wf h ..
  case hostAccessWake => exact execHostAccessWake_wf h
  case tckWake => exact execTckWake_wf h
  case sbWake => exact execSbWake_wf h ..
  case exitRoostTorpor => exact execExitRoostTorpor_wf h ..
  case hibernateExit => exact execHibernateExit_wf h
  case rtcWake => exact execRtcWake_wf h ..
  case powerSample => exact execPowerSample_wf h ..
  case throttle => exact execThrottle_wf h ..
  case thermalLimit => exact execThermalLimit_wf h ..
  case thermalTrip => exact execThermalTrip_wf h ..
  case brownout => exact execBrownout_wf h
  case flintReset => exact execFlintReset_wf h
  case calEnNAsserted => exact execCalEnNAsserted_wf h
  case calEnNDeasserted => exact execCalEnNDeasserted_wf h
  case heartbeatTick => exact execHeartbeatTick_wf h
  case heartbeatMiss => exact execHeartbeatMiss_wf h
  case mpLockstepDiverge => exact execMpLockstepDiverge_wf h
  case clockMonitorWindow => exact execClockMonitorWindow_wf h ..
  case alertFrame => exact execAlertFrame_wf h ..
  case alertCauseApplied => exact execAlertCauseApplied_wf h
  case alertAbsent => exact execAlertAbsent_wf h
  case twinFailover => exact execTwinFailover_wf h
  case holdEnd => exact execHoldEnd_wf h
  case fcuHoldWrite => exact execFcuHoldWrite_wf h ..
  case fcuResultWrite => exact execFcuResultWrite_wf h ..
  case aonPowerUp => exact execAonPowerUp_wf h ..
  case rstNLow => exact execRstNLow_wf h
  case railUndervoltage => exact execRailUndervoltage_wf h
  case computeDieStart => exact execComputeDieStart_wf h ..
  case firmwareSelfCalibration => exact execFirmwareSelfCalibration_wf h ..
  case dapRead => exact execDapRead_wf h ..
  case dapWrite => exact execDapWrite_wf h ..
  case dapHalt => exact execDapHalt_wf h ..
  case dapResume => exact execDapResume_wf h ..
  case dapStep => exact execDapStep_wf h ..
  case dapEnd => exact execDapEnd_wf h ..
  case mbx3Access => exact execMbx3Access_wf h ..
  case trstN => exact execTrstN_wf h
  case dbgCtrlEnd => exact execDbgCtrlEnd_wf h
  case secGalKeyWrite => exact execSecGalKeyWrite_wf h ..
  case fwLockWrite => exact execFwLockWrite_wf h
  case unassignedOpcode => exact execUnassignedOpcode_wf h ..
  case protectionConversionDone => exact execProtectionConversionDone_wf h ..
  case indexBuildDone => exact execIndexBuildDone_wf h ..
  case imageVerifyDone => exact execImageVerifyDone_wf h ..
  case pocketPhaseDone => exact execPocketPhaseDone_wf h ..
  case followerHandshake => exact execFollowerHandshake_wf h ..
  case twinCmpRelay => exact execTwinCmpRelay_wf h ..
  case flintStateTimeout => exact execFlintStateTimeout_wf h
  case pllLockTimeout => exact execPllLockTimeout_wf h ..
  case mpSramScrub => exact execMpSramScrub_wf h ..
  case aonPowerDown => exact execAonPowerDown_wf h

theorem step_wf {s : State} (h : s.mems.Wf) : Out.Wf (step s) := by
  unfold step
  split
  · exact h.of_eq (State.idle_mems s)
  · next c rest _ => exact exec_wf (s := { s with pending := rest }) h c

/-- Settles O2: the memories are written through operations of `Mem` that keep the canonical form, by cases on the command. -/
theorem stepKeepsMemories : Obligations.StepKeepsMemories := by
  unfold Obligations.StepKeepsMemories
  intro s t formed stepped
  have kept := step_wf (s.memWf_iff.mp formed)
  rw [stepped] at kept
  exact t.memWf_iff.mpr kept

end Sys2Proof.Machine
end

-- The contexts: their slots and queues.
section
/-!
PROOFS of 09_contexts_and_training.md. What the operations over the slots and queues of a context leave alone, and what they make of its slots.
-/
namespace Sys2Proof.Machine

/-! ### Outside the Geodes -/

/-- The state without its Geodes: what updates of slots and queues do not reach. -/
def State.sansGeodes (s : State) : State := { s with geodes := [] }

@[simp] theorem State.withSlot_sansGeodes (s : State) (g i : Nat) (f : Slot → Slot) : (s.withSlot g i f).sansGeodes = s.sansGeodes := rfl
@[simp] theorem State.withQueue_sansGeodes (s : State) (g q : Nat) (f : Queue → Queue) : (s.withQueue g q f).sansGeodes = s.sansGeodes := rfl

section
variable {s t : State} (h : t.sansGeodes = s.sansGeodes)
include h

theorem State.mbx_of_sansGeodes : t.mbx = s.mbx := congrArg (a₁ := t.sansGeodes) (a₂ := s.sansGeodes) State.mbx h
theorem State.gal_of_sansGeodes : t.gal = s.gal := congrArg (a₁ := t.sansGeodes) (a₂ := s.sansGeodes) State.gal h
theorem State.ctxs_of_sansGeodes : t.ctxs = s.ctxs := congrArg (a₁ := t.sansGeodes) (a₂ := s.sansGeodes) State.ctxs h
theorem State.ctx_of_sansGeodes (c : Nat) : t.ctx c = s.ctx c := congrArg (fun l : List Ctx => l.getD c {}) (State.ctxs_of_sansGeodes h)

end

@[simp] theorem State.imageQueues_sansGeodes (s : State) (g : Nat) (b : List Byte) : (s.imageQueues g b).sansGeodes = s.sansGeodes := by
  refine foldl_keeps (p := State.sansGeodes) (fun t q => ?_) _ s
  split <;> rfl

theorem State.foldl_bindQueue_sansGeodes (s : State) (g : Nat) (ents : List BindEnt) :
    (ents.foldl (fun s e => s.bindQueue g e) s).sansGeodes = s.sansGeodes := by
  refine foldl_keeps (p := State.sansGeodes) (fun t e => ?_) _ s
  rfl

@[simp] theorem State.discardQueue_sansGeodes (s : State) (g q : Nat) : (s.discardQueue g q).sansGeodes = s.sansGeodes := by
  simp only [State.discardQueue, State.creditBack]
  split
  · split <;> rfl
  · rfl

/-! ### Queues leave slots alone (R110, R221, R224) -/

theorem State.imageQueues_slot (s : State) (g : Nat) (b : List Byte) (k j : Nat) : (s.imageQueues g b).slot k j = s.slot k j := by
  refine foldl_keeps (p := fun t : State => t.slot k j) (fun t q => ?_) _ s
  split
  · exact State.withQueue_slot t g q _ k j
  · rfl

theorem State.foldl_bindQueue_slot (s : State) (g : Nat) (ents : List BindEnt) (k j : Nat) :
    (ents.foldl (fun s e => s.bindQueue g e) s).slot k j = s.slot k j := by
  refine foldl_keeps (p := fun t : State => t.slot k j) (fun t e => ?_) _ s
  exact State.withQueue_slot t g e.q _ k j

theorem State.discardQueue_slot (s : State) (g q k j : Nat) : (s.discardQueue g q).slot k j = s.slot k j := by
  simp only [State.discardQueue]
  split
  · rw [State.creditBack_slot, State.withQueue_slot]
  · rw [State.withQueue_slot]

/-! ### The slots of a context -/

theorem State.mem_slotsOf {s : State} {c g i : Nat} :
    (g, i) ∈ s.slotsOf c ↔ g < 32 ∧ i < 4 ∧ (s.slot g i).ctx = c ∧ (s.slot g i).state ≠ .empty := by
  simp [State.slotsOf]

/-- A slot that is not EMPTY stands in its table. -/
theorem State.inside_of_filled {s : State} {g i : Nat} (filled : (s.slot g i).state ≠ .empty) : g < s.geodes.length ∧ i < (s.geode g).slots.length :=
  not_not.mp fun outside => filled (State.slot_outside outside ▸ rfl)

/-- Update every slot of a list, each by what `F` says of the state before it. -/
def State.updSlots (F : State → Nat × Nat → Slot → Slot) (l : List (Nat × Nat)) (s : State) : State :=
  l.foldl (fun t z => t.withSlot z.1 z.2 (F t z)) s

section
variable {F : State → Nat × Nat → Slot → Slot}

@[simp] theorem State.updSlots_sansGeodes (l : List (Nat × Nat)) (s : State) : (State.updSlots F l s).sansGeodes = s.sansGeodes := by
  refine foldl_keeps (p := State.sansGeodes) (fun t z => ?_) l s
  rfl

theorem State.updSlots_seats (l : List (Nat × Nat)) (s : State) : (State.updSlots F l s).seats = s.seats := by
  refine foldl_keeps (p := State.seats) (fun t z => ?_) l s
  exact State.withSlot_seats t z.1 z.2 _

/-- What each update keeps of a slot, all of them keep. -/
theorem State.updSlots_keeps {δ : Type} {p : Slot → δ} (h : ∀ t z x, p (F t z x) = p x) (l : List (Nat × Nat)) (s : State) (k j : Nat) :
    p ((State.updSlots F l s).slot k j) = p (s.slot k j) :=
  foldl_keeps (p := fun t : State => p (t.slot k j)) (fun t z => State.withSlot_keeps (h t z) t z.1 z.2 k j) l s

/-- A slot outside the list reads as before. -/
theorem State.updSlots_slot_of_not_mem {l : List (Nat × Nat)} {g i : Nat} (other : (g, i) ∉ l) (s : State) :
    (State.updSlots F l s).slot g i = s.slot g i := by
  refine List.foldlRecOn (motive := fun t : State => t.slot g i = s.slot g i) l _ rfl fun t ht z hz => ?_
  have ne : z.1 ≠ g ∨ z.2 ≠ i := by
    by_contra same
    obtain ⟨rfl, rfl⟩ : z.1 = g ∧ z.2 = i := by omega
    exact other hz
  exact (State.slot_withSlot_ne ne).trans ht

/-- A slot of the list has what every update gives. -/
theorem State.updSlots_slot_of_mem {P : Slot → Prop} (gives : ∀ t z x, P (F t z x)) {l : List (Nat × Nat)} {s : State} {g i : Nat}
    (inside : g < s.geodes.length ∧ i < (s.geode g).slots.length) (h : (g, i) ∈ l ∨ P (s.slot g i)) : P ((State.updSlots F l s).slot g i) := by
  induction l generalizing s with
  | nil => exact h.resolve_left List.not_mem_nil
  | cons z l ih =>
    refine ih (State.inside_congr (State.withSlot_seats s z.1 z.2 _) inside) ?_
    by_cases same : z = (g, i)
    · subst same
      exact .inr (State.slot_withSlot_self inside.1 inside.2 ▸ gives _ _ _)
    · rcases h with listed | held
      · exact .inl ((List.mem_cons.mp listed).resolve_left (Ne.symm same))
      · have ne : z.1 ≠ g ∨ z.2 ≠ i := by
          by_contra both
          exact same (Prod.ext (by omega) (by omega))
        exact .inr ((State.slot_withSlot_ne ne).symm ▸ held)

end

/-- The budgets of a context's slots are an update of these slots (R216). -/
theorem State.writeBudgets_eq (s : State) (c : Nat) :
    s.writeBudgets c = State.updSlots (fun t z sl => { sl with budgetNext := t.budgetOf c z.1 }) (s.slotsOf c) s := rfl

@[simp] theorem State.writeBudgets_sansGeodes (s : State) (c : Nat) : (s.writeBudgets c).sansGeodes = s.sansGeodes := State.updSlots_sansGeodes _ s
theorem State.writeBudgets_seats (s : State) (c : Nat) : (s.writeBudgets c).seats = s.seats := State.updSlots_seats _ s

end Sys2Proof.Machine
end

-- The contexts: creation, binding, start and stop, checkpoints.
section
/-!
PROOFS of 09_contexts_and_training.md. CTX_CREATE and CTX_DESTROY (O16), CTX_BIND (O17), CTX_START and CTX_STOP (O18), checkpoints (O19).
-/
namespace Sys2Proof.Machine

/-! ### CTX_CREATE (R215) -/

/-- The seed base that CTX_CREATE gives; 0 asks for a drawn one. -/
abbrev Cmd.seedGiven (c : Cmd) : Nat := c.word 3 + c.word 4 * 2 ^ 32

/-- The checkpoint area that CTX_CREATE names. -/
abbrev Cmd.ckptArea (c : Cmd) : Nat := c.word 5 + c.word 6 * 2 ^ 32

/-- The context that CTX_CREATE makes, with seed base `k`. -/
def Cmd.newCtx (c : Cmd) (cls : OClass) (k : Nat) : Ctx :=
  { state := .created, cls := cls, prio := fld (c.word 0) 8 3, share := fld (c.word 0) 12 9
    limit := if fld (c.word 1) 0 24 = 0 ∧ cls = .background then 30000 else fld (c.word 1) 0 24
    mask := c.word 2, seedBase := k, client := if fld (c.word 0) 21 3 = 0 then none else some (fld (c.word 0) 21 3)
    ckAddr := c.ckptArea, ckSize := if c.ckptArea = 0 then 0 else c.word 7 }

/-- The fields of CTX_CREATE are legal, and nothing that exists stands against the new context. -/
structure State.Creates (s : State) (c : Cmd) (cls : OClass) : Prop where
  field : fld (c.word 0) 0 5 < 24
  class_eq : OClass.ofCode (fld (c.word 0) 5 2) = some cls
  share : 1 ≤ fld (c.word 0) 12 9 ∧ fld (c.word 0) 12 9 ≤ 256
  client : fld (c.word 0) 21 3 = 0 ∨ 4 ≤ fld (c.word 0) 21 3
  mask : c.word 2 ≠ 0
  area_aligned : c.ckptArea % 4096 = 0
  size_aligned : c.word 7 % 4096 = 0
  area_ends : c.ckptArea + c.word 7 ≤ 2 ^ 64
  free : (s.ctx (fld (c.word 0) 0 5)).state = .free
  client_free : ∀ y ∈ s.ctxs, y.state ≠ .free → y.client ≠ some (fld (c.word 0) 21 3)
  serving : ∀ g < 32, bitAt (c.word 2) g = true → s.retiredG g = false
  room : cls = .background ∨ ∀ g < 32, bitAt (c.word 2) g = true → s.sharesOn g + fld (c.word 0) 12 9 ≤ 256

section
variable {s : State} {c : Cmd} {cls : OClass} (legal : s.Creates c cls)
include legal

/-- Past its checks CTX_CREATE makes the context, with the seed base given or a drawn one. -/
theorem ctxCreate_accepts {u : State} {k : Nat}
    (seed : c.seedGiven ≠ 0 ∧ u = s ∧ k = c.seedGiven ∨ c.seedGiven = 0 ∧ u = s.draw.1 ∧ k = s.draw.2 % 2 ^ 64) :
    ctxCreate c [] s = .ok (u.withCtx (ctxField c) fun _ => c.newCtx cls k, w64 k, [k]) := by
  obtain ⟨field, class_eq, share, client, mask, area_aligned, size_aligned, area_ends, free, client_free, serving, room⟩ := legal
  have unclaimed : (!(s.ctxs.any fun y => y.state != .free && y.client == some (fld (c.word 0) 21 3))) = true := by
    simpa using client_free
  have allServe : ((List.range 32).all fun g => !(bitAt (c.word 2) g && s.retiredG g)) = true := by
    simpa [imp_iff_not_or] using serving
  have allRoom : decide (cls = .background ∨
      (List.range 32).all (fun g => !bitAt (c.word 2) g || decide (s.sharesOn g + fld (c.word 0) 12 9 ≤ 256)) = true) = true := by
    simpa [imp_iff_not_or] using room
  simp only [ctxCreate]
  rw [need_bind (decide_eq_true field), class_eq]
  dsimp only
  rw [need_bind (decide_eq_true share), need_bind (decide_eq_true client), need_bind (decide_eq_true mask), need_bind (decide_eq_true area_aligned),
    need_bind (decide_eq_true size_aligned), need_bind (decide_eq_true area_ends), need_bind (decide_eq_true free), need_bind unclaimed,
    need_bind allServe, need_bind allRoom]
  rcases seed with ⟨given, rfl, rfl⟩ | ⟨drawn, rfl, rfl⟩
  · rw [if_pos (by simpa only [bne_self_eq_false, Bool.or_false, bne_iff_ne] using given), if_neg (not_not.mpr rfl), if_pos given]
    rfl
  · rw [if_neg (by simpa only [bne_self_eq_false, Bool.or_false, bne_iff_ne, not_not] using drawn), if_neg (not_not.mpr rfl), if_neg (not_not.mpr drawn)]
    rfl

end

/-! ### CTX_DESTROY (R226) -/

/-- The slabs that context `x` owns. -/
abbrev State.ownedSlabs (s : State) (x : Nat) : List Nat := ((s.ctx x).map.filter fun e => e.2.write).map fun e => e.2.slab

section
variable {s : State} {m : Nat} {c : Cmd} {reads : List (Nat × Nat)} (field : ctxField c < 24)
  (made : (s.ctx (ctxField c)).state ≠ .free) (still : (s.ctx (ctxField c)).state ≠ .running)
  (sole : ∀ sl ∈ s.ownedSlabs (ctxField c), (s.mappers sl).length = 1)
include field made still sole

theorem ctxDestroy_checked : ctxDestroy reads m c s =
    if s.ownedSlabs (ctxField c) = [] then .ok (((s.tearDown (ctxField c) reads).withCtx (ctxField c) fun _ => {}).finish m c sOk [] [0])
    else .ok ((s.tearDown (ctxField c) reads).setPhase m c 1 (s.ownedSlabs (ctxField c))) := by
  have soleMapper : ((s.ownedSlabs (ctxField c)).all fun sl => (s.mappers sl).length == 1) = true := by
    simpa only [List.all_eq_true, beq_iff_eq] using sole
  simp only [ctxDestroy]
  rw [need_bind (decide_eq_true field), need_bind (decide_eq_true ⟨made, still⟩), need_bind soleMapper]
  rfl

end

/-- A context given its values at reset reads as FREE, whether or not the table holds it. -/
theorem State.ctx_withCtx_reset (s : State) (x : Nat) : (s.withCtx x fun _ => {}).ctx x = {} := by
  by_cases inside : x < s.ctxs.length
  · exact State.ctx_withCtx_self inside
  · exact List.getD_eq_default _ _ ((upd_length _ _ _).symm ▸ Nat.not_lt.mp inside)

/-- Settles O16: the checks of each command pass one by one, and what follows them is the stated state. -/
theorem contextCreation : Obligations.ContextCreation := by
  unfold Obligations.ContextCreation
  constructor
  · intro s m tag c cls ready field class_eq least most client mask area_aligned size_aligned area_ends free client_free serving room
    have legal : s.Creates c cls :=
      ⟨field, class_eq, ⟨least, most⟩, client, mask, area_aligned, size_aligned, area_ends, free, client_free, serving, room⟩
    exact ⟨fun given => State.run_ready ready (ctxCreate_accepts legal (.inl ⟨given, rfl, rfl⟩)), fun drawn => 
      State.run_ready ready (ctxCreate_accepts legal (.inr ⟨drawn, rfl, rfl⟩))⟩
  · intro s m tag c reads ready _ x owned field made still sole
    have checked := ctxDestroy_checked (m := m) (reads := reads) field made still sole
    constructor
    · intro unowned
      exact ⟨_, State.begin_ready ready (checked.trans (if_pos unowned)), State.ctx_withCtx_reset _ x, rfl⟩
    · intro owning
      exact State.begin_ready ready (checked.trans (if_neg owning))

end Sys2Proof.Machine
end

-- The contexts: binding.
section
/-!
PROOFS of 09_contexts_and_training.md. CTX_BIND of a good image (O17).
-/
namespace Sys2Proof.Machine

/-! ### CTX_BIND (R110, R220, R221) -/

/-- The Geode, the slot and the binding list that CTX_BIND names. -/
abbrev Cmd.bindGeode (c : Cmd) : Nat := fld (c.word 0) 5 5
abbrev Cmd.bindSlot (c : Cmd) : Nat := fld (c.word 0) 10 2
abbrev Cmd.bindEnts (c : Cmd) : List BindEnt := (range' 4 (fld (c.word 3) 0 5)).map fun k => bindEnt (c.word k)

/-- The slot whose window CTX_BIND shares, when it shares one. -/
abbrev State.sharedSlot (s : State) (c : Cmd) : Slot := (s.geode c.bindGeode).slot (fld (c.word 0) 13 2)

/-- The window that a shared binding names is context `x`'s own. -/
abbrev State.mayShare (s : State) (x : Nat) (c : Cmd) : Bool := !bitAt (c.word 0) 12 || ((s.sharedSlot c).state != .empty && (s.sharedSlot c).ctx == x)

/-- The base of the window that a binding of image `b` gets, and its size (R220). -/
abbrev State.windowFor (s : State) (c : Cmd) (b : List Byte) : Option Nat :=
  if bitAt (c.word 0) 12 then (if (s.sharedSlot c).size < imgField b 8 1 then none else some (s.sharedSlot c).base)
  else (s.geode c.bindGeode).findWindow c.bindSlot (imgField b 8 1)
abbrev State.windowSize (s : State) (c : Cmd) (b : List Byte) : Nat := if bitAt (c.word 0) 12 then (s.sharedSlot c).size else imgField b 8 1

/-- What a loaded slot notes of its image: its address, the identifier of its slab, and its Check. -/
def State.imageNote (s : State) (y : Ctx) (c : Cmd) (b : List Byte) : Nat × Nat × Nat :=
  (c.word 1, (s.gal.slab (((y.ent (c.word 1 / 2 ^ 20)).map fun e => e.slab).getD 0)).image, imgField b 68 4)

/-- The slot of the command, loaded from image `b` into a window, with `y` the context before. -/
def State.loadImage (s : State) (y : Ctx) (c : Cmd) (b : List Byte) (base size : Nat) : State :=
  s.withSlot c.bindGeode c.bindSlot (loadSlot (ctxField c) y b base size (fld (c.word 2) 0 8) (fld (c.word 2) 8 8)
    (s.imageNote y c b))

/-- The state after CTX_BIND: the slot loaded, the queues set from the image and bound, and the slot no longer noted as vacated. -/
def State.boundImage (s : State) (y : Ctx) (c : Cmd) (b : List Byte) (base size : Nat) : State :=
  (c.bindEnts.foldl (fun s e => s.bindQueue c.bindGeode e) ((s.loadImage y c b base size).imageQueues c.bindGeode b)).withCtx (ctxField c) fun y =>
    { y with vacated := y.vacated.filter fun z => z != (c.bindGeode, c.bindSlot) }

/-- The checks of CTX_BIND up to the window pass: its fields are legal, the context is not FREE or RUNNING, and image `b`, which the MP reads in `s`
leaving `s1`, is good, fits the context and may be loaded into the EMPTY slot. -/
structure State.Binds (s s1 : State) (c : Cmd) (b : List Byte) : Prop where
  field : fld (c.word 0) 0 5 < 24
  count : fld (c.word 3) 0 5 ≤ 24 ∧ fld (c.word 3) 0 5 + 4 = c.words.length
  queues : ∀ e ∈ c.bindEnts, e.q < 24 ∧ e.peerQ < 24
  once : (c.bindEnts.map fun e => e.q).dedup.length = fld (c.word 3) 0 5
  made : (s.ctx (fld (c.word 0) 0 5)).state = .created ∨ (s.ctx (fld (c.word 0) 0 5)).state = .stopped ∨ (s.ctx (fld (c.word 0) 0 5)).state = .halted
  read : s.readImage (fld (c.word 0) 0 5) (c.word 1) = (s1, some (b, false))
  mask : bitAt (s.ctx (fld (c.word 0) 0 5)).mask c.bindGeode = true
  serving : s1.retiredG c.bindGeode = false
  empty : (s1.slot c.bindGeode c.bindSlot).state = .empty
  images : (s1.slotsOf (fld (c.word 0) 0 5)).length < 16
  bindings : (c.bindEnts.findSome? fun e => s1.bindCheck (fld (c.word 0) 0 5) c.bindGeode c.bindSlot b e) = none
  good : imgCheck1 b b.length = true ∧ imgCheck2 b = true
  class_fits : bitAt (imgField b 9 1) (s.ctx (fld (c.word 0) 0 5)).cls.code = true
  idle : s1.imageBusy c.bindGeode b = false

theorem length_filterMap_dedup_le {α β : Type} [DecidableEq β] (p : α → Bool) (f : α → Option β) (l : List α) :
    ((l.filter p).filterMap f).dedup.length ≤ l.length :=
  (List.dedup_sublist _).length_le.trans ((List.length_filterMap_le _ _).trans (List.length_filter_le _ _))

section
variable {s s1 : State} {c : Cmd} {b : List Byte} (legal : s.Binds s1 c b)
include legal

/-- What is left of CTX_BIND once these checks have passed: the window. -/
theorem ctxBind_checked : ctxBind c [] s = (do
    need (s1.mayShare (ctxField c) c) eState
    match s1.windowFor c b with
    | none => bad eNoSpace
    | some base =>
      .ok (s1.boundImage (s.ctx (ctxField c)) c b base (s1.windowSize c b), [w32 (base + s1.windowSize c b * 2 ^ 8)], [base])) := by
  obtain ⟨field, count, queues, once, made, read, mask, serving, empty, images, bindings, good, class_fits, idle⟩ := legal
  have queues : (c.bindEnts.all fun e => decide (e.q < 24) && decide (e.peerQ < 24)) = true := by simpa using queues
  have empty : ((s1.geode c.bindGeode).slot c.bindSlot).state = .empty := empty
  have fewImages (p : Nat × Nat → Bool) (f : Nat × Nat → Option Nat) :
    (((s1.slotsOf (fld (c.word 0) 0 5)).filter p).filterMap f).dedup.length < 16 := (length_filterMap_dedup_le p f _).trans_lt images
  simp only [ctxBind]
  rw [need_bind (decide_eq_true field), need_bind (decide_eq_true count), need_bind queues, need_bind (decide_eq_true once),
    need_bind (decide_eq_true made), read]
  dsimp only
  rw [need_bind mask, need_bind (by rw [serving]; rfl), need_bind (decide_eq_true (.inl empty)), need_bind (decide_eq_true (.inr (fewImages _ _))), bindings]
  dsimp only
  rw [need_bind (b := !false) rfl, need_bind good.1, need_bind good.2, need_bind class_fits]
  simp only [ne_eq, not_true_eq_false, if_false]
  refine congrArg (need (s1.mayShare (ctxField c) c) eState >>= ·) (funext fun _ => ?_)
  split
  next full => rw [show s1.windowFor c b = none from full]
  next base found =>
    rw [show s1.windowFor c b = some base from found, need_bind (by simp [empty, idle])]
    rfl

/-- A window of its own is the lowest free one. -/
theorem ctxBind_own {base : Nat} (own : bitAt (c.word 0) 12 = false)
    (window : (s1.geode c.bindGeode).findWindow c.bindSlot (imgField b 8 1) = some base) :
    ctxBind c [] s = .ok (s1.boundImage (s.ctx (ctxField c)) c b base (imgField b 8 1), [w32 (base + imgField b 8 1 * 2 ^ 8)], [base]) := by
  have share : s1.mayShare (ctxField c) c = true := by rw [State.mayShare, own]; rfl
  have found : s1.windowFor c b = some base := (if_neg (by simp [own])).trans window
  have size : s1.windowSize c b = imgField b 8 1 := if_neg (by simp [own])
  rw [ctxBind_checked legal, need_bind share, found, size]

/-- A shared window is the one of the slot named, which must be wide enough. -/
theorem ctxBind_shared (shared : bitAt (c.word 0) 12 = true) (filled : (s1.sharedSlot c).state ≠ .empty) (mine : (s1.sharedSlot c).ctx = ctxField c)
    (fits : imgField b 8 1 ≤ (s1.sharedSlot c).size) :
    ctxBind c [] s = .ok (s1.boundImage (s.ctx (ctxField c)) c b (s1.sharedSlot c).base (s1.sharedSlot c).size,
      [w32 ((s1.sharedSlot c).base + (s1.sharedSlot c).size * 2 ^ 8)], [(s1.sharedSlot c).base]) := by
  have share : s1.mayShare (ctxField c) c = true := by rw [State.mayShare, shared, bne_iff_ne.mpr filled, beq_iff_eq.mpr mine]; rfl
  have found : s1.windowFor c b = some (s1.sharedSlot c).base := (if_pos shared).trans (if_neg (Nat.not_lt.mpr fits))
  have size : s1.windowSize c b = (s1.sharedSlot c).size := if_pos shared
  rw [ctxBind_checked legal, need_bind share, found, size]

/-- The window of an EMPTY slot, or of another context, is not shared. -/
theorem ctxBind_foreign (shared : bitAt (c.word 0) 12 = true) (foreign : (s1.sharedSlot c).state = .empty ∨ (s1.sharedSlot c).ctx ≠ ctxField c) :
    ctxBind c [] s = .error (eState, []) := by
  have share : s1.mayShare (ctxField c) c = false := by
    rw [State.mayShare, shared]
    rcases foreign with empty | other
    · rw [empty]; rfl
    · rw [beq_eq_false_iff_ne.mpr other, Bool.and_false]; rfl
  rw [ctxBind_checked legal, need_bind_false share]

end

section
variable (s : State) (y : Ctx) (c : Cmd) (b : List Byte) (base size : Nat)

theorem State.boundImage_mbx : (s.boundImage y c b base size).mbx = s.mbx :=
  (State.withCtx_mbx _ _ _).trans (State.mbx_of_sansGeodes (s := s.loadImage y c b base size)
    ((State.foldl_bindQueue_sansGeodes ..).trans (State.imageQueues_sansGeodes ..)))

/-- The bound slot is the loaded one, where the tables hold it. -/
theorem State.boundImage_slot (geodes : s.geodes.length = 32) (slots : ∀ d ∈ s.geodes, d.slots.length = 4) :
    (s.boundImage y c b base size).slot c.bindGeode c.bindSlot =
      loadSlot (ctxField c) y b base size (fld (c.word 2) 0 8) (fld (c.word 2) 8 8) (s.imageNote y c b) (s.slot c.bindGeode c.bindSlot) := by
  have geode : c.bindGeode < s.geodes.length := geodes ▸ Nat.mod_lt _ (by decide)
  have slot : c.bindSlot < (s.geode c.bindGeode).slots.length := by
    rw [slots _ (by simp [State.geode, geode])]
    exact Nat.mod_lt _ (by decide)
  exact ((State.foldl_bindQueue_slot ..).trans (State.imageQueues_slot ..)).trans (State.slot_withSlot_self geode slot)

end

/-- Settles O17: past the checks a binding is decided by its window, and the bound slot is the loaded one. -/
theorem contextBinding : Obligations.ContextBinding := by
  unfold Obligations.ContextBinding
  intro s s1 m tag base c b ready geodes slots x g slot ents w size field count exact_count queues once made read mask serving empty images bindings
    check1 check2 class_fits idle
  have legal : s.Binds s1 c b :=
    ⟨field, ⟨count, exact_count⟩, queues, once, made, read, mask, serving, empty, images, bindings, ⟨check1, check2⟩, class_fits, idle⟩
  have loaded (base size : Nat) := s1.boundImage_slot (s.ctx x) c b base size geodes slots
  refine ⟨?own, ?shared, ?foreign⟩
  case own =>
    intro own window
    refine ⟨_, State.run_ready ready (ctxBind_own legal own window), ?_⟩
    rw [show (s1.boundImage _ c b base size).slot g slot = _ from loaded base size]
    exact ⟨rfl, rfl, rfl, rfl, rfl, rfl, by simp [loadSlot], State.boundImage_mbx ..⟩
  case shared =>
    intro shared filled mine fits
    refine ⟨_, State.run_ready ready (ctxBind_shared legal shared filled mine fits), ?_⟩
    rw [show (s1.boundImage _ c b w.base w.size).slot g slot = _ from loaded w.base w.size]
    exact ⟨rfl, rfl, rfl⟩
  case foreign => exact fun shared foreign => State.run_rejects ready (ctxBind_foreign legal shared foreign)

end Sys2Proof.Machine
end

-- The contexts: start and stop.
section
/-!
PROOFS of 09_contexts_and_training.md. CTX_START, CTX_STOP and the end of a stop (O18).
-/
namespace Sys2Proof.Machine

/-! ### CTX_START (R219, R222) -/

/-- The first drip of a context that starts now: the next one, or drip 0 while the generator does not run. -/
abbrev State.firstDrip (s : State) : Nat := if s.running then s.drip.count + 1 else 0

/-- A context that runs from `drip` on. -/
def Ctx.startedAt (drip : Nat) (y : Ctx) : Ctx :=
  { y with state := .running, stopping := false, halting := false, stopArmed := false, retiredSlots := [], done := range' (drip - 6) (min drip 6) }

/-- The slots of context `x` with their budgets, in RUN. -/
def State.runSlots (s : State) (x : Nat) : State := State.updSlots (fun _ _ sl => { sl with state := .run }) (s.slotsOf x) (s.writeBudgets x)

section
variable {s : State} {c : Cmd} (field : ctxField c < 24)
  (startable : (s.ctx (ctxField c)).state = .created ∨ (s.ctx (ctxField c)).state = .stopped ∨
    ((s.ctx (ctxField c)).state = .halted ∧ (s.ctx (ctxField c)).vacated = []))
  (bound : s.slotsOf (ctxField c) ≠ [])
  (fit : ∀ z ∈ s.slotsOf (ctxField c), (s.slot z.1 z.2).state = .loaded ∧ (s.geode z.1).doubled = false ∧
    ∀ q ∈ (s.slot z.1 z.2).ins ++ (s.slot z.1 z.2).outs, s.queueReady (ctxField c) z.1 q = true)
  (room : s.dev.dripSet = false ∨ workFits (s.work 0 1) s.shortL = true)
include field startable bound fit room

theorem ctxStart_accepts :
    ctxStart c [] s = .ok ((s.runSlots (ctxField c)).withCtx (ctxField c) (Ctx.startedAt s.firstDrip), w64 s.firstDrip, [s.firstDrip]) := by
  have loaded : ((s.slotsOf (ctxField c)).all fun z => (s.slot z.1 z.2).state == .loaded) = true :=
    List.all_eq_true.mpr fun z hz => beq_iff_eq.mpr (fit z hz).1
  have queues : ((s.slotsOf (ctxField c)).all fun z => ((s.slot z.1 z.2).ins ++ (s.slot z.1 z.2).outs).all fun q =>
      s.queueReady (ctxField c) z.1 q) = true := List.all_eq_true.mpr fun z hz => List.all_eq_true.mpr (fit z hz).2.2
  have single : ((s.slotsOf (ctxField c)).all fun z => !(s.geode z.1).doubled) = true :=
    List.all_eq_true.mpr fun z hz => by rw [(fit z hz).2.1]; rfl
  have fits : (!s.dev.dripSet || workFits (s.work 0 1) s.shortL) = true := by simpa using room
  simp only [ctxStart]
  rw [need_bind (decide_eq_true field), need_bind (decide_eq_true startable), need_bind (decide_eq_true ⟨bound, loaded⟩), need_bind queues,
    need_bind single, need_bind fits]
  rfl

end

section
variable (s : State) (x : Nat)

theorem State.runSlots_sansGeodes : (s.runSlots x).sansGeodes = s.sansGeodes := (State.updSlots_sansGeodes _ _).trans (State.writeBudgets_sansGeodes s x)

/-- A slot of another context, or an EMPTY one, is left as it is. -/
theorem State.runSlots_slot_other {g i : Nat} (other : (g, i) ∉ s.slotsOf x) : (s.runSlots x).slot g i = s.slot g i :=
  (State.updSlots_slot_of_not_mem other _).trans (State.updSlots_slot_of_not_mem other s)

/-- Every slot of the context runs, with its program. -/
theorem State.runSlots_slot_own {z : Nat × Nat} (own : z ∈ s.slotsOf x) :
    ((s.runSlots x).slot z.1 z.2).state = .run ∧ ((s.runSlots x).slot z.1 z.2).prog = (s.slot z.1 z.2).prog := by
  obtain ⟨-, -, -, filled⟩ := State.mem_slotsOf.mp own
  have inside := State.inside_congr (State.writeBudgets_seats s x) (State.inside_of_filled filled)
  constructor
  · exact State.updSlots_slot_of_mem (P := fun sl => sl.state = .run) (fun _ _ _ => rfl) inside (.inl own)
  · rw [State.runSlots, State.writeBudgets_eq]
    refine (State.updSlots_keeps (p := Slot.prog) ?_ _ _ _ _).trans (State.updSlots_keeps (p := Slot.prog) ?_ _ s _ _)
    all_goals exact fun _ _ _ => rfl

end

/-! ### CTX_STOP (R223) -/

section
variable {s : State} {m : Nat} {c : Cmd} (field : ctxField c < 24) (made : s.notFree (ctxField c) = true)
include field made

/-- A context that does not run has stopped already. -/
theorem ctxStop_idle (idle : (s.ctx (ctxField c)).state ≠ .running) : ctxStop m c s = .ok (s.finish m c sOk (s.leftIn (ctxField c)) [0]) := by
  simp only [ctxStop]
  rw [need_bind (decide_eq_true field), need_bind (decide_eq_true (bne_iff_ne.mp made)), if_pos idle]
  rfl

/-- A running one loses its budgets and waits for the boundary. -/
theorem ctxStop_waits (runs : (s.ctx (ctxField c)).state = .running) (generator : s.running = true) :
    ctxStop m c s = .ok (((s.zeroBudgets (ctxField c)).withCtx (ctxField c) fun y => { y with stopping := true }).setPhase m c 1 [ctxField c]) := by
  simp only [ctxStop]
  rw [need_bind (decide_eq_true field), need_bind (decide_eq_true (bne_iff_ne.mp made)), if_neg (not_not.mpr runs), if_pos generator]
  rfl

end

/-! ### The end of a stop (R223 steps 4 to 6) -/

/-- A slot that stops: LOADED when it was in RUN. -/
def Slot.stopped (sl : Slot) : Slot := if sl.state = .run then { sl with state := .loaded, stopping := false } else sl

theorem Slot.stopped_not_run (sl : Slot) : sl.stopped.state ≠ .run := by
  unfold Slot.stopped
  split
  · exact SlotState.noConfusion
  · assumption

theorem Slot.stopped_ctx (sl : Slot) : sl.stopped.ctx = sl.ctx := by
  unfold Slot.stopped
  split <;> rfl

/-- A context whose stop has ended. -/
def Ctx.afterStop (y : Ctx) : Ctx :=
  { y with state := if y.halting then .halted else .stopped, stopping := false, halting := false, stopArmed := false }

/-- The slots of a context stopped, and its queues as its class leaves them. -/
def State.stopSlots (s : State) (x : Nat) : State :=
  let t := State.updSlots (fun _ _ => Slot.stopped) (s.slotsOf x) s
  if (s.ctx x).cls = .background then t else (t.queuesOf x).foldl (fun s p => s.discardQueue p.1 p.2) t

section
variable (s : State) (x : Nat)

theorem State.stopNow_eq : s.stopNow x = (s.stopSlots x).withCtx x Ctx.afterStop := rfl

theorem State.stopSlots_sansGeodes : (s.stopSlots x).sansGeodes = s.sansGeodes := by
  have slots : (State.updSlots (fun _ _ => Slot.stopped) (s.slotsOf x) s).sansGeodes = s.sansGeodes := State.updSlots_sansGeodes _ s
  unfold State.stopSlots
  split
  · exact slots
  · refine (foldl_keeps (p := State.sansGeodes) (fun t p => ?_) _ _).trans slots
    exact State.discardQueue_sansGeodes t p.1 p.2

/-- Discarding queues changes no slot. -/
theorem State.stopSlots_slot (g i : Nat) : (s.stopSlots x).slot g i = (State.updSlots (fun _ _ => Slot.stopped) (s.slotsOf x) s).slot g i := by
  unfold State.stopSlots
  split
  · rfl
  · refine foldl_keeps (p := fun t : State => t.slot g i) (fun t p => ?_) _ _
    exact State.discardQueue_slot t p.1 p.2 g i

/-- No slot of the context is left in RUN. -/
theorem State.stopSlots_not_run {g i : Nat} (geode : g < 32) (slot : i < 4) (own : ((s.stopSlots x).slot g i).ctx = x) :
    ((s.stopSlots x).slot g i).state ≠ .run := by
  rw [State.stopSlots_slot] at own ⊢
  rw [State.updSlots_keeps (p := Slot.ctx) fun _ _ => Slot.stopped_ctx] at own
  by_cases empty : (s.slot g i).state = .empty
  · rw [State.updSlots_slot_of_not_mem (fun listed => (State.mem_slotsOf.mp listed).2.2.2 empty), empty]
    exact SlotState.noConfusion
  · exact State.updSlots_slot_of_mem (P := fun sl => sl.state ≠ .run) (fun _ _ => Slot.stopped_not_run) (State.inside_of_filled empty)
      (.inl (State.mem_slotsOf.mpr ⟨geode, slot, own, empty⟩))

end

/-- When the firings have ended and no CTX_STOP is outstanding, the stop ends and nothing answers. -/
theorem exec_ctxStopComplete {s : State} {x : Nat} (due : (s.ctx x).stopping = true ∨ (s.ctx x).halting = true) (armed : (s.ctx x).stopArmed = true)
    (still : s.ctxFires x = false) (unasked : ∀ k < 8, ∀ d ∈ (s.mb k).out, d.op ≠ 0x2B) : exec (.ctxStopComplete x) s = .next (s.stopNow x) := by
  have waits : (!((s.ctx x).stopping || (s.ctx x).halting) || !(s.ctx x).stopArmed || s.ctxFires x) = false := by
    rw [(Bool.or_eq_true _ _).mpr due, armed, still]; rfl
  have noAsker : ((List.range 8).findSome? fun m =>
      ((s.mb m).out.find? fun c => c.op == 0x2B && c.phase == 1 && c.note == [x]).map fun c => (m, c)) = none := by
    refine List.findSome?_eq_none_iff.mpr fun k hk => Option.map_eq_none_iff.mpr (List.find?_eq_none.mpr fun d hd => ?_)
    simp [unasked k (List.mem_range.mp hk) d hd]
  simp only [exec, execCtxStopComplete, waits, noAsker, Bool.false_eq_true, if_false]

/-- Settles O18: each command past its checks, and what the start and the stop make of the slots, read off the updates of the context's slots. -/
theorem contextStartAndStop : Obligations.ContextStartAndStop := by
  unfold Obligations.ContextStartAndStop
  refine ⟨?start, fun s m tag x c => ⟨?stop, ?ends⟩⟩
  case start =>
    intro s m tag c ready size x field startable bound fit room
    have frame := State.runSlots_sansGeodes s x
    have inside : x < (s.runSlots x).ctxs.length := by rw [State.ctxs_of_sansGeodes frame, size]; exact field
    refine ⟨_, State.run_ready ready (ctxStart_accepts field startable bound fit room), ?_, fun z own => State.runSlots_slot_own s x own,
      fun g i other => State.runSlots_slot_other s x other, (State.gal_of_sansGeodes frame :), (State.mbx_of_sansGeodes frame :), fun k other => ?_⟩
    · rw [State.ctx_withCtx_self inside]
      rfl
    · rw [State.ctx_withCtx_ne other.symm, State.ctx_of_sansGeodes frame]
  case stop =>
    exact fun ready field made => ⟨fun idle => State.begin_ready ready (ctxStop_idle field made idle),
      fun runs generator => State.begin_ready ready (ctxStop_waits field made runs generator)⟩
  case ends =>
    intro due armed still inside unasked
    have frame := State.stopSlots_sansGeodes s x
    have ended : (s.stopNow x).ctx x = (s.ctx x).afterStop := by
      rw [State.stopNow_eq, State.ctx_withCtx_self (by rwa [State.ctxs_of_sansGeodes frame]), State.ctx_of_sansGeodes frame]
    refine ⟨_, exec_ctxStopComplete due armed still unasked, ?_, ?_, fun g geode i slot own => State.stopSlots_not_run s x geode slot own,
      (State.mbx_of_sansGeodes frame :), (State.gal_of_sansGeodes frame :), fun k other => ?_⟩
    · rw [ended]; rfl
    · rw [ended]; rfl
    · rw [State.stopNow_eq, State.ctx_withCtx_ne other.symm, State.ctx_of_sansGeodes frame]

end Sys2Proof.Machine
end

-- The contexts: checkpoints.
section
/-!
PROOFS of 09_contexts_and_training.md. The start and the end of a saved checkpoint, the start of a restore (O19).
-/
namespace Sys2Proof.Machine

/-! ### DMA reads of the Gallery reach no Geode and no context (R299) -/

section
variable (s : State)

@[simp] theorem State.galReadP_engine (p n : Nat) : (s.galReadP p n).1.engine = s.engine := by
  simp only [State.galReadP]
  split
  · rfl
  split
  · rw [foldl_keeps (p := State.engine) fun t j => State.galError_engine t _ _]
    exact foldl_keeps (p := State.engine) (fun t j => State.granEcc_engine t _) _ s
  · exact State.galEcc_engine s p n 0

@[simp] theorem State.backWrite_engine (p : Place) (b : List Byte) : (s.backWrite p b).engine = s.engine := by
  unfold State.backWrite
  split
  · rfl
  · exact State.galWriteP_engine s _ _ _

@[simp] theorem State.flushGather_engine (k : Nat) : (s.flushGather k).engine = s.engine := by
  unfold State.flushGather
  split
  · rfl
  · refine (foldl_keeps (p := State.engine) (fun t r => ?_) _ _).trans rfl
    exact State.backWrite_engine t _ _

@[simp] theorem State.flushAt_engine (p : Place) (n : Nat) : (s.flushAt p n).engine = s.engine := by
  refine foldl_keeps (p := State.engine) (fun t k => ?_) _ s
  split
  · split
    · exact State.flushGather_engine t k
    · rfl
  · rfl

@[simp] theorem State.shelfUe_engine (p : Place) : (s.shelfUe p).engine = s.engine := by
  simp only [State.shelfUe]
  rw [State.addRec_engine]
  refine (foldl_keeps (p := State.engine) (fun t k => ?_) _ _).trans rfl
  rfl

@[simp] theorem State.shelfEcc_engine (p : Place) : (s.shelfEcc p).1.engine = s.engine := by
  unfold State.shelfEcc
  split
  · rfl
  split
  · rfl
  split
  · split
    · exact State.shelfUe_engine s p
    · rfl
  · rfl

@[simp] theorem State.dmaReadP_engine (p n : Nat) : (s.dmaReadP p n).1.engine = s.engine := by
  simp only [State.dmaReadP]
  refine (foldl_keeps (p := State.engine) (fun t a => ?_) _ _).trans ((State.galReadP_engine _ p n).trans (State.flushAt_engine s (false, p) n))
  split
  · exact State.shelfEcc_engine t (false, a)
  · rfl

@[simp] theorem State.slabRec_engine (i : Nat) (e : MapEnt) : (s.slabRec i e).1.engine = s.engine := by
  unfold State.slabRec
  generalize 2 ^ 20 = n
  dsimp only
  split
  · exact State.dmaReadP_engine s _ _
  · rfl

/-- Reading the slabs of a checkpoint changes no context. -/
theorem State.ckptRaw_engine (x : Nat) : (s.ckptRaw x).1.engine = s.engine := by
  have slabs (l : List (Nat × MapEnt)) :
      (l.foldl (fun (r : State × List Byte) e => ((r.1.slabRec e.1 e.2).1, r.2 ++ (r.1.slabRec e.1 e.2).2)) (s, [])).1.engine = s.engine := by
    refine foldl_keeps (p := fun r : State × List Byte => r.1.engine) (fun r e => ?_) l (s, [])
    exact State.slabRec_engine r.1 e.1 e.2
  simp only [State.ckptRaw]
  exact slabs _

theorem State.ckptRaw_ctx (x c : Nat) : (s.ckptRaw x).1.ctx c = s.ctx c :=
  congrArg (fun l : List Ctx => l.getD c {}) (State.ctxs_of_engine (State.ckptRaw_engine s x))

end

/-! ### Saving (R227) -/

theorem execCtxCheckpointSave_starts {s : State} {m tag : Nat} {c : Cmd} (accepted : s.cmdIn m tag 0x2C 0 = some c) (save : bitAt (c.word 0) 8 = false) :
    exec (.ctxCheckpointSave m tag) s = s.begin m tag 0x2C fun c => ckptSave m c := by
  simp only [exec, execCtxCheckpointSave, accepted, save, Bool.false_eq_true, if_false]

section
variable {s : State} {m : Nat} {c : Cmd} (field : ctxField c < 24) (stopped : (s.ctx (ctxField c)).state = .stopped) (area : (s.ctx (ctxField c)).ckSize ≠ 0)
  (plain : ∀ e ∈ (s.ctx (ctxField c)).map, e.2.write = true → e.2.prot = false) (empty : ∀ p ∈ s.queuesOf (ctxField c), (s.queue p.1 p.2).left = 0)
include field stopped area plain empty

theorem ckptSave_checked : ckptSave m c s = if (s.ctx (ctxField c)).ckSize < s.ckptSize (ctxField c)
    then .error (eNoSpace, [0, w32 (s.ckptSize (ctxField c))]) else .ok (s.setPhase m c 1 []) := by
  have unprotected : (!((s.ctx (ctxField c)).map.any fun e => e.2.write && e.2.prot)) = true := by
    rw [Bool.not_eq_true', List.any_eq_false]
    intro e mapped both
    obtain ⟨write, prot⟩ := (Bool.and_eq_true _ _).mp both
    exact Bool.false_ne_true ((plain e mapped write).symm.trans prot)
  have drained : ((s.queuesOf (ctxField c)).all fun p => (s.queue p.1 p.2).left == 0) = true :=
    List.all_eq_true.mpr fun p hp => beq_iff_eq.mpr (empty p hp)
  simp only [ckptSave]
  rw [need_bind (decide_eq_true field), need_bind (decide_eq_true stopped), need_bind (decide_eq_true area), need_bind unprotected, need_bind drained]
  rfl

end

/-- The end of a transfer that is a save writes the checkpoint to its area. -/
theorem exec_dmaTransferDone_save {s : State} {m tag : Nat} {c : Cmd} (taken : s.galOpen = true) (saves : s.cmdIn m tag 0x2C 1 = some c)
    (save : bitAt (c.word 0) 8 = false) (noIn : s.cmdIn m tag 0x1B 1 = none) (noOut : s.cmdIn m tag 0x1C 1 = none) (noLoad : s.cmdIn m tag 0x1D 1 = none)
    (data : List Byte) (failed : Option Nat) : exec (.dmaTransferDone m tag data failed) s = .next (s.endSave m c failed) := by
  simp only [exec, execDmaTransferDone, taken, saves, save, noIn, noOut, noLoad, if_true, Bool.false_eq_true, if_false]

/-- A save that the host link takes whole leaves the sealed checkpoint in the area. -/
theorem State.endSave_written (s : State) (m : Nat) (c : Cmd) :
    s.endSave m c none = ({ (s.ckptRaw (ctxField c)).1 with
        host := (s.ckptRaw (ctxField c)).1.host.writeN (s.ctx (ctxField c)).ckAddr (ckptSeal (s.ckptRaw (ctxField c)).2) } : State).finish m c sOk
      [w32 (ckptSeal (s.ckptRaw (ctxField c)).2).length, 0] [0] := by
  simp only [State.endSave, State.ckptRaw_ctx]

/-! ### Restoring (R229) -/

theorem execCtxCheckpointRestore_starts {s : State} {m tag : Nat} {c : Cmd} (accepted : s.cmdIn m tag 0x2C 0 = some c) (restore : bitAt (c.word 0) 8 = true) :
    exec (.ctxCheckpointRestore m tag) s = s.begin m tag 0x2C fun c => ckptRestore m [] c := by
  simp only [exec, execCtxCheckpointRestore, accepted, restore, if_true]

theorem ckptRestore_starts {s : State} {m : Nat} {c : Cmd} (field : ctxField c < 24) (created : (s.ctx (ctxField c)).state = .created)
    (area : (s.ctx (ctxField c)).ckSize ≠ 0) (ch : List Nat) : ckptRestore m ch c s = .ok (s.setPhase m c 1 ch) := by
  simp only [ckptRestore]
  rw [need_bind (decide_eq_true field), need_bind (decide_eq_true created), need_bind (decide_eq_true area)]
  rfl

/-- Settles O19: the checks of a save and of a restore pass one by one, and the end of a save writes what it read. -/
theorem checkpoints : Obligations.Checkpoints := by
  unfold Obligations.Checkpoints
  intro s m tag c
  refine ⟨?save, ?ends, ?restore⟩
  case save =>
    intro ready field save stopped area plain empty
    have checked := ckptSave_checked (m := m) field stopped area plain empty
    rw [execCtxCheckpointSave_starts ready.1 save]
    split
    next short => exact State.begin_rejects ready (checked.trans (if_pos short))
    next fits => exact State.begin_ready ready (checked.trans (if_neg fits))
  case ends =>
    intro taken saves save noIn noOut noLoad r b
    rw [exec_dmaTransferDone_save taken saves save noIn noOut noLoad, State.endSave_written]
  case restore =>
    intro ready field restore created area
    rw [execCtxCheckpointRestore_starts ready.1 restore]
    exact State.begin_ready ready (ckptRestore_starts field created area [])

end Sys2Proof.Machine
end

-- The streams: opening an output stream, closing a stream, its counters.
section
/-!
PROOFS of 10_streams.md. STREAM_OPEN of an output stream, STREAM_CLOSE and STREAM_STAT (O20).
-/
namespace Sys2Proof.Machine

/-! ### STREAM_OPEN of an output stream (R238, R249) -/

/-- What STREAM_OPEN names: the stream, its kind, its context, the Geode and the number of its queue, and its ring. -/
abbrev Cmd.strm (c : Cmd) : Nat := fld (c.word 0) 0 6
abbrev Cmd.strmKind (c : Cmd) : Nat := fld (c.word 0) 6 3
abbrev Cmd.strmCtx (c : Cmd) : Nat := fld (c.word 0) 11 5
abbrev Cmd.strmGeode (c : Cmd) : Nat := fld (c.word 7) 0 5
abbrev Cmd.strmQueue (c : Cmd) : Nat := fld (c.word 7) 5 5
abbrev Cmd.ring (c : Cmd) : Nat := c.word 3 + c.word 4 * 2 ^ 32

/-- The size of a ring entry for the queue that STREAM_OPEN names (R249). -/
abbrev State.ringEntry (s : State) (c : Cmd) : Nat := entrySize (s.queue c.strmGeode c.strmQueue).fmt

/-- The fields of a STREAM_OPEN of an output stream are legal, and nothing that exists stands against it, in the order of R238. -/
structure State.OpensRing (s : State) (c : Cmd) (cls : OClass) : Prop where
  closed : (s.stream c.strm).state = 0
  kind : c.strmKind = 4 ∨ c.strmKind = 5
  class_eq : OClass.ofCode (fld (c.word 0) 9 2) = some cls
  field : c.strmCtx < 24
  still : (s.ctx c.strmCtx).state = .created ∨ (s.ctx c.strmCtx).state = .stopped
  single : fld (c.word 6) 0 4 = 1
  length : c.words.length = 8
  output : 16 ≤ c.strmQueue ∧ c.strmQueue < 24
  masked : bitAt (s.ctx c.strmCtx).mask c.strmGeode = true
  serving : s.retiredG c.strmGeode = false
  quota : (s.queue c.strmGeode c.strmQueue).quota ≠ 0
  named : s.ctxNames c.strmCtx c.strmGeode c.strmQueue = true
  unbound : (s.queue c.strmGeode c.strmQueue).bind = 0
  empty : (s.queue c.strmGeode c.strmQueue).left = 0
  unrun : (s.geode c.strmGeode).runNames c.strmQueue = false
  overlay : c.strmKind = 5 → (s.queue c.strmGeode c.strmQueue).fmt = 0 ∧ 1 ≤ fld (c.word 2) 0 9 ∧ fld (c.word 2) 0 9 ≤ 256 ∧
    1 ≤ fld (c.word 2) 16 9 ∧ fld (c.word 2) 16 9 ≤ 256
  ring_aligned : c.ring % 4096 = 0
  size_aligned : c.word 5 % 4096 = 0
  size_least : 4096 ≤ c.word 5
  ring_ends : c.ring + c.word 5 ≤ 2 ^ 64
  entries : 3 ≤ (c.word 5 - 64) / s.ringEntry c
  few : (s.streams.filter fun y => y.state != 0 && y.kind == c.strmKind).length < kindLimit c.strmKind
  fits : s.dev.dripSet = false ∨ workFits (s.work 1 0) s.shortL = true

/-- The stream that STREAM_OPEN of one queue opens, with ring entries of `e` bytes. -/
def Cmd.newRing (c : Cmd) (cls : OClass) (e : Nat) : Stream :=
  { state := 1, kind := c.strmKind, cls := cls, ctx := c.strmCtx, queues := [(c.strmGeode, c.strmQueue)], copy := bitAt (c.word 0) 16
    camera := fld (c.word 0) 17 3, mode := bit (bitAt (c.word 0) 20), source := if c.strmKind = 3 then 0 else fld (c.word 1) 0 8
    decim := if c.strmKind = 3 then 1 else fld (c.word 1) 8 9
    width := fld (c.word 2) 0 9, height := fld (c.word 2) 16 9, ring := c.ring, size := c.word 5, entry := e }

/-- The header of an empty ring: write index 0, E, C and W (R249). -/
def Mem.ringHead (m : Mem) (ring e cap wrap : Nat) : Mem :=
  (m.writeN ring (leBytes 4 0)).writeN (ring + 8) (leBytes 4 e ++ leBytes 4 cap ++ leBytes 4 wrap ++ List.replicate 44 0)

/-- The state after it: the queue is bound to the stream, the stream is open, its ring has its header. -/
def State.ringOpened (s : State) (c : Cmd) (cls : OClass) : State :=
  let x := c.newRing cls (s.ringEntry c)
  { (s.withQueue c.strmGeode c.strmQueue fun z => { z with bind := 1, peer := c.strm, peerQ := 0, credit := 32, creditDue := 0 }).withStream c.strm fun _ => x with
    host := s.host.ringHead c.ring (s.ringEntry c) x.cap x.wrap }

section
variable {s : State} {c : Cmd} {cls : OClass} (legal : s.OpensRing c cls)
include legal

theorem streamOpen_ring : streamOpen c s = .ok (s.ringOpened c cls, [], []) := by
  obtain ⟨closed, kind, class_eq, field, still, single, length, output, masked, serving, quota, named, unbound, empty, unrun, overlay, ring_aligned,
    size_aligned, size_least, ring_ends, entries, few, fits⟩ := legal
  obtain ⟨upTo, camera, load, sensor, lantern⟩ : c.strmKind ≤ 5 ∧ c.strmKind ≠ 0 ∧ c.strmKind ≠ 1 ∧ c.strmKind ≠ 2 ∧ c.strmKind ≠ 3 := by
    rcases kind with h | h <;> rw [h] <;> decide
  have out : isOut c.strmKind = true := by rcases kind with h | h <;> rw [h] <;> rfl
  have dry : isConduit c.strmKind = false := by rcases kind with h | h <;> rw [h] <;> rfl
  have fitting : (c.ring % 4096 == 0 && c.word 5 % 4096 == 0 && decide (4096 ≤ c.word 5) && decide (c.ring + c.word 5 ≤ 2 ^ 64) &&
      decide (3 ≤ (c.word 5 - 64) / s.ringEntry c)) = true := by
    simp only [ring_aligned, size_aligned, size_least, ring_ends, entries, beq_self_eq_true, decide_true, Bool.and_self]
  unfold streamOpen
  refine (need_bind (decide_eq_true closed)).trans ?_
  refine (need_bind (decide_eq_true upTo)).trans ?_
  rw [class_eq]
  refine (need_bind (by simp [dry])).trans ?_
  refine (need_bind (decide_eq_true field)).trans ?_
  refine (need_bind (decide_eq_true still)).trans ?_
  refine (need_bind (by simp [single, length, out])).trans ?_
  rw [single]
  refine (need_bind (by simp [range', out, output, masked])).trans ?_
  refine (need_bind (by simp [range', serving, quota, named, unbound, empty, unrun])).trans ?_
  refine (need_bind (by simpa [range', camera] using kind.imp_right fun h => (overlay h).1)).trans ?_
  refine (need_bind (by simp [camera])).trans ?_
  refine (need_bind (by simp [camera])).trans ?_
  refine (need_bind (by simp [load])).trans ?_
  refine (need_bind (by simp [sensor])).trans ?_
  refine (need_bind (by simp [load, sensor])).trans ?_
  refine (need_bind ((Bool.or_eq_true _ _).mpr (.inr fitting))).trans ?_
  refine (need_bind (by simpa using (Decidable.em (c.strmKind = 5)).symm.imp_right fun h => (overlay h).2)).trans ?_
  refine (need_bind (decide_eq_true few)).trans ?_
  refine (need_bind (by simpa using fits)).trans ?_
  refine congrArg (fun u => Except.ok (u, [], [])) ((if_neg lantern).trans ((if_pos out).trans ?_))
  rfl

end

section
variable (s : State) (c : Cmd) (cls : OClass)

theorem State.ringOpened_stream (inside : c.strm < s.streams.length) : (s.ringOpened c cls).stream c.strm = c.newRing cls (s.ringEntry c) :=
  upd_getD_self (f := fun _ => c.newRing cls (s.ringEntry c)) inside

theorem State.ringOpened_stream_ne {k : Nat} (other : k ≠ c.strm) : (s.ringOpened c cls).stream k = s.stream k :=
  upd_getD_ne (f := fun _ => c.newRing cls (s.ringEntry c)) other.symm

/-- The header carries E, and C and W of the ring (R249). -/
theorem State.ringOpened_host : (s.ringOpened c cls).host =
    s.host.ringHead c.ring (s.ringEntry c) ((c.word 5 - 64) / s.ringEntry c)
      ((c.word 5 - 64) / s.ringEntry c * (2 ^ 32 / ((c.word 5 - 64) / s.ringEntry c))) := by
  simp only [State.ringOpened, Cmd.newRing, Stream.cap, Stream.wrap]

theorem State.ringOpened_queue (geodes : c.strmGeode < s.geodes.length) (queues : c.strmQueue < (s.geode c.strmGeode).queues.length) :
    (s.ringOpened c cls).queue c.strmGeode c.strmQueue =
      { s.queue c.strmGeode c.strmQueue with bind := 1, peer := c.strm, peerQ := 0, credit := 32, creditDue := 0 } :=
  State.queue_withQueue_self geodes queues

end

/-! ### STREAM_CLOSE (R261) -/

/-- A stream given its values at reset reads as closed, whether or not the table holds it. -/
theorem State.stream_withStream_reset (s : State) (i : Nat) : (s.withStream i fun _ => {}).stream i = {} := by
  by_cases inside : i < s.streams.length
  · exact State.stream_withStream_self inside
  · exact List.getD_eq_default _ _ ((upd_length _ _ _).symm ▸ Nat.not_lt.mp inside)

/-- Every way through STREAM_CLOSE ends with the stream given its values at reset. -/
theorem State.closeStream_closes (s : State) (i r : Nat) : (s.closeStream i r).1.stream i = {} := by
  simp only [State.closeStream]
  split
  case isTrue output => exact State.stream_withStream_reset _ i
  case isFalse input => exact State.stream_withStream_reset _ i

theorem streamClose_accepts {s : State} {c : Cmd} (opened : (s.stream c.strm).state ≠ 0) (still : s.streamRuns c.strm = false) (r : Nat) :
    streamClose c r s = .ok ((s.closeStream c.strm r).1, [w32 (s.closeStream c.strm r).2], []) := by
  unfold streamClose
  refine (need_bind (decide_eq_true opened)).trans ?_
  exact need_bind ((Bool.not_eq_true' _).mpr still)

/-! ### STREAM_STAT (R260) -/

/-- STREAM_STAT of an open stream answers its counters, the errors of the conduit for a conduit stream, and its state, and clears the counters when
bit 8 asks for it. -/
theorem streamStat_accepts {s : State} {c : Cmd} (opened : (s.stream c.strm).state ≠ 0) :
    streamStat c s = .ok (if bitAt (c.word 0) 8 then s.withStream c.strm fun x => { x with cnt := {} } else s,
      (s.stream c.strm).cnt.words ++
        [w32 (if isConduit (s.stream c.strm).kind then min (2 ^ 32 - 1) s.conduit.crcErr else 0), w32 (s.stream c.strm).state], []) := by
  unfold streamStat
  exact need_bind (decide_eq_true opened)

/-- Settles O20: the checks of each command pass one by one, and what follows them is the stated state. -/
theorem streamCommands : Obligations.StreamCommands := by
  unfold Obligations.StreamCommands
  constructor
  · intro s m tag c cls ready i kind x g q ring e closed inside geodes queues isOutput class_eq field still single length low high masked serving quota
      named unbound empty unrun overlay ring_aligned size_aligned size_least ring_ends entries few fits
    have legal : s.OpensRing c cls :=
      ⟨closed, isOutput, class_eq, field, still, single, length, ⟨low, high⟩, masked, serving, quota, named, unbound, empty, unrun, overlay, ring_aligned,
        size_aligned, size_least, ring_ends, entries, few, fits⟩
    have opened := State.ringOpened_stream s c cls inside
    have bound := State.ringOpened_queue s c cls geodes queues
    refine ⟨s.ringOpened c cls, State.run_ready ready (streamOpen_ring legal), ?_⟩
    rw [opened, bound]
    exact ⟨rfl, rfl, rfl, rfl, rfl, rfl, rfl, rfl, rfl, State.ringOpened_host s c cls, fun k other => State.ringOpened_stream_ne s c cls other⟩
  · intro s m tag r c opened
    constructor
    · intro ready still
      refine ⟨(s.closeStream c.strm r).1, (s.closeStream c.strm r).2, ?_, State.closeStream_closes s c.strm r, rfl⟩
      exact State.run_ready ready (streamClose_accepts opened still r)
    · intro ready x
      exact State.run_ready ready (streamStat_accepts opened)

end Sys2Proof.Machine
end

-- The streams: a block delivered into a queue with an unreleased entry.
section
/-!
PROOFS of 10_streams.md. What the delivery of a camera block does in a queue that holds an entry not yet released (O21).
-/
namespace Sys2Proof.Machine

/-! ### A delivery goes before what is not released (R94, R96) -/

/-- An entry that a firing has pushed and not yet released. -/
def unreleasedEntry : Entry := { released := false }

/-- One decoded Mica block with one row, which has arrived whole. -/
def oneRow : Mica := { rows := [[]], poison := false, dest := 0 }

/-- A device in ACTIVE. Stream 0, a camera's, is open in a running context; its one queue, queue 0 of Geode 0, holds an unreleased entry, and its one
tile has one row to deliver. -/
def unreleasedAhead : State :=
  { State.reset with
    dev := { die := .serving }
    ctxs := { state := .running } :: List.replicate 23 {}
    streams := { state := 1, queues := [(0, 0)], tilesIn := [{ units := 1, got := 1, blocks := [oneRow] }] } :: List.replicate 63 {}
    geodes := { queues := { entries := [unreleasedEntry] } :: List.replicate 23 {} } :: List.replicate 31 {} }

/-- The delivered block stands before the entry that is not released, since consumers see entries in the order of their release. -/
theorem unreleasedAhead_delivers :
    ∃ t, exec (.ingestBlockDeliver 0 false) unreleasedAhead = .next t ∧ (t.queue 0 0).entries.map Entry.released = [true, false] :=
  ⟨_, rfl, by decide⟩

/-- Refutes O21 in the delivery of a block: the block joins its queue behind the released entries (R94), which is the queue's end only where every entry
is released, a hypothesis that the clause lacks. In `unreleasedAhead` the block goes before the unreleased entry, and not behind it as the clause says. -/
theorem not_ingestAndRings : ¬ Obligations.IngestAndRings := by
  unfold Obligations.IngestAndRings
  rintro ⟨ingest, -⟩
  obtain ⟨-, delivers⟩ := ingest unreleasedAhead 0 0 0 0 0 0 []
  obtain ⟨t, stepped, -, -, entries⟩ := delivers 0 0 [] oneRow { units := 1, got := 1, blocks := [oneRow] } (by decide) rfl rfl rfl rfl rfl rfl rfl rfl rfl
    (by decide) rfl rfl rfl (by decide) (by decide) rfl rfl (by decide)
  obtain ⟨u, stepped', order⟩ := unreleasedAhead_delivers
  have same : t = u := Host.Outcome.next.inj (stepped.symm.trans stepped')
  rw [← same, entries] at order
  exact absurd order (by decide)

end Sys2Proof.Machine
end

-- The conduit: what its blocks reach.
section
/-!
PROOFS of 10_streams.md. What blocks for a stream, its events and its counters reach: the stream itself, queues and mailboxes, and neither Flint, nor
the receiver's own state, nor another stream.
-/
namespace Sys2Proof.Machine

/-! ### What a block may change -/

/-- Flint and the receiver. -/
def State.inlet (s : State) : Flint × Conduit := (s.fl, s.conduit)

/-- What says which frames feed a stream: its state, kind and source (R244). -/
def Stream.port (x : Stream) : Nat × Nat × Nat := (x.state, x.kind, x.source)

/-- `t` comes from `s` by work on the streams `l` alone, and none of it opens, closes or rebinds a stream. -/
structure State.Feeds (s : State) (l : List Nat) (t : State) : Prop where
  inlet : t.inlet = s.inlet
  port : ∀ k, (t.stream k).port = (s.stream k).port
  other : ∀ k, k ∉ l → t.stream k = s.stream k

theorem Stream.withMica_port (x : Stream) (f : Mica → Mica) : (x.withMica f).port = x.port := by
  unfold Stream.withMica
  split
  · split <;> rfl
  · rfl

theorem Stream.nextMica_port (x : Stream) : x.nextMica.port = x.port := by
  unfold Stream.nextMica
  split
  · split <;> rfl
  · rfl

namespace State.Feeds

theorem refl (s : State) (l : List Nat) : s.Feeds l s := ⟨rfl, fun _ => rfl, fun _ _ => rfl⟩

section
variable {s u t : State} {l : List Nat} (h : s.Feeds l u)
include h

theorem fl : u.fl = s.fl := congrArg Prod.fst h.inlet
theorem conduit : u.conduit = s.conduit := congrArg Prod.snd h.inlet

theorem trans (next : u.Feeds l t) : s.Feeds l t :=
  ⟨next.inlet.trans h.inlet, fun k => (next.port k).trans (h.port k), fun k hk => (next.other k hk).trans (h.other k hk)⟩

/-- An update that reaches neither the streams nor Flint and the receiver. -/
theorem aside (inlet : t.inlet = u.inlet) (streams : t.streams = u.streams) : s.Feeds l t :=
  h.trans ⟨inlet, fun k => congrArg (fun x : List Stream => (x.getD k {}).port) streams, fun k _ => congrArg (fun x : List Stream => x.getD k {}) streams⟩

theorem withStream {i : Nat} (listed : i ∈ l) (f : Stream → Stream) (kept : ∀ x, (f x).port = x.port := by exact fun _ => rfl) :
    s.Feeds l (u.withStream i f) := by
  refine h.trans ⟨rfl, fun k => ?_, fun k unlisted => State.stream_withStream_ne fun same => unlisted (same ▸ listed)⟩
  by_cases same : i = k
  · subst same
    by_cases inside : i < u.streams.length
    · rw [State.stream_withStream_self inside, kept]
    · unfold State.withStream
      rw [upd_ge (Nat.not_lt.mp inside)]
  · rw [State.stream_withStream_ne same]

theorem withQueue (g q : Nat) (f : Queue → Queue) : s.Feeds l (u.withQueue g q f) := h.aside rfl rfl
theorem event (m code tag n : Nat) (ws : List W32) : s.Feeds l (u.event m code tag n ws) := h.aside rfl rfl

theorem creditBack (g q n : Nat) : s.Feeds l (u.creditBack g q n) := by
  unfold State.creditBack
  split
  · exact h.withQueue _ _ _
  · exact h

theorem deliver (g q : Nat) (e : Entry) : s.Feeds l (u.deliver g q e) := by
  unfold State.deliver
  split
  · split
    · exact h
    · exact h.creditBack g q 1
  · exact h.withQueue g q _

theorem addRec (code ctx geode unit strm interval : Nat) (detail : List W32) : s.Feeds l (u.addRec code ctx geode unit strm interval detail) := by
  simp only [State.addRec]
  split
  · unfold State.recNew
    split <;> exact h.aside rfl rfl
  · exact h.aside rfl rfl

omit h in
/-- Steps that each work on the streams `l` alone do so together. -/
theorem foldl {α : Type} {f : State → α → State} {as : List α} (step : ∀ u a, a ∈ as → s.Feeds l u → s.Feeds l (f u a)) (start : s.Feeds l u) :
    s.Feeds l (as.foldl f u) :=
  List.foldlRecOn as f start fun u hu a ha => step u a ha hu

section
variable {i : Nat} (listed : i ∈ l)
include listed

theorem count (f : Counters → Counters) : s.Feeds l (u.count i f) := h.withStream listed _

theorem streamEvent (cause : Nat) : s.Feeds l (u.streamEvent i cause) := by
  simp only [State.streamEvent]
  split
  · exact h
  · have sent := (h.withStream listed fun x => { x with sent := x.sent ++ [cause] }).event 0 0x20 0 0 [w32 (i + cause * 2 ^ 8)]
    split
    · exact sent.event _ 0x20 0 0 _
    · exact sent

theorem discard (d k : Nat) : s.Feeds l (u.discard i d k) := by
  unfold State.discard
  split
  · exact h
  · exact h.withStream listed _

theorem put (d : Nat) (e : Entry) : s.Feeds l (u.put i d e) := by
  have delivered : s.Feeds l (((u.stream i).targets d).foldl (fun v p => v.deliver p.1 p.2 { e with origin := u.drip.count % 2 ^ 32 }) u) :=
    foldl (fun _ p _ fed => fed.deliver p.1 p.2 _) h
  simp only [State.put]
  exact delivered.count listed _

theorem unitIn (j : Nat) : s.Feeds l (u.unitIn i j) := by
  simp only [State.unitIn]
  split
  · exact h.withStream listed _
  · exact ((h.count listed _).streamEvent listed 1).withStream listed _

omit h in
theorem fill (k : Nat) {u : State} (h : s.Feeds l u) : s.Feeds l (u.fill k i) := by
  induction k generalizing u with
  | zero => exact h
  | succ k ih =>
    simp only [State.fill]
    split
    · exact h
    · split
      · exact ih (h.unitIn listed _)
      · exact h

theorem credit : s.Feeds l (u.credit i) := fill listed _ h

theorem decode (b : Mica) : s.Feeds l (u.decode i b) := by
  unfold State.decode
  split
  · exact ((h.count listed _).streamEvent listed 2).withStream listed _ fun x => x.withMica_port _
  · exact h

theorem nextMica : s.Feeds l ((u.withStream i Stream.nextMica).credit i) := (h.withStream listed _ Stream.nextMica_port).credit listed

theorem pump (moved : u.pump i = some t) : s.Feeds l t := by
  simp only [State.pump] at moved
  split at moved
  · cases moved
  split at moved
  · split at moved <;> cases moved
    exact (foldl (fun _ p _ fed => fed.deliver p.1 p.2 _) h).withStream listed _
  split at moved
  · split at moved <;> cases moved
    exact (h.put listed _ _).withStream listed _
  split at moved
  · cases moved
  split at moved
  · cases moved
    exact h.nextMica listed
  · split at moved <;> cases moved
    have row (b : Mica) (e : Entry) := (h.decode listed b).put listed b.dest e
    split
    · exact (row _ _).nextMica listed
    · exact (row _ _).withStream listed _ fun x => x.withMica_port _

omit h in
theorem pumps (k : Nat) {u : State} (h : s.Feeds l u) : s.Feeds l (u.pumps k i) := by
  induction k generalizing u with
  | zero => exact h
  | succ k ih =>
    unfold State.pumps
    split
    next moved => exact ih (h.pump listed moved)
    · exact h

theorem feed (ts k : Nat) (payload : List Byte) (poison : Bool) : s.Feeds l (u.feed i ts k payload poison) := by
  simp only [State.feed]
  split
  · exact h
  split
  · exact (h.discard listed _ 1).withStream listed _
  · exact pumps listed 40 (h.withStream listed _)

end
end
end State.Feeds

/-! ### The streams of a source (R244, R248) -/

/-- Work that rebinds no stream leaves the streams of every source as they were. -/
theorem State.Feeds.fedBy {s t : State} {l : List Nat} (h : s.Feeds l t) (kind source : Nat) : t.fedBy kind source = s.fedBy kind source := by
  have port (k : Nat) := h.port k
  simp only [Stream.port, Prod.mk.injEq] at port
  simp only [State.fedBy, (port _).1, (port _).2.1, (port _).2.2]

section
variable {s : State} {kind source : Nat}

theorem State.Feeds.lose {u : State} (h : s.Feeds (s.fedBy kind source) u) (n : Nat) : s.Feeds (s.fedBy kind source) (u.lose kind source n) := by
  unfold State.lose
  split
  · exact h
  · rw [h.fedBy]
    exact foldl (fun _ i listed fed => (fed.count listed _).streamEvent listed 3) h

theorem State.Feeds.feedAll {u : State} (h : s.Feeds (s.fedBy kind source) u) (ts : Nat) (payload : List Byte) (poison : Bool) :
    s.Feeds (s.fedBy kind source) (u.feedAll kind source ts payload poison) := by
  unfold State.feedAll
  rw [h.fedBy]
  exact foldl (fun _ i listed fed => fed.feed listed ts _ payload poison) h

theorem State.Feeds.standIn {u : State} (h : s.Feeds (s.fedBy kind source) u) (ts k : Nat) :
    s.Feeds (s.fedBy kind source) (u.standIn kind source ts k) := by
  unfold State.standIn
  rw [h.fedBy]
  refine foldl (fun v i listed fed => ?_) h
  split
  · exact fed
  · exact ((fed.count listed _).streamEvent listed 4).feed listed ts k _ true

/-- Stand-ins for the missing copies, each for a drop that depends on the state before it, but for those delivered already. -/
theorem State.Feeds.standIns {u : State} (h : s.Feeds (s.fedBy kind source) u) (delivered : State → Nat → Prop) [∀ v n, Decidable (delivered v n)]
    (drop : State → Nat → Nat × Nat) (missing : List Nat) :
    s.Feeds (s.fedBy kind source)
      (missing.foldl (fun v n => if delivered v n then v else v.standIn kind source (drop v n).1 (drop v n).2) u) := by
  refine foldl (fun v n _ fed => ?_) h
  split
  · exact fed
  · exact fed.standIn _ _

section
variable (unfed : s.fedBy kind source = [])
include unfed

theorem State.lose_unfed (n : Nat) : s.lose kind source n = s := by
  unfold State.lose
  rw [unfed]
  exact ite_self _

theorem State.feedAll_unfed (ts : Nat) (payload : List Byte) (poison : Bool) : s.feedAll kind source ts payload poison = s := by
  unfold State.feedAll
  rw [unfed]
  rfl

theorem State.standIn_unfed (ts k : Nat) : s.standIn kind source ts k = s := by
  unfold State.standIn
  rw [unfed]
  rfl

end
end
end Sys2Proof.Machine
end

-- The conduit: frames, answers and the copies of the leader.
section
/-!
PROOFS of 10_streams.md. The frames that Flint sends and the copies of the leader (O36).
-/
namespace Sys2Proof.Machine

/-! ### What is kept for a key -/

theorem getKey_setKey {α β : Type} [BEq α] [LawfulBEq α] (l : List (α × β)) (k : α) (v : β) : getKey (setKey l k v) k = some v := by
  have gone : (l.filter fun x => !(x.1 == k)).find? (fun x => x.1 == k) = none := by
    simp [List.find?_eq_none]
  simp [getKey, setKey, List.find?_append, gone]

/-! ### A frame arrives (R243, R244) -/

/-- The state in which Flint's next frame has left its buffer. -/
abbrev State.frameTaken (s : State) (f : Frame) : State := s.withFl fun d => { d with frames := d.frames.erase f }

section
variable {s : State} {raw : List Byte} {f : Frame}

theorem State.receive_next (parsed : parseFrame raw = some f) (next : nextFrame s.fl.frames = some f) : s.receive f.kind raw = (s.frameTaken f, some f) := by
  simp [State.receive, parsed, next]

section
variable {u : State} {kind : Nat} (receives : s.receives = true) (arrives : s.receive kind raw = (u, some f))
include receives arrives

theorem exec_sampleFrame (one : kind = 1) (upset : Bool) : exec (.sampleFrame raw upset) s = .next ((u.acceptFrame f upset).disagree f) := by
  subst one
  simp only [exec, execSampleFrame, receives, arrives, Bool.not_true, Bool.false_eq_true, if_false]

theorem exec_lanternEvent (two : kind = 2) (upset : Bool) : exec (.lanternEvent raw upset) s = .next (u.acceptFrame f upset) := by
  subst two
  simp only [exec, execLanternEvent, receives, arrives, Bool.not_true, Bool.false_eq_true, if_false]

/-- A RECORD frame sends its event on mailboxes 0 and 1 (R330). -/
theorem exec_recordFrame (four : kind = 4) : exec (.recordFrame raw) s =
    .next ((u.event 0 0x30 0 0 [w32 (leNat ((f.payload.drop 4).take 4))]).event 1 0x30 0 0 [w32 (leNat ((f.payload.drop 4).take 4))]) := by
  subst four
  simp only [exec, execRecordFrame, receives, arrives, Bool.not_true, Bool.false_eq_true, if_false]

/-- A metrology answer waits for its relay (R69). -/
theorem exec_mailboxResponse_met (three : kind = 3) (fresh : u.conduit.stale = [])
    (met : isMet (fld ((leWords (f.payload.length / 4) f.payload).getD 0 0).toNat 24 8) = true) :
    exec (.mailboxResponse raw) s =
      .next { u with conduit := { u.conduit with answers := u.conduit.answers ++ [leWords (f.payload.length / 4) f.payload] } } := by
  subst three
  simp only [exec, execMailboxResponse, receives, arrives, fresh, met, List.contains_nil, Bool.not_true, Bool.false_eq_true, if_false, if_true]

/-- The carried time of an RTC_LATCH frame (R346). -/
theorem exec_rtcLatch_carried (five : kind = 5) (woken : u.dev.fromHib = true) (started : u.dev.phase ≠ 0) :
    exec (.rtcLatch raw) s = .next ((({ u with conduit := { u.conduit with rtc := some (leNat ((f.payload.drop 28).take 16)) } } : State).withTime fun x =>
      { x with now := stampUnits (leNat ((f.payload.drop 28).take 16)) % timeMod, quality := .carried }).withDev fun d => { d with fromHib := false }) := by
  subst five
  simp only [exec, execRtcLatch, receives, arrives, Bool.not_true, Bool.false_eq_true, if_false]
  exact if_pos ⟨woken, started⟩

end

/-- A frame whose CRC is wrong is counted and lost, where Flint sends no other kind next. -/
theorem exec_sampleFrame_broken (receives : s.receives = true) (broken : parseFrame raw = none) (next : ∀ g, nextFrame s.fl.frames = some g → g.kind = 1) :
    exec (.sampleFrame raw false) s =
      .next { s.withFl (fun d => { d with frames := sentFrames d.frames.length d.frames ((raw.getD 2 0).toNat + 22) }) with
        conduit := { s.conduit with crcErr := s.conduit.crcErr + 1 } } := by
  have ours : ((nextFrame s.fl.frames).map fun g => g.kind == 1).getD true = true := by
    cases sent : nextFrame s.fl.frames with
    | none => rfl
    | some g => exact beq_iff_eq.mpr (next g sent)
  simp only [exec, execSampleFrame, State.receive, receives, broken, ours, Bool.not_true, Bool.false_eq_true, if_false, if_true]

end

/-! ### A block is accepted (R244, R248) -/

/-- The receiver has noted the sequence number of a frame. -/
def State.numbered (s : State) (f : Frame) : State := { s with conduit := { s.conduit with last := setKey s.conduit.last (f.kind, f.source) f.seq } }

theorem State.acceptFrame_spec {s : State} {f : Frame} (leads : s.follows = false) (poison : Bool) :
    (s.acceptFrame f poison).fl = s.fl ∧ (s.acceptFrame f poison).conduit.last = setKey s.conduit.last (f.kind, f.source) f.seq ∧
      ∀ i, i ∉ s.fedBy f.kind f.source → (s.acceptFrame f poison).stream i = s.stream i := by
  have fed := ((State.Feeds.refl (s.numbered f) _).lose (kind := f.kind) (source := f.source)
    (seqGap (getKey s.conduit.last (f.kind, f.source)) f.seq)).feedAll f.ts f.payload poison
  have last := congrArg Conduit.last fed.conduit
  simp only [State.acceptFrame]
  rw [if_neg (by simp [leads])]
  split <;> exact ⟨fed.fl, last, fed.other⟩

/-- A frame that feeds no stream, outside PAIRED mode, leaves its sequence number alone. -/
theorem State.acceptFrame_unfed {s : State} {f : Frame} (unfed : s.fedBy f.kind f.source = []) (single : s.tw.mode ≠ .paired) (poison : Bool) :
    s.acceptFrame f poison = s.numbered f := by
  have unfed' : (s.numbered f).fedBy f.kind f.source = [] := unfed
  have leads : s.follows = false := by simp [State.follows, single]
  simp only [State.acceptFrame, leads, single, false_and, Bool.false_eq_true, if_false]
  exact (congrArg (fun u : State => u.feedAll f.kind f.source f.ts f.payload poison) (State.lose_unfed unfed' _)).trans (State.feedAll_unfed unfed' _ _ _)

theorem State.disagree_feeds (s : State) (f : Frame) : s.Feeds [] (s.disagree f) := by
  have start := State.Feeds.refl s []
  simp only [State.disagree]
  split
  · exact start
  split
  · exact start.addRec _ _ _ _ _ _ _
  · exact (start.aside (t := s.draw.1) rfl rfl).addRec _ _ _ _ _ _ _

theorem State.disagree_other {s : State} {f : Frame} (other : f.source ≠ 0) : s.disagree f = s := by
  simp [State.disagree, other]

/-! ### The copies of the leader (R248) -/

/-- The follower has noted a copy of the leader, with the stand-ins that it still remembers. -/
def State.leadNoted (s : State) (kind source seq ts : Nat) (stood : List (Nat × Nat)) : State :=
  { s with conduit :=
    { s.conduit with
      lead := setKey s.conduit.lead (kind, source) seq
      stood := stood
      copyTs := if kind = 1 then setKey s.conduit.copyTs source ts else s.conduit.copyTs } }

/-- The stand-in for the copy of `n` drops before one of timestamp `ts`. -/
def State.standInBack (kind source ts : Nat) (s : State) (n : Nat) : State :=
  let (t, k) := if kind = 1 then s.dropBefore ts n else (ts, 0)
  s.standIn kind source t k

section
variable {s : State} {kind source : Nat} (follows : s.follows = true) (receives : s.receives = true) (link : s.twinLink = true) (block : kind = 1 ∨ kind = 2)
include follows receives link block

theorem conduitCopy_taken : (!s.follows || !s.receives || !s.twinLink || !(kind == 1 || kind == 2)) = false := by
  rcases block with rfl | rfl <;> simp [follows, receives, link]

/-- A copy works on the streams of its source alone, once the follower has noted it. -/
theorem exec_conduitCopy_feeds (seq lost ts : Nat) (payload : List Byte) (poison : Bool) :
    ∃ (stood : List (Nat × Nat)) (u : State), exec (.conduitCopy kind source seq lost ts payload poison) s = .next u ∧
      (s.leadNoted kind source seq ts stood).Feeds (s.fedBy kind source) u := by
  have taken := conduitCopy_taken follows receives link block
  simp only [exec, execConduitCopy, taken, Bool.false_eq_true, if_false]
  generalize s.conduit.stood.filter _ = stood
  have start := State.Feeds.refl (s.leadNoted kind source seq ts stood) ((s.leadNoted kind source seq ts stood).fedBy kind source)
  split
  · exact ⟨stood, _, rfl, (start.lose lost).standIns _ _ _⟩
  · exact ⟨stood, _, rfl, ((start.lose lost).standIns _ _ _).feedAll ts payload poison⟩

/-- A copy at a follower that remembers no stand-in: the missing ones before it are stood in for, then it feeds its streams. -/
theorem exec_conduitCopy_timely (empty : s.conduit.stood = []) (seq lost ts : Nat) (payload : List Byte) (poison : Bool) :
    exec (.conduitCopy kind source seq lost ts payload poison) s = .next
      (((missingBack (seqGap (getKey s.conduit.lead (kind, source)) seq) lost).foldl (State.standInBack kind source ts)
        ((s.leadNoted kind source seq ts s.conduit.stood).lose kind source lost)).feedAll kind source ts payload poison) := by
  have taken := conduitCopy_taken follows receives link block
  simp only [exec, execConduitCopy, taken, empty, List.any_nil, List.filter_nil, Bool.false_eq_true, if_false]
  rfl

end

/-- Without streams of the source the stand-ins change nothing. -/
theorem State.foldl_standInBack_unfed {s : State} {kind source : Nat} (unfed : s.fedBy kind source = []) (ts : Nat) (missing : List Nat) :
    missing.foldl (State.standInBack kind source ts) s = s := by
  induction missing with
  | nil => rfl
  | cons n missing ih =>
    have unmoved : State.standInBack kind source ts s n = s := State.standIn_unfed unfed _ _
    rw [List.foldl_cons, unmoved, ih]

/-- A late copy of a source that feeds no stream is stood in for: the follower notes its drop. -/
theorem exec_twinLate_unfed {s : State} {source ts : Nat} (follows : s.follows = true) (unfed : s.fedBy 1 source = [])
    (due : getKey s.conduit.due source = some ts) (first : getKey s.conduit.copyTs source = none) :
    exec (.twinLate source ts) s = .next { s with conduit :=
      { s.conduit with stood := s.conduit.stood ++ [(source, ts)], copyTs := setKey s.conduit.copyTs source ts } } := by
  simp only [exec, execTwinLate, follows, due, first, Option.map_some, Option.map_none, Option.getD_some, Option.getD_none, le_refl, decide_true,
    Bool.not_true, Bool.or_self, Bool.false_eq_true, if_false]
  exact congrArg Host.Outcome.next (State.standIn_unfed (by exact unfed) _ _)

/-- Settles O36: each frame by the meaning of its kind, the streams it feeds by what a block may change. -/
theorem conduitFrames : Obligations.ConduitFrames := by
  unfold Obligations.ConduitFrames
  intro s raw f receives
  refine ⟨fun broken next => ?broken, fun parsed next => ?arrives, ?copies, ?quiet⟩
  case broken => exact ⟨_, exec_sampleFrame_broken receives broken next, rfl, rfl, rfl⟩
  case arrives =>
    have arrives := State.receive_next parsed next
    refine ⟨fun upset one leads => ?sample, fun upset two leads => ?lantern, fun one unfed single other => ?sampleUnfed, fun two unfed single => ?lanternUnfed,
      fun four => exec_recordFrame receives arrives four, fun three fresh met => ?answer, fun five woken started => ?carried⟩
    case sample =>
      obtain ⟨fl, last, other⟩ := State.acceptFrame_spec (s := s.frameTaken f) (f := f) leads upset
      have noted := ((s.frameTaken f).acceptFrame f upset).disagree_feeds f
      rw [one] at last other
      refine ⟨_, exec_sampleFrame receives arrives one upset, rfl, ?_, ?_, fun i unlisted => (noted.other i List.not_mem_nil).trans (other i unlisted)⟩
      · rw [noted.fl, fl]; rfl
      · rw [noted.conduit, last]; rfl
    case lantern =>
      obtain ⟨fl, last, other⟩ := State.acceptFrame_spec (s := s.frameTaken f) (f := f) leads upset
      rw [two] at last other
      exact ⟨_, exec_lanternEvent receives arrives two upset, rfl, congrArg Flint.frames fl, last, other⟩
    case sampleUnfed =>
      have accepted := State.acceptFrame_unfed (s := s.frameTaken f) (f := f) (one ▸ unfed) single false
      refine ⟨_, exec_sampleFrame receives arrives one false, ?_⟩
      rw [accepted, State.disagree_other other, ← one]
      exact ⟨rfl, rfl, rfl⟩
    case lanternUnfed =>
      have accepted := State.acceptFrame_unfed (s := s.frameTaken f) (f := f) (two ▸ unfed) single false
      refine ⟨_, exec_lanternEvent receives arrives two false, ?_⟩
      rw [accepted, ← two]
      exact ⟨rfl, rfl, rfl⟩
    case answer => exact ⟨_, exec_mailboxResponse_met receives arrives three fresh met, rfl, rfl, rfl⟩
    case carried => exact ⟨_, exec_rtcLatch_carried receives arrives five woken started, rfl, rfl, rfl, rfl⟩
  case copies =>
    intro kind src sq lost ts payload poison follows link block
    refine ⟨?_, fun adjacent empty => ?_⟩
    · obtain ⟨stood, u, stepped, fed⟩ := exec_conduitCopy_feeds follows receives link block sq lost ts payload poison
      have conduit := fed.conduit
      refine ⟨u, stepped, ?_, ?_, fun one => ?_, fed.fl, fed.other⟩ <;> rw [conduit]
      · exact getKey_setKey _ _ _
      · rfl
      · exact (congrArg (getKey · src) (if_pos one)).trans (getKey_setKey _ _ _)
    · rw [exec_conduitCopy_timely follows receives link block empty, adjacent]
      rfl
  case quiet =>
    intro src sq ts payload follows link unfed
    refine ⟨fun empty => ?_, fun due first => ?_⟩
    · have unfed' : (s.leadNoted 1 src sq ts s.conduit.stood).fedBy 1 src = [] := unfed
      have stepped := exec_conduitCopy_timely (source := src) follows receives link (.inl rfl) empty sq 0 ts payload false
      rw [State.lose_unfed unfed', State.foldl_standInBack_unfed unfed', State.feedAll_unfed unfed'] at stepped
      exact ⟨_, stepped, getKey_setKey _ _ _, getKey_setKey _ _ _, rfl, rfl⟩
    · exact ⟨_, exec_twinLate_unfed follows unfed due first, rfl, getKey_setKey _ _ _⟩

end Sys2Proof.Machine
end

-- The commands: SLAB_ALLOC.
section
/-!
PROOFS of 12_commands.md. The slabs that SLAB_ALLOC picks; what it makes of them and of the context's map, owned and shared (O12).
-/
namespace Sys2Proof.Machine

/-! ### How many slabs each Chamber gives (R284) -/

/-- The free slabs of a Chamber are slabs of it. -/
theorem State.mem_freeIn {s : State} {ch sl : Nat} : sl ∈ s.freeIn ch ↔ sl / 128 = ch ∧ (s.gal.slab sl).state = .free := by
  simp only [State.freeIn, range', List.mem_filter, List.mem_map, List.mem_range, beq_iff_eq]
  refine and_congr_left fun _ => ⟨?_, fun h => ⟨sl % 128, by omega, by omega⟩⟩
  rintro ⟨k, hk, rfl⟩
  omega

theorem State.freeIn_nodup (s : State) (ch : Nat) : (s.freeIn ch).Nodup :=
  (List.nodup_range.map (add_right_injective _)).filter _

/-- One Chamber of `spreadSlabs`: of `x.1` free slabs it gives `x.2`, and as many more as it can of the shortfall. -/
def giveMore (r : List Nat × Nat) (x : Nat × Nat) : List Nat × Nat := (r.1 ++ [x.2 + min (x.1 - x.2) r.2], r.2 - min (x.1 - x.2) r.2)

/-- The Chambers that have enough between them give what was asked for, none of them more than it has. -/
theorem foldl_giveMore {l : List (Nat × Nat)} (within : ∀ x ∈ l, x.2 ≤ x.1) (given : List Nat) (short : Nat) :
    ∃ more, (l.foldl giveMore (given, short)).1 = given ++ more ∧ List.Forall₂ (fun n x => n ≤ x.1) more l ∧
      (short + (l.map Prod.snd).sum ≤ (l.map Prod.fst).sum → more.sum = (l.map Prod.snd).sum + short) := by
  induction l generalizing given short with
  | nil => exact ⟨[], by simp, .nil, by simp [eq_comm]⟩
  | cons x l ih =>
    obtain ⟨here, later⟩ := List.forall_mem_cons.mp within
    obtain ⟨more, result, bound, total⟩ := ih later (giveMore (given, short) x).1 (giveMore (given, short) x).2
    refine ⟨(x.2 + min (x.1 - x.2) short) :: more, ?_, .cons (by omega) bound, fun enough => ?_⟩
    · rw [List.foldl_cons, result, giveMore, List.append_assoc]
      rfl
    · have least : (l.map Prod.snd).sum ≤ (l.map Prod.fst).sum := List.sum_le_sum fun y hy => later y hy
      simp only [List.map_cons, List.sum_cons, giveMore] at enough total ⊢
      rw [total (by omega)]
      omega

/-- What the Chambers give of their even parts. -/
abbrev evenGifts (avail want : List Nat) : List Nat := (avail.zip want).map fun x => min x.1 x.2

theorem sum_evenGifts_le (avail want : List Nat) : (evenGifts avail want).sum ≤ want.sum := by
  induction avail generalizing want with
  | nil => exact Nat.zero_le _
  | cons a avail ih =>
    cases want with
    | nil => exact Nat.zero_le _
    | cons w want =>
      simp only [evenGifts, List.zip_cons_cons, List.map_cons, List.sum_cons]
      exact add_le_add (min_le_right a w) (ih want)

/-- Of even parts that add up to no more than the count, the Chambers make the count. -/
theorem spreadSlabs_spec {avail want : List Nat} {count : Nat} (size : want.length = avail.length) (asked : want.sum ≤ count) (enough : count ≤ avail.sum) :
    List.Forall₂ (· ≤ ·) (spreadSlabs avail want count) avail ∧ (spreadSlabs avail want count).sum = count := by
  have even := sum_evenGifts_le avail want
  have length : (evenGifts avail want).length = avail.length := by simp [size]
  have firsts : (avail.zip (evenGifts avail want)).map Prod.fst = avail := List.map_fst_zip length.ge
  have seconds : (avail.zip (evenGifts avail want)).map Prod.snd = evenGifts avail want := List.map_snd_zip length.le
  have within : ∀ x ∈ avail.zip (evenGifts avail want), x.2 ≤ x.1 := fun x hx => by
    obtain ⟨i, hi, rfl⟩ := List.getElem_of_mem hx
    simp
  obtain ⟨more, result, bound, total⟩ := foldl_giveMore within [] (count - (evenGifts avail want).sum)
  rw [show spreadSlabs avail want count = more from result]
  rw [← List.forall₂_map_right_iff (f := Prod.fst), firsts] at bound
  rw [firsts, seconds] at total
  exact ⟨bound, (total (by omega)).trans (by omega)⟩

theorem sum_even_parts (q r k : Nat) : ((List.range k).map fun i => q + bit (decide (i < r))).sum = k * q + min k r := by
  induction k with
  | zero => simp
  | succ k ih =>
    rw [List.range_succ, List.map_append, List.sum_append, ih, Nat.succ_mul]
    by_cases more : k < r <;> simp [bit, more] <;> omega

/-- The even parts of a count over `k` Chambers. -/
theorem sum_even_parts_le (count k : Nat) : ((List.range k).map fun i => count / k + bit (decide (i < count % k))).sum ≤ count := by
  rw [sum_even_parts]
  have := Nat.div_add_mod count k
  omega

/-! ### The slabs picked (R284) -/

/-- The first slabs of each Chamber of `chs`, as many as `ns` says. -/
def State.firstSlabs (s : State) (chs ns : List Nat) : List Nat := (chs.zip ns).flatMap fun x => (s.freeIn x.1).take x.2

theorem State.length_firstSlabs {s : State} {chs ns : List Nat} (fits : List.Forall₂ (· ≤ ·) ns (chs.map fun ch => (s.freeIn ch).length)) :
    (s.firstSlabs chs ns).length = ns.sum := by
  induction chs generalizing ns with
  | nil => cases fits; rfl
  | cons ch chs ih =>
    obtain _ | ⟨here, later⟩ := fits
    simp only [State.firstSlabs, List.zip_cons_cons, List.flatMap_cons, List.length_append, List.length_take, List.sum_cons, min_eq_left here]
    exact congrArg _ (ih later)

theorem State.mem_firstSlabs {s : State} {chs ns : List Nat} {sl : Nat} (h : sl ∈ s.firstSlabs chs ns) :
    sl / 128 ∈ chs ∧ (s.gal.slab sl).state = .free := by
  obtain ⟨x, hx, taken⟩ := List.mem_flatMap.mp h
  obtain ⟨chamber, free⟩ := State.mem_freeIn.mp (List.mem_of_mem_take taken)
  exact ⟨chamber ▸ (List.of_mem_zip hx).1, free⟩

theorem State.firstSlabs_nodup {s : State} {chs : List Nat} (distinct : chs.Nodup) (ns : List Nat) : (s.firstSlabs chs ns).Nodup := by
  induction chs generalizing ns with
  | nil => exact List.nodup_nil
  | cons ch chs ih =>
    cases ns with
    | nil => exact List.nodup_nil
    | cons n ns =>
      obtain ⟨new, distinct⟩ := List.nodup_cons.mp distinct
      refine ((s.freeIn_nodup ch).sublist (List.take_sublist _ _)).append (ih distinct ns) fun sl here later => new ?_
      exact (State.mem_freeIn.mp (List.mem_of_mem_take here)).1 ▸ (State.mem_firstSlabs later).1

/-- The Chambers of a mask. -/
def chambers (mask : Nat) : List Nat := (List.range 4).filter fun k => bitAt mask k

theorem State.pickSlabs_eq_some {s : State} {mask count : Nat} {l : List Nat} (h : s.pickSlabs mask count = some l) :
    ∃ ns, l = s.firstSlabs (chambers mask) ns ∧ List.Forall₂ (· ≤ ·) ns ((chambers mask).map fun ch => (s.freeIn ch).length) ∧ ns.sum = count := by
  simp only [State.pickSlabs, Option.ite_none_left_eq_some, Option.some.injEq, not_lt] at h
  obtain ⟨enough, rfl⟩ := h
  exact ⟨_, rfl, spreadSlabs_spec (by simp) (sum_even_parts_le _ _) enough⟩

theorem State.pickSlabs_length {s : State} {mask count : Nat} {l : List Nat} (h : s.pickSlabs mask count = some l) : l.length = count := by
  obtain ⟨ns, rfl, fits, rfl⟩ := State.pickSlabs_eq_some h
  exact State.length_firstSlabs fits

theorem State.pickSlabs_nodup {s : State} {mask count : Nat} {l : List Nat} (h : s.pickSlabs mask count = some l) : l.Nodup := by
  obtain ⟨ns, rfl, -⟩ := State.pickSlabs_eq_some h
  exact State.firstSlabs_nodup (List.nodup_range.filter _) ns

theorem State.mem_pickSlabs {s : State} {mask count sl : Nat} {l : List Nat} (h : s.pickSlabs mask count = some l) (mem : sl ∈ l) :
    sl < 512 ∧ bitAt mask (sl / 128) = true ∧ (s.gal.slab sl).state = .free := by
  obtain ⟨ns, rfl, -⟩ := State.pickSlabs_eq_some h
  obtain ⟨chamber, free⟩ := State.mem_firstSlabs mem
  obtain ⟨inside, named⟩ := List.mem_filter.mp chamber
  exact ⟨by have := List.mem_range.mp inside; omega, named, free⟩

/-! ### The map of a context (R190) -/

theorem find?_insEnt_ne {i j : Nat} (other : i ≠ j) (e : MapEnt) (m : List (Nat × MapEnt)) :
    (insEnt i e m).find? (fun z => z.1 == j) = m.find? fun z => z.1 == j := by
  induction m with
  | nil => simp [insEnt, other]
  | cons x m ih =>
    simp only [insEnt]
    split
    · simp [List.find?_cons, other]
    · simp [List.find?_cons, ih]

/-- An index without an entry gets the one put there. -/
theorem find?_insEnt_self {i : Nat} {m : List (Nat × MapEnt)} (fresh : m.find? (fun z => z.1 == i) = none) (e : MapEnt) :
    (insEnt i e m).find? (fun z => z.1 == i) = some (i, e) := by
  induction m with
  | nil => simp [insEnt]
  | cons x m ih =>
    obtain ⟨differs, fresh⟩ : x.1 ≠ i ∧ m.find? (fun z => z.1 == i) = none := by
      simpa [List.find?_eq_none] using fresh
    simp only [insEnt]
    split
    · simp
    · simp [differs, ih fresh]

/-- Put map entries in index order, one after another. -/
def insEnts (l m : List (Nat × MapEnt)) : List (Nat × MapEnt) := l.foldl (fun m a => insEnt a.1 a.2 m) m

theorem find?_insEnts_ne {i : Nat} {l : List (Nat × MapEnt)} (other : i ∉ l.map Prod.fst) (m : List (Nat × MapEnt)) :
    (insEnts l m).find? (fun z => z.1 == i) = m.find? fun z => z.1 == i := by
  refine List.foldlRecOn (motive := fun t : List (Nat × MapEnt) => t.find? (fun z => z.1 == i) = m.find? fun z => z.1 == i) l _ rfl fun t ht a ha => ?_
  exact (find?_insEnt_ne (by rintro rfl; exact other (List.mem_map_of_mem ha)) a.2 t).trans ht

/-- Entries put at distinct indices that have none are found there. -/
theorem find?_insEnts_mem {l m : List (Nat × MapEnt)} (distinct : (l.map Prod.fst).Nodup) (fresh : ∀ i ∈ l.map Prod.fst, m.find? (fun z => z.1 == i) = none)
    {a : Nat × MapEnt} (mem : a ∈ l) : (insEnts l m).find? (fun z => z.1 == a.1) = some a := by
  induction l generalizing m with
  | nil => exact absurd mem List.not_mem_nil
  | cons b l ih =>
    obtain ⟨new, distinct⟩ := List.nodup_cons.mp distinct
    obtain ⟨here, later⟩ := List.forall_mem_cons.mp fresh
    rcases List.mem_cons.mp mem with rfl | mem
    · exact (find?_insEnts_ne new _).trans (find?_insEnt_self here a.2)
    · refine ih distinct (fun i hi => ?_) mem
      exact (find?_insEnt_ne (by rintro rfl; exact new hi) b.2 m).trans (later i hi)

/-- Map entries at consecutive indices from `first` on. -/
def Ctx.mapFrom (y : Ctx) (first : Nat) (es : List MapEnt) : Ctx := { y with map := insEnts ((range' first es.length).zip es) y.map }

theorem Ctx.ent_mapFrom {y : Ctx} {first : Nat} {es : List MapEnt} (fresh : ∀ i, first ≤ i → i < first + es.length → y.ent i = none) {k : Nat} {e : MapEnt}
    (named : es[k]? = some e) : (y.mapFrom first es).ent (first + k) = some e := by
  obtain ⟨inside, rfl⟩ := List.getElem?_eq_some_iff.mp named
  have indices : ((range' first es.length).zip es).map Prod.fst = range' first es.length := List.map_fst_zip (by simp [range'])
  have distinct : (range' first es.length).Nodup := List.nodup_range.map (add_right_injective first)
  have mem : (first + k, es[k]) ∈ (range' first es.length).zip es := List.mem_iff_getElem.mpr ⟨k, by simpa [range'] using inside, by simp [range']⟩
  refine (congrArg (Option.map Prod.snd) (find?_insEnts_mem (indices.symm ▸ distinct) (fun i hi => ?_) mem) :)
  rw [indices] at hi
  obtain ⟨j, hj, rfl⟩ := List.mem_map.mp hi
  exact Option.map_eq_none_iff.mp (fresh _ (Nat.le_add_right _ _) (Nat.add_lt_add_left (List.mem_range.mp hj) _))

/-! ### SLAB_ALLOC, owned (R192, R284) -/

/-- A slab that SLAB_ALLOC gives to context `x`. -/
def Slab.givenTo (x : Nat) (scratch : Bool) (y : Slab) : Slab :=
  { y with state := .owned, owner := x, scratch := scratch, coded := false, image := 0, epoch := 0 }

/-- The Gallery with some slabs given to context `x`. -/
def Gallery.give (x : Nat) (scratch : Bool) (l : List Nat) (g : Gallery) : Gallery := l.foldl (fun g sl => g.withSlab sl (Slab.givenTo x scratch)) g

section
variable {x : Nat} {scratch : Bool} {l : List Nat} {g : Gallery}

theorem Gallery.give_mem : (g.give x scratch l).mem = g.mem := by
  refine foldl_keeps (p := Gallery.mem) (fun h sl => ?_) l g
  rfl

theorem Gallery.give_slab_other {k : Nat} (other : k ∉ l) : (g.give x scratch l).slab k = g.slab k :=
  List.foldlRecOn (motive := fun h : Gallery => h.slab k = g.slab k) l _ rfl fun _ kept _ mem =>
    (Gallery.slab_withSlab_ne (by rintro rfl; exact other mem)).trans kept

theorem Gallery.give_slab_mem {k : Nat} (inside : k < g.slabs.length) (mem : k ∈ l) : ∃ y, (g.give x scratch l).slab k = Slab.givenTo x scratch y := by
  induction l generalizing g with
  | nil => exact absurd mem List.not_mem_nil
  | cons sl l ih =>
    by_cases later : k ∈ l
    · exact ih (g := g.withSlab sl (Slab.givenTo x scratch)) ((Gallery.withSlab_length g _).symm ▸ inside) later
    · obtain rfl : k = sl := (List.mem_cons.mp mem).resolve_right later
      exact ⟨g.slab k, (Gallery.give_slab_other (g := g.withSlab k _) later).trans (Gallery.slab_withSlab_self inside)⟩

end

/-- The state after SLAB_ALLOC gives slabs `l` to context `x` from index `first` on. -/
def State.allocated (s : State) (x first : Nat) (scratch : Bool) (l : List Nat) : State :=
  (s.withGal (Gallery.give x scratch l)).withCtx x fun y => y.mapFrom first (l.map fun sl => ⟨sl, true, false⟩)

theorem all_isNone_ent {y : Ctx} {first n : Nat} (fresh : ∀ i, first ≤ i → i < first + n → y.ent i = none) :
    ((range' first n).all fun i => (y.ent i).isNone) = true := by
  simpa [range'] using fun k hk => fresh (first + k) (Nat.le_add_right _ _) (Nat.add_lt_add_left hk _)

section
variable {s : State} {c : Cmd} (field : ctxField c < 24) (range : countOk (fld (c.word 1) 0 9) (fld (c.word 2) 0 10) = true)
  (made : s.notFree (ctxField c) = true)
  (fresh : ∀ i, fld (c.word 1) 0 9 ≤ i → i < fld (c.word 1) 0 9 + fld (c.word 2) 0 10 → (s.ctx (ctxField c)).ent i = none)
include field range made fresh

theorem slabAlloc_gives {l : List Nat} (named : fld (c.word 0) 12 4 ≠ 0) (filled : s.gal.initDone = true)
    (picked : s.pickSlabs (fld (c.word 0) 12 4) (fld (c.word 2) 0 10) = some l) :
    slabAlloc c [] s = .ok (s.allocated (ctxField c) (fld (c.word 1) 0 9) (bitAt (c.word 0) 9) l, [w32 (chamberCounts l)], l) := by
  simp only [slabAlloc]
  rw [need_bind (decide_eq_true field), need_bind (decide_eq_true named), need_bind range, need_bind made, need_bind (all_isNone_ent fresh),
    need_bind filled, if_pos trivial, picked, ← State.pickSlabs_length picked]
  simp only [State.allocated, Ctx.mapFrom, insEnts, List.length_map, List.zip_map_right, List.foldl_map]
  rfl

/-! ### SLAB_ALLOC, shared (R192) -/

/-- The entry by which another context shares a slab. -/
def MapEnt.shared (e : MapEnt) : MapEnt := ⟨e.slab, false, e.prot⟩

theorem slabShare_maps {es : List MapEnt} (unscratched : bitAt (c.word 0) 9 = false) (owner : fld (c.word 3) 0 5 < 24) (other : fld (c.word 3) 0 5 ≠ ctxField c)
    (entries : (range' (fld (c.word 4) 0 9) (fld (c.word 2) 0 10)).map (s.ctx (fld (c.word 3) 0 5)).ent = es.map some) (owned : ∀ e ∈ es, e.write = true) :
    slabShare c s = .ok (s.withCtx (ctxField c) fun y => y.mapFrom (fld (c.word 1) 0 9) (es.map MapEnt.shared), [0], [0]) := by
  have count : es.length = fld (c.word 2) 0 10 := by simpa [range'] using (congrArg List.length entries).symm
  simp only [slabShare]
  rw [entries, need_bind (decide_eq_true field), need_bind (by rw [unscratched]; rfl), need_bind range, need_bind (decide_eq_true ⟨owner, other⟩),
    need_bind made, need_bind (all_isNone_ent fresh), need_bind (by simpa using owned)]
  simp only [Ctx.mapFrom, insEnts, List.length_map, List.zip_map_right, List.foldl_map, count]
  rfl

end

theorem exec_slabAlloc_owned {s : State} {m tag : Nat} {c : Cmd} (accepted : s.cmdIn m tag 0x18 0 = some c) (owned : bitAt (c.word 0) 8 = false) :
    exec (.slabAlloc m tag) s = s.run m tag 0x18 fun c => slabAlloc c [] := by
  simp only [exec, execSlabAlloc, accepted, owned, Bool.false_eq_true, if_false]

theorem exec_slabAllocShare_shared {s : State} {m tag : Nat} {c : Cmd} (accepted : s.cmdIn m tag 0x18 0 = some c) (shared : bitAt (c.word 0) 8 = true) :
    exec (.slabAllocShare m tag) s = s.run m tag 0x18 slabShare := by
  simp only [exec, execSlabAllocShare, accepted, shared, if_true]

/-- Settles O12: the slabs picked are the first free ones of their Chambers, as many as `spreadSlabs` says; the entries put into the map are found there,
and nothing else is updated. -/
theorem slabAllocation : Obligations.SlabAllocation := by
  unfold Obligations.SlabAllocation
  refine ⟨fun s mask count l picked => ⟨State.pickSlabs_length picked, State.pickSlabs_nodup picked, fun sl => State.mem_pickSlabs picked⟩, ?_⟩
  intro s m tag c ready slabs ctxs x first count field range made fresh
  have inside : x < s.ctxs.length := ctxs ▸ field
  constructor
  · intro l own named filled picked
    have size := State.pickSlabs_length picked
    rw [exec_slabAlloc_owned ready.1 own]
    refine ⟨_, State.run_ready ready (slabAlloc_gives field range made fresh named filled picked), fun sl mem => ?_, fun sl other => Gallery.give_slab_other other,
      fun k hk => ?_, Gallery.give_mem, rfl, rfl, fun k other => State.ctx_withCtx_ne other.symm⟩
    · obtain ⟨y, given⟩ := Gallery.give_slab_mem (g := s.gal) (x := x) (scratch := bitAt (c.word 0) 9) (slabs ▸ (State.mem_pickSlabs picked mem).1) mem
      have slab : (s.allocated x first (bitAt (c.word 0) 9) l).gal.slab sl = Slab.givenTo x (bitAt (c.word 0) 9) y := given
      rw [slab]
      exact ⟨rfl, rfl, rfl⟩
    · rw [State.allocated, State.ctx_withCtx_self (s := s.withGal _) inside]
      refine Ctx.ent_mapFrom (fun i low high => fresh i low (by simpa [size] using high)) ?_
      simp [List.getD, size ▸ hk]
  · intro shared unscratched owner other entries
    have : Nonempty MapEnt := ⟨⟨0, false, false⟩⟩
    choose! e entry write using entries
    have mapped : (range' (fld (c.word 4) 0 9) count).map (s.ctx (fld (c.word 3) 0 5)).ent = ((List.range count).map e).map some := by
      simpa [range'] using fun k hk => entry k hk
    have owned : ∀ z ∈ (List.range count).map e, z.write = true := by simpa using write
    rw [exec_slabAllocShare_shared ready.1 shared]
    refine ⟨_, State.run_ready ready (slabShare_maps field range made fresh unscratched owner other mapped owned), rfl, rfl,
      fun k hk => ⟨e k, entry k hk, ?_⟩, fun k other => State.ctx_withCtx_ne other.symm⟩
    rw [State.ctx_withCtx_self inside]
    refine Ctx.ent_mapFrom (fun i low high => fresh i low (by simpa using high)) ?_
    simp [hk, MapEnt.shared]

end Sys2Proof.Machine
end

-- The commands: transfers, verifications and index builds.
section
/-!
PROOFS of 12_commands.md. DMA_IN, DMA_OUT, IMAGE_LOAD, IMAGE_VERIFY and INDEX_BUILD: how they start, and what their ends answer (O14).
-/
namespace Sys2Proof.Machine

/-! ### Transfers (R283, R284) -/

theorem State.op_of_cmdIn {s : State} {m tag op phase : Nat} {c : Cmd} (found : s.cmdIn m tag op phase = some c) : c.op = op := by
  have test := List.find?_some found
  simp only [Bool.and_eq_true, beq_iff_eq] at test
  exact test.1.2

/-- The length and the host range of a transfer are legal (R278, R283). -/
structure Cmd.Transfers (c : Cmd) : Prop where
  least : 1 ≤ c.word 4
  most : c.word 4 ≤ 536870912
  ends : c.word 1 + c.word 2 * 2 ^ 32 + c.word 4 ≤ 2 ^ 64

section
variable {s : State} {m : Nat} {c : Cmd} (field : ctxField c < 24) (made : s.notFree (ctxField c) = true)
include field made

theorem startXfer_starts {write : Bool} {extra : State → Nat → Except (Nat × List W32) Unit} (legal : c.Transfers) (named : c.op ≠ 0x1D ∨ c.word 5 ≠ 0)
    (inside : (s.ctx (ctxField c)).inSet (c.word 3) (c.word 4) write = true) (fits : extra s (ctxField c) = .ok ()) :
    startXfer m write extra c s = .ok (s.setPhase m c 1 []) := by
  have fields : xferFields c = .ok (c.word 1 + c.word 2 * 2 ^ 32, c.word 3, c.word 4) := need_bind (decide_eq_true ⟨legal.least, legal.most, legal.ends⟩)
  simp only [startXfer]
  rw [need_bind (decide_eq_true field), fields]
  refine (need_bind (decide_eq_true named)).trans ?_
  rw [need_bind made, need_bind inside, fits]
  rfl

/-- A coded image goes to unprotected slabs. -/
theorem imageLoad_starts (legal : c.Transfers) (named : c.word 5 ≠ 0) (inside : (s.ctx (ctxField c)).inSet (c.word 3) (c.word 4) true = true)
    (plain : bitAt (c.word 6) 0 = true → (s.ctx (ctxField c)).anyProt (c.word 3) (c.word 4) = false) : imageLoad m c s = .ok (s.setPhase m c 1 []) := by
  refine startXfer_starts field made legal (.inr named) inside ?_
  rw [need, if_pos]
  simpa [imp_iff_not_or] using plain

/-- The range that IMAGE_VERIFY reads: a coded tensor's span, or the bytes that word 2 counts. -/
abbrev Cmd.verifySpan (c : Cmd) : Nat := if fld (c.word 0) 8 2 = 1 then calSpan (c.word 4) (c.word 5) else c.word 2

theorem imageVerify_starts (known : fld (c.word 0) 8 2 ≠ 3) (aligned : fld (c.word 0) 8 2 = 1 → c.word 1 % 16 = 0)
    (plain : fld (c.word 0) 8 2 = 0 → 1 ≤ c.word 2 ∧ c.word 2 ≤ 536870912) (program : fld (c.word 0) 8 2 = 2 → 840 ≤ c.word 2 ∧ c.word 2 ≤ 9024)
    (coded : fld (c.word 0) 8 2 = 1 → c.word 4 % 4 = 0 ∧ 1 ≤ c.word 5 ∧ c.word 5 ≤ 16777215)
    (inside : (s.ctx (ctxField c)).inSet (c.word 1) c.verifySpan false = true) : imageVerify m c s = .ok (s.setPhase m c 1 []) := by
  simp only [imageVerify]
  rw [need_bind (decide_eq_true field), need_bind (decide_eq_true known), need_bind (decide_eq_true (imp_iff_not_or.mp aligned)),
    need_bind (decide_eq_true (imp_iff_not_or.mp plain)), need_bind (decide_eq_true (imp_iff_not_or.mp program)),
    need_bind (decide_eq_true (imp_iff_not_or.mp coded)), need_bind made, need_bind inside]
  rfl

theorem indexBuild_starts (aligned : c.word 1 % 16 = 0) (stride : c.word 2 % 4 = 0) (least : 1 ≤ c.word 3) (most : c.word 3 ≤ 16777215)
    (inside : (s.ctx (ctxField c)).inSet (c.word 1) (calSpan (c.word 2) (c.word 3)) true = true)
    (plain : (s.ctx (ctxField c)).anyProt (c.word 1) (calSpan (c.word 2) (c.word 3)) = false)
    (idle : ∀ sl ∈ (s.ctx (ctxField c)).slabs (c.word 1) (calSpan (c.word 2) (c.word 3)), s.slabBusy sl = false) :
    indexBuild m c s = .ok (s.setPhase m c 1 []) := by
  simp only [indexBuild]
  rw [need_bind (decide_eq_true field), need_bind (decide_eq_true aligned), need_bind (decide_eq_true stride), need_bind (decide_eq_true ⟨least, most⟩),
    need_bind made, need_bind (by rw [inside, plain]; rfl), need_bind (by simpa using idle)]
  rfl

end

/-! ### The ends of DMA_IN and DMA_OUT (R275, R284) -/

section
variable {s : State} {m tag : Nat} {c : Cmd} (taken : s.galOpen = true)
include taken

theorem exec_dmaTransferDone_in (moves : s.cmdIn m tag 0x1B 1 = some c) (data : List Byte) (failed : Option Nat) :
    exec (.dmaTransferDone m tag data failed) s = .next (s.endIn m c data failed) := by
  simp only [exec, execDmaTransferDone, taken, moves, if_true]

theorem exec_dmaTransferDone_out (moves : s.cmdIn m tag 0x1C 1 = some c) (noIn : s.cmdIn m tag 0x1B 1 = none) (noLoad : s.cmdIn m tag 0x1D 1 = none)
    (data : List Byte) (failed : Option Nat) : exec (.dmaTransferDone m tag data failed) s = .next (s.endOut m c failed) := by
  simp only [exec, execDmaTransferDone, taken, moves, noIn, noLoad, if_true]

end

section
variable (s : State) (m : Nat) (c : Cmd) (data : List Byte)

theorem State.endIn_whole (plain : c.op = 0x1B) :
    s.endIn m c data none = (s.dmaWrite (ctxField c) (c.word 3) (padTo (c.word 4) data)).finish m c sOk [w32 (c.word 4)] [0] := by
  simp only [State.endIn, if_neg (show ¬ c.op = 0x1D by omega)]

theorem State.endIn_failed {k : Nat} (short : k < c.word 4) :
    s.endIn m c data (some k) = (s.dmaWrite (ctxField c) (c.word 3) (padTo k data)).finish m c eTimeout [w32 k] [0] := by
  simp only [State.endIn, min_eq_left (show k ≤ c.word 4 - 1 by omega)]

theorem State.dmaStride_host (k : Nat) (pieces : List (Nat × Nat)) : (s.dmaStride k pieces).host = s.host :=
  congrArg Mems.host (State.dmaStride_mems s k pieces)

/-- The state in which the Gallery's bytes, as DMA_OUT reads them, are in host memory. -/
def State.sentOut (s : State) (c : Cmd) : State :=
  { (s.dmaRead (ctxField c) (c.word 3) (c.word 4)).1 with
    host := (s.dmaRead (ctxField c) (c.word 3) (c.word 4)).1.host.writeN (c.word 1 + c.word 2 * 2 ^ 32) (s.dmaRead (ctxField c) (c.word 3) (c.word 4)).2.1 }

/-- Without poison the end of DMA_OUT answers OK; what the queue's stride detector does after it reaches no host memory (R306). -/
theorem State.endOut_whole (clean : (s.dmaRead (ctxField c) (c.word 3) (c.word 4)).2.2 = false) :
    ∃ t : State, s.endOut m c none = t.finish m c sOk [w32 (c.word 4)] [0] ∧ t.host = (s.sentOut c).host := by
  refine ⟨(s.sentOut c).dmaStride (c.tag % 4) (((s.sentOut c).ctx (ctxField c)).pieces (c.word 4 / 2 ^ 20 + 2) (c.word 3) (c.word 4)), ?_,
    State.dmaStride_host _ _ _⟩
  simp only [State.endOut, clean, Bool.false_eq_true, if_false]
  rfl

end

/-! ### The ends of IMAGE_VERIFY and INDEX_BUILD (R109, R177, R284) -/

theorem exec_imageVerifyDone_plain {s : State} {m tag : Nat} {c : Cmd} (taken : s.galOpen = true) (reads : s.cmdIn m tag 0x1E 1 = some c)
    (plain : fld (c.word 0) 8 2 = 0) : exec (.imageVerifyDone m tag) s =
      .next (if (s.dmaRead (ctxField c) (c.word 1) (c.word 2)).2.2 then (s.dmaRead (ctxField c) (c.word 1) (c.word 2)).1.finish m c ePoison [] [] else
        if (crc32c (s.dmaRead (ctxField c) (c.word 1) (c.word 2)).2.1).toNat = c.word 3
        then (s.dmaRead (ctxField c) (c.word 1) (c.word 2)).1.finish m c sOk [0, 0] []
        else (s.dmaRead (ctxField c) (c.word 1) (c.word 2)).1.finish m c eParam [w32 0xFFFFFFFF, 0] []) := by
  simp only [exec, execImageVerifyDone, taken, reads, plain]
  rw [if_neg (by decide), if_neg (by decide), if_pos trivial, apply_ite Host.Outcome.next, apply_ite Host.Outcome.next]
  rfl

/-- An error within a group is no end of the walk. -/
theorem State.walkBlocks_not_done (bf full : Bool) (x base stride : Nat) (s : State) (k o : Nat) (lens idx : List Nat) (last : Nat) :
    (State.walkBlocks bf full x base stride s k o lens).2 ≠ .error (.done idx last) := by
  induction lens generalizing s k o with
  | nil => exact nofun
  | cons len lens ih =>
    simp only [State.walkBlocks]
    split
    · exact nofun
    split
    · exact nofun
    split
    · exact nofun
    split
    · split
      · exact ih _ _ _
      · exact nofun
    · exact ih _ _ _

/-- A walk of `g` groups to the tensor's end adds an index entry for each. -/
theorem State.length_walkGroups {bf full : Bool} {x base stride n g : Nat} {s t : State} {k o : Nat} {idx idx' : List Nat} {last : Nat}
    (walked : State.walkGroups bf full x base stride n g s k o idx = (t, .done idx' last)) : idx'.length = idx.length + g := by
  induction g generalizing s k o idx with
  | zero =>
    obtain ⟨-, rfl, -⟩ : s = t ∧ idx = idx' ∧ o = last := by simpa [State.walkGroups] using walked
    rfl
  | succ g ih =>
    simp only [State.walkGroups] at walked
    split at walked
    · simp at walked
    split at walked
    · simp at walked
    split at walked
    next stopped =>
      obtain ⟨-, rfl⟩ := Prod.mk.inj walked
      exact (State.walkBlocks_not_done _ _ _ _ _ _ _ _ _ _ _ (congrArg Prod.snd stopped)).elim
    next =>
      rw [ih walked, List.length_append]
      exact Nat.add_right_comm _ _ _

section
variable {s t : State} {m tag : Nat} {c : Cmd} (taken : s.galOpen = true) (builds : s.cmdIn m tag 0x1F 1 = some c)
include taken builds

theorem exec_indexBuildDone_done {idx : List Nat} {last : Nat}
    (walked : s.walk (bitAt (c.word 0) 8) false (ctxField c) (c.word 1) (c.word 2) (c.word 3) = (t, .done idx last)) :
    exec (.indexBuildDone m tag) s =
      .next ((t.dmaWrite (ctxField c) (c.word 1 + c.word 2) (idx.flatMap fun o => leBytes 4 o)).finish m c sOk [w32 idx.length, w32 last] [0]) := by
  simp only [exec, execIndexBuildDone, taken, builds, walked]
  rfl

theorem exec_indexBuildDone_poison (walked : s.walk (bitAt (c.word 0) 8) false (ctxField c) (c.word 1) (c.word 2) (c.word 3) = (t, .poison)) :
    exec (.indexBuildDone m tag) s = .next (t.finish m c ePoison [] [0]) := by
  simp only [exec, execIndexBuildDone, taken, builds, walked]
  rfl

end

/-- Settles O14: the checks of each command pass one by one; the ends are what the transfer, the read or the walk gives. -/
theorem transfersAndWalks : Obligations.TransfersAndWalks := by
  unfold Obligations.TransfersAndWalks
  refine ⟨fun s m tag c field made => ⟨fun least most ends => ?transfers, ?plain, ?coded, ?program, ?index⟩,
    fun s m tag c data taken => ⟨fun moves => ?inEnds, fun moves noIn noLoad clean => ?outEnds⟩, fun s m tag c taken => ⟨fun reads plain => ?verified, fun builds t => ?built⟩⟩
  case transfers =>
    have legal : c.Transfers := ⟨least, most, ends⟩
    have started {op : Nat} (ready : s.ready m tag op c) (other : op ≠ 0x1D) : c.op ≠ 0x1D ∨ c.word 5 ≠ 0 := .inl (State.op_of_cmdIn ready.1 ▸ other)
    exact ⟨fun ready inside => State.begin_ready ready (startXfer_starts field made legal (started ready (by decide)) inside rfl),
      fun ready inside => State.begin_ready ready (startXfer_starts field made legal (started ready (by decide)) inside rfl),
      fun ready inside named plain => State.begin_ready ready (imageLoad_starts field made legal named inside plain)⟩
  case plain =>
    intro ready mode least most inside
    exact State.begin_ready ready (imageVerify_starts field made (by omega) (by omega) (fun _ => ⟨least, most⟩) (by omega) (by omega)
      (by rwa [Cmd.verifySpan, if_neg (by omega)]))
  case coded =>
    intro ready mode aligned stride least most inside
    exact State.begin_ready ready (imageVerify_starts field made (by omega) (fun _ => aligned) (by omega) (by omega) (fun _ => ⟨stride, least, most⟩)
      (by rwa [Cmd.verifySpan, if_pos mode]))
  case program =>
    intro ready mode least most inside
    exact State.begin_ready ready (imageVerify_starts field made (by omega) (by omega) (by omega) (fun _ => ⟨least, most⟩) (by omega)
      (by rwa [Cmd.verifySpan, if_neg (by omega)]))
  case index =>
    exact fun ready aligned stride least most inside plain idle =>
      State.begin_ready ready (indexBuild_starts field made aligned stride least most inside plain idle)
  case inEnds =>
    have ends (failed : Option Nat) := exec_dmaTransferDone_in taken moves data failed
    exact ⟨(ends none).trans (congrArg _ (s.endIn_whole m c data (State.op_of_cmdIn moves))),
      fun k short => (ends (some k)).trans (congrArg _ (s.endIn_failed m c data short))⟩
  case outEnds =>
    obtain ⟨t, ended, host⟩ := s.endOut_whole m c clean
    exact ⟨t, (exec_dmaTransferDone_out taken moves noIn noLoad data none).trans (congrArg _ ended), host⟩
  case verified => exact exec_imageVerifyDone_plain taken reads plain
  case built =>
    refine ⟨fun idx last walked => ⟨exec_indexBuildDone_done taken builds walked, ?_⟩, exec_indexBuildDone_poison taken builds⟩
    simpa using State.length_walkGroups walked

end Sys2Proof.Machine
end

-- The commands: Lantern's models and rules.
section
/-!
PROOFS of 12_commands.md. LAN_MODEL_LOAD and LAN_RULES, and the LANTERN messages at Flint (O24).
-/
namespace Sys2Proof.Machine

/-! ### The host's commands (R288, R357, R358) -/

theorem lanModelLoad_relayed {s : State} {m : Nat} {c : Cmd} {data : List Byte} (field : hostField (c.word 0 + c.word 1 * 2 ^ 32) (c.word 2) 64 73728 = true)
    (legal : modelOk (padTo (c.word 2) data) (c.word 2) = true) :
    lanModelLoad data none m c s = .ok (((s.setPhase m c 1 []).sendChunks 0xF2 1 254 (padTo (c.word 2) data)).sendFlint 0xF2
      [2, w32 (c.word 2), crc32c (padTo (c.word 2) data)]) := by
  simp only [lanModelLoad]
  rw [need_bind field]
  exact need_bind legal

theorem exec_lanRules {s : State} {m tag : Nat} {c : Cmd} (ready : s.ready m tag 0x3E c) (some : 1 ≤ fld (c.word 0) 5 4)
    (ends : fld (c.word 0) 0 5 + fld (c.word 0) 5 4 ≤ 32) (size : c.words.length = 1 + 4 * fld (c.word 0) 5 4)
    (legal : ∀ i < fld (c.word 0) 5 4, ruleOk (c.word (1 + 4 * i)) (c.word (2 + 4 * i)) (c.word (3 + 4 * i)) (c.word (4 + 4 * i)) = true) :
    exec (.lanRules m tag) s =
      .next ((s.sendFlint 0xF2 (w32 (3 + fld (c.word 0) 0 5 * 2 ^ 8 + fld (c.word 0) 5 4 * 2 ^ 13) :: c.words.drop 1)).finish m c sOk [] []) := by
  refine State.run_ready ready ?_
  dsimp only
  rw [need_bind (by simp [some, ends, size]), need_bind (by simpa using legal)]
  rfl

/-! ### The messages at Flint (R358, R359, R364, R449) -/

section
variable {s : State} {ctr : Nat} {body tag : List W32} (ready : s.kcReady 0xF2 body ctr tag)
include ready

theorem exec_lanternChunk (fits : (chunkOf body).1 + (chunkOf body).2.length ≤ 73728) :
    exec (.lanternChunk body ctr tag) s = .next ((s.kcTaken 0xF2 body ctr).withLan fun l =>
      { l with pending := false, bufs := upd l.bufs (1 - l.active) fun m => m.writeN (chunkOf body).1 (chunkOf body).2 }) := by
  simp only [exec, execLanternChunk, State.kcMsg_authentic _ ready, if_pos fits]

/-- A COMMIT makes the model pending just where the bytes written, as many as it names, have its CRC. -/
theorem exec_lanternCommit {b : Prop} [Decidable b] (length : (body.getD 1 0).toNat ≤ 73728)
    (sound : crc32c ((s.fl.lan.bufs.getD (1 - s.fl.lan.active) []).readN 0 (body.getD 1 0).toNat) = body.getD 2 0 ↔ b) :
    exec (.lanternCommit body ctr tag) s = .next (if b
      then ((s.kcTaken 0xF2 body ctr).withLan fun l => { l with pending := true }).flintSay 0xF2 2 sOk [w32 (1 - s.fl.lan.active)]
      else (s.kcTaken 0xF2 body ctr).flintSay 0xF2 2 eParam []) := by
  simp only [exec, execLanternCommit, State.kcMsg_authentic _ ready]
  exact congrArg _ (if_congr ((and_iff_right length).trans sound) rfl rfl)

theorem exec_lanternRules_one (one : fld (body.getD 0 0).toNat 13 4 = 1) :
    exec (.lanternRules body ctr tag) s = .next ((s.kcTaken 0xF2 body ctr).withLan fun l =>
      { l with
        next := l.next ++ [(fld (body.getD 0 0).toNat 8 5,
          { w0 := (body.getD 1 0).toNat, w1 := (body.getD 2 0).toNat, w2 := (body.getD 3 0).toNat, w3 := (body.getD 4 0).toNat })] }) := by
  simp only [exec, execLanternRules, State.kcMsg_authentic _ ready, one]
  rfl

theorem exec_lanternReport : exec (.lanternReport body ctr tag) s = .next ((s.kcTaken 0xF2 body ctr).frame 2 0 s.fl.dropStamp s.fl.lan.status) := by
  simp only [exec, execLanternReport, State.kcMsg_authentic _ ready]
  rfl

/-- Board data before its last byte only gathers. -/
theorem exec_lanternBoard_gathers {buf : Mem} (written : s.fl.boardBuf.writeN (chunkOf body).1 (chunkOf body).2 = buf)
    (fits : (chunkOf body).1 + (chunkOf body).2.length ≤ 16384) (more : (chunkOf body).1 + (chunkOf body).2.length < byteFld (buf.readN 0 12) 8 4)
    (sigOk : Bool) : exec (.lanternBoard body ctr tag sigOk) s = .next ((s.kcTaken 0xF2 body ctr).withFl fun f => { f with boardBuf := buf }) := by
  have held : (s.kcTaken 0xF2 body ctr).fl.boardBuf.writeN (chunkOf body).1 (chunkOf body).2 = buf := written
  simp only [exec, execLanternBoard, State.kcMsg_authentic _ ready, if_pos fits, State.withFl_fl, held, if_pos more]
  simp only [State.withFl, held]

end

/-- A frame of Lantern's that finds room joins the frames to send. -/
theorem Flint.frame_room {f : Flint} (room : f.frames.length < 16) (kind source ts : Nat) (payload : List Byte) :
    ∃ seq, (f.frame kind source ts payload).frames = f.frames ++ [⟨kind, source, seq, ts, payload⟩] := by
  refine ⟨(getKey f.seqs (kind, source)).getD 0, ?_⟩
  simp only [Flint.frame]
  rw [if_neg (by simp [room])]

theorem Lan.boundary_pending {l : Lan} (waits : l.pending = true) :
    l.boundary.1.active = 1 - l.active ∧ l.boundary.1.on = true ∧ l.boundary.1.pending = false := by
  simp [Lan.boundary, waits]

/-- Settles O24: each command is relayed when its checks pass, and each authentic message does what its row says. -/
theorem lanternLoading : Obligations.LanternLoading := by
  unfold Obligations.LanternLoading
  refine ⟨fun s m tag c data => ⟨fun ready field legal => State.begin_ready ready (lanModelLoad_relayed field legal), fun ready some ends size legal =>
    exec_lanRules ready some ends size legal⟩, fun s ctr body tag ready => ⟨exec_lanternChunk ready, fun length same => ?commit, fun length differs => ?refused,
      exec_lanternRules_one ready, fun room => ?report, fun buf written fits more => exec_lanternBoard_gathers ready written.symm fits more true,
      Lan.boundary_pending⟩⟩
  case commit => exact (exec_lanternCommit ready length (iff_true_intro same)).trans (congrArg _ (if_pos trivial))
  case refused => exact (exec_lanternCommit ready length (iff_false_intro differs)).trans (congrArg _ (if_neg not_false))
  case report =>
    obtain ⟨seq, frames⟩ := Flint.frame_room (f := (s.kcTaken 0xF2 body ctr).fl) room 2 0 s.fl.dropStamp s.fl.lan.status
    refine ⟨_, exec_lanternReport ready, ?_⟩
    exact (congrArg (List.map fun f : Frame => (f.kind, f.payload)) frames).trans (by simp; rfl)

end Sys2Proof.Machine
end

-- The commands: power requests, pads and operating points.
section
/-!
PROOFS of 12_commands.md. PWR_REQUEST, PWR_STATUS and PAD_RELEASE; DVFS_SET and the change of a point (O25).
-/
namespace Sys2Proof.Machine

@[simp] theorem State.finish_pw (s : State) (m : Nat) (c : Cmd) (status : Nat) (words : List W32) (choices : List Nat) :
    (s.finish m c status words choices).pw = s.pw := by
  unfold State.finish
  split <;> rfl

/-! ### PWR_REQUEST, PWR_STATUS, PAD_RELEASE (R289, R374, R382) -/

theorem State.reverseNow_forward {s : State} (forward : s.pw.abort = false) : s.reverseNow = s :=
  if_neg (by simp [forward])

section
variable {s : State} {m tag : Nat} {c : Cmd}

/-- A command that leaves no request reversed answers as its body does. -/
theorem execPwrRequest_answers {t : State} {status : Nat} {ws : List W32} (answer : s.run m tag 0x48 pwrRequest = .next (t.finish m c status ws []))
    (forward : t.pw.abort = false) : exec (.pwrRequest m tag) s = .next (t.finish m c status ws []) := by
  simp only [exec, execPwrRequest, answer]
  exact congrArg _ (State.reverseNow_forward ((State.finish_pw ..).symm ▸ forward))

variable (known : fld (c.word 0) 0 3 ≤ 3) (period : fld (c.word 0) 0 3 = 3 → 1000 ≤ fld (c.word 1) 0 20 ∧ fld (c.word 1) 0 20 ≤ 1000000)
  (leads : s.follows = false)
include known period leads

theorem pwrRequest_first (unasked : s.pw.target = none) (change : fld (c.word 0) 0 3 ≠ s.pw.state) : pwrRequest c s = .ok (s.withPw fun p =>
    { p with target := some (fld (c.word 0) 0 3), ticks := wakeTicks (fld (c.word 1) 0 20), debugFollows := bitAt (c.word 2) 0 }, [0], []) := by
  simp only [pwrRequest]
  rw [need_bind (decide_eq_true known), need_bind (decide_eq_true (imp_iff_not_or.mp period)), need_bind (by rw [leads]; rfl), unasked]
  exact if_neg change

theorem pwrRequest_second {cur : Nat} (target : s.pw.target = some cur) (free : s.pw.pend = none) (deeper : cur < fld (c.word 0) 0 3) :
    pwrRequest c s = .ok (s.withPw fun p =>
      { p with
        pend := some (fld (c.word 0) 0 3), pendTicks := wakeTicks (fld (c.word 1) 0 20), pendFollows := bitAt (c.word 2) 0
        abort := false }, [1], []) := by
  have forward : decide (fld (c.word 0) 0 3 < cur) = false := decide_eq_false (by omega)
  simp only [pwrRequest]
  rw [need_bind (decide_eq_true known), need_bind (decide_eq_true (imp_iff_not_or.mp period)), need_bind (by rw [leads]; rfl), target]
  dsimp only
  rw [need_bind (by rw [free]; rfl), if_neg (by omega), forward]
  rfl

theorem pwrRequest_third {cur p : Nat} (target : s.pw.target = some cur) (held : s.pw.pend = some p) : pwrRequest c s = .error (eBusy, []) := by
  simp only [pwrRequest]
  rw [need_bind (decide_eq_true known), need_bind (decide_eq_true (imp_iff_not_or.mp period)), need_bind (by rw [leads]; rfl), target]
  exact need_bind_false (by rw [held]; rfl)

end

theorem exec_pwrStatus {s : State} {m tag : Nat} {c : Cmd} (ready : s.ready m tag 0x49 c) : exec (.pwrStatus m tag) s =
    .next (s.finish m c sOk [w32 s.pwrWord, w32 s.pw.wakeCause, w32 s.pw.held, w32 s.pw.pointWord] []) :=
  State.run_ready ready rfl

theorem exec_padRelease {s : State} {m tag : Nat} {c : Cmd} (ready : s.ready m tag 0x4A c) (known : fld (c.word 0) 0 8 < 8) : exec (.padRelease m tag) s =
    .next ((s.withPw fun p => { p with held := without p.held (fld (c.word 0) 0 8) }).finish m c sOk [w32 (without s.pw.held (fld (c.word 0) 0 8))] []) :=
  State.run_ready ready (need_bind (decide_eq_true known))

/-! ### Operating points (R383 to R385, R407) -/

/-- DVFS_SET of a point within the board's limit is decided by the changes that wait. -/
theorem dvfsSet_checked {s : State} {c : Cmd} {b : Board} (board : s.dev.board = some b) (known : fld (c.word 0) 0 2 < 3)
    (limit : pointMv (fld (c.word 0) 0 2) (fld (c.word 0) 2 2) ≤ b.limits.getD (fld (c.word 0) 0 2) 0)
    (free : s.follows = false ∨ fld (c.word 0) 0 2 ≠ 0) : dvfsSet c s =
    if s.pw.dvfs.length < 2
    then .ok (s.withPw fun x => { x with dvfs := x.dvfs ++ [(fld (c.word 0) 0 2, fld (c.word 0) 2 2, false)] }, [w32 (bit (!s.pw.dvfs.isEmpty))], [])
    else .error (eBusy, []) := by
  simp only [dvfsSet]
  rw [need_bind (decide_eq_true known), need_bind (by simpa [board] using limit), need_bind (by simpa [imp_iff_not_or] using free)]
  split
  next room => exact need_bind (decide_eq_true room)
  next full => exact need_bind_false (decide_eq_false full)

theorem exec_dvfsChangeStart {s : State} {d p : Nat} {rest : List (Nat × Nat × Bool)} (serving : s.dev.die = .serving) (active : s.pw.state = 0)
    (open9 : s.pw.agreed.contains 9 = false) (oldest : s.pw.dvfs = (d, p, false) :: rest) (still : ∀ x ∈ rest, x.2.2 = false) :
    exec (.dvfsChangeStart none) s = .next (s.withPw fun x => { x with dvfs := (d, p, true) :: rest }) := by
  have idle : (s.pw.dvfs.any fun x => x.2.2) = false := by simpa [oldest] using still
  simp only [exec, execDvfsChangeStart, serving, active, open9, idle]
  simp [State.withPw, oldest]

theorem exec_dvfsChangeDone {s : State} {d p : Nat} {rest : List (Nat × Nat × Bool)} (runs : s.pw.dvfs = (d, p, true) :: rest) :
    exec .dvfsChangeDone s = .next ((s.withPw fun x => { x with points := x.points.set d p, dvfs := rest }).quietClk (d + 1) 2) := by
  simp only [exec, execDvfsChangeDone, runs]

/-- Settles O25: each command past its checks, and the change of a point by what its two rows do to the power controller. -/
theorem powerCommands : Obligations.PowerCommands := by
  unfold Obligations.PowerCommands
  refine ⟨fun s m tag c => ⟨fun ready known period leads => ⟨fun unasked change forward => ?first, fun cur target free deeper => ?second,
      fun cur p target held forward => ?third⟩, exec_pwrStatus, exec_padRelease⟩,
    fun s m tag d p c b rest => ⟨fun ready board known limit free => ⟨fun room => ?room, fun full => ?full⟩, exec_dvfsChangeStart, fun runs => ?done⟩⟩
  case first => exact execPwrRequest_answers (State.run_ready ready (pwrRequest_first known period leads unasked change)) forward
  case second => exact execPwrRequest_answers (State.run_ready ready (pwrRequest_second known period leads target free deeper)) rfl
  case third => exact execPwrRequest_answers (State.run_rejects ready (pwrRequest_third known period leads target held)) forward
  case room => exact State.run_ready ready ((dvfsSet_checked board known limit free).trans (if_pos room))
  case full => exact State.run_rejects ready ((dvfsSet_checked board known limit free).trans (if_neg (Nat.not_lt.mpr full)))
  case done => exact ⟨_, exec_dvfsChangeDone runs, rfl, rfl, rfl, rfl⟩

end Sys2Proof.Machine
end

-- The commands: the modes of the pair, TWIN_SYNC and the journal.
section
/-!
PROOFS of 12_commands.md. TWIN_MODE and TWIN_SYNC on the leader, the ends of its phases, and the entries of the journal (O27).
-/
namespace Sys2Proof.Machine

/-! ### TWIN_MODE and TWIN_SYNC (R290, R396, R406) -/

section
variable {s : State} {m tag : Nat} {c : Cmd} (attached : s.tw.attached = true) (leads : s.tw.leader = true)
include attached leads

/-- On the leader of an attached pair whose contexts are still, TWIN_MODE waits for the boundary just while the generator runs. -/
theorem twinMode_checked (known : fld (c.word 0) 0 2 ≠ 0) (still : s.ctxRunning = false) (sameFw : fld (c.word 0) 0 2 = 1 → s.tw.fw = s.dev.fwVer) :
    twinMode false false m c s = .ok (if s.running then (s.changeMode (.ofCode (fld (c.word 0) 0 2))).setPhase m c 1 []
      else (s.changeMode (.ofCode (fld (c.word 0) 0 2))).finish m c sOk [] []) := by
  simp only [twinMode]
  rw [need_bind (decide_eq_true known), need_bind (by rw [leads, attached]; rfl), need_bind (by rw [still, attached]; rfl), need_bind (by simp),
    need_bind attached, need_bind (decide_eq_true (imp_iff_not_or.mp sameFw))]
  rfl

theorem twinSync_starts (known : fld (c.word 0) 0 2 = 1 ∨ fld (c.word 0) 0 2 = 3) : twinSync false m c s =
    .ok ((s.withTw fun t => { t with sync := some { pockets := bitAt (fld (c.word 0) 0 2) 1, start := s.mtime } }).setPhase m c 1 []) := by
  simp only [twinSync]
  rw [need_bind (decide_eq_true known), need_bind (by rw [leads, attached]; rfl), need_bind attached]
  rfl

variable {y : Sync} (runs : s.mpRuns = true) (copies : s.tw.sync = some y)
include runs copies

/-- Without Pockets the leader's copy ends with the Gallery. -/
theorem exec_twinSyncGalleryDone_leader (taken : s.galOpen = true) (phase : y.phase = 0) (plain : y.pockets = false) :
    exec (.twinSyncGalleryDone none false) s = .next ((s.syncRead.answerFor 0x53 sOk [w32 (s.syncTime y)]).withTw fun t => { t with sync := none }) := by
  simp [exec, execTwinSyncGalleryDone, runs, attached, taken, leads, copies, phase, plain]

/-- The leader's pair once its Pocket phase has ended. -/
def State.synced (s : State) : State := (s.withTw fun t => { t with sync := none }).setMode .paired

theorem exec_pocketPhaseDone_leader (phase : y.phase = 2) (idle : ∀ d ∈ s.geodes, d.firing = none) :
    exec (.pocketPhaseDone none) s = .next (s.synced.answerFor 0x53 sOk [w32 (s.syncTime y)]) := by
  have noFiring : (s.geodes.any fun d => d.firing.isSome) = false := by simpa using idle
  simp only [exec, execPocketPhaseDone, copies, phase, runs, attached, noFiring, leads]
  rfl

end

theorem State.tellTwin_parts (s : State) : s.tellTwin.tw = s.tw ∧ s.tellTwin.geodes = s.geodes ∧ s.tellTwin.ctxs = s.ctxs := by
  unfold State.tellTwin
  split <;> exact ⟨rfl, rfl, rfl⟩

/-- A pair that becomes PAIRED drops no waiting command, and its comparison and its journal start afresh. -/
theorem State.setMode_paired (s : State) : (s.setMode .paired).tw.mode = .paired ∧ (s.setMode .paired).tw.sync = s.tw.sync ∧
    (s.setMode .paired).tw.journalSeq = 0 ∧ (s.setMode .paired).geodes = s.geodes ∧ (s.setMode .paired).ctxs = s.ctxs := by
  have kept : (if s.follows && TwinMode.paired != .paired then s.dropFollowed else s) = s := if_neg (by simp)
  simp only [State.setMode, kept, if_true]
  simp only [State.tellTwin_parts]
  exact ⟨rfl, rfl, rfl, rfl, rfl⟩

/-! ### The journal (R397) -/

/-- On the leader an entry is the follower's report of a divergence. -/
theorem exec_journalEntry_leader {s : State} (paired : s.tw.mode = .paired) (runs : s.mpRuns = true) (link : s.twinLink = true) (leads : s.tw.leader = true)
    (m sq op : Nat) (crc : W32) (status : Nat) :
    exec (.journalEntry m sq op crc status [] []) s = .next (s.addRec 0x0307 0xFF 0xFF 0xFF 0xFF 0 [w32 m, w32 op]) := by
  simp [exec, execJournalEntry, paired, runs, link, leads]

/-- The state in which an entry has arrived. -/
def State.entered (s : State) (e : Journal) : State := s.withTw fun t => { t with journalIn := t.journalIn ++ [e] }

section
variable {s : State} {e : Journal} {c : Cmd} (first : s.tw.journalIn = []) (next : e.seq = s.tw.applied + 1)
include first next

/-- An entry that arrives alone, and is the next one, meets the command that waits for it. -/
theorem State.pumpJournal_entered (kept : s.tw.gone = []) (waits : s.waitsEntry e.mbox = some c) (may : s.mayStart e.mbox c = true) :
    State.pumpJournal 1 (s.entered e) [] = (s.withTw fun t => { t with applied := e.seq }).applyEntry e c [] := by
  have only : (s.entered e).tw.journalIn = [e] := congrArg (· ++ [e]) first
  have found : (s.entered e).tw.journalIn.find? (fun x => x.seq == (s.entered e).tw.applied + 1) = some e := by
    rw [only]
    exact List.find?_cons_of_pos (beq_iff_eq.mpr next)
  have unowed : (s.entered e).tw.gone.contains e.mbox = false := by
    rw [show (s.entered e).tw.gone = [] from kept]
    rfl
  have waits : (s.entered e).waitsEntry e.mbox = some c := waits
  have may : (s.entered e).mayStart e.mbox c = true := may
  have taken : ((s.entered e).withTw fun t => { t with journalIn := t.journalIn.erase e, applied := e.seq }) = s.withTw fun t => { t with applied := e.seq } := by
    simp [State.entered, State.withTw, first]
  simp only [State.pumpJournal, found, unowed, waits, may, taken, Bool.false_eq_true, if_false, if_true]

/-- On the follower an entry is taken up when it arrives. -/
theorem exec_journalEntry_arrives (paired : s.tw.mode = .paired) (runs : s.mpRuns = true) (link : s.twinLink = true) (follows : s.tw.leader = false) :
    exec (.journalEntry e.mbox e.seq e.op e.crc e.status e.choices []) s = .next (State.pumpJournal 1 (s.entered e) []) := by
  have new : (decide (e.seq ≤ s.tw.applied) || s.tw.journalIn.any fun x => x.seq == e.seq) = false := by simp [next, first]
  have size : (s.entered e).tw.journalIn.length = 1 := by simp [State.entered, first]
  simp only [exec, execJournalEntry, paired, runs, link, follows, new]
  exact congrArg (fun n => Host.Outcome.next (State.pumpJournal n (s.entered e) [])) size

end

theorem exec_journalTimeout {s : State} {m tag : Nat} {c : Cmd} (paired : s.tw.mode = .paired) (runs : s.mpRuns = true) (follows : s.tw.leader = false)
    (waits : s.waitsEntry m = some c) (tagged : c.tag = tag) (unentered : ∀ e ∈ s.tw.journalIn, e.mbox ≠ m) :
    exec (.journalTimeout m tag) s = .next ((s.respond m c eTwin []).withTw fun t => { t with gone := t.gone ++ [m] }) := by
  have unnamed : (s.tw.journalIn.any fun e => e.mbox == m) = false := by simpa using unentered
  have follower : s.follows = true := by simp [State.follows, paired, follows]
  simp only [exec, execJournalTimeout, waits, follower, runs, unnamed]
  exact if_neg (by simp [tagged])

/-- Settles O27: TWIN_MODE and TWIN_SYNC past their checks, the ends of the copy, and an entry by what it says of the command that waits. -/
theorem twinModesAndJournal : Obligations.TwinModesAndJournal := by
  unfold Obligations.TwinModesAndJournal
  refine ⟨fun s m tag c y => ⟨fun ready known attached leads still sameFw => ?mode, fun ready known attached leads =>
      State.begin_ready ready (twinSync_starts attached leads known), fun runs attached taken leads copies phase plain =>
      exec_twinSyncGalleryDone_leader attached leads runs copies taken phase plain, fun runs attached leads copies phase idle => ?pockets⟩,
    fun s m sq op status tag crc c runs paired link => ⟨fun leads => exec_journalEntry_leader paired runs link leads m sq op crc status,
      fun follows first next kept waits may => ?entry, fun follows waits tagged unentered => exec_journalTimeout paired runs follows waits tagged unentered⟩⟩
  case mode =>
    have checked := twinMode_checked (m := m) attached leads known still sameFw
    constructor
    · intro stands
      exact State.begin_ready ready (by rw [checked, stands, State.changeMode, stands]; rfl)
    · intro generator
      exact State.begin_ready ready (by rw [checked, generator, State.changeMode, generator]; rfl)
  case pockets =>
    obtain ⟨mode, sync, journal, geodes, ctxs⟩ := State.setMode_paired (s.withTw fun t => { t with sync := none })
    exact ⟨s.synced, exec_pocketPhaseDone_leader attached leads runs copies phase idle, mode, sync, journal, geodes, ctxs⟩
  case entry =>
    have applied : exec (.journalEntry m sq op crc status [] []) s = .next ((s.withTw fun t => { t with applied := sq }).applyEntry _ c []) :=
      (exec_journalEntry_arrives (e := ⟨sq, m, op, crc, status, []⟩) first next paired runs link follows).trans
        (congrArg _ (State.pumpJournal_entered first next kept waits may))
    refine ⟨fun differs => ?_, fun sameOp sameCrc failed => ?_, fun sameOp sameCrc ok => ?_⟩
    · exact applied.trans (congrArg _ (if_pos differs))
    all_goals refine applied.trans (congrArg _ ((if_neg (by simp [sameOp, sameCrc])).trans ?_))
    · exact if_pos failed
    · exact if_neg (not_not.mpr ok)

end Sys2Proof.Machine
end

-- The commands: fault records, causes and injected faults.
section
/-!
PROOFS of 12_commands.md. FAULT_READ, FAULT_CLEAR and FAULT_INJECT, and an injected halt of the MP that acts (O28).
-/
namespace Sys2Proof.Machine

/-! ### FAULT_READ and FAULT_CLEAR (R291, R408, R416) -/

section
variable {s : State} {c : Cmd} {r : FRec} {rest : List FRec} (one : fld (c.word 0) 0 2 = 1) (genuine : r.code ≠ 1)
include one genuine

/-- One record is read from the FCU's store while that holds one. -/
theorem faultRead_fcu (fcu : s.fcuRecs = r :: rest) : faultRead c s =
    .ok ({ s with fcuRecs := rest }, w32 (1 + min 255 (rest.length + s.mpRecs.length) * 2 ^ 8) :: r.words, []) := by
  simp only [faultRead]
  rw [need_bind (by simp [one]), one, fcu]
  simp [genuine, pure, Except.pure]

/-- And from the MP's store when it does not. -/
theorem faultRead_mp (fcu : s.fcuRecs = []) (mp : s.mpRecs = r :: rest) : faultRead c s =
    .ok ({ s with mpRecs := rest }, w32 (1 + min 255 rest.length * 2 ^ 8) :: r.words, []) := by
  simp only [faultRead]
  rw [need_bind (by simp [one]), one, fcu, mp]
  simp [genuine, pure, Except.pure]

end

/-- The state after FAULT_CLEAR of the causes that word `v` names. -/
def State.causesCleared (s : State) (v : Nat) : State := s.withFcu fun f =>
  { f with clock := f.clock && !bitAt v 2, twinSignal := f.twinSignal && !bitAt v 3, result := f.result && !bitAt v 4 }

theorem faultClear_clears {s : State} {c : Cmd} (past : ∀ b, b ∈ [1, 2, 3, 4] → bitAt (c.word 0) b = true → s.causeHolds b = false) :
    faultClear c s = .ok (s.causesCleared (c.word 0), [w32 (s.causesCleared (c.word 0)).faultStatus], []) :=
  need_bind (by simpa only [Bool.not_eq_true', List.any_eq_false, Bool.and_eq_true, not_and, Bool.not_eq_true] using past)

theorem faultClear_refuses {s : State} {c : Cmd} {b : Nat} (cause : b ∈ [1, 2, 3, 4]) (named : bitAt (c.word 0) b = true) (holds : s.causeHolds b = true) :
    faultClear c s = .error (eState, []) :=
  need_bind_false (by rw [List.any_eq_true.mpr ⟨b, cause, by rw [named, holds]; rfl⟩]; rfl)

/-! ### FAULT_INJECT and the fault's act (R291, R409, R415) -/

theorem faultInject_notes {s : State} {c : Cmd} (code : injectable (fld (c.word 0) 0 16) = true)
    (target : targetOk (fld (c.word 0) 0 16) (fld (c.word 1) 0 8) = true)
    (serving : geodeCode (fld (c.word 0) 0 16) = true → s.retiredG (fld (c.word 1) 0 8) = false) : faultInject c s = .ok (s.withDev fun d =>
      { d with injected := d.injected ++ [(fld (c.word 0) 0 16, fld (c.word 1) 0 8, fld (c.word 2) 0 8)] }, [], []) := by
  simp only [faultInject]
  rw [need_bind code, need_bind target, need_bind (by simpa [imp_iff_not_or] using serving)]
  rfl

/-- The state in which an injected fault is about to act: it is noted no more, and an open value is drawn for it. -/
def State.struck (s : State) (x : Nat × Nat × Nat) : State := (s.withDev fun d => { d with injected := d.injected.erase x }).draw.1

theorem exec_injectedFault_halt {s : State} {t : Nat} (only : s.dev.injected = [(0x0501, t, 0)]) (serving : s.dev.die = .serving) (active : s.pw.state = 0) :
    exec .injectedFault s = .next ((s.struck (0x0501, t, 0)).haltMp (1 + Config.freeValue s.free % 2)) := by
  have due : s.dev.injected.find? (fun x => x.2.2 == 0) = some (0x0501, t, 0) := by simp [only]
  simp only [exec, execInjectedFault, due, serving, active]
  rfl

theorem State.addFcuRec_parts (s : State) (code unit : Nat) (detail : List W32) :
    (s.addFcuRec code unit detail).fcu = s.fcu ∧ (s.addFcuRec code unit detail).dev = s.dev := by
  unfold State.addFcuRec
  split
  · unfold State.recNew
    split <;> exact ⟨rfl, rfl⟩
  · exact ⟨rfl, rfl⟩

/-- MP_HALT drives FAULT_N. -/
theorem State.haltMp_halts {s : State} (runs : s.fcu.mpHalt = false) (detail : Nat) :
    (s.haltMp detail).fcu.mpHalt = true ∧ (s.haltMp detail).fcu.faultN = true ∧ (s.haltMp detail).dev = s.dev := by
  rw [State.haltMp, if_neg (by simp [runs])]
  simp only [State.addFcuRec_parts]
  exact ⟨rfl, rfl, rfl⟩

/-- Settles O28: each command by the check that decides it, and the halt by what MP_HALT sets. -/
theorem faultCommands : Obligations.FaultCommands := by
  unfold Obligations.FaultCommands
  refine fun s m tag c r rest => ⟨fun ready one => ⟨fun fcu genuine => State.run_ready ready (faultRead_fcu one genuine fcu),
    fun fcu mp genuine => State.run_ready ready (faultRead_mp one genuine fcu mp)⟩, fun ready => ⟨fun past => ?clears, fun b cause named holds =>
      State.run_rejects ready (faultClear_refuses cause named holds)⟩,
    fun ready code target serving => State.run_ready ready (faultInject_notes code target serving),
    fun only serving active runs => ?halts⟩
  case clears => exact ⟨_, State.run_ready ready (faultClear_clears past), rfl, rfl, rfl, rfl, rfl⟩
  case halts =>
    obtain ⟨halted, driven, dev⟩ := State.haltMp_halts (s := s.struck (0x0501, tag, 0)) runs (1 + Config.freeValue s.free % 2)
    refine ⟨_, exec_injectedFault_halt only serving active, halted, driven, ?_⟩
    rw [dev]
    simp [State.struck, State.draw, only]

end Sys2Proof.Machine
end

-- The commands: lifecycle, firmware and debug sessions.
section
/-!
PROOFS of 12_commands.md. The commands of R292 that go to Flint, a firmware that starts, and the sessions at Flint (O30).
-/
namespace Sys2Proof.Machine

/-! ### The host's commands (R292, R425, R427, R429, R430, R436) -/

section
variable {s : State} {m : Nat} {c : Cmd} {data : List Byte}

theorem lifecycleAdvance_relayed (range : hostRange (c.word 1 + c.word 2 * 2 ^ 32) (c.word 3) 128 4096 = true)
    (transition : (lifePayload s.lifecycle (fld (c.word 0) 0 3)).isSome = true) (cd : s.sec.cdLevel = 0) (fl : s.sec.flLevel = 0) :
    lifecycleAdvance data none m c s = .ok (((debugChunks (padTo (c.word 3) data)).foldl (fun s b => s.sendFlint 0xF6 b) (s.setPhase m c 1 [])).sendFlint 0xF6
      [6, w32 (fld (c.word 0) 0 3), w32 (c.word 3)]) := by
  simp only [lifecycleAdvance]
  rw [need_bind range, need_bind transition, need_bind (decide_eq_true ⟨cd, fl⟩)]
  rfl

/-- A challenge for Flint's own port leaves the compute die's session alone. -/
theorem debugChallenge_flint (level : fld (c.word 0) 0 2 = 1) (die : fld (c.word 0) 2 1 = 1) :
    debugChallenge m c s = .ok ((s.setPhase m c 1 []).sendFlint 0xF6 [2, 5]) := by
  simp only [debugChallenge, level, die]
  rw [need_bind (by decide), need_bind (by simp)]
  rfl

/-- A SEALED device opens no INVASIVE session of Flint's. -/
theorem debugChallenge_sealed (level : fld (c.word 0) 0 2 = 2) (die : fld (c.word 0) 2 1 = 1) (sealed : s.lifecycle = 3) :
    debugChallenge m c s = .error (eSealed, []) := by
  simp only [debugChallenge, level, die]
  rw [need_bind (by decide), need_bind_false (by simp [sealed])]

theorem debugUnlock_relayed (challenge : ∀ x, s.sec.chal = some x → x = (fld (c.word 0) 0 2, fld (c.word 0) 2 1))
    (unpaired : fld (c.word 0) 2 1 = 0 → fld (c.word 0) 0 2 = 2 → s.tw.mode ≠ .paired ∧ s.tw.modeNext ≠ some .paired) : debugUnlock m c s =
    .ok ((s.setPhase m c 1 []).sendFlint 0xF6 ([3, w32 (fld (c.word 0) 0 2 + fld (c.word 0) 2 1 * 4)] ++ c.words.drop 1)) := by
  simp only [debugUnlock]
  rw [need_bind (by simpa [Option.all_eq_true] using challenge), need_bind (by simpa [imp_iff_not_or] using unpaired)]
  rfl

/-- An image whose floor is met starts. -/
theorem fwUpdateMp_starts (range : hostRange (c.word 1 + c.word 2 * 2 ^ 32) (c.word 3) 1024 229376 = true) (target : fwTarget c = 0) (boot : s.dev.phase = 0)
    (form : imageForm (padTo (c.word 3) data) 0 (c.word 3) = true) (key : imageKeyOk (padTo (c.word 3) data) s.lifecycle = true)
    (body : imageBodyOk (padTo (c.word 3) data) (c.word 3) = true) (version : s.dev.floor ≤ byteFld (padTo (c.word 3) data) 8 4)
    (floor : byteFld (padTo (c.word 3) data) 12 4 ≤ s.dev.floor) : fwUpdateMp data none true m c s =
    .ok ((s.mpStart (byteFld (padTo (c.word 3) data) 8 4)).respond m c sOk [w32 (byteFld (padTo (c.word 3) data) 8 4)]) := by
  simp only [fwUpdateMp]
  rw [need_bind (by simp [target]), need_bind range, need_bind (decide_eq_true boot)]
  refine (need_bind form).trans ?_
  rw [need_bind (by rw [key, body]; rfl), need_bind (decide_eq_true version), if_pos floor]
  rfl

theorem fwUpdateFlint_relayed (range : hostRange (c.word 1 + c.word 2 * 2 ^ 32) (c.word 3) 1024 524288 = true) (level : s.sec.flLevel ≠ 2)
    (length : byteFld (padTo (c.word 3) data) 16 4 = c.word 3) :
    fwUpdateFlint data none m c s = .ok ((s.setPhase m c 1 []).sendChunks 0xF5 0 254 (padTo (c.word 3) data)) := by
  simp only [fwUpdateFlint]
  rw [need_bind range, need_bind (decide_eq_true level)]
  exact need_bind (decide_eq_true length)

end

section
variable {s : State} {m tag : Nat} {c : Cmd} (accepted : s.cmdIn m tag 0x5B 0 = some c) (data : List Byte) (failed : Option Nat)
include accepted

theorem exec_fwUpdateMp_begins (target : fwTarget c = 0) (sigOk : Bool) :
    exec (.fwUpdateMp m tag data failed sigOk) s = s.begin m tag 0x5B fun c => fwUpdateMp data failed sigOk m c := by
  simp only [exec, execFwUpdateMp, accepted, target]
  rfl

theorem exec_fwUpdateFlint_begins (target : fwTarget c = 1) :
    exec (.fwUpdateFlint m tag data failed) s = s.begin m tag 0x5B fun c => fwUpdateFlint data failed m c := by
  simp only [exec, execFwUpdateFlint, accepted, target, if_true]

end

/-! ### The sessions at Flint (R432, R436, R437) -/

theorem State.dbgMsg_taken {s : State} (runs : s.fl.runs = true) (body : List W32) (act : State → State) :
    s.dbgMsg body act = .next (act (s.takeFlint 0xF6 body)) :=
  if_neg (by simp [runs])

theorem exec_debugMsgState_idle {s : State} (runs : s.fl.runs = true) (idle : s.fl.sessions = []) :
    exec .debugMsgState s = .next ((s.takeFlint 0xF6 [1]).dbgSay 1 sOk [w32 (s.fl.lifecycle + s.fl.level * 2 ^ 6), w32 s.fl.floor, w32 s.fl.version]) := by
  have kept : (s.takeFlint 0xF6 [1]).fl = s.fl := rfl
  simp only [exec, execDebugMsgState, State.dbgMsg_taken runs, kept, idle, List.find?_nil, Option.map_none, Option.getD_none, Nat.zero_mul, Nat.add_zero]

/-- The end of a die's session leaves it none, and reads no time. -/
theorem State.endSession_spec (s : State) (die reason : Nat) :
    (∀ x ∈ (s.endSession die reason).fl.sessions, x.1 ≠ die) ∧ (s.endSession die reason).fl.rtc = s.fl.rtc := by
  unfold State.endSession
  split
  next none => exact ⟨fun x hx => by simpa using List.find?_eq_none.mp none x hx, rfl⟩
  next => exact ⟨fun x hx => by simpa using (List.mem_filter.mp hx).2, rfl⟩

theorem State.drawWords_spec (k : Nat) (s : State) : (State.drawWords k s).1.fl = s.fl ∧ (State.drawWords k s).2.length = k := by
  induction k generalizing s with
  | zero => exact ⟨rfl, rfl⟩
  | succ k ih => exact ⟨(ih s.draw.1).1, congrArg (· + 1) (ih s.draw.1).2⟩

/-- The state in which Flint holds the challenge of a die at a level, with the drawn nonce. -/
def State.challenged (s : State) (level die : Nat) : State :=
  (State.drawWords 8 (s.endSession die 1)).1.withFl fun f =>
    { f with chal := some ⟨level, die, f.rtc, leNat (wordsBytes (State.drawWords 8 (s.endSession die 1)).2)⟩ }

theorem exec_debugMsgChallenge {s : State} (runs : s.fl.runs = true) (w : W32) (rtc : Nat) : exec (.debugMsgChallenge [2, w] rtc) s =
    .next ((((s.takeFlint 0xF6 [2, w]).rtcAt rtc).challenged (fld w.toNat 0 2) (fld w.toNat 2 1)).dbgSay 2 sOk
      (idWords (((s.takeFlint 0xF6 [2, w]).rtcAt rtc).challenged (fld w.toNat 0 2) (fld w.toNat 2 1)) ++
        (State.drawWords 8 (((s.takeFlint 0xF6 [2, w]).rtcAt rtc).endSession (fld w.toNat 2 1) 1)).2)) := by
  simp only [exec, execDebugMsgChallenge, State.dbgMsg_taken runs]
  rfl

theorem State.challenged_spec (s : State) (level die : Nat) :
    (s.challenged level die).fl.chal = some ⟨level, die, s.fl.rtc, leNat (wordsBytes (State.drawWords 8 (s.endSession die 1)).2)⟩ ∧
      ∀ x ∈ (s.challenged level die).fl.sessions, x.1 ≠ die := by
  obtain ⟨ended, rtc⟩ := State.endSession_spec s die 1
  obtain ⟨drawn, -⟩ := State.drawWords_spec 8 (s.endSession die 1)
  simp only [State.challenged, State.withFl_fl, drawn, rtc]
  exact ⟨trivial, ended⟩

/-- The state in which Flint checks an UNLOCK: its challenge is consumed. -/
def State.unlocking (s : State) (body : List W32) (rtc : Nat) : State :=
  ((s.takeFlint 0xF6 body).rtcAt rtc).withFl fun f => { f with chal := none }

theorem exec_debugMsgUnlock {s : State} (runs : s.fl.runs = true) (w : W32) (sigOk : Bool) (rtc : Nat) : exec (.debugMsgUnlock [3, w] sigOk rtc) s =
    .next ((s.unlocking [3, w] rtc).dbgEnd 3 (unlock s.fl.chal w.toNat sigOk (s.unlocking [3, w] rtc))) := by
  simp only [exec, execDebugMsgUnlock, State.dbgMsg_taken runs]
  rfl

theorem metNeed_bind {α : Type} {b : Bool} {e : Nat} {f : Unit → Except Nat α} (h : b = true) : (metNeed b e >>= f) = f () := by
  subst h; rfl

/-- Flint with the session that a challenge opens, and its audit entry. -/
def State.sessionOpened (s : State) (ch : Chal) : State := s.withFl fun f =>
  { f with
    session := f.session + 1, sessions := f.sessions ++ [(ch.die, ch.level, f.session + 1)]
    level := if ch.die = 1 then ch.level else f.level }.audits s.flintStamp 4 0 0
      (ch.level + ch.die * 4 + 8 + bit (f.lifecycle != 0) * 256 + (f.session + 1) % 2 ^ 16 * 2 ^ 16)

section
variable {s : State} {ch : Chal} {w : Nat} (inTime : s.fl.rtc ≤ ch.ticks + 60 * 32768) (level : ch.level = fld w 0 2) (die : ch.die = fld w 2 1)
include inTime level die

theorem unlock_opens (plain : s.fl.invasive = false) (room : s.fl.unacked + 2 ≤ 4096) :
    unlock (some ch) w true s = .ok (s.sessionOpened ch, [w32 (s.fl.session + 1)]) := by
  simp only [unlock]
  rw [metNeed_bind (decide_eq_true inTime), metNeed_bind (by simp [level, die]), metNeed_bind rfl, metNeed_bind (by rw [plain]; rfl),
    metNeed_bind (decide_eq_true room)]
  simp only [State.sessionOpened, State.withFl]
  rfl

theorem unlock_unsigned : unlock (some ch) w false s = .error eAuth := by
  simp only [unlock]
  rw [metNeed_bind (decide_eq_true inTime), metNeed_bind (by simp [level, die])]
  rfl

end

theorem exec_debugMsgEnd {s : State} {w : W32} {ctr : Nat} {tag : List W32} (ready : s.kcReady 0xF6 [4, w] ctr tag) : exec (.debugMsgEnd [4, w] ctr tag) s =
    .next (((s.kcTaken 0xF6 [4, w] ctr).endSession (fld w.toNat 0 1) (fld w.toNat 4 3)).dbgSay 4 sOk []) := by
  simp only [exec, execDebugMsgEnd, State.kcMsg_authentic _ ready]
  rfl

/-- Settles O30: the checks of each command pass one by one; the sessions are read off the state that each message leaves. -/
theorem securityCommands : Obligations.SecurityCommands := by
  unfold Obligations.SecurityCommands
  refine ⟨fun s m tag c data => ⟨?advance, ?challenge, ?sealed, ?unlock, ?mp, ?flint⟩,
    fun s rtc w ch runs => ⟨exec_debugMsgState_idle runs, ?challenged, fun held inTime level die first plain room => ⟨?opened, ?unsigned⟩,
      fun ctr tag => exec_debugMsgEnd⟩⟩
  case advance => exact fun ready range transition cd fl => State.begin_ready ready (lifecycleAdvance_relayed range transition cd fl)
  case challenge => exact fun ready level die => State.begin_ready ready (debugChallenge_flint level die)
  case sealed => exact fun ready level die sealed => State.begin_rejects ready (debugChallenge_sealed level die sealed)
  case unlock => exact fun ready challenge unpaired => State.begin_ready ready (debugUnlock_relayed challenge unpaired)
  case mp =>
    intro ready range target boot form key body version floor
    refine ⟨s.mpStart _, ?_, rfl, rfl, rfl, rfl, rfl⟩
    exact (exec_fwUpdateMp_begins ready.1 data none target true).trans
      (State.begin_ready ready (fwUpdateMp_starts range target boot form key body version floor))
  case flint =>
    intro ready range target level length
    exact (exec_fwUpdateFlint_begins ready.1 data none target).trans (State.begin_ready ready (fwUpdateFlint_relayed range level length))
  case challenged =>
    obtain ⟨held, ended⟩ := State.challenged_spec ((s.takeFlint 0xF6 [2, w]).rtcAt rtc) (fld w.toNat 0 2) (fld w.toNat 2 1)
    exact ⟨_, _, exec_debugMsgChallenge runs w rtc, (State.drawWords_spec 8 _).2, held, ended⟩
  case opened =>
    have opens : unlock s.fl.chal w.toNat true (s.unlocking [3, w] rtc) = .ok ((s.unlocking [3, w] rtc).sessionOpened ch, [w32 (s.fl.session + 1)]) :=
      held ▸ unlock_opens inTime level die plain room
    refine ⟨(s.unlocking [3, w] rtc).sessionOpened ch, ?_, rfl, rfl, ?_, if_pos first, rfl⟩
    · rw [exec_debugMsgUnlock runs, opens]
      rfl
    · exact congrArg (fun d => s.fl.sessions ++ [(d, ch.level, s.fl.session + 1)]) first
  case unsigned =>
    have refused : unlock s.fl.chal w.toNat false (s.unlocking [3, w] rtc) = .error eAuth := held ▸ unlock_unsigned inTime level die
    refine ⟨s.unlocking [3, w] rtc, ?_, rfl, rfl⟩
    rw [exec_debugMsgUnlock runs, refused]
    rfl

end Sys2Proof.Machine
end

-- The cores and the Shelf: what stands in front of the Gallery, and the sectors of the Shelf.
section
/-!
PROOFS of 13_application_cores.md. The Gallery works alike behind any Shelf and any cores; what a change, a use, a store and a fill make of the
sector of a place; the Shelf where nothing is gathered; reservations that a write ends.
-/
namespace Sys2Proof.Machine

/-! ### What stands in front of the Gallery -/

/-- The state with another Shelf and other cores: what stands in front of the Gallery, which neither sees nor changes it. -/
def State.withFront (s : State) (d : Shelf) (cs : List Core) : State := { s with shelf := d, cores := cs }

/-- What works on whatever stands in front leaves it as it is. -/
theorem State.shelf_of_blind {s t : State} (blind : t = t.withFront s.shelf s.cores) : t.shelf = s.shelf := (congrArg State.shelf blind :)
theorem State.cores_of_blind {s t : State} (blind : t = t.withFront s.shelf s.cores) : t.cores = s.cores := (congrArg State.cores blind :)

theorem foldl_withFront {α : Type} {f : State → α → State} {d : Shelf} {cs : List Core}
    (each : ∀ s x, f (s.withFront d cs) x = (f s x).withFront d cs) (l : List α) (s : State) :
    l.foldl f (s.withFront d cs) = (l.foldl f s).withFront d cs :=
  List.foldl_hom (fun t : State => t.withFront d cs) fun t x => each t x

section
variable (s : State) (d : Shelf) (cs : List Core)

@[simp] theorem State.withFront_gal : (s.withFront d cs).gal = s.gal := rfl
@[simp] theorem State.withFront_withGal (f : Gallery → Gallery) : (s.withFront d cs).withGal f = (s.withGal f).withFront d cs := rfl
@[simp] theorem State.ite_withFront (c : Prop) [Decidable c] (t : State) :
    (if c then s.withFront d cs else t.withFront d cs) = (if c then s else t).withFront d cs := (apply_ite (fun t : State => t.withFront d cs) c s t).symm

theorem State.recNew_withFront (b : Bool) : (s.withFront d cs).recNew b = (s.recNew b).withFront d cs :=
  State.ite_withFront (s.event03 0x51 []) d cs _ s

@[simp] theorem State.addRec_withFront (code ctx geode unit strm interval : Nat) (detail : List W32) :
    (s.withFront d cs).addRec code ctx geode unit strm interval detail = (s.addRec code ctx geode unit strm interval detail).withFront d cs := by
  simp only [State.addRec]
  rw [← State.ite_withFront, ← State.recNew_withFront]
  rfl

@[simp] theorem State.galError_withFront (p kind : Nat) : (s.withFront d cs).galError p kind = (s.galError p kind).withFront d cs := by
  simp only [State.galError]
  rw [← State.ite_withFront, ← State.addRec_withFront]
  rfl

@[simp] theorem State.galCorrected_withFront (p : Nat) : (s.withFront d cs).galCorrected p = (s.galCorrected p).withFront d cs := rfl

@[simp] theorem State.galEcc_withFront (p n kind : Nat) : (s.withFront d cs).galEcc p n kind = (s.galEcc p n kind).withFront d cs := by
  simp only [State.galEcc, State.withFront_gal, State.withFront_withGal]
  rw [foldl_withFront (f := fun t w => t.galCorrected (8 * w)) fun t w => State.galCorrected_withFront t d cs _,
    foldl_withFront (f := fun t w => t.galError (8 * w) kind) fun t w => State.galError_withFront t d cs _ kind]

@[simp] theorem State.granEcc_withFront (p : Nat) : (s.withFront d cs).granEcc p = (s.granEcc p).withFront d cs := by simp [State.granEcc]

/-- A read of the Gallery returns the same over whatever stands in front. -/
theorem State.galReadP_withFront (p n : Nat) :
    (s.withFront d cs).galReadP p n = ((s.galReadP p n).1.withFront d cs, (s.galReadP p n).2) := by
  simp only [State.galReadP, State.withFront_gal, State.galEcc_withFront]
  rw [foldl_withFront (f := fun t j => t.granEcc (j * 256)) fun t j => State.granEcc_withFront t d cs _,
    foldl_withFront (f := fun t j => t.galError (j * 256) 2) fun t j => State.galError_withFront t d cs _ 2]
  split_ifs <;> rfl

theorem State.galStore_withFront (p : Nat) (bytes : List Byte) (poison : Bool) :
    (s.withFront d cs).galStore p bytes poison = (s.galStore p bytes poison).withFront d cs := by
  simp only [State.galStore, State.withFront_withGal, State.galEcc_withFront, State.ite_withFront]

theorem State.galStoreGran_withFront (p : Nat) (bytes : List Byte) (poison : Bool) :
    (s.withFront d cs).galStoreGran p bytes poison = (s.galStoreGran p bytes poison).withFront d cs := by
  simp only [State.galStoreGran, State.withFront_withGal, State.galStore_withFront, State.granEcc_withFront, State.galError_withFront,
    State.withFront_gal, State.ite_withFront]

theorem State.galStoreProt_withFront (k p : Nat) (bytes : List Byte) (poison : Bool) :
    State.galStoreProt k (s.withFront d cs) p bytes poison = (State.galStoreProt k s p bytes poison).withFront d cs := by
  induction k generalizing s p bytes with
  | zero => rfl
  | succ k ih => simp only [State.galStoreProt, State.galStoreGran_withFront, ih, State.ite_withFront]

theorem State.galWriteP_withFront (p : Nat) (bytes : List Byte) (poison : Bool) :
    (s.withFront d cs).galWriteP p bytes poison = (s.galWriteP p bytes poison).withFront d cs := by
  simp only [State.galWriteP, State.withFront_gal, State.galStoreProt_withFront, State.galStore_withFront, State.ite_withFront]

theorem State.galReadP_blind (p n : Nat) : (s.galReadP p n).1 = (s.galReadP p n).1.withFront s.shelf s.cores :=
  congrArg Prod.fst (State.galReadP_withFront s s.shelf s.cores p n)

@[simp] theorem State.galReadP_shelf (p n : Nat) : (s.galReadP p n).1.shelf = s.shelf := State.shelf_of_blind (s.galReadP_blind p n)
@[simp] theorem State.galReadP_cores (p n : Nat) : (s.galReadP p n).1.cores = s.cores := State.cores_of_blind (s.galReadP_blind p n)
@[simp] theorem State.galWriteP_shelf (p : Nat) (bytes : List Byte) (poison : Bool) : (s.galWriteP p bytes poison).shelf = s.shelf :=
  State.shelf_of_blind (State.galWriteP_withFront s s.shelf s.cores p bytes poison)

/-- A write-back changes behind its bytes the Gallery's poison marks only. -/
theorem State.writeBack_keeps {δ : Type} {v : State → δ} (blind : ∀ t f, v (t.withGal f) = v t) (host : Bool) (a : Nat) (x : Sector) :
    v (s.writeBack host a x) = v (s.backWrite (host, a) x.data) := by
  have marked (c : Prop) [Decidable c] (t : State) (f : Gallery → Gallery) : v (if c then t else t.withGal f) = v t := by
    split
    · rfl
    · exact blind t f
  exact marked _ _ _

@[simp] theorem State.writeBack_shelf (host : Bool) (a : Nat) (x : Sector) : (s.writeBack host a x).shelf = s.shelf := by
  rw [State.writeBack_keeps (v := State.shelf) s fun _ _ => rfl]
  unfold State.backWrite
  split
  · rfl
  · exact State.galWriteP_shelf ..

end

/-! ### The line and the sector of a place -/

section
variable {h h' : Shelf} {p : Place} {x : Sector}

/-- The sectors of a place lie in its lines. -/
theorem Shelf.sector_congr (same : h'.lines = h.lines) : h'.sector p = h.sector p := by simp only [Shelf.sector, Shelf.line, same]

theorem Shelf.sector_eq_some : h.sector p = some x ↔ ∃ l, h.line p = some l ∧ l.sectors[p.2 % 256 / 64]? = some x ∧ x.valid = true := by
  simp only [Shelf.sector, Option.bind_eq_some_iff, Option.ite_none_right_eq_some, Option.some.injEq]
  constructor
  · rintro ⟨l, line, y, place, valid, rfl⟩
    exact ⟨l, line, place, valid⟩
  · rintro ⟨l, line, place, valid⟩
    exact ⟨l, line, x, place, valid, rfl⟩

theorem Shelf.sector_of_line_none (absent : h.line p = none) : h.sector p = none := by rw [Shelf.sector, absent]; rfl

theorem Shelf.line_updSector (f : Sector → Sector) :
    (h.updSector p f).line p = (h.line p).map fun l => { l with sectors := upd l.sectors (p.2 % 256 / 64) f } := by
  have same : (fun l : Line => l.host == p.1 && l.addr == lineOf p.2) ∘ (fun l : Line =>
      if l.host == p.1 && l.addr == lineOf p.2 then { l with sectors := upd l.sectors (p.2 % 256 / 64) f } else l) =
      fun l => l.host == p.1 && l.addr == lineOf p.2 := by
    funext l
    dsimp only [Function.comp]
    split <;> rfl
  simp only [Shelf.line, Shelf.updSector, List.find?_map, same]
  refine Option.map_congr fun l found => ?_
  exact if_pos (List.find?_some (Option.mem_def.mp found) :)

/-- The sector of a place after a change of it. -/
theorem Shelf.sector_updSector {l : Line} (line : h.line p = some l) (place : l.sectors[p.2 % 256 / 64]? = some x) (f : Sector → Sector) :
    (h.updSector p f).sector p = if (f x).valid then some (f x) else none := by
  simp [Shelf.sector, Shelf.line_updSector, line, upd, place]

theorem Shelf.updHeld_of_hit (hit : h.sector p = some x) (f : Sector → Sector) : h.updHeld p f = h.updSector p f := if_pos (by rw [hit]; rfl)

/-- A sector that a change leaves valid is there, changed. -/
theorem Shelf.sector_updHeld_of_hit (hit : h.sector p = some x) (f : Sector → Sector) :
    (h.updHeld p f).sector p = if (f x).valid then some (f x) else none := by
  obtain ⟨l, line, place, -⟩ := Shelf.sector_eq_some.mp hit
  rw [Shelf.updHeld_of_hit hit, Shelf.sector_updSector line place]

theorem Shelf.heldSector_of_hit (hit : h.sector p = some x) : h.heldSector p = some x := by simp only [Shelf.heldSector, hit]

theorem Shelf.heldSector_of_absent (absent : h.line p = none) (left : h.evicted p = none) : h.heldSector p = none := by
  simp only [Shelf.heldSector, Shelf.sector_of_line_none absent, left, Option.bind_none]

/-! ### Uses, stores and fills (R303, R304) -/

/-- A use of a line moves its set's tree only. -/
theorem Shelf.use_eq (h : Shelf) (p : Place) : ∃ t, h.use p = { h with plru := t } := by
  unfold Shelf.use
  split
  · exact ⟨_, rfl⟩
  · exact ⟨h.plru, rfl⟩

section
variable (h : Shelf) (p : Place)

@[simp] theorem Shelf.use_lines : (h.use p).lines = h.lines := by obtain ⟨t, e⟩ := h.use_eq p; rw [e]
@[simp] theorem Shelf.use_state : (h.use p).state = h.state := by obtain ⟨t, e⟩ := h.use_eq p; rw [e]
@[simp] theorem Shelf.use_dets : (h.use p).dets = h.dets := by obtain ⟨t, e⟩ := h.use_eq p; rw [e]
@[simp] theorem Shelf.use_misses : (h.use p).misses = h.misses := by obtain ⟨t, e⟩ := h.use_eq p; rw [e]
@[simp] theorem Shelf.use_sector : (h.use p).sector p = h.sector p := Shelf.sector_congr (h.use_lines p)

end

theorem Shelf.alloc_of_line {l : Line} (line : h.line p = some l) : h.alloc p = h := by simp only [Shelf.alloc, line]
@[simp] theorem Shelf.alloc_misses (h : Shelf) (p : Place) : (h.alloc p).misses = h.misses := by
  unfold Shelf.alloc
  split <;> rfl

/-- A store into a sector that is present leaves the bytes in it. -/
theorem Shelf.sector_store (hit : h.sector p = some x) (b : List Byte) (dirty : Bool) :
    (h.store p b dirty).sector p = some (x.put (p.2 % 64) b dirty) := by
  obtain ⟨l, line, place, -⟩ := Shelf.sector_eq_some.mp hit
  rw [Shelf.store, Shelf.use_sector, Shelf.alloc_of_line line]
  exact (Shelf.sector_updSector line place _).trans (if_pos rfl)

/-- A new line is empty and stands behind those that stay, none of which is at the place. -/
theorem Shelf.line_alloc (absent : h.line p = none) :
    (h.alloc p).line p = some { set := setOf p.2, way := h.victim (setOf p.2), host := p.1, addr := lineOf p.2 } := by
  have others := List.find?_eq_none.mp absent
  simp only [Shelf.alloc, absent]
  rw [Shelf.line, List.find?_append, List.find?_eq_none.mpr fun l stays => others l (List.mem_filter.mp stays).1]
  simp

/-- The sector of an absent line after its fill. -/
theorem Shelf.sector_fill (absent : h.line p = none) (b : List Byte) (poison : List Nat) :
    (h.fill p b poison).sector p = some { valid := true, dirty := false, data := b, poison := poison, err := 0 } := by
  have inside : p.2 % 256 / 64 < 4 := by omega
  exact Shelf.sector_updSector (Shelf.line_alloc absent) (List.getElem?_replicate_of_lt inside) _

@[simp] theorem Shelf.fill_misses (h : Shelf) (p : Place) (b : List Byte) (poison : List Nat) : (h.fill p b poison).misses = h.misses :=
  Shelf.alloc_misses h p

theorem Shelf.line_secOf (h : Shelf) (sp : Bool) (a : Nat) : h.line (sp, secOf a) = h.line (sp, a) := by
  have same : lineOf (secOf a) = lineOf a := by unfold lineOf secOf; omega
  simp only [Shelf.line, same]

theorem Shelf.sector_secOf (h : Shelf) (sp : Bool) (a : Nat) : h.sector (sp, secOf a) = h.sector (sp, a) := by
  have same : secOf a % 256 / 64 = a % 256 / 64 := by unfold secOf; omega
  simp only [Shelf.sector, Shelf.line_secOf, same]

end

/-! ### Checks of a sector (R308) -/

section
variable {s : State} {p : Place} {x : Sector}

theorem State.shelfEcc_sound (held : s.shelf.heldSector p = some x) (sound : x.err = 0) : s.shelfEcc p = (s, false) := by
  simp [State.shelfEcc, held, sound]

theorem State.shelfEcc_absent (absent : s.shelf.heldSector p = none) : s.shelfEcc p = (s, false) := by simp only [State.shelfEcc, absent]

theorem Sector.get_clean (clean : x.poison = []) (o n : Nat) : x.get o n = ((x.data.drop o).take n, false) := by simp [Sector.get, clean]

/-- A dirty sector goes back with its bytes and stays, clean. -/
theorem State.cleanSector_hit (hit : s.shelf.sector p = some x) (sound : x.err = 0) (dirty : x.dirty = true) :
    s.cleanSector p = (s.writeBack p.1 (secOf p.2) x).withShelf fun h => h.updHeld p fun y => { y with dirty := false } := by
  have held := Shelf.heldSector_of_hit hit
  simp [State.cleanSector, held, dirty, State.shelfEcc_sound held sound]

/-- A sector that is written back and dropped is gone. -/
theorem State.sector_dropSector_cleanSector (hit : s.shelf.sector p = some x) (sound : x.err = 0) (dirty : x.dirty = true) :
    ((s.cleanSector p).dropSector p).shelf.sector p = none := by
  obtain ⟨-, -, -, valid⟩ := Shelf.sector_eq_some.mp hit
  have stays : (s.cleanSector p).shelf.sector p = some { x with dirty := false } := by
    rw [State.cleanSector_hit hit sound dirty, State.withShelf_shelf, State.writeBack_shelf, Shelf.sector_updHeld_of_hit hit]
    exact if_pos valid
  exact Shelf.sector_updHeld_of_hit stays _

/-! ### Where no store is gathered (R305) -/

/-- No detector gathers a sector. -/
def Shelf.Ungathered (h : Shelf) : Prop := ∀ d ∈ h.dets, d.gather = none

theorem Shelf.Ungathered.det {h : Shelf} (ungathered : h.Ungathered) (k : Nat) : (h.dets.getD k {}).gather = none := by
  by_cases inside : k < h.dets.length
  · simpa [inside] using ungathered _ (List.getElem_mem inside)
  · simp [List.getElem?_eq_none (Nat.le_of_not_lt inside)]

theorem State.flushGather_none (ungathered : s.shelf.Ungathered) (k : Nat) : s.flushGather k = s := by
  simp only [State.flushGather, ungathered.det]

theorem State.flushAt_none (ungathered : s.shelf.Ungathered) (p : Place) (n : Nat) : s.flushAt p n = s :=
  List.foldlRecOn (motive := fun t => t = s) (List.range 9) _ rfl fun t same k _ => by simp only [same, ungathered.det]

/-- The detector of requester `k` notes a store. -/
def Shelf.noted (k : Nat) (at' : Option Place) (h : Shelf) : Shelf := { h with dets := upd h.dets k fun d => d.store at' }

theorem State.noteStore_none (ungathered : s.shelf.Ungathered) (k : Nat) (at' : Option Place) : s.noteStore k at' = s.withShelf (Shelf.noted k at') := by
  simp only [State.noteStore, State.flushGather_none ungathered, ite_self]
  rfl

end

/-- The Shelf is enabled and holds a sound sector, and nothing is gathered. -/
structure Shelf.Serves (h : Shelf) (p : Place) (x : Sector) : Prop where
  ungathered : h.Ungathered
  enabled : h.state = .enabled
  hit : h.sector p = some x
  sound : x.err = 0
  clean : x.poison = []

theorem Shelf.Serves.use {h : Shelf} {p : Place} {x : Sector} (serves : h.Serves p x) : (h.use p).Serves p x where
  ungathered := by rw [Shelf.Ungathered, Shelf.use_dets]; exact serves.ungathered
  enabled := (h.use_state p).trans serves.enabled
  hit := (h.use_sector p).trans serves.hit
  sound := serves.sound
  clean := serves.clean

/-! ### Reservations (R298, R299) -/

section
variable {s : State} {who k n : Nat} {p : Place}

@[simp] theorem State.killRes_length (s : State) (who : Nat) (p : Place) (n : Nat) : (s.killRes who p n).cores.length = s.cores.length := by
  simp [State.killRes]

/-- A write ends the reservation of its sector that another requester holds. -/
theorem State.killRes_ends (other : k ≠ who) (size : 1 ≤ n) (reserved : (s.core k).res = some (p.1, secOf p.2)) :
    ((s.killRes who p n).core k).res = none := by
  have inside : secOf p.2 < p.2 + n := by unfold secOf; omega
  revert reserved
  simp only [State.core, State.killRes, List.getD_eq_getElem?_getD, List.getElem?_map, List.getElem?_zipIdx]
  cases s.cores[k]? with
  | none => exact fun _ => rfl
  | some c =>
    intro reserved
    have reserved : c.res = some (p.1, secOf p.2) := reserved
    simp [other, reserved, inside]

end

end Sys2Proof.Machine
end

-- The cores and the Shelf: the accesses of a core.
section
/-!
PROOFS of 13_application_cores.md. Loads, stores, atomic accesses, fences and cache-block operations (O45).
-/
namespace Sys2Proof.Machine

/-! ### What a requester's step leaves as it is (R434) -/

section
variable (s : State) (req : Nat)

theorem State.withShelf_self : (s.withShelf fun d => d) = s := rfl

@[simp] theorem State.stepped_shelf : (s.stepped req).shelf = s.shelf := rfl
@[simp] theorem State.stepped_gal : (s.stepped req).gal = s.gal := rfl
@[simp] theorem State.stepped_host : (s.stepped req).host = s.host := rfl
@[simp] theorem State.stepped_cores : (s.stepped req).cores = s.cores := rfl
@[simp] theorem State.stepped_core (k : Nat) : (s.stepped req).core k = s.core k := rfl
@[simp] theorem State.stepped_coreTarget (k a n : Nat) (write : Bool) : (s.stepped req).coreTarget k a n write = s.coreTarget k a n write := rfl

/-- No register shows that a halted core may take a single step. -/
theorem State.regValue_withStepOk (o : Option Nat) (r : Reg) : (s.withSec fun d => { d with stepOk := o }).regValue req r = s.regValue req r := by
  cases r <;> rfl

theorem State.regValue_stepped (r : Reg) : (s.stepped req).regValue req r = s.regValue req r := by
  by_cases single : s.sec.stepOk = some (req + 1)
  · have taken : s.stepped req = s.withSec fun d => { d with stepOk := none } := by simp [State.stepped, State.withSec, single]
    rw [taken, State.regValue_withStepOk]
  · have same : s.stepped req = s := by simp [State.stepped, State.withSec, single]
    rw [same]

/-- A requester is handed a value and no fault. -/
theorem State.core_give {s : State} {req : Nat} (inside : req < s.cores.length) (v : Nat) :
    (s.give req v).core req = { s.core req with result := v, faulted := false } := State.core_withCore_self inside

theorem State.core_give_ne {s : State} {req k : Nat} (other : k ≠ req) (v : Nat) : (s.give req v).core k = s.core k :=
  State.core_withCore_ne other.symm

@[simp] theorem State.give_shelf (v : Nat) : (s.give req v).shelf = s.shelf := rfl
@[simp] theorem State.give_gal (v : Nat) : (s.give req v).gal = s.gal := rfl
@[simp] theorem State.give_host (v : Nat) : (s.give req v).host = s.host := rfl

/-- Only the Shelf has changed, and none of its lines. -/
def State.KeepsLines (s t : State) : Prop := ∃ h : Shelf, t = s.withShelf (fun _ => h) ∧ h.lines = s.shelf.lines

/-- Training on a read and its prefetches change no line. -/
theorem State.train_keepsLines (p : Place) : s.KeepsLines (s.train req p) := by
  have self : s.KeepsLines s := ⟨s.shelf, rfl, rfl⟩
  simp only [State.train]
  split
  · exact self
  split
  · exact ⟨_, rfl, rfl⟩
  refine List.foldlRecOn (motive := s.KeepsLines) _ _ ⟨_, rfl, rfl⟩ fun t ⟨h, same, lines⟩ a _ => ?_
  subst same
  split
  · exact ⟨h, rfl, lines⟩
  · exact ⟨_, rfl, lines⟩

end

/-! ### Loads (R295, R296, R303) -/

section
variable {s : State} {req addr n : Nat} {p : Place} {x : Sector}

theorem State.galShut_filled (filled : s.gal.initDone = true) (a n : Nat) : s.galShut a n = false := by
  unfold State.galShut
  split
  · simp [filled]
  · rfl

section
variable (runs : s.coreRuns req = true) (filled : s.gal.initDone = true) (size : 1 ≤ n) (within : addr % 64 + n ≤ 64)
include runs filled size within

/-- Nothing holds up an access of a requester that runs, within a sector, once the Gallery is filled. -/
theorem State.access_admitted : (!s.coreRuns req || decide (n = 0) || decide (64 < addr % 64 + n) || s.galShut addr n) = false := by
  simp [runs, State.galShut_filled filled, Nat.one_le_iff_ne_zero.mp size, within]

theorem exec_coreLoad_fault (target : s.coreTarget req addr n false = .fault) (err : Nat) (ext : List Byte) :
    exec (.coreLoad req addr n err ext) s = .next ((s.stepped req).accessFault req) := by
  simp only [exec, execCoreLoad, State.access_admitted runs filled size within, State.stepped_coreTarget, target]
  rfl

theorem exec_coreLoad_dev {r : Reg} (target : s.coreTarget req addr n false = .dev (some r) 0 true) (reads : mayRead req r = true) (err : Nat)
    (ext : List Byte) : exec (.coreLoad req addr n err ext) s = .next (((s.stepped req).readEffect req r).give req (s.regValue req r % 2 ^ (8 * n))) := by
  simp only [exec, execCoreLoad, State.access_admitted runs filled size within, State.stepped_coreTarget, target, State.readReg, reads, if_true,
    State.regValue_stepped, Nat.pow_zero, Nat.div_one]
  rfl

theorem exec_coreLoad_uncached (target : s.coreTarget req addr n false = .mem p false) (err : Nat) (ext : List Byte) :
    exec (.coreLoad req addr n err ext) s = .next ((s.stepped req).loadBack req p n ext) := by
  simp only [exec, execCoreLoad, State.access_admitted runs filled size within, State.stepped_coreTarget, target]
  rfl

theorem exec_coreLoad_cached (target : s.coreTarget req addr n false = .mem p true) (err : Nat) (ext : List Byte) :
    exec (.coreLoad req addr n err ext) s = .next (((s.stepped req).loadCached req p n err ext).getD (s.stepped req)) := by
  simp only [exec, execCoreLoad, State.access_admitted runs filled size within, State.stepped_coreTarget, target, if_true]
  rfl

end

/-- The bytes of a sector that an access of `n` bytes at a place gets, as a number. -/
abbrev Sector.word (x : Sector) (p : Place) (n : Nat) : Nat := leNat ((x.data.drop (p.2 % 64)).take n)

/-- A use of the line of a place is noted. -/
abbrev State.used (s : State) (p : Place) : State := s.withShelf fun h => h.use p

/-- A load that hits a sound sector hands its bytes over. -/
theorem State.loadHit_clean (clean : x.poison = []) : s.loadHit req p n x false = (s.used p).give req (x.word p n) := by
  simp only [State.loadHit, Sector.get_clean clean, State.loaded]
  rfl

section
variable (serves : s.shelf.Serves p x)
include serves

/-- A cached load that hits hands the bytes over; of the Shelf its training changes no line. -/
theorem State.loadCached_hit (inside : req < s.cores.length) (ext : List Byte) : ∃ t, s.loadCached req p n 0 ext = some t ∧
    t.core req = { s.core req with result := x.word p n, faulted := false } ∧ t.gal = s.gal ∧ t.host = s.host ∧
    t.shelf.lines = s.shelf.lines ∧ ∀ k, k ≠ req → t.core k = s.core k := by
  obtain ⟨ungathered, enabled, hit, sound, clean⟩ := serves
  obtain ⟨h, trained, lines⟩ := ((s.used p).give req (x.word p n)).train_keepsLines req p
  refine ⟨((s.used p).give req (x.word p n)).withShelf fun _ => h, ?_, State.core_give (s := s.used p) inside _, by simp, by simp, by simpa using lines,
    fun k other => State.core_give_ne (s := s.used p) other _⟩
  rw [← trained]
  simp only [State.loadCached, enabled, reduceCtorEq, if_false, if_true, State.flushAt_none ungathered, State.withShelf_self, hit,
    State.shelfEcc_sound (Shelf.heldSector_of_hit hit) sound, State.loadHit_clean clean, Option.map_some]

end

theorem State.loadBack_gallery (a : Nat) (ext : List Byte) :
    s.loadBack req (false, a) n ext = (s.galReadP a n).1.loaded req (s.galReadP a n).2.1 (s.galReadP a n).2.2 := rfl

/-! ### Stores (R299, R303, R304) -/

/-- A store that hits: the requester's detector notes it, other requesters lose their reservations, and the sector takes the bytes. -/
def State.stored (s : State) (req : Nat) (p : Place) (b : List Byte) : State :=
  ((s.withShelf (Shelf.noted req (some p))).killRes req p b.length).withShelf fun h => h.store p b true

theorem State.storeHit_enabled (enabled : s.shelf.state = .enabled) (b : List Byte) : s.storeHit p b = s.withShelf fun h => h.store p b true := by
  simp [State.storeHit, enabled]

/-- What is noted of a store leaves the lines as they are. -/
theorem State.sector_of_noted (who : Nat) (at' : Option Place) (q : Place) :
    ((s.withShelf (Shelf.noted who at')).killRes who q n).shelf.sector p = s.shelf.sector p := rfl
theorem State.state_of_noted (who : Nat) (at' : Option Place) (q : Place) :
    ((s.withShelf (Shelf.noted who at')).killRes who q n).shelf.state = s.shelf.state := rfl

section
variable (serves : s.shelf.Serves p x) (b : List Byte)
include serves

theorem State.storeCached_hit (stream : Bool) (ext : List Byte) : s.storeCached req p b stream ext = some (s.stored req p b) := by
  simp only [State.storeCached, serves.enabled, reduceCtorEq, if_false, State.noteStore_none serves.ungathered, State.sector_of_noted, serves.hit]
  exact congrArg some (State.storeHit_enabled ((State.state_of_noted ..).trans serves.enabled) b)

theorem State.atomicWrite_hit : s.atomicWrite req p b = s.stored req p b := by
  simp only [State.atomicWrite, State.noteStore_none serves.ungathered, State.state_of_noted, State.sector_of_noted, serves.hit, serves.enabled]
  exact State.storeHit_enabled ((State.state_of_noted ..).trans serves.enabled) b

end

@[simp] theorem State.stored_gal (s : State) (req : Nat) (p : Place) (b : List Byte) : (s.stored req p b).gal = s.gal := rfl
@[simp] theorem State.stored_host (s : State) (req : Nat) (p : Place) (b : List Byte) : (s.stored req p b).host = s.host := rfl
@[simp] theorem State.stored_length (s : State) (req : Nat) (p : Place) (b : List Byte) : (s.stored req p b).cores.length = s.cores.length :=
  State.killRes_length ..

theorem State.stored_sector (hit : s.shelf.sector p = some x) (b : List Byte) :
    (s.stored req p b).shelf.sector p = some (x.put (p.2 % 64) b true) := by
  have there : (s.shelf.noted req (some p)).sector p = some x := hit
  exact Shelf.sector_store there b true

theorem Sector.put_dirty (x : Sector) (o : Nat) (b : List Byte) : (x.put o b true).dirty = true := Bool.or_true _

theorem State.stored_ends {k : Nat} {b : List Byte} (other : k ≠ req) (size : 1 ≤ b.length) (reserved : (s.core k).res = some (p.1, secOf p.2)) :
    ((s.stored req p b).core k).res = none := State.killRes_ends (s := s.withShelf _) other size reserved

section
variable {data : List Byte} (runs : s.coreRuns req = true) (filled : s.gal.initDone = true) (size : 1 ≤ data.length)
  (within : addr % 64 + data.length ≤ 64)
include runs filled size within

theorem exec_coreStore_fault (target : s.coreTarget req addr data.length true = .fault) (ext : List Byte) :
    exec (.coreStore req addr data ext) s = .next ((s.stepped req).accessFault req) := by
  simp only [exec, execCoreStore, State.access_admitted runs filled size within, State.stepped_coreTarget, target]
  rfl

theorem exec_coreStore_cached (target : s.coreTarget req addr data.length true = .mem p true) (ext : List Byte) :
    exec (.coreStore req addr data ext) s = .next (((s.stepped req).storeCached req p data true ext).getD (s.stepped req)) := by
  simp only [exec, execCoreStore, State.access_admitted runs filled size within, State.stepped_coreTarget, target, if_true]
  rfl

end

end

/-! ### LR, SC and AMO (R298) -/

section
variable {s : State} {req addr : Nat} {p : Place} {x : Sector}

/-- What an atomic access that hits makes of a state: LR reserves the sector, SC stores and answers 0, an AMO stores its result. -/
def State.atomic (s : State) (req : Nat) (p : Place) (x : Sector) (op v : Nat) : State :=
  if op = 0 then ((s.used p).withCore req fun c => { c with res := some (p.1, secOf p.2) }).give req (x.word p 4)
  else if op = 1 then (((s.used p).stored req p (leBytes 4 v)).withCore req fun c => { c with res := none }).give req 0
  else ((s.used p).stored req p (leBytes 4 (amoOp op 32 (x.word p 4) (v % 2 ^ 32)))).give req (x.word p 4)

section
variable (s : State) (req : Nat) (p : Place) (x : Sector) (v : Nat)

theorem State.atomic_lr : s.atomic req p x 0 v = ((s.used p).withCore req fun c => { c with res := some (p.1, secOf p.2) }).give req (x.word p 4) := rfl
theorem State.atomic_sc :
    s.atomic req p x 1 v = (((s.used p).stored req p (leBytes 4 v)).withCore req fun c => { c with res := none }).give req 0 := rfl
theorem State.atomic_add :
    s.atomic req p x 3 v = ((s.used p).stored req p (leBytes 4 ((x.word p 4 + v % 2 ^ 32) % 2 ^ 32))).give req (x.word p 4) := rfl

end

theorem State.atomicRead_hit (serves : s.shelf.Serves p x) (idle : s.shelf.waits p = false) (left : s.shelf.evicted p = none) (n : Nat)
    (ext : List Byte) : s.atomicRead p n ext = some (s.used p, (x.data.drop (p.2 % 64)).take n, false) := by
  obtain ⟨ungathered, enabled, hit, sound, clean⟩ := serves
  have free : ¬ (s.shelf.waits p || (s.shelf.evicted p).isSome) = true := by simp [idle, left]
  simp only [State.atomicRead, enabled, reduceCtorEq, if_false, if_neg free, State.flushAt_none ungathered,
    State.shelfEcc_sound (Shelf.heldSector_of_hit hit) sound, hit, Sector.get_clean clean]
  rfl

section
variable {op : Nat} (runs : s.coreRuns req = true) (filled : s.gal.initDone = true)
include runs filled

/-- An atomic access acts where the Gallery is filled; what it names decides. -/
theorem State.amo_admitted : ¬ (!s.coreRuns req || !(4 == 4 || 4 == 8) || s.galShut addr 4) = true := by simp [runs, State.galShut_filled filled]

theorem exec_coreAmo_uncached (target : s.coreTarget req addr 4 (op != 0) = .mem p false) (v : Nat) (ext : List Byte) :
    exec (.coreAmo req addr 4 op v ext) s = .next ((s.stepped req).accessFault req) := by
  simp only [exec, execCoreAmo, if_neg (State.amo_admitted runs filled), State.stepped_coreTarget, target]

variable (aligned : addr % 4 = 0) (target : s.coreTarget req addr 4 (op != 0) = .mem p true)
include aligned target

/-- An SC without the reservation stores nothing and answers 1. -/
theorem exec_coreAmo_unreserved (sc : op = 1) (unreserved : (s.core req).res ≠ some (p.1, secOf p.2)) (v : Nat) (ext : List Byte) :
    exec (.coreAmo req addr 4 op v ext) s = .next (((s.stepped req).withCore req fun c => { c with res := none }).give req 1) := by
  simp only [exec, execCoreAmo, if_neg (State.amo_admitted runs filled), State.stepped_coreTarget, target, if_neg (not_not.mpr aligned),
    State.stepped_core]
  exact if_pos ⟨sc, unreserved⟩

theorem exec_coreAmo_hit (reserved : op = 1 → (s.core req).res = some (p.1, secOf p.2)) (serves : s.shelf.Serves p x)
    (idle : s.shelf.waits p = false) (left : s.shelf.evicted p = none) (v : Nat) (ext : List Byte) :
    exec (.coreAmo req addr 4 op v ext) s = .next ((s.stepped req).atomic req p x op v) := by
  have held : ¬ (op = 1 ∧ ((s.stepped req).core req).res ≠ some (p.1, secOf p.2)) := fun h => h.2 (reserved h.1)
  have read := State.atomicRead_hit (s := s.stepped req) serves idle left 4 ext
  have writes (b : List Byte) : ((s.stepped req).used p).atomicWrite req p b = ((s.stepped req).used p).stored req p b :=
    State.atomicWrite_hit (s := (s.stepped req).used p) serves.use b
  simp only [exec, execCoreAmo, if_neg (State.amo_admitted runs filled), State.stepped_coreTarget, target, if_neg (not_not.mpr aligned),
    if_neg held, read, Bool.false_eq_true, if_false, writes, State.atomic, apply_ite Host.Outcome.next, Nat.reduceMul]

end

end

/-! ### FENCE and the cache-block operations (R298, R300) -/

theorem exec_fence {s : State} {req : Nat} (runs : s.coreRuns req = true) (idle : ∀ m ∈ s.shelf.misses, m.req ≠ req) :
    exec (.fence req) s = .next ((s.stepped req).flushGather req) := by
  have waits : (s.shelf.misses.any fun x => x.req == req && (x.load.isSome || x.store.isSome)) = false :=
    List.any_eq_false.mpr fun m hm => by simp [idle m hm]
  simp only [exec, execFence, runs, waits]
  rfl

section
variable {s : State} {req addr : Nat} {p : Place} (runs : s.coreRuns req = true) (ungathered : s.shelf.Ungathered)
include runs ungathered

/-- A cache-block operation on a cacheable sector that no miss and no write-back holds up acts at once. -/
theorem State.cbo_acts {write : Bool} (filled : s.gal.initDone = true) (target : s.coreTarget req (secOf addr) 64 write = .mem p true)
    (idle : s.shelf.waits p = false) (left : s.shelf.evicted p = none) (f : Place → State → Option State) :
    s.cbo req addr write f = .next ((f p (s.stepped req)).getD (s.stepped req)) := by
  have goes : (s.stepped req).cboTarget req addr write = .ok p := by simp only [State.cboTarget, State.stepped_coreTarget, target, if_true]
  simp only [State.cbo, runs, State.galShut_filled filled, goes, State.stepped_shelf, idle, left,
    State.flushAt_none (s := s.stepped req) ungathered]
  rfl

section
variable (filled : s.gal.initDone = true) (target : s.coreTarget req (secOf addr) 64 false = .mem p true) (idle : s.shelf.waits p = false)
  (left : s.shelf.evicted p = none)
include filled target idle left

theorem exec_cboClean : exec (.cboClean req addr) s = .next ((s.stepped req).cleanSector p) :=
  State.cbo_acts runs ungathered filled target idle left fun p s => some (s.cleanSector p)
theorem exec_cboFlush : exec (.cboFlush req addr) s = .next (((s.stepped req).cleanSector p).dropSector p) :=
  State.cbo_acts runs ungathered filled target idle left fun p s => some ((s.cleanSector p).dropSector p)
theorem exec_cboInval : exec (.cboInval req addr) s = .next (((s.stepped req).cleanSector p).dropSector p) :=
  State.cbo_acts runs ungathered filled target idle left fun p s => some ((s.cleanSector p).dropSector p)

end

theorem exec_cboZero {x : Sector} (filled : s.gal.initDone = true) (target : s.coreTarget req (secOf addr) 64 true = .mem p true)
    (idle : s.shelf.waits p = false) (left : s.shelf.evicted p = none) (serves : s.shelf.Serves p x) :
    exec (.cboZero req addr) s = .next ((s.stepped req).stored req p (List.replicate 64 0)) := by
  refine (State.cbo_acts runs ungathered filled target idle left fun p s => s.storeCached req p (List.replicate 64 0) false []).trans ?_
  rw [State.storeCached_hit (s := s.stepped req) serves]
  rfl

end

/-- Settles O45: each access is let in and does what its target says; a sector that the Shelf serves is read and stored in place, and behind the
Shelf only a write-back writes. -/
theorem coreAccesses : Obligations.CoreAccesses := by
  unfold Obligations.CoreAccesses
  intro s req addr n p x runs inside size within filled ungathered
  refine ⟨?pmp, ?load, ?store, ?device, ?uncached, ?hit, fun op v ext target => exec_coreAmo_uncached runs filled target v ext,
    fun idle => ?fence⟩
  case pmp =>
    intro refused core
    refine exec_coreLoad_fault runs filled size within ?_
    simp [State.coreTarget, refused, core]
  case load => exact exec_coreLoad_fault runs filled size within
  case store =>
    rintro data ext rfl target
    exact exec_coreStore_fault runs filled size within target ext
  case device => exact fun r target reads err ext => ⟨_, exec_coreLoad_dev runs filled size within target reads err ext, rfl⟩
  case uncached =>
    intro err ext target
    rw [exec_coreLoad_uncached runs filled size within target, State.loadBack_gallery]
    constructor
    all_goals intro poison; rw [poison]; rfl
  case fence => rw [exec_fence runs idle, State.flushGather_none (s := s.stepped req) ungathered]
  case hit =>
    intro enabled hit sound clean full _ ext
    have serves : (s.stepped req).shelf.Serves p x := ⟨ungathered, enabled, hit, sound, clean⟩
    refine ⟨fun target => ?loads, ?stores, ?atomics, ?blocks, ?zero⟩
    case loads =>
      obtain ⟨t, loaded, core, frame⟩ := State.loadCached_hit (n := n) serves inside ext
      refine ⟨t, ?_, congrArg Core.result core, congrArg Core.faulted core, frame⟩
      rw [exec_coreLoad_cached runs filled size within target, loaded]
      rfl
    case stores =>
      rintro data rfl target
      refine ⟨(s.stepped req).stored req p data, ?_, by simp, by simp, ⟨_, State.stored_sector serves.hit data, Sector.put_dirty .., rfl⟩,
        fun k other => State.stored_ends (s := s.stepped req) other size⟩
      rw [exec_coreStore_cached runs filled size within target, State.storeCached_hit serves]
      rfl
    case atomics =>
      rintro rfl aligned idle left v
      have there : ((s.stepped req).used p).shelf.sector p = some x := serves.use.hit
      refine ⟨fun target => ?lr, fun target => ⟨fun reserved => ?sc, fun unreserved => ?fails, ?amo⟩⟩
      case lr =>
        rw [exec_coreAmo_hit (op := 0) runs filled aligned target nofun serves idle left v ext, State.atomic_lr]
        refine ⟨_, rfl, ?_, ?_, by simp, by simp⟩
        all_goals rw [State.core_give (by simpa using inside)]
        rw [State.core_withCore_self (by exact inside)]
      case sc =>
        rw [exec_coreAmo_hit (op := 1) runs filled aligned target (fun _ => reserved) serves idle left v ext, State.atomic_sc]
        refine ⟨_, rfl, ?_, ?_, ?_⟩
        · rw [State.core_give (by simpa using inside), State.core_withCore_self (by simpa using inside)]
        · rw [State.core_give (by simpa using inside)]
        · rw [State.give_shelf, State.withCore_shelf]
          exact ⟨_, State.stored_sector there _, rfl⟩
      case fails =>
        rw [exec_coreAmo_unreserved (op := 1) runs filled aligned target rfl unreserved v ext]
        refine ⟨_, rfl, ?_, ?_, by simp, by simp⟩
        all_goals rw [State.core_give (by simpa using inside)]
        rw [State.core_withCore_self (by exact inside)]
      case amo =>
        rw [exec_coreAmo_hit (op := 3) runs filled aligned target nofun serves idle left v ext, State.atomic_add]
        refine ⟨_, rfl, ?_, ?_⟩
        · rw [State.core_give (by simpa using inside)]
        · rw [State.give_shelf]
          exact ⟨_, State.stored_sector there _, Sector.put_dirty .., rfl⟩
    case blocks =>
      intro target idle left dirty
      have cleaned := State.cleanSector_hit (s := s.stepped req) hit sound dirty
      have gone := State.sector_dropSector_cleanSector (s := s.stepped req) hit sound dirty
      have memory : (((s.stepped req).cleanSector p).dropSector p).gal = ((s.stepped req).writeBack p.1 (secOf p.2) x).gal := by
        rw [State.dropSector, State.withShelf_gal, cleaned, State.withShelf_gal]
      refine ⟨?_, ⟨_, exec_cboFlush runs ungathered filled target idle left, gone, memory⟩,
        ⟨_, exec_cboInval runs ungathered filled target idle left, gone, memory⟩⟩
      rw [exec_cboClean runs ungathered filled target idle left, cleaned]
    case zero =>
      intro target start idle left
      refine ⟨_, exec_cboZero runs ungathered filled target idle left serves, by simp, _, State.stored_sector serves.hit _, Sector.put_dirty .., ?_⟩
      simp [Sector.put, splice, start, full]

end Sys2Proof.Machine
end

-- The cores and the Shelf: fills, write-backs and drains, and the interrupt controllers.
section
/-!
PROOFS of 13_application_cores.md. Fills of load misses, write-backs, the drain, and CIC_IPI, the doorbells and the machine timer (O46).
-/
namespace Sys2Proof.Machine

/-! ### Fills of load misses (R303, R304) -/

section
variable {s : State} {x : Miss} {n : Nat}

/-- The Gallery's bytes of a sector reach its absent line. -/
theorem State.fetch_gallery {a : Nat} (clean : (s.galReadP (secOf a) 64).2.2 = false) (ext : List Byte) : s.fetch (false, a) ext =
    (s.galReadP (secOf a) 64).1.withShelf fun h => h.fill (false, secOf a) (s.galReadP (secOf a) 64).2.1 [] := by
  have read : s.backRead (false, secOf a) 64 ext = s.galReadP (secOf a) 64 := rfl
  simp only [State.fetch, read, clean]
  rfl

/-- The sector that a fill from the Gallery leaves. -/
abbrev filledSector (b : List Byte) : Sector := { valid := true, dirty := false, data := b, poison := [], err := 0 }

/-- Miss `k` is no longer outstanding. -/
abbrev State.unmissed (s : State) (k : Nat) : State := s.withShelf fun h => { h with misses := h.misses.eraseIdx k }

theorem State.galReadP_unmissed (s : State) (k p n : Nat) : ((s.unmissed k).galReadP p n).2 = (s.galReadP p n).2 :=
  (congrArg Prod.snd (State.galReadP_withFront s (s.unmissed k).shelf s.cores p n) :)

theorem State.fetch_sector {a : Nat} (absent : s.shelf.line (false, a) = none) (clean : (s.galReadP (secOf a) 64).2.2 = false) (ext : List Byte) :
    (s.fetch (false, a) ext).shelf.sector (false, a) = some (filledSector (s.galReadP (secOf a) 64).2.1) := by
  rw [State.fetch_gallery clean, State.withShelf_shelf, State.galReadP_shelf, ← Shelf.sector_secOf]
  exact Shelf.sector_fill ((Shelf.line_secOf ..).trans absent) _ _

theorem State.fetch_misses {a : Nat} (clean : (s.galReadP (secOf a) 64).2.2 = false) (ext : List Byte) :
    (s.fetch (false, a) ext).shelf.misses = s.shelf.misses := by
  rw [State.fetch_gallery clean, State.withShelf_shelf, State.galReadP_shelf, Shelf.fill_misses]

theorem State.fetch_cores {a : Nat} (clean : (s.galReadP (secOf a) 64).2.2 = false) (ext : List Byte) : (s.fetch (false, a) ext).cores = s.cores := by
  rw [State.fetch_gallery clean, State.withShelf_cores, State.galReadP_cores]

theorem exec_shelfMissFill_load {k : Nat} (found : s.shelf.misses[k]? = some x) (gallery : x.host = false) (load : x.load = some n)
    (isOpen : s.galOpen = true) (enabled : s.shelf.state = .enabled) (absent : s.shelf.line (false, x.addr) = none)
    (left : s.shelf.evicted (false, x.addr) = none) (room : s.shelf.evict.length < 8) (clean : (s.galReadP (secOf x.addr) 64).2.2 = false)
    (ext : List Byte) : exec (.shelfMissFill k ext) s = .next ((((s.unmissed k).fetch (false, x.addr) ext).used (false, x.addr)).give x.req
      ((filledSector (s.galReadP (secOf x.addr) 64).2.1).word (false, x.addr) n)) := by
  have back : s.backOpen false = true := isOpen
  have missing : (s.unmissed k).shelf.sector (false, x.addr) = none := Shelf.sector_of_line_none absent
  have unheld : (s.unmissed k).shelf.evicted (false, x.addr) = none := left
  have on : ((s.unmissed k).shelf.state == .enabled) = true := by simp [enabled]
  have unchecked : (s.unmissed k).shelfEcc (false, x.addr) = (s.unmissed k, false) := State.shelfEcc_absent (Shelf.heldSector_of_absent absent left)
  have allocates : (s.unmissed k).shelf.canAlloc (false, x.addr) = true := by simp [Shelf.canAlloc, room]
  have read := State.galReadP_unmissed s k (secOf x.addr) 64
  have filled := State.fetch_sector (s := s.unmissed k) absent (by rw [read]; exact clean) ext
  rw [read] at filled
  simp only [exec, execShelfMissFill, found, gallery, back, unchecked, missing, unheld, on, allocates, load,
    Option.isSome_none, Option.isNone_none, Bool.or_false, Bool.not_true, Bool.and_false, Bool.false_eq_true, if_false, filled, State.loadHit_clean]

end

/-! ### Write-backs (R307) -/

section
variable {s : State} {k : Nat} {e : EvEntry} (found : s.shelf.evict[k]? = some e) (ext : List Byte)
include found

theorem exec_evictionWriteback_issue : exec (.evictionWritebackDone k true ext) s =
    .next (s.withShelf fun h => { h with evict := upd h.evict k fun e => { e with issued := true } }) := by
  simp only [exec, execEvictionWritebackDone, found]
  rfl

/-- An entry that took no write meanwhile is gone once its line is written back. -/
theorem exec_evictionWriteback_done (issued : e.issued = true) (isOpen : s.backOpen e.host = true) (merged : e.merged = false) (held : e.held = []) :
    exec (.evictionWritebackDone k false ext) s =
      .next ((s.cleanLine e.host e.addr).withShelf fun h => { h with evict := h.evict.eraseIdx k }) := by
  simp only [exec, execEvictionWritebackDone, found, issued, isOpen, merged, held]
  rfl

end

/-! ### Disabling the Shelf (R309) -/

section
variable (s : State)

theorem State.writeBack_engine (host : Bool) (a : Nat) (x : Sector) : (s.writeBack host a x).engine = s.engine :=
  (State.writeBack_keeps (v := State.engine) s (fun _ _ => rfl) host a x).trans (State.backWrite_engine s _ _)

theorem State.cleanSector_engine (p : Place) : (s.cleanSector p).engine = s.engine := by
  unfold State.cleanSector
  split
  · split
    · rfl
    · exact (State.writeBack_engine _ _ _ _).trans (State.shelfEcc_engine s p)
  · rfl

theorem State.cleanLine_engine (host : Bool) (a : Nat) : (s.cleanLine host a).engine = s.engine :=
  foldl_keeps (p := State.engine) (f := fun t i => t.cleanSector (host, a + 64 * i)) (fun t _ => State.cleanSector_engine t _) _ s

/-- An evicted line in memory, with the writes that waited for it. -/
def State.evictedOut (s : State) (e : EvEntry) : State := e.held.foldl (fun s w => s.backWrite (e.host, w.1) w.2) (s.cleanLine e.host e.addr)
/-- Every gathered sector in memory. -/
def State.gathersOut (s : State) : State := (List.range 9).foldl (fun s k => s.flushGather k) s

theorem State.evictedOut_engine (e : EvEntry) : (s.evictedOut e).engine = s.engine :=
  (foldl_keeps (p := State.engine) (f := fun t (w : Nat × List Byte) => t.backWrite (e.host, w.1) w.2)
    (fun t _ => State.backWrite_engine t _ _) _ _).trans (State.cleanLine_engine s e.host e.addr)

theorem State.gathersOut_engine : s.gathersOut.engine = s.engine :=
  foldl_keeps (p := State.engine) (f := fun t k => t.flushGather k) (fun t k => State.flushGather_engine t k) _ s

/-- The gathered sectors and the evicted lines in memory. -/
def State.evictedAllOut (s : State) : State := s.gathersOut.shelf.evict.foldl (fun s e => s.evictedOut e) s.gathersOut
/-- All that the Shelf holds for memory in memory, as the drain's end leaves it. -/
def State.shelfOut (s : State) : State := s.evictedAllOut.shelf.lines.foldl (fun s l => s.cleanLine l.host l.addr) s.evictedAllOut

theorem State.shelfOut_engine : s.shelfOut.engine = s.engine :=
  calc s.shelfOut.engine
      = s.evictedAllOut.engine :=
        foldl_keeps (p := State.engine) (f := fun t (l : Line) => t.cleanLine l.host l.addr) (fun t l => State.cleanLine_engine t l.host l.addr) _ _
    _ = s.gathersOut.engine := foldl_keeps (p := State.engine) (f := fun t e => t.evictedOut e) (fun t e => State.evictedOut_engine t e) _ _
    _ = s.engine := s.gathersOut_engine

variable {s}

theorem exec_shelfDrainDone (draining : s.shelf.state = .draining) (stored : ∀ x ∈ s.shelf.misses, x.store = none) :
    exec .shelfDrainDone s = .next (s.shelfOut.withShelf fun h => { h with state := .disabled, lines := [], plru := [], evict := [] }) := by
  have ends : (decide (s.shelf.state ≠ .draining) || s.shelf.misses.any fun x => x.store.isSome) = false := by simpa [draining] using stored
  simp only [exec, execShelfDrainDone, ends, Bool.false_eq_true, if_false, State.shelfOut, State.evictedAllOut, State.evictedOut, State.gathersOut]

end

/-! ### The interrupt controllers (R311 to R313) -/

section
variable {s : State} {k : Nat}

theorem cic_withCic_self {f : Cic → Cic} (inside : k < s.cic.length) : (s.withCic k f).cic.getD k {} = f (s.cic.getD k {}) := upd_getD_self inside
theorem cic_withCic_ne {j : Nat} {f : Cic → Cic} (other : j ≠ k) : (s.withCic j f).cic.getD k {} = s.cic.getD k {} := upd_getD_ne other

/-- A block whose IPI bit is set. -/
def Cic.withIpi (c : Cic) : Cic := { c with pending := c.pending ||| 8 }
/-- A block with context changes in its doorbell. -/
def Cic.rung (c : Cic) (v : Nat) : Cic := { c with doorbell := c.doorbell ||| fld v 0 24 }

/-- The IPI bit of the first `n` blocks that `v` names is set. -/
def State.ipis (s : State) (v n : Nat) : State :=
  (List.range n).foldl (fun s k => if bitAt v k then s.withCic k Cic.withIpi else s) s

theorem State.ipis_succ (v n : Nat) : s.ipis v (n + 1) = if bitAt v n then (s.ipis v n).withCic n Cic.withIpi else s.ipis v n := by
  simp [State.ipis, List.range_succ]

theorem State.ipis_keeps (v n : Nat) : (s.ipis v n).cores = s.cores ∧ (s.ipis v n).cic.length = s.cic.length := by
  induction n with
  | zero => exact ⟨rfl, rfl⟩
  | succ n ih =>
    rw [State.ipis_succ]
    split
    · simpa using ih
    · exact ih

theorem State.ipis_cic (v : Nat) {n : Nat} (inside : n ≤ s.cic.length) : (s.ipis v n).cic.getD k {} =
    if k < n ∧ bitAt v k = true then (s.cic.getD k {}).withIpi else s.cic.getD k {} := by
  induction n with
  | zero => simp [State.ipis]
  | succ n ih =>
    rw [State.ipis_succ]
    by_cases here : n = k
    · subst here
      have before : (s.ipis v n).cic.getD n {} = s.cic.getD n {} := by rw [ih (by omega)]; simp
      simp only [Nat.lt_succ_self, true_and]
      split
      · rw [cic_withCic_self (by rw [(s.ipis_keeps v n).2]; omega), before]
      · exact before
    · have same : k < n + 1 ↔ k < n := by omega
      simp only [same, ← ih (by omega)]
      split
      · exact cic_withCic_ne here
      · rfl

theorem exec_cicIpi {req : Nat} (block : req < 9) (v : Nat) : exec (.cicIpi req v) s = .next (s.ipis v 9) := by
  have reaches : mayRead req (.cicIpi req) = true := by
    have core : req ≠ 9 := by omega
    simp [mayRead, core, isWindow, mpOnly]
  simp only [exec, execCicIpi, State.writeReg, reaches, State.writeCic, if_true]
  rfl

theorem exec_doorbell {h : Nat} (core : h < 8) (v : Nat) : exec (.doorbell h v) s = .next (s.withCic h fun c => c.rung v) := by
  have reaches : mayRead 8 (.cicDoorbell h) = true := rfl
  simp only [exec, execDoorbell, State.writeReg, reaches, State.writeCic, core, and_self, if_true]
  rfl

/-- A doorbell that rings shows as a source. -/
theorem Cic.pendingWord_rung {c : Cic} (rung : c.doorbell ≠ 0) : c.pendingWord = c.pending + 4 := by simp [Cic.pendingWord, rung, bit]

end

/-- Settles O46: the fill puts the Gallery's bytes into a new line, the drain's end reaches no Geode, and the blocks of the controllers are updated
one by one. -/
theorem shelfAndInterrupts : Obligations.ShelfAndInterrupts := by
  unfold Obligations.ShelfAndInterrupts
  refine ⟨fun s k => ⟨?fill, ?back, ?disable, ?enable, ?fresh, ?drain⟩, fun s blocks => ⟨?ipi, ?doorbell, fun h => rfl⟩⟩
  case fill =>
    intro x n ext found gallery load inside isOpen enabled absent left room _ _ clean
    have read := State.galReadP_unmissed s k (secOf x.addr) 64
    have clean' : ((s.unmissed k).galReadP (secOf x.addr) 64).2.2 = false := by rw [read]; exact clean
    have core := State.core_give (s := ((s.unmissed k).fetch (false, x.addr) ext).used (false, x.addr)) (req := x.req)
      (by rw [State.withShelf_cores, State.fetch_cores clean']; exact inside)
      ((filledSector (s.galReadP (secOf x.addr) 64).2.1).word (false, x.addr) n)
    refine ⟨_, exec_shelfMissFill_load found gallery load isOpen enabled absent left room clean ext, ?_, ?_, ?_, ?_⟩
    · rw [State.give_shelf, State.withShelf_shelf, Shelf.use_misses, State.fetch_misses clean']
      rfl
    · rw [core]
    · rw [core]
    · rw [State.give_shelf, State.withShelf_shelf, Shelf.use_sector, State.fetch_sector (s := s.unmissed k) absent clean', read]
      exact ⟨_, rfl, rfl, rfl⟩
  case back =>
    intro e ext found
    refine ⟨⟨_, exec_evictionWriteback_issue found ext, ?_, by simp⟩, exec_evictionWriteback_done found ext⟩
    simp [upd, found]
  case disable => exact fun state => by simp [exec, execShelfDisable, State.withShelf, Shelf.setEn, state]
  case enable => exact fun state => by simp [exec, execShelfEnable, State.withShelf, Shelf.setEn, state]
  case fresh => exact fun state => by simp [exec, execShelfEnable, State.withShelf, Shelf.setEn, state]
  case drain =>
    intro draining stored
    exact ⟨_, exec_shelfDrainDone draining stored, rfl, rfl, rfl, (State.withShelf_geodes _ _).trans (State.geodes_of_engine s.shelfOut_engine)⟩
  case ipi =>
    intro req v block
    refine ⟨_, exec_cicIpi block v, (s.ipis_keeps v 9).1, fun k inside => ?_⟩
    rw [State.ipis_cic v (by omega)]
    simp only [inside, true_and]
    rfl
  case doorbell =>
    intro h v core
    have rung : (s.withCic h fun c => c.rung v).cic.getD h {} = (s.cic.getD h {}).rung v := cic_withCic_self (by omega)
    refine ⟨_, exec_doorbell core v, ?_, ?_, fun k other => cic_withCic_ne other.symm, fun named => ?_⟩
    · rw [rung]; rfl
    · rw [rung]; rfl
    · refine (congrArg Cic.pendingWord rung).trans (Cic.pendingWord_rung ?_)
      exact fun silent => named (Nat.or_eq_zero_iff.mp silent).2

end Sys2Proof.Machine
end

-- Flint: the parameters and the logs.
section
/-!
PROOFS of 14_flint_metrology.md. MET_READ, MET_LOG_READ, MET_LOG_ACK and MET_PARAM_SET (R331 to R334, R340, R341).
-/
namespace Sys2Proof.Machine

/-! ### The body of a relayed command -/

theorem State.metTaken_fl (s : State) (m : Nat) (c : Cmd) : (s.metTaken m c).fl = { s.fl with kmCtr := c.metCtr.toNat } := rfl

/-- The first word of a body is the command's word 0. -/
theorem Cmd.metBody_getD_zero {c : Cmd} (h : c.metBody ≠ []) : c.metBody.getD 0 0 = c.word 0 := by
  unfold Cmd.metBody Cmd.word at *
  cases words : c.words with
  | nil => simp [words] at h
  | cons x l => cases k : (x :: l).length - 5 <;> simp_all

theorem leWords_length (k : Nat) (b : List Byte) : (leWords k b).length = k := by
  induction k generalizing b with
  | zero => rfl
  | succ k ih => simp [leWords, ih]

/-! ### MET_READ and MET_LOG_READ -/

theorem metRead_latest {s : State} {b : List Nat} {r : Nat × List Byte} (sel : fld (b.getD 0 0) 0 2 = 0) (last : s.fl.records.getLast? = some r) :
    metRead b s = .ok (s, leWords 32 r.2) := by
  unfold metRead
  rw [metNeed_bind (by rw [sel]; rfl)]
  simp only [sel, if_true, last]
  rfl

/-- What MET_LOG_READ answers for a number: the entry's eight words, or zeros where it is held no longer. -/
def auditSlot : Option Audit → List W32
  | some a => leWords 8 a.bytes
  | none => List.replicate 8 0

theorem auditSlot_length (x : Option Audit) : (auditSlot x).length = 8 := by
  cases x with
  | none => rfl
  | some a => exact leWords_length 8 _

theorem auditSlots_length (l : List (Option Audit)) : (l.flatMap auditSlot).length = 8 * l.length := by
  simp [List.length_flatMap, auditSlot_length, Nat.mul_comm]

/-- The entries from number `q` on. -/
def Flint.auditFrom (f : Flint) (q k : Nat) : List (Option Audit) := (range' q k).map fun i => f.audit.find? fun a => a.seq == i

/-- Flint once those entries have been read. -/
def Flint.logRead (f : Flint) (q k : Nat) : Flint :=
  { f with readSeqs := ((f.auditFrom q k).filterMap fun x => x.map fun a => a.seq).foldl (fun l i => insNat i l) f.readSeqs }

theorem metLogRead_held {s : State} {q k : Nat} (first : 1 ≤ q) (held : s.fl.auditNext ≤ q + 4096) (some' : 1 ≤ k) (most : k ≤ 6) :
    metLogRead [q, k] s = .ok (s.withFl fun f => f.logRead q k,
      w32 ((s.fl.auditFrom q k).filter fun x => x.isSome).length :: (s.fl.auditFrom q k).flatMap auditSlot) := by
  unfold metLogRead
  rw [metNeed_bind (by simp [first, held]), metNeed_bind (by simp [some', most])]
  rfl

theorem mem_insNat {a x : Nat} {l : List Nat} : x ∈ insNat a l ↔ x = a ∨ x ∈ l := by
  induction l with
  | nil => simp [insNat]
  | cons k t ih =>
    unfold insNat
    split
    · next same => simp [same]
    · split
      · simp
      · simp only [List.mem_cons, ih]
        tauto

theorem mem_foldl_insNat {x : Nat} {new l : List Nat} : x ∈ new.foldl (fun l i => insNat i l) l ↔ x ∈ new ∨ x ∈ l := by
  induction new generalizing l with
  | nil => simp
  | cons a t ih =>
    simp only [List.foldl_cons, ih, mem_insNat, List.mem_cons]
    tauto

theorem Flint.readSeqs_logRead {f : Flint} {q k j : Nat} (h : j ∈ f.readSeqs) : j ∈ (f.logRead q k).readSeqs := mem_foldl_insNat.mpr (.inr h)

/-- Every entry held in the range that is read counts as read. -/
theorem Flint.held_logRead {f : Flint} {q k : Nat} {a : Audit} (held : a ∈ f.audit) (from' : q ≤ a.seq) (below : a.seq < q + k) :
    a.seq ∈ (f.logRead q k).readSeqs := by
  obtain ⟨e, found⟩ : ∃ e, f.audit.find? (fun x => x.seq == a.seq) = some e :=
    Option.isSome_iff_exists.mp (List.find?_isSome.mpr ⟨a, held, by simp⟩)
  have seq : e.seq = a.seq := by simpa using List.find?_some found
  refine mem_foldl_insNat.mpr (.inl ?_)
  simp only [Flint.auditFrom, List.mem_filterMap, List.mem_map, range', List.mem_range]
  refine ⟨some e, ⟨a.seq, ⟨a.seq - q, by omega, by omega⟩, found⟩, by simp [seq]⟩

/-- The first entry read is the one that was asked for. -/
theorem Flint.auditFrom_first {f : Flint} {q k : Nat} {a : Audit} (found : f.audit.find? (fun x => x.seq == q) = some a) (some' : 1 ≤ k) :
    ((f.auditFrom q k).flatMap auditSlot).take 8 = leWords 8 a.bytes := by
  obtain ⟨j, rfl⟩ : ∃ j, k = j + 1 := ⟨k - 1, by omega⟩
  simp only [Flint.auditFrom, range', List.range_succ_eq_map, List.map_cons, Nat.add_zero, found, List.flatMap_cons]
  exact List.take_left' (auditSlot_length (some a))

theorem Flint.auditFrom_length (f : Flint) (q k : Nat) : (f.auditFrom q k).length = k := by simp [Flint.auditFrom, range']

theorem metLogAck_read {s : State} {q : Nat} {b : List Nat} (seen : q ∈ s.fl.readSeqs) (plain : s.fl.invasive = false) :
    metLogAck (q :: b) s = .ok (s.withFl fun f => { f with acked := max f.acked q, readSeqs := f.readSeqs.filter fun j => decide (q < j) },
      [w32 (s.fl.auditNext - 1 - max s.fl.acked q)]) := by
  unfold metLogAck
  rw [metNeed_bind (by simp [seen]), metNeed_bind (by simp [plain])]
  rfl

/-! ### MET_PARAM_SET -/

section
variable {s : State} {w : Nat} {vals : List Nat} (words : paramWords (fld w 0 16) = some vals.length) (count : fld w 16 4 = vals.length)
  (alone : paramAlone (fld w 0 16) vals = true) (conf : s.fl.p.conf = true) (legal : (s.fl.p.put (fld w 0 16) vals).legal = true)
include words count alone conf legal

theorem metParamSet_stored (open' : s.fl.calEn = true) (plain : s.fl.invasive = false) (room : s.fl.full = false) :
    metParamSet (w :: vals) s = .ok ((s.withFl fun f => { f with p := f.p.put (fld w 0 16) vals, dirty := true }).change 1 vals.length (fld w 0 16)
      (if vals.length = 1 then vals.getD 0 0 else (crc32c (wordsBytes (vals.map w32))).toNat), [w32 (s.fl.events + 1)]) := by
  unfold metParamSet
  simp only [List.getD_cons_zero, List.drop_succ_cons, List.drop_zero, count, words, conf]
  rw [metNeed_bind (by simp [alone]), metNeed_bind (by simp [legal]), metNeed_bind open', metNeed_bind (by simp [plain]), metNeed_bind (by simp [room])]
  rfl

theorem metParamSet_sealed (shut : s.fl.calEn = false) : metParamSet (w :: vals) s = .error eSealed := by
  unfold metParamSet
  simp only [List.getD_cons_zero, List.drop_succ_cons, List.drop_zero, count, words, conf]
  rw [metNeed_bind (by simp [alone]), metNeed_bind (by simp [legal]), shut]
  rfl

omit count alone conf legal in
/-- A parameter of R332 is none of the identifiers that TARE, ZERO and KEY_GENERATION take. -/
theorem paramWords_other : [0x0100, 0x0101, 0x0102].contains (fld w 0 16) = false := by
  simp only [List.contains_cons, List.contains_nil, Bool.or_false, Bool.or_eq_false_iff, beq_eq_false_iff_ne]
  refine ⟨?_, ?_, ?_⟩ <;> (intro same; rw [same] at words; cases words)
end

/-- Settles O22: the relayed command's body answers as R331 to R334, R340 and R341 say, or its tag is refused. -/
theorem metrologyParameters : Obligations.MetrologyParameters := by
  unfold Obligations.MetrologyParameters
  refine ⟨fun s m tag c b => ⟨?read, ?auth, ?log, ?ack⟩, fun s m tag w vals c ready body id words count alone conf legal _ => ⟨?stored, ?sealed⟩⟩
  case read => exact fun r ready sel last => State.metRun_ok ready rfl (metRead_latest sel last)
  case auth =>
    intro taken mp start granted runs refused
    simp [exec, execMetRead, State.metRun, taken, mp, start, granted, runs, refused]
    rfl
  case log =>
    intro q k ready body first held some' most
    have answered := State.metRun_ok (sel := fun _ => true) (body := metLogRead) ready rfl
      (by rw [body]; exact metLogRead_held (s := s.metTaken m c) first held some' most)
    refine ⟨_, _, answered, ?_, fun a found => ?_, rfl, rfl, fun j seen => ?_, fun a held from' below => ?_⟩
    · rw [List.length_cons, auditSlots_length, Flint.auditFrom_length, Nat.add_comm]
    · exact Flint.auditFrom_first (f := s.fl) found some'
    · exact Flint.readSeqs_logRead (f := s.fl) seen
    · exact Flint.held_logRead (f := s.fl) held from' below
  case ack => exact fun q ready body seen plain => State.metRun_ok ready rfl (by rw [body]; exact metLogAck_read seen plain)
  all_goals have other : (!([0x0100, 0x0101, 0x0102].contains (paramId c))) = true := by rw [id, paramWords_other words]; rfl
  case stored =>
    exact fun open' plain room => State.metRun_ok ready other (by rw [body]; exact metParamSet_stored words count alone conf legal open' plain room)
  case sealed => exact fun shut => State.metRun_refused ready other (by rw [body]; exact metParamSet_sealed words count alone conf legal shut)

end Sys2Proof.Machine
end

-- Flint: weighing commands and the calibration.
section
/-!
PROOFS of 14_flint_metrology.md. TARE, ZERO, KEY_GENERATION and the steps of a calibration (R321, R322, R335, R336, R343).
-/
namespace Sys2Proof.Machine

/-! ### TARE, ZERO and KEY_GENERATION -/

section
variable {s : State} {w x : Nat} (count : fld w 16 4 = 2) (ready : s.fl.calibrated = true) (limit : s.fl.p.tareLimit ≠ 0)
include count ready limit

theorem metTare_clears : metTare [w, 0, x] s = .ok (s.withFl fun f => { f with tare := 0, preset := false, dirty := true }, [w32 s.fl.events]) := by
  unfold metTare
  rw [metNeed_bind ready, metNeed_bind (by simp [count]), metNeed_bind (by simp [limit]), metNeed_bind (by simp), metNeed_bind (by simp), metNeed_bind (by simp)]
  rfl

theorem metTare_takes (steady : s.fl.steady = true) (load : 0 < s.fl.G) (most : s.fl.G ≤ s.fl.p.tareLimit) : metTare [w, 1, x] s =
    .ok (s.withFl fun f => { f with tare := roundTo f.G f.p.d, preset := false, dirty := true }, [w32 s.fl.events]) := by
  unfold metTare
  rw [metNeed_bind ready, metNeed_bind (by simp [count]), metNeed_bind (by simp [limit]), metNeed_bind (by simp), metNeed_bind (by simp [steady]),
    metNeed_bind (by simp [load, most])]
  rfl

theorem metTare_presets (some' : x ≠ 0) (whole : x % s.fl.p.d = 0) (most : x ≤ s.fl.p.tareLimit) : metTare [w, 2, x] s =
    .ok (s.withFl fun f => { f with tare := (x : Nat), preset := true, dirty := true }, [w32 s.fl.events]) := by
  unfold metTare
  rw [metNeed_bind ready, metNeed_bind (by simp [count]), metNeed_bind (by simp [limit]), metNeed_bind (by simp [some', whole, most]), metNeed_bind (by simp),
    metNeed_bind (by simp)]
  rfl
end

theorem metZero_pends {s : State} {w : Nat} (count : fld w 16 4 = 1) (ready : s.fl.calibrated = true) (steady : s.fl.steady = true)
    (near : |s.fl.u * 2 ^ 32 - s.fl.z0| * 1000 ≤ ((s.fl.p.max * s.fl.p.zeroSet * 2 ^ 32 : Nat) : Int)) :
    metZero [w, 1] s = .ok (s.withFl fun f => { f with zPend := some (f.u * 2 ^ 32), dirty := true }, [w32 s.fl.events]) := by
  unfold metZero
  rw [metNeed_bind ready, metNeed_bind (by simp [count]), metNeed_bind steady, metNeed_bind (decide_eq_true near)]
  rfl

theorem metKeyGeneration_next {s : State} {w : Nat} (count : fld w 16 4 = 1) (plain : s.fl.invasive = false) :
    metKeyGeneration [w, (s.fl.kmGen + 1) % 2 ^ 32] s = .ok (s.withFl fun f => { f with kmGen := f.kmGen + 1, kmCtr := 0 }, [w32 s.fl.events]) := by
  unfold metKeyGeneration
  rw [metNeed_bind (by simp [count]), metNeed_bind (by simp [plain])]
  rfl

/-! ### The steps of a calibration -/

section
variable {s : State} {b : List Nat} {pts : List (Nat × Int × Int)} (channel : fld (b.getD 0 0) 2 3 ≤ 4)
include channel

theorem calFields_sealed (step : fld (b.getD 0 0) 0 2 ≠ 1) (shut : s.fl.calEn = false) : calFields b s = .error eSealed := by
  unfold calFields
  rw [metNeed_bind (by rw [decide_eq_true channel, bne_iff_ne.mpr step]; rfl), shut]
  rfl

theorem calFields_ok (load : fld (b.getD 0 0) 0 2 = 1 → -2000000000 ≤ signed 32 (b.getD 1 0) ∧ signed 32 (b.getD 1 0) ≤ 2000000000)
    (open' : s.fl.calEn = true) : calFields b s = .ok () := by
  unfold calFields
  rw [metNeed_bind, open']
  · rfl
  by_cases step : fld (b.getD 0 0) 0 2 = 1
  · obtain ⟨low, high⟩ := load step
    simp only [channel, step, low, high]
    rfl
  · rw [decide_eq_true channel, bne_iff_ne.mpr step]
    rfl
end

theorem ok_bind {ε α β : Type} {x : Except ε α} {a : α} {f : α → Except ε β} (h : x = .ok a) : (x >>= f) = f a := by rw [h]; rfl

theorem insPoint_length (p : Int × Int) (l : List (Int × Int)) : (insPoint p l).length = l.length + 1 := by
  induction l with
  | nil => rfl
  | cons x t ih =>
    unfold insPoint
    split <;> simp [ih]

theorem foldl_insPoint_length {α : Type} (pts : List (α × Int × Int)) (l : List (Int × Int)) :
    (pts.foldl (fun l x => insPoint x.2 l) l).length = pts.length + l.length := by
  induction pts generalizing l with
  | nil => simp
  | cons x t ih =>
    rw [List.foldl_cons, ih, insPoint_length, List.length_cons]
    omega

section
variable {s : State} {b : List Nat} {pts : List (Nat × Int × Int)} (fields : calFields b s = .ok ())
include fields

theorem metCalStart_opens (conf : s.fl.p.conf = true) (closed : s.fl.cal = none) :
    metCalStart b s = .ok (s.withFl fun f => { f with cal := some [] }, [0, 0, w32 s.fl.events]) := by
  unfold metCalStart
  rw [ok_bind fields, metNeed_bind (by simp [conf, closed])]
  rfl

variable (opened : s.fl.cal = some pts)
include opened

theorem metCalCapture_stores (steady : s.fl.steady = true) :
    let win := s.fl.win.take (s.fl.windowLen s.fl.use.p.time)
    let p := rneDiv ((win.map fun w => w.2).sum) (max win.length 1)
    let pts' := setKey pts (fld (b.getD 0 0) 2 3) (p, signed 32 (b.getD 1 0))
    metCalCapture b s = .ok (s.withFl fun f => { f with cal := some pts' }, [w32 pts'.length, BitVec.ofInt 32 p, w32 s.fl.events]) := by
  unfold metCalCapture
  rw [ok_bind fields]
  simp only [opened]
  rw [metNeed_bind steady]
  rfl

/-- The state in which the curve is stored: one event more, with its audit entry. -/
def State.calibratedBy (s : State) (curve : List (Int × Int)) (volts : Nat) : State :=
  (s.withFl fun f => { f with curve := curve, sense := volts, cal := none, dirty := true, zClear := true, zPend := none }).change 2 0 curve.length
    (crc32c (wordsBytes (curveWords curve))).toNat

theorem metCalCommit_stores (volts : Nat) (enough : 2 ≤ pts.length) (plain : s.fl.invasive = false) (room : s.fl.full = false)
    (rises : rising (pts.foldl (fun l x => insPoint x.2 l) []) = true) :
    metCalCommit volts b s = .ok (s.calibratedBy (pts.foldl (fun l x => insPoint x.2 l) []) volts, [w32 pts.length, 0, w32 (s.fl.events + 1)]) := by
  unfold metCalCommit
  rw [ok_bind fields]
  simp only [opened]
  rw [metNeed_bind (by simp [enough, plain]), metNeed_bind rises, metNeed_bind (by simp [room])]
  have words : calWords (pts.foldl (fun l x => insPoint x.2 l) []).length 0 (s.calibratedBy (pts.foldl (fun l x => insPoint x.2 l) []) volts) =
      [w32 pts.length, 0, w32 (s.fl.events + 1)] := by
    rw [foldl_insPoint_length]
    rfl
  exact congrArg (fun ws => Except.ok (_, ws)) words

theorem metCalAbort_discards : metCalAbort b s = .ok (s.withFl fun f => { f with cal := none }, [w32 pts.length, 0, w32 s.fl.events]) := by
  unfold metCalAbort
  rw [ok_bind fields]
  simp only [opened]
  rfl
end

/-- Settles O23: each body answers as R321, R322, R335, R336 and R343 say. -/
theorem weighingAndCalibration : Obligations.WeighingAndCalibration := by
  unfold Obligations.WeighingAndCalibration
  refine ⟨fun s m tag w x c ready => ⟨?tare, ?zero, ?key⟩, fun s m tag volts c pts ready some' channel => ?cal⟩
  case tare =>
    intro id count usable limit
    have run {t : State} {ws : List W32} := State.metRun_ok (sel := fun c => paramId c == 0x0100) (body := metTare) (t := t) (ws := ws) ready (by simp [id])
    refine ⟨fun body => ?_, fun body steady load most => ?_, fun body some' whole most => ?_⟩
    · exact run (by rw [body]; exact metTare_clears count usable limit)
    · exact run (by rw [body]; exact metTare_takes count usable limit steady load most)
    · exact run (by rw [body]; exact metTare_presets count usable limit some' whole most)
  case zero =>
    exact fun id body count usable steady near => State.metRun_ok ready (by simp [id]) (by rw [body]; exact metZero_pends count usable steady near)
  case key => exact fun id body count plain => State.metRun_ok ready (by simp [id]) (by rw [body]; exact metKeyGeneration_next (s := s.metTaken m c) count plain)
  case cal =>
    have word : fld (c.metBody.getD 0 0) 0 2 = calStep c := by rw [Cmd.metBody_getD_zero some']; rfl
    have fields (step : calStep c ≠ 1) (open' : s.fl.calEn = true) : calFields c.metBody (s.metTaken m c) = .ok () :=
      calFields_ok channel (fun same => absurd (word ▸ same) step) open'
    refine ⟨?start, ?sealed, ?capture, ?commit, ?abort⟩
    case start =>
      exact fun open' step conf closed => State.metRun_ok ready (by simp [step]) (metCalStart_opens (fields (by omega) open') conf closed)
    case sealed =>
      intro shut step
      have refused : calFields c.metBody (s.metTaken m c) = .error eSealed := calFields_sealed channel (by omega) shut
      exact State.metRun_refused ready (by simp [step]) (by unfold metCalStart; rw [refused]; rfl)
    case capture =>
      exact fun open' step opened steady low high => State.metRun_ok ready (by simp [step])
        (metCalCapture_stores (calFields_ok channel (fun _ => ⟨low, high⟩) open') opened steady)
    case commit =>
      intro open' step opened enough plain room rises
      exact ⟨_, State.metRun_ok ready (by simp [step]) (metCalCommit_stores (fields (by omega) open') opened volts enough plain room rises),
        rfl, rfl, rfl, rfl, rfl, rfl, rfl⟩
    case abort =>
      exact fun open' step opened => State.metRun_ok ready (by simp [step]) (metCalAbort_discards (fields (by omega) open') opened)

end Sys2Proof.Machine
end

-- Flint: the security messages.
section
/-!
PROOFS of 18_security_and_debug.md. Authorisation data, ADVANCE, FLOOR, SIGN and FIRMWARE at Flint (R422, R425 to R430).
-/
namespace Sys2Proof.Machine

/-! ### The lifecycle transition (R423, R425 to R427) -/

/-- The transitions of R425 lead to DEVELOP, PROVISIONED, SEALED or RETIRED. -/
theorem lifePayload_target {lc tgt p : Nat} (h : lifePayload lc tgt = some p) : tgt = 1 ∨ tgt = 2 ∨ tgt = 3 ∨ tgt = 4 := by
  unfold lifePayload at h
  split at h <;> simp_all

/-- Three copies of a state's stored form agree on it. -/
theorem Flint.lifecycle_of_copies {f : Flint} {tgt : Nat} (h : tgt = 1 ∨ tgt = 2 ∨ tgt = 3 ∨ tgt = 4)
    (copies : f.life = List.replicate 3 (tgt + (7 - tgt) * 2 ^ 8)) : f.lifecycle = tgt := by
  unfold Flint.lifecycle
  rw [copies]
  obtain rfl | rfl | rfl | rfl := h <;> rfl

/-- What a transition that Flint makes leaves: the answer, one audit entry more, the same curve and three copies of the new state. -/
theorem advance_made (tgt len : Nat) (sigOk certOk : Bool) (s : State) :
    Grants (fun r => r.1.fl.lifecycle = tgt ∧ r.2 = [w32 tgt] ∧ r.1.fl.auditNext = s.fl.auditNext + 1 ∧ r.1.fl.curve = s.fl.curve)
      (advance tgt len sigOk certOk s) := by
  unfold advance
  cases found : lifePayload s.fl.lifecycle tgt with
  | none =>
    simp only [found]
    trivial
  | some p =>
    simp only [found, Grants.bind_iff, Grants.metNeed_iff, Grants.pure_iff]
    intros
    exact ⟨Flint.lifecycle_of_copies (lifePayload_target found) rfl, trivial, rfl, rfl⟩

theorem exec_debugMsgAdvance {s t : State} {tgt len : Nat} {ws : List W32} (runs : s.fl.runs = true) (tgtLow : tgt < 8) (lenLow : len < 2 ^ 32)
    (made : advance tgt len true true (s.takeFlint 0xF6 [6, w32 tgt, w32 len]) = .ok (t, ws)) :
    exec (.debugMsgAdvance [6, w32 tgt, w32 len] true true) s = .next (t.dbgSay 6 sOk ws) := by
  have target : ([6, w32 tgt, w32 len].getD 1 0).toNat = tgt := w32_toNat (by omega)
  have length : ([6, w32 tgt, w32 len].getD 2 0).toNat = len := w32_toNat lenLow
  simp only [exec, execDebugMsgAdvance, State.dbgMsg_taken runs, target, length, made, State.dbgEnd]

/-! ### Authorisation data, the floor, signatures and image data -/

theorem exec_debugMsgChunk {s : State} {body : List W32} (runs : s.fl.runs = true) (fits : (debugChunk body).1 + (debugChunk body).2.length ≤ 4096) :
    exec (.debugMsgChunk body) s = .next ((s.takeFlint 0xF6 body).withFl fun f =>
      { f with auth := f.auth.writeN (debugChunk body).1 (debugChunk body).2 }) := by
  simp only [exec, execDebugMsgChunk, State.dbgMsg_taken runs, if_pos fits]

/-- The state in which Flint has raised the MP floor to that of the header in a FLOOR message. -/
def State.floored (s : State) (body : List W32) : State :=
  (s.takeFlint 0xF6 body).withFl fun f => { f with floor := max f.floor (byteFld (wordsBytes ((body.drop 1).take 32)) 12 4) }

theorem exec_debugMsgFloor {s : State} {body : List W32} (runs : s.fl.runs = true)
    (form : imageForm (wordsBytes ((body.drop 1).take 32)) 0 (byteFld (wordsBytes ((body.drop 1).take 32)) 16 4) = true)
    (key : imageKeyOk (wordsBytes ((body.drop 1).take 32)) s.fl.lifecycle = true) (plain : s.fl.invasive = false) :
    exec (.debugMsgFloor body true) s = .next ((s.floored body).dbgSay 7 sOk [w32 (s.floored body).fl.floor]) := by
  have kept : (s.takeFlint 0xF6 body).fl = s.fl := rfl
  simp only [exec, execDebugMsgFloor, State.dbgMsg_taken runs, kept, form, key, plain]
  rfl

section
variable {s : State} {body tag : List W32} {ctr : Nat}

theorem exec_debugMsgSign_signs (ready : s.kcReady 0xF6 body ctr tag) (secret : s.fl.secret = true) :
    exec (.debugMsgSign body ctr tag) s = .next ((State.drawWords 8 (s.kcTaken 0xF6 body ctr)).1.dbgSay 8 sOk
      (leWords 16 (ecdsaWith deviceKey (nonceOf (State.drawWords 8 (s.kcTaken 0xF6 body ctr)).2) (linkText body)))) := by
  have held : (s.kcTaken 0xF6 body ctr).fl.secret = true := secret
  simp only [exec, execDebugMsgSign, State.kcMsg_authentic _ ready]
  rw [if_neg (by simp [held])]

theorem exec_debugMsgSign_refuses (ready : s.kcReady 0xF6 body ctr tag) (secret : s.fl.secret = false) :
    exec (.debugMsgSign body ctr tag) s = .next ((s.kcTaken 0xF6 body ctr).dbgSay 8 eAuth []) := by
  have held : (s.kcTaken 0xF6 body ctr).fl.secret = false := secret
  simp only [exec, execDebugMsgSign, State.kcMsg_authentic _ ready]
  rw [if_pos (by simp [held])]

theorem exec_firmware_gathers {img : Mem} (ready : s.kcReady 0xF5 body ctr tag) (data : img = s.fl.image.writeN (chunkOf body).1 (chunkOf body).2)
    (fits : (chunkOf body).1 + (chunkOf body).2.length ≤ 524288)
    (more : (chunkOf body).1 + (chunkOf body).2.length < byteFld (img.readN 16 4) 0 4) :
    exec (.firmware body ctr tag true) s = .next ((s.kcTaken 0xF5 body ctr).withFl fun f => { f with image := img }) := by
  subst data
  have image : ((s.kcTaken 0xF5 body ctr).withFl fun f => { f with image := f.image.writeN (chunkOf body).1 (chunkOf body).2 }).fl.image =
    s.fl.image.writeN (chunkOf body).1 (chunkOf body).2 := rfl
  simp only [exec, execFirmware, State.kcMsg_authentic _ ready, if_pos fits, image, if_pos more]
  rfl
end

/-- Settles O31: each message by the equation of its handler; a transition that `advance` grants leaves three copies of the new state. -/
theorem flintSecurityMessages : Obligations.FlintSecurityMessages := by
  unfold Obligations.FlintSecurityMessages
  intro s tgt len t ws body runs
  refine ⟨exec_debugMsgChunk runs, fun made tgtLow lenLow => ⟨exec_debugMsgAdvance runs tgtLow lenLow made, ?_⟩, fun form key plain => ?_,
    fun ctr tag => ⟨fun ready secret => ?_, exec_debugMsgSign_refuses, fun ready img data fits more => exec_firmware_gathers ready data fits more⟩⟩
  · have left := advance_made tgt len true true (s.takeFlint 0xF6 [6, w32 tgt, w32 len])
    rw [made] at left
    exact left
  · exact ⟨s.floored body, exec_debugMsgFloor runs form key plain, rfl⟩
  · obtain ⟨kept, eight⟩ := State.drawWords_spec 8 (s.kcTaken 0xF6 body ctr)
    exact ⟨_, _, eight, kept, exec_debugMsgSign_signs ready secret⟩

end Sys2Proof.Machine
end

-- Flint: the keys and the pair.
section
/-!
PROOFS of 14_flint_metrology.md. HELLO, MODE, the certificate and the notices of the pair (R326, R344, R345, R421).
-/
namespace Sys2Proof.Machine

/-! ### HELLO and MODE (R344, R345, R421) -/

/-- Drawing words takes nothing from the path to Flint. -/
theorem State.drawWords_toFlint (k : Nat) (s : State) : (State.drawWords k s).1.toFlint = s.toFlint := by
  induction k generalizing s with
  | zero => rfl
  | succ k ih => exact ih s.draw.1

theorem wordsBytes_length (ws : List W32) : (wordsBytes ws).length = 4 * ws.length := by
  induction ws with
  | nil => rfl
  | cons w t ih =>
    have word : (wordsBytes (w :: t)).length = (leBytes 4 w.toNat).length + (wordsBytes t).length := List.length_append
    rw [word, ih, leBytes_length, List.length_cons]
    omega

/-- The state in which Flint holds the KC of a salt that it has drawn. -/
def State.keyed (s : State) : State :=
  (State.drawWords 8 s).1.withFl fun f =>
    { f with
      hello := true, kc := s.fl.secret, kcCtr := none
      kcKey := if s.fl.secret then kcOf (wordsBytes (State.drawWords 8 s).2) else wordsBytes (State.drawWords 8 s).2 }

theorem exec_hello {s : State} (runs : s.fl.runs = true) (first : s.fl.hello = false) (sent : s.toFlint.contains (0xF0, []) = true) :
    exec .hello s = .next ((s.takeFlint 0xF0 []).keyed.flintSay 0xF0 0 0 (leWords 8 (s.takeFlint 0xF0 []).keyed.fl.kcKey)) := by
  have drawn := (State.drawWords_spec 8 (s.takeFlint 0xF0 [])).1
  have kept : (s.takeFlint 0xF0 []).fl = s.fl := rfl
  simp only [exec, execHello]
  rw [if_neg (by rw [runs, first, sent]; decide)]
  simp only [State.keyed, State.withFl, drawn, kept]

section
variable {s : State} {ctr : Nat} {body tag : List W32}

theorem exec_modeMsg (ready : s.kcReady 0xF7 body ctr tag) : exec (.modeMsg body ctr tag) s =
    .next ((s.kcTaken 0xF7 body ctr).withFl fun f => { f with mode := .ofCode (fld (body.getD 0 0).toNat 0 2) }) := by
  simp only [exec, execModeMsg, State.kcMsg_authentic _ ready]

/-! ### The twin's certificate and its notices (R326, R344, R420) -/

theorem exec_pairCertificate_refused (ready : s.kcReady 0xF4 body ctr tag) :
    exec (.pairCertificate body ctr tag false) s = .next ((s.kcTaken 0xF4 body ctr).withFl fun f => { f with kp := false }) := by
  simp only [exec, execPairCertificate, State.kcMsg_authentic _ ready]
  rfl

theorem exec_pairCertificate_chains (ready : s.kcReady 0xF4 body ctr tag) (secret : s.fl.secret = true) :
    exec (.pairCertificate body ctr tag true) s = .next ((s.kcTaken 0xF4 body ctr).withFl fun f =>
      if certId (wordsBytes body) = deviceId then { f with kp := false } else { f with kp := true, kpKey := kpOf (wordsBytes body), kpTx := 0, kpRx := 0 }) := by
  have held : (s.kcTaken 0xF4 body ctr).fl.secret = true := secret
  simp only [exec, execPairCertificate, State.kcMsg_authentic _ ready, State.withFl, held]
  by_cases own : certId (wordsBytes body) = deviceId
  · rw [if_neg (by simp [own]), if_pos own]
  · rw [if_pos (by simp [own]), if_neg own]

theorem exec_pairTwinCmp_accepted (ready : s.kcReady 0xF4 body ctr tag) (active : s.fl.active = true) (cal : s.fl.use.cal = true)
    (mac : body.drop 5 = macWords s.fl.kpKey (body.take 5)) (fresh : s.fl.kpRx < (body.getD 4 0).toNat)
    (near : s.fl.dropsBack (body.getD 0 0).toNat (body.getD 1 0).toNat ≤ 2) :
    exec (.pairTwinCmp body ctr tag) s = .next ((s.kcTaken 0xF4 body ctr).withFl fun f =>
      { f with kpRx := (body.getD 4 0).toNat }.notice (body.getD 0 0).toNat (body.getD 1 0).toNat (signed 32 (body.getD 3 0).toNat)) := by
  have timed : s.fl.timed = true := by
    simp only [Flint.active, Bool.and_eq_true] at active
    exact active.1.2
  have on : (s.kcTaken 0xF4 body ctr).fl.active = true := active
  have calibrated : (s.kcTaken 0xF4 body ctr).fl.use.cal = true := cal
  have drops : (s.kcTaken 0xF4 body ctr).fl.timed = true := timed
  have genuine : (body.drop 5 != macWords (s.kcTaken 0xF4 body ctr).fl.kpKey (body.take 5)) = false := bne_eq_false_iff_eq.mpr mac
  have newer : decide ((body.getD 4 0).toNat ≤ (s.kcTaken 0xF4 body ctr).fl.kpRx) = false := decide_eq_false (not_le.mpr fresh)
  have held : decide (2 < (s.kcTaken 0xF4 body ctr).fl.dropsBack (body.getD 0 0).toNat (body.getD 1 0).toNat) = false := decide_eq_false (not_lt.mpr near)
  simp only [exec, execPairTwinCmp, State.kcMsg_authentic _ ready]
  rw [on, calibrated, drops, genuine, newer, held]
  rfl

theorem exec_pairTwinCmp_forged (ready : s.kcReady 0xF4 body ctr tag) (mac : body.drop 5 ≠ macWords s.fl.kpKey (body.take 5)) :
    exec (.pairTwinCmp body ctr tag) s = .next (s.kcTaken 0xF4 body ctr) := by
  have forged : (body.drop 5 != macWords (s.kcTaken 0xF4 body ctr).fl.kpKey (body.take 5)) = true := bne_iff_ne.mpr mac
  simp only [exec, execPairTwinCmp, State.kcMsg_authentic _ ready, forged, Bool.or_true, Bool.true_or, if_true]

/-- The MP hands its twin's notice on to Flint. -/
theorem exec_twinCmpRelay (runs : s.mpRuns = true) (attached : s.tw.attached = true) (link : s.twinLink = true) :
    exec (.twinCmpRelay body) s =
      .next ({ s with conduit := { s.conduit with twinG := (noticeG body :: s.conduit.twinG).take 3 } }.sendFlint 0xF4 body) := by
  simp only [exec, execTwinCmpRelay, runs, attached, link]
  rfl
end

/-- Settles O34: each message by the equation of its handler. -/
theorem flintKeysAndPair : Obligations.FlintKeysAndPair := by
  unfold Obligations.FlintKeysAndPair
  intro s ctr body tag
  refine ⟨fun runs first sent => ?_, exec_modeMsg, fun ready => ⟨exec_pairCertificate_chains ready, exec_pairCertificate_refused ready,
    exec_pairTwinCmp_accepted ready, exec_pairTwinCmp_forged ready⟩, fun runs attached link => ⟨_, exec_twinCmpRelay runs attached link, rfl, rfl, rfl⟩⟩
  have salt := (State.drawWords_spec 8 (s.takeFlint 0xF0 [])).2
  refine ⟨_, wordsBytes (State.drawWords 8 (s.takeFlint 0xF0 [])).2, exec_hello runs first sent, by rw [wordsBytes_length, salt], rfl, rfl,
    fun secret => if_pos secret, rfl, State.drawWords_toFlint 8 _⟩

end Sys2Proof.Machine
end

-- Flint: what the end of a drop keeps.
section
/-!
PROOFS of 14_flint_metrology.md. The fields of Flint that the boundary work of a drop leaves alone.
-/
namespace Sys2Proof.Machine

/-! ### What the end of a drop computes -/

/-- The fields of Flint that the end of a drop sets or leaves to its end. -/
structure DropView where
  codes : List Int
  u : Int
  G : Int
  stable : Bool
  timed : Bool
  drip : Nat
  len : Nat
  drops : Nat
  start : Int
  next : Nat
  pos : Nat
  hiber : Bool
  rtc : Nat
  wakes : Nat
  p : Params
  curve : List (Int × Int)
  kmCtr : Nat
  audit : List Audit

def Flint.dropView (f : Flint) : DropView :=
  ⟨f.codes, f.u, f.G, f.stable, f.timed, f.drip, f.len, f.drops, f.start, f.next, f.pos, f.hiber, f.rtc, f.lan.wakes, f.p, f.curve, f.kmCtr, f.audit⟩

/-- The weighing of a drop takes its results. -/
def DropView.weighed (v : DropView) (codes : List Int) (w : Weigh) : DropView := { v with codes := codes, u := w.u, G := w.G, stable := w.stable }

/-- The next drop begins: of the same drip, or of the next one after the last. -/
def DropView.moved (v : DropView) : DropView :=
  if !v.timed then { v with pos := v.pos + 1 }
  else if v.next + 1 < v.drops then { v with pos := v.pos + 1, next := v.next + 1 }
  else { v with pos := v.pos + 1, drip := v.drip + 1, start := v.start + (v.len * 2 ^ 32 : Nat), next := 0 }

/-- Flint's part in a drop, with the Geodes. -/
def State.dropParts (s : State) : DropView × List Geode := (s.fl.dropView, s.geodes)

/-! ### What frames and wake sources leave -/

@[simp] theorem Flint.frame_dropView (f : Flint) (kind source ts : Nat) (payload : List Byte) : (f.frame kind source ts payload).dropView = f.dropView := by
  unfold Flint.frame
  dsimp only
  split_ifs <;> rfl

@[simp] theorem State.frame_dropParts (s : State) (kind source ts : Nat) (payload : List Byte) :
    (s.frame kind source ts payload).dropParts = s.dropParts :=
  congrArg (·, s.geodes) (Flint.frame_dropView s.fl kind source ts payload)

@[simp] theorem State.flintSay_dropParts (s : State) (kind tag status : Nat) (body : List W32) :
    (s.flintSay kind tag status body).dropParts = s.dropParts := State.frame_dropParts ..

@[simp] theorem State.withPw_dropParts (s : State) (f : Pw → Pw) : (s.withPw f).dropParts = s.dropParts := rfl

theorem State.withFl_dropParts {s : State} {f : Flint → Flint} (h : (f s.fl).dropView = s.fl.dropView) : (s.withFl f).dropParts = s.dropParts :=
  congrArg (·, s.geodes) h

@[simp] theorem State.answerCommit_dropParts (s : State) : s.answerCommit.dropParts = s.dropParts := by
  unfold State.answerCommit
  dsimp only
  split
  · rfl
  · exact State.flintSay_dropParts ..

theorem State.rollback_dropParts (s : State) (outcome block cause : Nat) : (s.rollback outcome block cause).dropParts = s.dropParts := by
  unfold State.rollback
  dsimp only
  split <;> split_ifs <;> rfl

@[simp] theorem State.wakeActs_dropParts (s : State) : s.wakeActs.dropParts = s.dropParts := by
  unfold State.wakeActs
  split
  · split
    · exact State.rollback_dropParts ..
    · rfl
  · split
    · rw [State.answerCommit_dropParts]
      split <;> rfl
    · rfl

@[simp] theorem State.raiseLevel_dropParts (s : State) (k : Nat) : (s.raiseLevel k).dropParts = s.dropParts := by
  unfold State.raiseLevel
  split
  · rfl
  · exact State.wakeActs_dropParts _

@[simp] theorem State.dropLevel_dropParts (s : State) (k : Nat) : (s.dropLevel k).dropParts = s.dropParts := rfl

/-! ### What Lantern's sample leaves -/

@[simp] theorem State.fire_dropParts (s : State) (st ts : Nat) (x : Nat × Rule) : (s.fire st ts x).dropParts = s.dropParts := by
  have said (c : Bool) (k : List Byte) : (if c then s.frame 2 0 ts k else s).dropParts = s.dropParts := by
    split
    · exact State.frame_dropParts ..
    · rfl
  unfold State.fire
  extract_lets ev wk code l s1 awake
  split
  · exact said _ _
  · split
    · exact said _ _
    · rw [State.raiseLevel_dropParts]
      exact said _ _

@[simp] theorem State.lantern_dropParts (s : State) (codes : List Int) (w : Weigh) (reads : List (Nat × Nat × List Byte)) (skip : Bool) (ts : Nat) :
    (s.lantern codes w reads skip ts).dropParts = s.dropParts := by
  unfold State.lantern
  split
  · rfl
  · exact (foldl_keeps (p := State.dropParts) (fun t x => State.fire_dropParts t _ _ x) _ _).trans rfl

@[simp] theorem State.lanStatus_dropParts (s : State) (ts k : Nat) : (s.lanStatus ts k).dropParts = s.dropParts :=
  foldl_keeps (p := State.dropParts) (fun t _ => State.frame_dropParts t ..) _ _

/-! ### What the comparison, the zero and the boundary leave -/

@[simp] theorem Flint.compare_dropView (f : Flint) (drip index : Nat) (twin : Int) : (f.compare drip index twin).dropView = f.dropView := by
  fun_cases Flint.compare <;> rfl

@[simp] theorem Flint.zeroing_dropView (f : Flint) (w : Weigh) : (f.zeroing w).1.dropView = f.dropView := by
  fun_cases Flint.zeroing <;> rfl

@[simp] theorem Flint.boundary_dropView (f : Flint) (initial : Bool) : (f.boundary initial).dropView = f.dropView := by
  fun_cases Flint.boundary <;> rfl

@[simp] theorem Lan.boundary_wakes (l : Lan) : l.boundary.1.wakes = l.wakes := by
  unfold Lan.boundary
  dsimp only
  split <;> rfl

/-! ### The end of a drop -/

/-- The end of a drop, on the fields of the view and on the Geodes. -/
theorem State.drop_dropParts (s : State) (new : List (List Int)) (volts : Nat) (reads' : List (Nat × Nat × List Byte)) (skip : Bool) :
    (s.drop new volts reads' skip).dropParts =
      (((s.fl.dropView).weighed (s.fl.newCodes new) (s.fl.weigh (s.fl.newCodes new) (s.fl.outOfRange new) volts)).moved, s.geodes) := by
  unfold State.drop
  extract_lets f codes reads w ts key x note f1 f2 flags on rises makes gross item
  have compared : f2.dropView = { f.dropView with codes := codes, u := w.u, G := w.G } := by
    cases e : note <;> simp only [f2, e, Flint.compare_dropView] <;> rfl
  clear_value f2 makes item flags
  have zeroed := Flint.zeroing_dropView f2 w
  generalize f2.zeroing w = z at zeroed ⊢
  obtain ⟨f3, initial⟩ := z
  dsimp -zeta only at zeroed ⊢
  extract_lets s1 s2 sent s3 s4 s5
  have weighed : s1.dropParts = (f.dropView.weighed codes w, s.geodes) :=
    congrArg (fun v : DropView => ({ v with stable := w.stable }, s.geodes)) (zeroed.trans compared)
  clear_value s1
  have noticed : s2.dropParts = s1.dropParts := by
    unfold s2
    split
    · exact State.flintSay_dropParts ..
    · rfl
  clear_value s2
  have framed : s3.dropParts = s2.dropParts := by
    unfold s3
    split
    · split
      · exact State.raiseLevel_dropParts ..
      · rfl
    · refine (foldl_keeps (p := State.dropParts) (fun t _ => State.frame_dropParts t ..) _ _).trans ?_
      unfold sent
      split
      · exact State.frame_dropParts ..
      · rfl
  clear_value s3
  have sampled : s4.dropParts = s3.dropParts := State.lantern_dropParts ..
  clear_value s4
  have stepped : s5.dropParts = (s4.dropParts.1.moved, s4.dropParts.2) := by
    refine Prod.ext ?_ rfl
    have bounded := Flint.boundary_dropView s4.fl initial
    simp only [Flint.dropView, DropView.mk.injEq] at bounded
    simp only [s5, State.dropParts, State.withFl, DropView.moved, Flint.dropView]
    by_cases more : s4.fl.next + 1 < s4.fl.drops <;> by_cases timed : s4.fl.timed = true <;> simp [bounded, timed, more]
  clear_value s5
  have told : (if s5.fl.hiber then s5 else s5.lanStatus s5.fl.dropStamp s4.fl.lan.boundary.2).dropParts = s5.dropParts := by
    split
    · rfl
    · exact State.lanStatus_dropParts ..
  have whole := sampled.trans (framed.trans (noticed.trans weighed))
  rw [told, stepped, whole]

/-! ### The mailboxes, while no entry is in progress -/

/-- No entry is in progress, and the mailboxes are `m`. -/
def State.Calm (m : List Mbx) (s : State) : Prop := s.pw.target = none ∧ s.mbx = m

section
variable {m : List Mbx} {s : State}

theorem State.Calm.withFl (h : s.Calm m) (f : Flint → Flint) : (s.withFl f).Calm m := h

theorem State.Calm.frame (h : s.Calm m) (kind source ts : Nat) (payload : List Byte) : (s.frame kind source ts payload).Calm m := h

theorem State.Calm.foldl {α : Type} {f : State → α → State} (step : ∀ t x, t.Calm m → (f t x).Calm m) (h : s.Calm m) (l : List α) : (l.foldl f s).Calm m :=
  List.foldlRecOn (motive := State.Calm m) l f h fun t ht x _ => step t x ht

/-- A raised source then has nothing to abort, and the mailboxes stay. -/
theorem State.Calm.raiseLevel (h : s.Calm m) (k : Nat) : (s.raiseLevel k).Calm m := by
  obtain ⟨target, mbx⟩ := h
  have seen (u : State) (idle : u.Calm m) : u.answerCommit.Calm m := by
    obtain ⟨f, same⟩ := u.answerCommit_frame
    rw [same]
    exact idle
  unfold State.raiseLevel State.wakeActs
  split
  · exact ⟨target, mbx⟩
  · rw [show (s.withPw fun p => { p with levels := setBit p.levels k }).pw.target = none from target]
    dsimp only
    split
    · refine seen _ ?_
      split
      · exact ⟨target, mbx⟩
      · exact ⟨target, mbx⟩
    · exact ⟨target, mbx⟩

theorem State.Calm.fire (h : s.Calm m) (st ts : Nat) (x : Nat × Rule) : (s.fire st ts x).Calm m := by
  unfold State.fire
  extract_lets ev wk code l s1 awake
  have said : s1.Calm m := by
    unfold s1
    split
    · exact h.frame ..
    · exact h
  split
  · exact said
  · split
    · exact said
    · exact State.Calm.raiseLevel (said.withFl _) 1

theorem State.Calm.lantern (h : s.Calm m) (codes : List Int) (w : Weigh) (reads : List (Nat × Nat × List Byte)) (skip : Bool) (ts : Nat) :
    (s.lantern codes w reads skip ts).Calm m := by
  unfold State.lantern
  split
  · exact h
  · dsimp only
    exact State.Calm.foldl (fun t x ht => ht.fire ..) (h.withFl _) _

theorem State.Calm.drop (h : s.Calm m) (new : List (List Int)) (volts : Nat) (reads' : List (Nat × Nat × List Byte)) (skip : Bool) :
    (s.drop new volts reads' skip).Calm m := by
  unfold State.drop
  extract_lets f codes reads w ts key x note f1 f2 flags on rises makes gross item
  clear_value f2 makes item flags
  generalize f2.zeroing w = z
  obtain ⟨f3, initial⟩ := z
  dsimp -zeta only
  extract_lets s1 s2 sent s3 s4 s5
  have weighed : s1.Calm m := h.withFl _
  clear_value s1
  have noticed : s2.Calm m := by
    unfold s2
    split
    · exact State.Calm.frame (weighed.withFl _) ..
    · exact weighed
  clear_value s2
  have framed : s3.Calm m := by
    unfold s3
    split
    · split
      · exact noticed.raiseLevel 9
      · exact noticed
    · refine State.Calm.foldl (fun t _ ht => ht.frame ..) ?_ _
      unfold sent
      split
      · exact noticed.frame ..
      · exact noticed
  clear_value s3
  have sampled : s4.Calm m := State.Calm.lantern (framed.withFl _) ..
  clear_value s4
  split
  · exact sampled.withFl _
  · exact State.Calm.foldl (fun t _ ht => ht.frame ..) (sampled.withFl _) _
end

end Sys2Proof.Machine
end

-- Flint: drops and records.
section
/-!
PROOFS of 14_flint_metrology.md. The end of a drop and the signing of a record (R318 to R330).
-/
namespace Sys2Proof.Machine

/-! ### The weighing (R323) -/

theorem Flint.weigh_net {f : Flint} (conf : f.use.conf = true) (codes : List Int) (out : Bool) (volts : Nat) :
    (f.weigh codes out volts).net = (f.weigh codes out volts).G - f.use.tare := by
  unfold Flint.weigh
  dsimp only
  rw [conf]
  rfl

/-! ### The bytes of a record (R328, R329) -/

theorem be32_length (n : Nat) : (be32 n).length = 32 := by
  simp [be32, beList]

theorem ecdsa_length (d : Nat) (m : List Byte) : (ecdsa d m).length = 64 := by
  unfold ecdsa ecdsaWith
  rw [List.length_append, be32_length, be32_length]

theorem Flint.recordBytes_length (f : Flint) (r : Ready) : (f.recordBytes r).length = 64 := by
  simp only [Flint.recordBytes, List.length_append, leBytes_length, List.length_cons, List.length_nil]

/-! ### Due records and their signing (R327, R329, R330) -/

section
variable {s : State} {r : Ready} {rest : List Ready}

theorem exec_weightRecordDecision_signs (due : s.fl.ready = r :: rest) (alone : r.compared = false) :
    exec .weightRecordDecision s = .next (s.withFl fun f => { f with ready := rest, signing := f.signing ++ [r] }) := by
  simp only [exec, execWeightRecordDecision, due, alone]
  rfl

theorem exec_weightRecordDecision_waits (due : s.fl.ready = r :: rest) (compared : r.compared = true)
    (unknown : ((s.fl.recent.find? fun x => x.pos == r.at').bind fun x => x.cmp) = none) (early : s.fl.pos < r.at' + 3) :
    exec .weightRecordDecision s = .next s := by
  simp only [exec, execWeightRecordDecision, due, compared, unknown, decide_eq_true early]
  rfl

theorem exec_weightRecordSigned_loses (signing : s.fl.signing = r :: rest) (invasive : s.fl.invasive = true) :
    exec .weightRecordSigned s = .next (s.withFl fun f => { f with signing := rest }) := by
  simp only [exec, execWeightRecordSigned, signing, invasive, if_true]

/-- The state in which a signed record is in MRAM. -/
def State.recorded (s : State) (rest : List Ready) (b : List Byte) : State :=
  s.withFl fun f => { f with signing := rest, records := f.records ++ [(f.recNext, b)], recNext := f.recNext + 1 }

theorem exec_weightRecordSigned_writes (signing : s.fl.signing = r :: rest) (plain : s.fl.invasive = false) (room : s.fl.records.length < 4096) :
    exec .weightRecordSigned s = .next
      (if s.receives then (s.recorded rest (s.fl.recordBytes r ++ ecdsa deviceKey (s.fl.recordBytes r))).frame 4 0 r.ts
          (s.fl.recordBytes r ++ ecdsa deviceKey (s.fl.recordBytes r))
        else s.recorded rest (s.fl.recordBytes r ++ ecdsa deviceKey (s.fl.recordBytes r))) := by
  have all : (s.fl.records ++ [(s.fl.recNext, s.fl.recordBytes r ++ ecdsa deviceKey (s.fl.recordBytes r))]).drop (s.fl.records.length + 1 - 4096) =
      s.fl.records ++ [(s.fl.recNext, s.fl.recordBytes r ++ ecdsa deviceKey (s.fl.recordBytes r))] := by
    rw [show s.fl.records.length + 1 - 4096 = 0 by omega, List.drop_zero]
  simp only [exec, execWeightRecordSigned, signing, plain, Bool.false_eq_true, if_false, State.receives, State.recorded, State.withFl, all]
  exact congrArg Host.Outcome.next (if_congr Iff.rfl rfl rfl)
end

/-- A RECORD frame is never dropped. -/
theorem Flint.frame_record (f : Flint) (ts : Nat) (b : List Byte) :
    (f.frame 4 0 ts b).frames.map (fun x => (x.kind, x.payload)) = f.frames.map (fun x => (x.kind, x.payload)) ++ [(4, b)] ∧
      (f.frame 4 0 ts b).records = f.records ∧ (f.frame 4 0 ts b).recNext = f.recNext ∧ (f.frame 4 0 ts b).signing = f.signing :=
  ⟨by simp [Flint.frame], rfl, rfl, rfl⟩

/-- What the beginning of the next drop leaves of the view. -/
theorem DropView.moved_kept (v : DropView) : v.moved.codes = v.codes ∧ v.moved.u = v.u ∧ v.moved.G = v.G ∧ v.moved.stable = v.stable ∧ v.moved.p = v.p ∧
    v.moved.curve = v.curve ∧ v.moved.kmCtr = v.kmCtr ∧ v.moved.audit = v.audit ∧ v.moved.pos = v.pos + 1 ∧ v.moved.rtc = v.rtc ∧
    v.moved.wakes = v.wakes := by
  unfold DropView.moved
  split_ifs <;> simp

theorem DropView.moved_within {v : DropView} (timed : v.timed = true) (more : v.next + 1 < v.drops) :
    v.moved.next = v.next + 1 ∧ v.moved.drip = v.drip := by
  simp [DropView.moved, timed, more]

theorem DropView.moved_last {v : DropView} (timed : v.timed = true) (last : v.drops ≤ v.next + 1) :
    v.moved.next = 0 ∧ v.moved.drip = v.drip + 1 ∧ v.moved.start = v.start + (v.len * 2 ^ 32 : Nat) := by
  simp [DropView.moved, timed, not_lt.mpr last]

/-- Settles O33: the drop by its equation on the fields it sets, the records by the equations of their handlers. -/
theorem flintDropAndRecords : Obligations.FlintDropAndRecords := by
  unfold Obligations.FlintDropAndRecords
  refine ⟨fun s codes volts weighs timed awake => ?_, fun s r rest => ⟨exec_weightRecordDecision_signs, exec_weightRecordDecision_waits,
    fun signing => ⟨exec_weightRecordSigned_loses signing, fun plain room => ?_⟩⟩⟩
  · have done : exec (.flintDropSample codes volts [] false) s = .next (s.drop codes volts [] false) := by
      simp only [exec, execFlintDropSample, weighs, timed]
      rfl
    have parts := State.drop_dropParts s codes volts [] false
    have calm (target : s.pw.target = none) := (State.Calm.drop (m := s.mbx) ⟨target, rfl⟩ codes volts [] false).2
    generalize s.drop codes volts [] false = u at done parts calm
    have geodes : u.geodes = s.geodes := congrArg Prod.snd parts
    have view : u.fl.dropView = _ := congrArg Prod.fst parts
    have field {α : Type} (p : DropView → α) : p u.fl.dropView = _ := congrArg p view
    obtain ⟨hcodes, hu, hG, hstable, hp, hcurve, hctr, haudit, hpos, -, -⟩ := DropView.moved_kept (s.fl.dropView.weighed (s.fl.newCodes codes)
      (s.fl.weigh (s.fl.newCodes codes) (s.fl.outOfRange codes) volts))
    have gross := (field DropView.G).trans hG
    refine ⟨u, done, (field DropView.codes).trans hcodes, (field DropView.pos).trans hpos, (field DropView.u).trans hu, gross,
      (field DropView.stable).trans hstable, fun more => ?_, fun last => ?_, (field DropView.p).trans hp, (field DropView.curve).trans hcurve,
      (field DropView.kmCtr).trans hctr, (field DropView.audit).trans haudit, geodes, calm, fun conf => ?_⟩
    · obtain ⟨next, drip⟩ := DropView.moved_within (v := s.fl.dropView.weighed _ _) timed more
      exact ⟨(field DropView.next).trans next, (field DropView.drip).trans drip⟩
    · obtain ⟨next, drip, start⟩ := DropView.moved_last (v := s.fl.dropView.weighed _ _) timed last
      exact ⟨(field DropView.next).trans next, (field DropView.drip).trans drip, (field DropView.start).trans start⟩
    · rw [Flint.weigh_net conf]
      exact congrArg (· - s.fl.use.tare) gross.symm
  · refine ⟨_, s.fl.recordBytes r ++ ecdsa deviceKey (s.fl.recordBytes r), exec_weightRecordSigned_writes signing plain room, ?_⟩
    have length : (s.fl.recordBytes r ++ ecdsa deviceKey (s.fl.recordBytes r)).length = 128 := by
      rw [List.length_append, Flint.recordBytes_length, ecdsa_length]
    generalize signed : s.fl.recordBytes r ++ ecdsa deviceKey (s.fl.recordBytes r) = b at length ⊢
    obtain ⟨frames, records, recNext, rest'⟩ := (s.recorded rest b).fl.frame_record r.ts b
    split
    · exact ⟨records, recNext, rest', length, rfl, fun _ => frames⟩
    · next no => exact ⟨rfl, rfl, rfl, length, rfl, fun yes => absurd yes no⟩

end Sys2Proof.Machine
end

-- Flint: power messages and resets.
section
/-!
PROOFS of 16_power_states.md. ENTER, COMMIT, ABORT and RUNNING at Flint, CAL_EN_N, its resets and the wakes of HIBERNATE (R373, R380, R381).
-/
namespace Sys2Proof.Machine

/-! ### POWER messages (R373, R380, R381) -/

section
variable {s : State} {ctr rtc : Nat} {body tag : List W32} (ready : s.kcReady 0xF3 body ctr tag)
include ready

theorem exec_powerEnter_roost (target : fld (body.getD 0 0).toNat 8 2 = 1) : exec (.powerEnter body ctr tag rtc) s =
    .next ((((s.kcTaken 0xF3 body ctr).rtcAt rtc).withFl fun f => { f with entering := some 1 }).flintSay 0xF3 1 sOk []) := by
  simp only [exec, execPowerEnter, State.kcMsg_authentic _ ready, target]
  rfl

/-- ENTER into HIBERNATE waits for the latch, which the next timing message gives. -/
theorem exec_powerEnter_hibernate (target : fld (body.getD 0 0).toNat 8 2 = 3) (timing : body.length = 2) : exec (.powerEnter body ctr tag rtc) s =
    .next (((s.kcTaken 0xF3 body ctr).rtcAt rtc).withFl fun f => { f with entering := some 3, period := (body.getD 1 0).toNat, carry := none }) := by
  simp only [exec, execPowerEnter, State.kcMsg_authentic _ ready, target, timing]
  rfl

theorem exec_powerCommit {t : Nat} (entering : s.fl.entering = some t) : exec (.powerCommit body ctr tag) s =
    .next ((s.kcTaken 0xF3 body ctr).withFl fun f => f.commit t).answerCommit := by
  have held : (s.kcTaken 0xF3 body ctr).fl.entering = some t := entering
  simp only [exec, execPowerCommit, State.kcMsg_authentic _ ready, held]

theorem exec_powerAbort : exec (.powerAbort body ctr tag) s =
    .next (((s.kcTaken 0xF3 body ctr).withFl fun f => { f with entering := none, committed := false }).flintSay 0xF3 3 sOk []) := by
  simp only [exec, execPowerAbort, State.kcMsg_authentic _ ready]

theorem exec_powerRunning_awake (awake : s.fl.hiber = false) : exec (.powerRunning body ctr tag rtc) s =
    .next (((s.kcTaken 0xF3 body ctr).withFl fun f => { f with committed := false, entering := none, pst := 0 }).flintSay 0xF3 4 sOk []) := by
  have held : (s.kcTaken 0xF3 body ctr).fl.hiber = false := awake
  simp only [exec, execPowerRunning, State.kcMsg_authentic _ ready, held]
  rfl
end

/-- A frame that is no sample and no Lantern event finds room. -/
theorem Flint.frame_length (f : Flint) {kind : Nat} (kept : 2 < kind) (source ts : Nat) (payload : List Byte) :
    (f.frame kind source ts payload).frames.length = f.frames.length + 1 := by
  simp [Flint.frame, not_le.mpr kept]

theorem exec_powerRunning_hibernated {s : State} {ctr : Nat} {body tag : List W32} (ready : s.kcReady 0xF3 body ctr tag) (asleep : s.fl.hiber = true) (rtc : Nat) :
    ∃ (u : State) (ts' : Nat) (latch : List Byte) (words : List W32) (bits : Nat), u = ((s.kcTaken 0xF3 body ctr).rtcAt rtc).frame 5 0 ts' latch ∧
      exec (.powerRunning body ctr tag rtc) s = .next (((u.withFl fun f =>
        { f with hiber := false, ldoLow := false, committed := false, entering := none, pst := 0 }).flintSay 0xF3 4 sOk words).ackWakes bits) := by
  have held : (s.kcTaken 0xF3 body ctr).fl.hiber = true := asleep
  simp only [exec, execPowerRunning, State.kcMsg_authentic _ ready, held]
  exact ⟨_, _, _, _, _, rfl, rfl⟩

/-! ### The commit at Flint -/

theorem without_zero (m : Nat) : without 0 m = 0 := by
  have clear (k : Nat) : clearBit 0 k = 0 := by simp [clearBit]
  unfold without
  exact List.foldlRecOn (motive := fun x => x = 0) _ _ rfl fun x hx k _ => by
    subst hx
    split
    · exact clear k
    · rfl

theorem State.answerCommit_waits {s : State} (h : s.fl.committed = false ∨ s.raised 2 = 0) : s.answerCommit = s := by
  unfold State.answerCommit
  refine if_pos ?_
  rcases h with h | h
  · rw [h]; rfl
  · rw [h, without_zero]; simp

/-! ### CAL_EN_N and Flint's resets (R337, R350, R388) -/

theorem State.endSession_none {s : State} (none' : s.fl.sessions = []) (die reason : Nat) : s.endSession die reason = s := by
  unfold State.endSession
  rw [none']
  rfl

/-- What the end of a session leaves of Flint and of the rest of the state. -/
theorem State.endSession_outer (s : State) (die reason : Nat) :
    ∃ f : Flint, s.endSession die reason = { s with fl := f } ∧ f.hiber = s.fl.hiber ∧ f.curve = s.fl.curve ∧ f.rtc = s.fl.rtc ∧
      f.p = s.fl.p ∧ f.records = s.fl.records := by
  unfold State.endSession
  split
  · exact ⟨s.fl, rfl, rfl, rfl, rfl, rfl, rfl⟩
  · exact ⟨_, rfl, rfl, rfl, rfl, rfl, rfl⟩

/-- A frame changes the frames to send and their counters alone. -/
theorem Flint.frame_outer (f : Flint) (kind source ts : Nat) (payload : List Byte) :
    ∃ frames seqs dropped, f.frame kind source ts payload = { f with frames := frames, seqs := seqs, dropped := dropped } := by
  unfold Flint.frame
  dsimp only
  split_ifs <;> exact ⟨_, _, _, rfl⟩

theorem State.flintSay_fl (s : State) (kind tag status : Nat) (body : List W32) : ∃ frames seqs dropped,
    (s.flintSay kind tag status body).fl = { s.fl with frames := frames, seqs := seqs, dropped := dropped } ∧ frames.length = s.fl.frames.length + 1 := by
  have more := s.fl.frame_length (kind := 3) (by decide) 0 s.flintStamp
    (wordsBytes (w32 (kind * 2 ^ 24 + tag % 256 * 2 ^ 16 + body.length * 2 ^ 8 + status) :: body))
  obtain ⟨frames, seqs, dropped, said⟩ := s.fl.frame_outer 3 0 s.flintStamp
    (wordsBytes (w32 (kind * 2 ^ 24 + tag % 256 * 2 ^ 16 + body.length * 2 ^ 8 + status) :: body))
  rw [said] at more
  exact ⟨frames, seqs, dropped, said, more⟩

/-- Flint as it starts again: MRAM, the RTC, the power state and the codes; everything else as it powers up. -/
def Flint.restarted (f : Flint) : Flint :=
  let enrol := !f.helper && f.lifecycle == 0
  { f.mram with
    up := true, helper := f.helper || enrol, secret := enrol || (f.secret && f.helper), rtc := f.rtc, carry := f.carry, hiber := f.hiber, period := f.period
    committed := f.committed, pst := f.pst, wakeBits := f.wakeBits, running := f.pickSlot, codes := f.codes, convs := f.convs
    use := ⟨f.p, f.curve, f.events, 0, false⟩, seqs := f.seqs }

theorem State.flintReset_eq (s : State) : ∃ frames seqs dropped,
    s.flintReset = { s with fl := { (s.endSession 1 5).fl.restarted with frames := frames, seqs := seqs, dropped := dropped } } := by
  obtain ⟨f, ended, -⟩ := s.endSession_outer 1 5
  unfold State.flintReset
  rw [ended]
  dsimp only
  split
  · obtain ⟨frames, seqs, dropped, said⟩ := Flint.frame_outer (Flint.restarted f) 3 0 { s with fl := f.restarted }.flintStamp
      (wordsBytes (w32 (0xFD * 2 ^ 24 + 0 % 256 * 2 ^ 16 + ([] : List W32).length * 2 ^ 8 + 0) :: []))
    exact ⟨frames, seqs, dropped, congrArg (fun g => { s with fl := g }) said⟩
  · exact ⟨_, _, _, rfl⟩

theorem exec_flintReset {s : State} (up : s.fl.up = true) (due : s.fl.resetDue = true) : exec .flintReset s = .next s.flintReset := by
  simp only [exec, execFlintReset, up, due]
  rfl

theorem exec_brownout {s : State} (up : s.fl.up = true) :
    exec .brownout s = .next (s.flintReset.withFl fun f => { f with brown := f.hiber, ldoLow := false }) := by
  simp only [exec, execBrownout, up]
  rfl

/-! ### The wakes of HIBERNATE (R268, R366) -/

theorem State.wakeTime_pos (s : State) (made : Bool) : s.wakeTime made ≠ 0 := by
  unfold State.wakeTime
  dsimp only
  omega

section
variable {s : State} (weighs : s.fl.weighs = true) (untimed : s.fl.timed = false) (period : s.fl.period ≠ 0)
include weighs untimed period

theorem exec_rtcWake_skipped (asleep : s.fl.hiber = true) (runs : s.fl.period * 93750 < s.fl.lan.left) (codes : List (List Int)) (volts : Nat) :
    exec (.rtcWake codes volts []) s = .next ((s.withFl fun f => { f with rtc := f.rtc + f.period }).withLan fun l =>
      { l with left := s.fl.lan.left - s.fl.period * 93750, skipped := l.skipped + 1 }) := by
  have left : (s.fl.lan.left - s.fl.period * 93750 != 0) = true := bne_iff_ne.mpr (by omega)
  have guard : (!s.fl.weighs || s.fl.timed || s.fl.period == 0) = false := by simp [weighs, untimed, period]
  simp only [exec, execRtcWake, guard, asleep, left]
  rfl

/-- Flint as a wake finds it: the RTC a period on, the wake counted in HIBERNATE. -/
def State.woken (s : State) : State :=
  s.withFl fun f => { f with rtc := f.rtc + f.period, lan := { f.lan.boundary.1 with wakes := f.lan.boundary.1.wakes + bit f.hiber }, ldoLow := f.hiber }

/-- The conversions of a wake: none in HIBERNATE where the bridge is not excited. -/
def State.wakeCodes (s : State) (codes : List (List Int)) : List (List Int) := if s.fl.use.p.excite || !s.fl.hiber then codes else List.replicate 4 []

/-- The state after the drop that a wake ends; the first one after a brown-out raises BROWNOUT. -/
def State.wokenDrop (s : State) (codes : List (List Int)) (volts : Nat) : State :=
  if s.fl.brown then ((s.woken.drop (s.wakeCodes codes) volts [] false).withFl fun f => { f with brown := false }).raiseLevel 10
  else s.woken.drop (s.wakeCodes codes) volts [] false

omit weighs untimed period in
theorem State.wokenDrop_dropParts (codes : List (List Int)) (volts : Nat) :
    (s.wokenDrop codes volts).dropParts = (s.woken.drop (s.wakeCodes codes) volts [] false).dropParts := by
  unfold State.wokenDrop
  split
  · exact State.raiseLevel_dropParts ..
  · rfl

theorem exec_rtcWake_samples (free : s.fl.hiber = true → s.fl.lan.left ≤ s.fl.period * 93750) (codes : List (List Int)) (volts : Nat) :
    ∃ made, exec (.rtcWake codes volts []) s =
      .next ((s.wokenDrop codes volts).withLan fun l => { l with left := (s.wokenDrop codes volts).wakeTime made }) := by
  have guard : (!s.fl.weighs || s.fl.timed || s.fl.period == 0) = false := by simp [weighs, untimed, period]
  have done : (s.fl.hiber && s.fl.lan.left - s.fl.period * 93750 != 0) = false := by
    cases asleep : s.fl.hiber with
    | false => rfl
    | true => simp [Nat.sub_eq_zero_of_le (free asleep)]
  refine ⟨decide (s.fl.ready.length < (s.wokenDrop codes volts).fl.ready.length), ?_⟩
  simp only [exec, execRtcWake, guard, done]
  rfl
end

/-- Settles O35: the messages and resets by the equations of their handlers, a wake by the view of the drop that it ends. -/
theorem flintPowerAndResets : Obligations.FlintPowerAndResets := by
  unfold Obligations.FlintPowerAndResets
  refine ⟨fun s ctr rtc body tag ready => ⟨exec_powerEnter_roost ready, exec_powerEnter_hibernate ready, fun entering => ?_, fun entering quiet => ?_,
    exec_powerAbort ready, exec_powerRunning_awake ready, fun asleep => ?_⟩, fun s codes volts => ⟨rfl, rfl, fun up due closed => ?_, fun up => ?_,
    fun weighs untimed period free => ?_, fun weighs untimed period asleep runs => exec_rtcWake_skipped weighs untimed period asleep runs codes volts⟩⟩
  · refine ⟨_, exec_powerCommit ready entering, ?_⟩
    rw [State.answerCommit_waits (.inl rfl)]
    exact ⟨rfl, rfl, rfl, rfl, rfl, rfl, rfl⟩
  · refine ⟨_, exec_powerCommit ready entering, ?_⟩
    rw [State.answerCommit_waits (s := (s.kcTaken 0xF3 body ctr).withFl fun f => f.commit 2) (.inr quiet)]
    exact ⟨rfl, rfl, rfl, rfl⟩
  · obtain ⟨u, ts', latch, words, bits, framed, ran⟩ := exec_powerRunning_hibernated ready asleep rtc
    refine ⟨_, ran, ?_⟩
    obtain ⟨frames, seqs, dropped, said, more⟩ := (u.withFl fun f =>
      { f with hiber := false, ldoLow := false, committed := false, entering := none, pst := 0 }).flintSay_fl 0xF3 4 sOk words
    have latched : u.fl.frames.length = s.fl.frames.length + 1 := by
      rw [framed]
      exact Flint.frame_length _ (by decide) _ _ _
    have kept (v : State) : (v.ackWakes bits).fl = v.fl := rfl
    rw [kept, said]
    exact ⟨rfl, rfl, rfl, more.trans (congrArg (· + 1) latched)⟩
  · obtain ⟨frames, seqs, dropped, same⟩ := s.flintReset_eq
    rw [State.endSession_none closed] at same
    refine ⟨_, exec_flintReset up due, ?_⟩
    rw [same]
    refine ⟨rfl, rfl, rfl, rfl, rfl, rfl, rfl, rfl, rfl, rfl, rfl, rfl, rfl, fun helper => ?_, rfl, rfl⟩
    simp [Flint.restarted, helper]
  · obtain ⟨frames, seqs, dropped, same⟩ := s.flintReset_eq
    obtain ⟨f, ended, hiber, curve, rtc, -⟩ := s.endSession_outer 1 5
    refine ⟨_, exec_brownout up, ?_⟩
    rw [same, ended]
    exact ⟨hiber, rfl, curve, rtc⟩
  · obtain ⟨made, ran⟩ := exec_rtcWake_samples weighs untimed period free codes volts
    refine ⟨_, ran, ?_⟩
    have parts := (s.wokenDrop_dropParts codes volts).trans (State.drop_dropParts ..)
    have field {α : Type} (p : DropView → α) : p (s.wokenDrop codes volts).fl.dropView = _ := congrArg (fun x => p x.1) parts
    obtain ⟨-, -, -, -, -, -, -, -, hpos, hrtc, hwakes⟩ := DropView.moved_kept (s.woken.fl.dropView.weighed (s.woken.fl.newCodes (s.wakeCodes codes))
      (s.woken.fl.weigh (s.woken.fl.newCodes (s.wakeCodes codes)) (s.woken.fl.outOfRange (s.wakeCodes codes)) volts))
    refine ⟨(field DropView.rtc).trans hrtc, ((field DropView.wakes).trans hwakes).trans ?_, State.wakeTime_pos _ _, (field DropView.pos).trans hpos⟩
    exact congrArg (· + bit s.fl.hiber) (Lan.boundary_wakes _)

end Sys2Proof.Machine
end

-- Twin attachment.
section
/-!
PROOFS of 17_twin_and_faults.md. TWIN_ATTACH and TWIN_DETACH (R395, R398, R422).
-/
namespace Sys2Proof.Machine

/-! ### A mode change leaves everything but the mailboxes, the path to Flint and the mode -/

/-- The state without its mailboxes, the path to Flint and the count of open values. -/
def State.chipOnly (s : State) : State := { s with mbx := [], toFlint := [], free := 0 }

theorem State.respond_chipOnly (s : State) (m : Nat) (c : Cmd) (status : Nat) (words : List W32) : (s.respond m c status words).chipOnly = s.chipOnly := rfl

theorem State.dropFollowed_chipOnly (s : State) : s.dropFollowed.chipOnly = s.chipOnly := by
  unfold State.dropFollowed
  exact foldl_keeps (p := State.chipOnly) (fun t m => foldl_keeps (p := State.chipOnly) (fun u c => u.respond_chipOnly m c eTwin []) _ t) _ s

theorem State.tellTwin_chipOnly (s : State) : s.tellTwin.chipOnly = s.chipOnly := by
  unfold State.tellTwin
  split <;> rfl

theorem State.answerFor_chipOnly (s : State) (op status : Nat) (words : List W32) : (s.answerFor op status words).chipOnly = s.chipOnly := by
  unfold State.answerFor
  split <;> rfl

theorem State.drawWords_chipOnly (k : Nat) (s : State) : (State.drawWords k s).1.chipOnly = s.chipOnly := by
  induction k generalizing s with
  | zero => rfl
  | succ k ih => exact ih s.draw.1

/-- The twin in a mode that no change waits to leave. -/
def Tw.inMode (t : Tw) (m : TwinMode) : Tw := { t with mode := m, modeNext := none, soloNext := false }

theorem State.setMode_chipOnly (s : State) {m : TwinMode} (other : m ≠ .paired) : (s.setMode m).chipOnly = { s.chipOnly with tw := s.tw.inMode m } := by
  have dropped : (if s.follows && m != .paired then s.dropFollowed else s).chipOnly = s.chipOnly := by
    split
    · exact s.dropFollowed_chipOnly
    · rfl
  unfold State.setMode
  dsimp only
  rw [State.tellTwin_chipOnly]
  generalize (if s.follows && m != .paired then s.dropFollowed else s) = u at dropped ⊢
  simp only [if_neg other]
  exact congrArg (fun v : State => { v with tw := v.tw.inMode m }) dropped

/-! ### TWIN_ATTACH and TWIN_DETACH (R395, R398) -/

/-- Leadership of a new pair: the device that holds contexts, else role A. -/
def State.leads (s : State) (t : TwinId) : Bool := if s.holdsCtx = t.holds then s.role == 1 else s.holdsCtx

theorem State.attach_chipOnly (s : State) (t : TwinId) : (s.attach t).chipOnly = { s.chipOnly with
    tw := { s.tw with
      attached := true, leader := s.leads t, id := t.id, fw := t.fw, keyed := true, txCtr := 0, rxCtr := 0, recv := [], sent := [], missed := 0
      mine := [], theirs := [], history := [], locals := [], sync := none, twinRetired := 0, announced := false, verdict := none }.inMode .solo } := by
  have drawn := State.drawWords_chipOnly 16 s
  unfold State.attach
  dsimp only
  rw [State.setMode_chipOnly _ (by decide)]
  generalize State.drawWords 16 s = d at drawn ⊢
  exact congrArg (fun v : State => { v with
    tw := { v.tw with
      attached := true, leader := s.leads t, id := t.id, fw := t.fw, keyed := true, txCtr := 0, rxCtr := 0, recv := [], sent := [], missed := 0
      mine := [], theirs := [], history := [], locals := [], sync := none, twinRetired := 0, announced := false, verdict := none }.inMode .solo }) drawn

theorem State.detach_chipOnly (s : State) : s.detach.chipOnly = { s.chipOnly with
    fcu := { s.fcu with holdTx := false }
    tw := { s.tw with
      attached := false, leader := false, keyed := false, recv := [], sent := [], missed := 0, mine := [], theirs := [], locals := [], history := []
      sync := none, twinRetired := 0, announced := false }.inMode .none } := by
  have answered := s.answerFor_chipOnly 0x53 eTwin []
  unfold State.detach
  rw [State.setMode_chipOnly _ (by decide)]
  generalize s.answerFor 0x53 eTwin [] = u at answered ⊢
  exact congrArg (fun v : State => { v with
    fcu := { v.fcu with holdTx := false }
    tw := { v.tw with
      attached := false, leader := false, keyed := false, recv := [], sent := [], missed := 0, mine := [], theirs := [], locals := [], history := []
      sync := none, twinRetired := 0, announced := false }.inMode .none }) answered

section
variable {s : State} (alone : s.tw.attached = false) (configured : s.lifecycle ≠ 0)
include alone configured

/-- Without an answer, over a link that is up or down, there is no twin. -/
theorem attachCheck_silent : attachCheck none s = .error (eTwin, []) := by
  unfold attachCheck
  rw [need_bind (by rw [alone]; rfl), need_bind (decide_eq_true configured)]
  cases link : s.twinLink with
  | false => rw [need_bind_false rfl]
  | true => rw [need_bind rfl]

theorem attachCheck_ok {t : TwinId} (other : t.role ≠ s.role) (role : t.role = 1 ∨ t.role = 2)
    (want : (s.dev.board.map fun b => b.twinId).getD 0 = 0 ∨ (s.dev.board.map fun b => b.twinId).getD 0 = t.id)
    (authentic : t.sigOk = true) (link : s.twinLink = true) : attachCheck (some t) s = .ok t := by
  unfold attachCheck
  rw [need_bind (by rw [alone]; rfl), need_bind (decide_eq_true configured), need_bind link]
  dsimp only
  rw [need_bind (decide_eq_true ⟨other, role⟩), need_bind (decide_eq_true want), need_bind authentic]
  rfl
end

section
variable {s : State} {m tag : Nat} {c : Cmd}

theorem exec_twinAttach_rejects (ready : s.ready m tag 0x50 c) (alone : s.tw.attached = false) (configured : s.lifecycle ≠ 0) :
    exec (.twinAttach m tag false none) s = .next (s.finish m c eTwin [] []) := by
  refine State.run_rejects ready ?_
  rw [attachCheck_silent alone configured]
  rfl

theorem exec_twinAttach_attaches {t : TwinId} (ready : s.ready m tag 0x50 c) (checked : attachCheck (some t) s = .ok t) :
    exec (.twinAttach m tag false (some t)) s = .next ((s.attach t).finish m c sOk (w64 t.id ++ [w32 t.fw, w32 t.role]) []) := by
  refine State.run_ready ready ?_
  rw [checked]
  rfl

theorem exec_twinDetach_detaches (ready : s.ready m tag 0x51 c) (attached : s.tw.attached = true) :
    exec (.twinDetach m tag false) s = .next (s.detach.finish m c sOk [] []) := by
  refine State.run_ready ready ?_
  rw [need_bind attached]
  rfl

theorem exec_twinDetach_rejects (ready : s.ready m tag 0x51 c) (alone : s.tw.attached = false) :
    exec (.twinDetach m tag false) s = .next (s.finish m c eState [] []) :=
  State.run_rejects ready (need_bind_false alone)
end

/-- Settles O26: the checks of R395 decide, and a mode change leaves all but the mailboxes and the twin. -/
theorem twinAttachment : Obligations.TwinAttachment := by
  unfold Obligations.TwinAttachment
  intro s m tag c t
  refine ⟨fun ready alone configured => ⟨exec_twinAttach_rejects ready alone configured, fun other role want authentic link => ?_⟩,
    fun ready => ⟨fun attached => ?_, exec_twinDetach_rejects ready⟩⟩
  · refine ⟨_, exec_twinAttach_attaches ready (attachCheck_ok alone configured other role want authentic link), ?_⟩
    have part {α : Type} (p : State → α) : p (s.attach t).chipOnly = _ := congrArg p (s.attach_chipOnly t)
    exact ⟨part fun v => v.tw.attached, part fun v => v.tw.mode, part fun v => v.tw.id, part fun v => v.tw.txCtr, part fun v => v.tw.rxCtr,
      part fun v => v.tw.leader, part State.ctxs, part State.gal, part State.geodes⟩
  · refine ⟨_, exec_twinDetach_detaches ready attached, ?_⟩
    have part {α : Type} (p : State → α) : p s.detach.chipOnly = _ := congrArg p s.detach_chipOnly
    exact ⟨part fun v => v.tw.attached, part fun v => v.tw.mode, part fun v => v.tw.keyed, part fun v => v.fcu.holdTx, part State.ctxs, part State.geodes⟩

end Sys2Proof.Machine
end

-- Power entry.
section
/-!
PROOFS of 16_power_states.md. The entry handshake and the commit (R370 to R374, R382, R390).
-/
namespace Sys2Proof.Machine

/-! ### The entry handshake (R370 to R372) -/

/-- A block has agreed. -/
def State.agreedBy (s : State) (b : Nat) : State := s.withPw fun p => { p with asking := none, agreed := b :: p.agreed }

/-- Flint has been asked, and the controller waits for it. -/
def State.asksFlint (s : State) (t : Nat) : State := (s.askBlock 12 t [] false).1.withPw fun p => { p with asking := some 12 }

section
variable {s : State} {t : Nat} {busy : List Nat}

/-- A block that agrees passes the handshake on to the next one. -/
theorem State.askFrom_agrees {b : Nat} {again : Bool} (target : s.pw.target = some t) (quiet : s.raised t = 0) (goes : s.pw.abort = false) (later : b ≠ 1)
    (last : b ≤ 12) (agrees : s.askBlock b t busy again = (s, .agree)) (k : Nat) :
    State.askFrom (k + 1) s b busy again = State.askFrom k (s.agreedBy b) (b + 1) busy false := by
  have aborts : (s.agreedBy b).pw.abort = false := goes
  rw [State.askFrom]
  simp only [target]
  rw [if_neg (not_lt.mpr last), if_neg (not_not.mpr quiet), if_neg (fun h => later h.1), if_neg later, agrees]
  exact if_neg (Bool.eq_false_iff.mp aborts)

/-- Every block from 2 to 11 of an idle device agrees when it is asked. -/
theorem State.askBlock_idle {b : Nat} (idle : s.blocksIdle t) (first : 2 ≤ b) (last : b ≤ 11) : s.askBlock b t [] false = (s, .agree) := by
  obtain ⟨cd, fl, none', still, stopped, drained, filled, settled, steady, well, -, -⟩ := idle
  have firings : (s.geodes.any fun g => g.firing.isSome) = false := by simpa using still
  have slabs : (s.gal.slabs.any fun x => x.state == .zeroing || x.converting) = false := by simpa using settled
  have changes : (s.pw.dvfs.any fun d => d.2.2) = false := by simpa using steady
  have contexts : ¬ (t = 3 ∧ (s.ctxs.any fun c => c.state == .running) = true) := by
    rintro ⟨deep, runs⟩
    obtain ⟨c, mem, running⟩ := List.any_eq_true.mp runs
    exact stopped deep c mem (beq_iff_eq.mp running)
  have shelf : (t != 3 && s.shelf.state == .draining) = false := by
    by_cases deep : t = 3
    · simp [deep]
    · simp [drained deep]
  have fault : ¬ (t = 3 ∧ s.fcu.faultN = true) := fun h => by simp [well h.1] at h
  interval_cases b
  · simp only [State.askBlock, if_pos (And.intro cd fl)]; rfl
  · simp only [State.askBlock, none']; rfl
  · simp only [State.askBlock, if_neg contexts, firings]; rfl
  · rfl
  · rfl
  · simp only [State.askBlock, shelf]; rfl
  · simp only [State.askBlock, filled, slabs]; rfl
  · simp only [State.askBlock, changes]; rfl
  · rfl
  · simp only [State.askBlock, if_neg fault]

/-- On an idle device the handshake passes from block `b` to Flint. -/
theorem State.askFrom_idle (j e : Nat) {b : Nat} (ends : b + j = 12) (first : 2 ≤ b) (target : s.pw.target = some t) (idle : s.blocksIdle t) :
    State.askFrom (j + e + 1) s b [] false = ((List.range' b j).foldl State.agreedBy s).asksFlint t := by
  induction j generalizing s b with
  | zero =>
    have ⟨_, _, _, _, _, _, _, _, _, _, quiet, _⟩ := idle
    obtain rfl : b = 12 := by omega
    rw [State.askFrom]
    simp only [target]
    rw [if_neg (by decide), if_neg (not_not.mpr quiet), if_neg (fun h => absurd h.1 (by decide)), if_neg (by decide)]
    rfl
  | succ j ih =>
    have ⟨_, _, _, _, _, _, _, _, _, _, quiet, goes⟩ := idle
    have agrees := State.askBlock_idle idle first (show b ≤ 11 by omega)
    rw [show j + 1 + e + 1 = (j + e + 1) + 1 by omega, State.askFrom_agrees target quiet goes (by omega) (by omega) agrees]
    exact ih (s := s.agreedBy b) (by omega) (by omega) target idle
end

theorem State.agreedAll (l : List Nat) (s : State) :
    ∃ asking, l.foldl State.agreedBy s = s.withPw fun p => { p with asking := asking, agreed := l.reverse ++ p.agreed } := by
  induction l generalizing s with
  | nil => exact ⟨s.pw.asking, rfl⟩
  | cons b l ih =>
    obtain ⟨asking, all⟩ := ih (s.agreedBy b)
    refine ⟨asking, ?_⟩
    rw [List.foldl_cons, all]
    simp [State.agreedBy, State.withPw]

theorem State.asksFlint_parts (s : State) (t : Nat) : (s.asksFlint t).pw = { s.pw with asking := some 12, flintAck := false } ∧ (s.asksFlint t).geodes = s.geodes ∧
    (s.asksFlint t).gal = s.gal ∧ (s.asksFlint t).mbx = s.mbx ∧ (s.asksFlint t).tw = s.tw :=
  ⟨rfl, rfl, rfl, rfl, rfl⟩

/-- Where the controller waits for Flint: it has asked it, and the blocks 2 to 11 have agreed. -/
theorem State.askedAll_parts (s : State) (t : Nat) : let u := ((List.range' 2 10).foldl State.agreedBy s).asksFlint t
    u.pw = { s.pw with asking := some 12, agreed := [11, 10, 9, 8, 7, 6, 5, 4, 3, 2] ++ s.pw.agreed, flintAck := false } ∧ u.geodes = s.geodes ∧ u.gal = s.gal ∧
      u.mbx = s.mbx ∧ u.tw = s.tw := by
  obtain ⟨asking, all⟩ := State.agreedAll (List.range' 2 10) s
  obtain ⟨pw, geodes, gal, mbx, tw⟩ := State.asksFlint_parts ((List.range' 2 10).foldl State.agreedBy s) t
  dsimp only
  rw [pw, geodes, gal, mbx, tw, all]
  exact ⟨rfl, rfl, rfl, rfl, rfl⟩

section
variable {s : State} {t : Nat}

theorem exec_powerHandshakeStart (serves : s.dev.die = .serving) (active : s.pw.state = 0) (target : s.pw.target = some t) (asking : s.pw.asking = none)
    (notReady : s.pw.ready = false) (start : s.pw.agreed = []) (alone : s.tw.mode ≠ .paired) (idle : s.blocksIdle t) :
    exec (.powerHandshakeStart []) s = .next (((List.range' 2 10).foldl State.agreedBy s).asksFlint t) := by
  have ⟨_, _, _, _, _, _, _, _, _, _, quiet, _⟩ := idle
  have guard : ¬ ((s.dev.die != .serving || s.pw.state ≠ 0 || s.pw.target.isNone || s.pw.asking.isSome || s.pw.ready || !s.pw.agreed.isEmpty) = true) := by
    simp [serves, active, target, asking, notReady, start]
  have skips : State.askFrom 13 s 1 [] false = State.askFrom 12 s 2 [] false := by
    rw [State.askFrom]
    simp only [target]
    rw [if_neg (by decide), if_neg (not_not.mpr quiet), if_pos ⟨trivial, by simp [alone]⟩]
  simp only [exec, execPowerHandshakeStart, if_neg guard]
  rw [skips, State.askFrom_idle 10 1 rfl (by decide) target idle]

/-- Flint's acknowledgement makes the entry ready. -/
theorem exec_blockAnswer_ready (target : s.pw.target = some t) (asking : s.pw.asking = some 12) (ack : s.pw.flintAck = true)
    (latched : t = 3 → s.conduit.rtc.isSome = true) (quiet : s.raised t = 0) (goes : s.pw.abort = false) :
    exec (.blockAnswer [] 0) s = .next (s.withPw fun p => { p with asking := none, agreed := 12 :: p.agreed, ready := true }) := by
  have held : (t == 3 && s.conduit.rtc.isNone) = false := by
    by_cases deep : t = 3
    · obtain ⟨x, some'⟩ := Option.isSome_iff_exists.mp (latched deep)
      simp [some']
    · simp [deep]
  have agrees : s.askBlock 12 t [] true = (s, .agree) := by
    simp only [State.askBlock, ack, held]
    rfl
  have done : State.askFrom 12 (s.agreedBy 12) 13 [] false = (s.agreedBy 12).withPw fun p => { p with asking := none, ready := true } := by
    rw [State.askFrom]
    simp only [show (s.agreedBy 12).pw.target = some t from target]
    exact if_pos (by decide)
  simp only [exec, execBlockAnswer, target, asking]
  rw [if_neg (by decide), State.askFrom_agrees target quiet goes (by decide) (by decide) agrees, done]
  rfl

theorem State.refused_rollback (goes : s.pw.abort = false) (b cause : Nat) :
    s.refused b cause = (s.withPw fun p => { p with pend := none }).rollback 2 b cause := by
  unfold State.refused
  rw [goes]
  rfl

theorem exec_blockAnswer_refuses {cause : Nat} (refuses : cause ≠ 0) (target : s.pw.target = some t) (asking : s.pw.asking = some 1) (goes : s.pw.abort = false) :
    exec (.blockAnswer [] cause) s = .next ((s.withPw fun p => { p with pend := none }).rollback 2 1 cause) := by
  simp only [exec, execBlockAnswer, target, asking, if_true, if_neg refuses, State.refused_rollback goes]

/-- Commands that are still outstanding refuse with block 3's number and cause. -/
theorem exec_blockDelayTimeout_outstanding (target : s.pw.target = some t) (asking : s.pw.asking = some 3) (works : s.outstanding ≠ [])
    (goes : s.pw.abort = false) : exec (.blockDelayTimeout []) s = .next ((s.withPw fun p => { p with pend := none }).rollback 2 3 3) := by
  have delays : s.askBlock 3 t [] true = (s, .delay) := by
    simp only [State.askBlock, List.isEmpty_eq_false_iff.mpr works]
    rfl
  simp only [exec, execBlockDelayTimeout, target, asking, delays]
  exact congrArg Host.Outcome.next (State.refused_rollback goes 3 3)

/-- The follower with the entry that its leader told. -/
def State.told (s : State) (t ticks : Nat) (follows : Bool) : State :=
  (s.withPw fun p => { p with target := some t, ticks := ticks, debugFollows := follows, follower := true }).withTw fun x => { x with announced := true }

theorem exec_followerHandshake (follows : s.follows = true) (serves : s.dev.die = .serving) (active : s.pw.state = 0) (free : s.pw.target = none)
    (low : 1 ≤ t) (high : t ≤ 3) (idle : s.blocksIdle t) (ticks : Nat) (df : Bool) : exec (.followerHandshake t ticks df []) s =
      .next (((List.range' 2 10).foldl State.agreedBy (s.told t ticks df)).asksFlint t) := by
  have guard : ¬ ((!s.follows || s.dev.die != .serving || s.pw.state ≠ 0 || 4 ≤ t) = true) := by simp [follows, serves, active]; omega
  have starts := State.askFrom_idle (s := s.told t ticks df) 10 2 rfl (by decide) rfl idle
  simp only [exec, execFollowerHandshake, if_neg guard, if_neg (show ¬ t = 0 by omega), free]
  exact congrArg Host.Outcome.next starts

/-! ### The commit (R369, R373, R380, R382) -/

/-- With empty command FIFOs and no source raised, nothing stops the commit. -/
theorem State.commitTo_goes (empty : ∀ b ∈ s.mbx, b.cmd = []) (quiet : s.raised t = 0) : s.commitTo t = if t = 3 then s.commitDeep else s.commitShallow t := by
  have fifos : (s.mbx.any fun b => !b.cmd.isEmpty) = false := by simpa using empty
  unfold State.commitTo
  simp only [fifos, Bool.false_eq_true, if_false, quiet, ne_eq, not_true_eq_false]

theorem exec_commits_shallow (target : s.pw.target = some t) (shallow : t = 1 ∨ t = 2) (ready : s.pw.ready = true) :
    exec (if s.pw.follower then Instr.sbSync else .entryCommit) s = .next (s.commitTo t) := by
  have depth : (t == 1 || t == 2) = true := by simpa using shallow
  cases follower : s.pw.follower with
  | true => simp only [if_true, exec, execSbSync, target, ready, follower, Bool.and_true]
  | false => simp [exec, execEntryCommit, target, ready, follower, depth]

theorem exec_commits_deep (target : s.pw.target = some 3) (ready : s.pw.ready = true) :
    exec (if s.pw.follower then Instr.sbSync else .hibernateEntry) s = .next (s.commitTo 3) := by
  cases follower : s.pw.follower with
  | true => simp only [if_true, exec, execSbSync, target, ready, follower, Bool.and_true]
  | false => simp [exec, execHibernateEntry, target, ready, follower]

theorem State.commitShallow_parts (pend : s.pw.pend = none) (t : Nat) :
    (s.commitShallow t).pw = { (if t = 2 then s.latchPads else s).pw with
      state := t, target := none, asking := none, agreed := [], ready := false, follower := false, reached := none, outcome := 1, block := 0, cause := 0 } ∧
    (s.commitShallow t).geodes = s.geodes ∧ (s.commitShallow t).gal = s.gal ∧ (s.commitShallow t).ctxs = s.ctxs := by
  unfold State.commitShallow
  rw [pend]
  by_cases pads : t = 2
  · simp only [if_pos pads]
    exact ⟨rfl, rfl, rfl, rfl⟩
  · simp only [if_neg pads]
    exact ⟨rfl, rfl, rfl, rfl⟩
end

/-- HIBERNATE keeps nothing of the compute die. -/
theorem State.commitDeep_parts (s : State) : s.commitDeep.pw.state = 3 ∧ s.commitDeep.pw.held = s.pw.held ||| 7 ∧ s.commitDeep.dev.die = .inReset ∧
    s.commitDeep.geodes = State.reset.geodes ∧ s.commitDeep.gal = State.reset.gal ∧ s.commitDeep.ctxs = State.reset.ctxs ∧
    s.commitDeep.mbx = State.reset.mbx ∧ s.commitDeep.fcuRecs = [] ∧ s.commitDeep.fl.hiber = true ∧ s.commitDeep.fl.mode = .none := by
  obtain ⟨f, ended, -⟩ := s.latchPads.endSession_outer 0 3
  obtain ⟨g, ended', -⟩ := { s.latchPads with fl := f }.endSession_outer 1 3
  unfold State.commitDeep
  rw [ended, ended']
  exact ⟨rfl, rfl, rfl, rfl, rfl, rfl, rfl, rfl, rfl, rfl⟩

/-- Settles O40: on an idle device the handshake passes block by block to Flint, and nothing stops a commit that is ready. -/
theorem powerEntry : Obligations.PowerEntry := by
  unfold Obligations.PowerEntry
  intro s t
  refine ⟨fun serves active target _ _ asking notReady start alone idle => ?_, exec_blockAnswer_ready, fun cause => exec_blockAnswer_refuses,
    exec_blockDelayTimeout_outstanding, fun follows serves active free low high idle ticks df => ?_, fun target shallow ready empty quiet pend => ?_,
    fun target ready empty quiet => ?_⟩
  · obtain ⟨pw, geodes, gal, mbx, -⟩ := s.askedAll_parts t
    refine ⟨_, exec_powerHandshakeStart serves active target asking notReady start alone idle, ?_⟩
    rw [pw, start]
    exact ⟨rfl, rfl, rfl, active, target, geodes, gal, mbx⟩
  · obtain ⟨pw, geodes, gal, -, tw⟩ := (s.told t ticks df).askedAll_parts t
    refine ⟨_, exec_followerHandshake follows serves active free low high idle ticks df, ?_⟩
    rw [pw, tw]
    exact ⟨rfl, rfl, rfl, rfl, rfl, rfl, geodes, gal⟩
  · obtain ⟨pw, geodes, gal, ctxs⟩ := State.commitShallow_parts pend t
    refine ⟨_, (exec_commits_shallow target shallow ready).trans (congrArg Host.Outcome.next (State.commitTo_goes empty quiet)), ?_⟩
    rw [if_neg (show ¬ t = 3 by omega), pw]
    refine ⟨rfl, rfl, rfl, rfl, rfl, ?_, geodes, gal, ctxs⟩
    split <;> rfl
  · refine ⟨_, (exec_commits_deep target ready).trans (congrArg Host.Outcome.next (State.commitTo_goes empty quiet)), ?_⟩
    rw [if_pos rfl]
    exact s.commitDeep_parts

end Sys2Proof.Machine
end

-- Wakes.
section
/-!
PROOFS of 16_power_states.md. Wake sources, the abort of an entry and the exit from HIBERNATE (R375 to R378, R381).
-/
namespace Sys2Proof.Machine

/-! ### Wake sources (R375, R376) -/

theorem bitAt_setBit_self (n k : Nat) : bitAt (setBit n k) k = true := by
  unfold setBit
  split
  · assumption
  · next clear =>
    simp only [bitAt, Nat.add_div_right _ (Nat.two_pow_pos k)] at clear ⊢
    simp at clear ⊢
    omega

section
variable {s : State}

theorem State.raiseLevel_masked {k : Nat} (masked : bitAt s.pw.masked k = true) : s.raiseLevel k = s := if_pos masked

theorem State.raiseLevel_free {k : Nat} (free : bitAt s.pw.masked k = false) :
    s.raiseLevel k = (s.withPw fun p => { p with levels := setBit p.levels k }).wakeActs := if_neg (Bool.eq_false_iff.mp free)

/-- Without an entry in progress a source does nothing out of ROOST and TORPOR. -/
theorem State.wakeActs_idle (target : s.pw.target = none) (high : ¬ (s.pw.state = 1 ∨ s.pw.state = 2)) : s.wakeActs = s := by
  unfold State.wakeActs
  simp only [target, if_neg high]

/-- During an entry before its commit a source that acts aborts it. -/
theorem State.wakeActs_aborts {t : Nat} (target : s.pw.target = some t) (active : s.pw.state = 0) (acts : s.raised t ≠ 0) :
    s.wakeActs = s.abortWake (s.raised t) := by
  unfold State.wakeActs
  simp only [target, if_pos (And.intro active acts)]

/-- In ROOST and TORPOR the controller sees a host access at once. -/
theorem State.wakeActs_sees (target : s.pw.target = none) (low : s.pw.state = 1 ∨ s.pw.state = 2) (host : bitAt s.pw.levels 6 = true)
    (idle : s.fl.committed = false) : s.wakeActs = s.withPw fun p => { p with seen := setBit p.seen 6 } := by
  unfold State.wakeActs
  simp only [target, if_pos low, if_pos host]
  exact State.answerCommit_waits (.inl idle)

/-- In ACTIVE, without an entry in progress, a source that rises is held. -/
theorem State.raiseLevel_active {k : Nat} (free : bitAt s.pw.masked k = false) (target : s.pw.target = none) (active : s.pw.state = 0) :
    s.raiseLevel k = s.withPw fun p => { p with levels := setBit p.levels k } :=
  (State.raiseLevel_free free).trans (State.wakeActs_idle (s := s.withPw _) target (show ¬ (s.pw.state = 1 ∨ s.pw.state = 2) by omega))

/-- What a rollback leaves where no first entry had completed. -/
theorem State.rollback_parts (reached : s.pw.reached = none) (outcome block cause : Nat) : (s.rollback outcome block cause).pw = { s.pw with
      target := none, asking := none, agreed := [], abort := false, ready := false, follower := false, outcome := outcome, block := block, cause := cause } ∧
    (s.rollback outcome block cause).geodes = s.geodes ∧ (s.rollback outcome block cause).ctxs = s.ctxs := by
  unfold State.rollback
  dsimp only
  split
  next some' _ => exact absurd (reached.symm.trans some') (by simp)
  next =>
    cases s.pw.asking == some 12 || s.pw.agreed.contains 12 with
    | true => exact ⟨rfl, rfl, rfl⟩
    | false => exact ⟨rfl, rfl, rfl⟩

/-- What an abort leaves: no target, the outcome and the source's bits. -/
theorem State.abortWake_parts {bits : Nat} (rule : s.fl.lan.wakeRule = 0) : (s.abortWake bits).pw.target = none ∧ (s.abortWake bits).pw.pend = none ∧
    (s.abortWake bits).pw.agreed = [] ∧ (s.abortWake bits).pw.state = s.pw.state ∧ (s.abortWake bits).pw.outcome = 3 ∧
    (s.abortWake bits).pw.cause = 0x0F ∧ (s.abortWake bits).pw.wakeCause = bits ∧ (s.abortWake bits).geodes = s.geodes ∧
    (s.abortWake bits).ctxs = s.ctxs := by
  have cause : (bits + if bitAt bits 1 then s.fl.lan.wakeRule * 2 ^ 24 else 0) = bits := by simp [rule]
  unfold State.abortWake
  rw [cause]
  obtain ⟨pw, geodes, ctxs⟩ := State.rollback_parts (s := s.withPw fun p => { p with pend := none, reached := none, wakeCause := bits }) rfl 3 0 0x0F
  dsimp only
  generalize (s.withPw fun p => { p with pend := none, reached := none, wakeCause := bits }).rollback 3 0 0x0F = u at pw geodes ctxs ⊢
  have part {α : Type} (p : Pw → α) : p u.pw = _ := congrArg p pw
  exact ⟨part Pw.target, part Pw.pend, part Pw.agreed, part Pw.state, part Pw.outcome, part Pw.cause, part Pw.wakeCause, geodes, ctxs⟩

theorem State.raiseEdge_hibernate (asleep : s.pw.state = 3) (target : s.pw.target = none) (k : Nat) :
    s.raiseEdge k = s.withPw fun p => { p with edges := setBit p.edges k } := by
  unfold State.raiseEdge
  rw [asleep, target]
  exact State.wakeActs_idle (s := s.withPw _) target (show ¬ (s.pw.state = 1 ∨ s.pw.state = 2) by omega)

/-! ### The events that raise them (R375 to R377, R381) -/

theorem exec_wake {src : Nat} (up : s.fl.up = true) (named : src ∈ [1, 6, 7, 9, 10]) : exec (.wake src) s = .next (s.raiseLevel src) := by
  simp only [exec, execWake, up]
  simp only [List.mem_cons, List.not_mem_nil, or_false] at named
  obtain rfl | rfl | rfl | rfl | rfl := named <;> rfl

theorem exec_wakePin_level {pin : Nat} (level : Bool) (up : s.fl.up = true) (target : s.pw.target = none) (active : s.pw.state = 0)
    (free : bitAt s.pw.masked (2 + pin) = false) (mode : s.pinMode pin = 4) :
    exec (.wakePin pin level) s = .next (s.withPw fun p =>
      { p with
        pins := if level then setBit p.pins pin else clearBit p.pins pin
        levels := if level then setBit p.levels (2 + pin) else clearBit p.levels (2 + pin)
        masked := if level then p.masked else clearBit p.masked (2 + pin) }) := by
  simp only [exec, execWakePin, up, State.setPin, mode]
  cases level with
  | true => exact congrArg Host.Outcome.next (State.raiseLevel_active (s := s.withPw _) free target active)
  | false => rfl

theorem exec_wakePin_disabled {pin : Nat} (level : Bool) (up : s.fl.up = true) (mode : s.pinMode pin = 0) :
    exec (.wakePin pin level) s = .next (s.withPw fun p => { p with pins := if level then setBit p.pins pin else clearBit p.pins pin }) := by
  simp only [exec, execWakePin, up, State.setPin, mode]
  rfl

theorem exec_hostAccessWake (low : s.pw.state = 1 ∨ s.pw.state = 2) : exec .hostAccessWake s = .next (s.raiseLevel 6) := by
  simp only [exec, execHostAccessWake]
  exact if_neg (by omega)

theorem exec_tckWake_deaf (other : s.fl.lifecycle ≠ 1) : exec .tckWake s = .next s := by
  simp only [exec, execTckWake]
  exact if_pos (.inr (.inr other))

theorem exec_tckWake_develop (develop : s.fl.lifecycle = 1) (asleep : s.pw.state = 3) : exec .tckWake s = .next (s.raiseEdge 8) := by
  simp only [exec, execTckWake]
  exact if_neg (by simp [develop, asleep])

theorem exec_hibernateExit (asleep : s.pw.state = 3) (raised : s.raised 3 ≠ 0) (quiet : bitAt (s.raised 3) 8 = false) : exec .hibernateExit s =
    .next (((s.withFl fun f => { f with wakeBits := s.raised 3, ldoLow := false }).withPw fun p => { p with state := 0 }).withDev fun d =>
      { d with fromHib := true }) := by
  have pads : s.tdoFree (s.raised 3) = s := if_neg (Bool.eq_false_iff.mp quiet)
  simp only [exec, execHibernateExit, pads]
  exact if_neg (by simp [asleep, raised])
end

/-- Settles O41: each event raises its source, and a raised source acts by the power state. -/
theorem wakes : Obligations.Wakes := by
  unfold Obligations.Wakes
  intro s
  refine ⟨fun src up named free => ⟨fun target active => ?_, fun t target shallow active levels edges acting _ rule => ?_⟩, fun src up named masked => ?_,
    fun pin level up _ target active free mode => exec_wakePin_level level up target active free mode, fun pin level up mode => exec_wakePin_disabled level up mode,
    fun low target free idle => ?_, exec_tckWake_deaf, fun develop asleep target => ?_, fun up free target active => ⟨?_, ?_⟩, exec_hibernateExit⟩
  · rw [exec_wake up named, State.raiseLevel_active free target active]
  · have bits : (s.withPw fun p => { p with levels := setBit p.levels src }).raised t = 2 ^ src := by
      have mask : actsIn t = 0x1FE := if_neg (by omega)
      have risen : (s.withPw fun p => { p with levels := setBit p.levels src }).raised t = (setBit s.pw.levels src ||| s.pw.edges) &&& actsIn t := rfl
      rw [risen, mask, levels, edges]
      simp only [List.mem_cons, List.not_mem_nil, or_false] at acting
      obtain rfl | rfl | rfl := acting <;> decide
    have aborts := (State.raiseLevel_free free).trans (State.wakeActs_aborts (s := s.withPw _) target active (by rw [bits]; exact (Nat.two_pow_pos src).ne'))
    rw [bits] at aborts
    refine ⟨_, (exec_wake up named).trans (congrArg Host.Outcome.next aborts), ?_⟩
    obtain ⟨target', pend, agreed, state, outcome, cause, wakeCause, geodes, ctxs⟩ := State.abortWake_parts (bits := 2 ^ src)
      (s := s.withPw fun p => { p with levels := setBit p.levels src }) rule
    exact ⟨target', pend, agreed, state.trans active, outcome, cause, wakeCause, geodes, ctxs⟩
  · rw [exec_wake up named, State.raiseLevel_masked masked]
  · have seen := (State.raiseLevel_free free).trans (State.wakeActs_sees (s := s.withPw _) target low (bitAt_setBit_self s.pw.levels 6) idle)
    exact ⟨_, (exec_hostAccessWake low).trans (congrArg Host.Outcome.next seen), bitAt_setBit_self _ 6, bitAt_setBit_self _ 6, rfl, rfl⟩
  · rw [exec_tckWake_develop develop asleep, State.raiseEdge_hibernate asleep target]
  · simp only [exec, execSbWake, up]
    exact congrArg Host.Outcome.next (State.raiseLevel_active free target active)
  · simp only [exec, execSbWake, up]
    rfl

end Sys2Proof.Machine
end

-- Power limits.
section
/-!
PROOFS of 16_power_states.md. The power mean, the reductions, the thermal limit and the trip (R386, R387).
-/
namespace Sys2Proof.Machine

/-! ### What a record leaves -/

theorem State.recNew_only (s : State) (wasEmpty : Bool) : ∃ mbx, s.recNew wasEmpty = { s with mbx := mbx } := by
  unfold State.recNew
  split
  · exact ⟨_, rfl⟩
  · exact ⟨_, rfl⟩

/-- A record of the MP moves its store and the mailboxes alone. -/
theorem State.addRec_only (s : State) (code ctx geode unit strm interval : Nat) (detail : List W32) : ∃ mbx recSeq mpRecs recLost,
    s.addRec code ctx geode unit strm interval detail = { s with mbx := mbx, recSeq := recSeq, mpRecs := mpRecs, recLost := recLost } := by
  unfold State.addRec
  dsimp only
  split
  · obtain ⟨mbx, told⟩ := State.recNew_only { s with
      recSeq := s.recSeq + 1, mpRecs := s.mpRecs ++ [s.mkRec false code ctx geode unit strm interval detail] } (s.recCount == 0)
    exact ⟨mbx, _, _, _, told⟩
  · exact ⟨_, _, _, _, rfl⟩

/-- A record of the FCU moves its store and the mailboxes alone. -/
theorem State.addFcuRec_only (s : State) (code unit : Nat) (detail : List W32) : ∃ mbx recSeq fcuRecs,
    s.addFcuRec code unit detail = { s with mbx := mbx, recSeq := recSeq, fcuRecs := fcuRecs } := by
  unfold State.addFcuRec
  split
  · obtain ⟨mbx, told⟩ := State.recNew_only { s with
      recSeq := s.recSeq + 1, fcuRecs := s.fcuRecs ++ [s.mkRec true code 0xFF 0xFF unit 0xFF 0 detail] } (s.recCount == 0)
    exact ⟨mbx, _, _, told⟩
  · exact ⟨_, _, _, rfl⟩

/-! ### Measured power (R386) -/

section
variable {s : State}

/-- The state that a power sample leaves where the limit is not in force. -/
def State.sampled (s : State) (p : Nat) (temps : List Nat) : State :=
  let l := (p :: s.pw.samples).take 1000
  let below := (s.allowance.map fun a => decide (10 * l.sum < 9 * a * l.length)).getD false
  let cool := if temps.all fun t => decide (t < 95) then s.pw.cool + 1 else 0
  (s.withPw fun x => { x with samples := l, mean := l.sum / l.length, temps := temps, low := if below then x.low + 1 else 0, cool := cool }).withFcu fun f =>
    { f with trip := f.trip && !(temps.all fun t => decide (t < 115)) }

theorem exec_powerSample (runs : s.mpRuns = true) (free : s.pw.limit = false) (p : Nat) (temps : List Nat) :
    exec (.powerSample p temps) s = .next (s.sampled p temps) := by
  simp only [exec, execPowerSample, runs, State.withFcu_pw, State.withPw_pw, free]
  rfl

/-! ### The allowance (R387) -/

theorem State.setHalved_pw (s : State) (c n : Nat) : (s.setHalved c n).pw = { s.pw with halved := s.pw.halved.set c n } := by
  unfold State.setHalved
  dsimp only
  split
  · exact State.writeBudgets_pw _ c
  · rfl

/-- Above the allowance a second ends with the next reduction. -/
theorem exec_throttle_reduces {a : Nat} {u : State} (twin : Nat) (allowance : s.allowance = some a) (alone : s.tw.mode ≠ .paired) (runs : s.mpRuns = true)
    (free : s.pw.limit = false) (above : a < s.pw.mean) (step : s.reduceStep = some u) : exec (.throttle twin) s = .next (u.throttleEvent s.pw.mean) := by
  have mean : max s.pw.mean (if s.tw.mode = .paired then twin else 0) = s.pw.mean := by rw [if_neg alone, Nat.max_zero]
  simp only [exec, execThrottle, allowance, mean, runs, free, if_pos above, step]
  rfl

theorem State.reduceStep_context {c : Nat} (turn : s.nextReduced = some c) :
    s.reduceStep = some ((s.withPw fun p => { p with steps := c :: p.steps }).setHalved c (s.pw.halved.getD c 0 + 1)) := by
  simp only [State.reduceStep, turn]

theorem State.reduceStep_point (none' : s.nextReduced = none) (point : s.pw.points.getD 0 0 = 2) :
    s.reduceStep = some (s.withPw fun p => { p with steps := 24 :: p.steps, points := upd p.points 0 fun x => x - 1 }) := by
  simp only [State.reduceStep, none']
  exact if_neg (by omega)

/-! ### The limits of the junctions (R387) -/

/-- The limit in force: the lowest points and 1/16 budgets. -/
def State.limited (s : State) (sensor temp : Nat) : State :=
  s.withPw fun p =>
    { p with
      limit := true, cool := 0, saved := p.points, savedHalved := p.halved, temps := p.temps.set sensor temp
      points := [0, p.points.getD 1 0, 0], halved := List.replicate 24 4 }

theorem exec_thermalLimit {temp : Nat} (sensor : Nat) (runs : s.mpRuns = true) (hot : 105 ≤ temp) (free : s.pw.limit = false) : exec (.thermalLimit sensor temp) s =
    .next (((s.limited sensor temp).rebudget.throttleEvent (s.limited sensor temp).pw.mean).addRec 0x0504 0xFF 0xFF 0xFF 0xFF 0
      [w32 (sensor % 256 + temp % 256 * 2 ^ 8)]) := by
  simp only [exec, execThermalLimit]
  rw [if_neg (by simp [runs, hot, free])]
  rfl

theorem exec_thermalTrip {temp : Nat} (sensor : Nat) (out : s.dev.die ≠ .inReset) (hot : 115 ≤ temp) (free : s.fcu.trip = false) : exec (.thermalTrip sensor temp) s =
    .next ((s.withFcu fun f => { f with trip := true, clock := true, failed := setBit f.failed 1, faultN := true }).addFcuRec 0x0503 1
      [w32 (sensor % 256 + temp % 256 * 2 ^ 8)]) := by
  simp only [exec, execThermalTrip]
  exact if_neg (by simp [out, hot, free])

/-- A clock fault stops the firings. -/
theorem State.mayFire_clock (fault : s.fcu.clock = true) : s.mayFire = false := by
  simp [State.mayFire, fault]
end

/-- Settles O42: each sample and limit by the equation of its handler. -/
theorem powerLimits : Obligations.PowerLimits := by
  unfold Obligations.PowerLimits
  intro s
  refine ⟨fun p temps runs free => ?_, fun twin a c allowance alone runs free above turn inside => ?_,
    fun twin a allowance alone runs free above none' point => exec_throttle_reduces twin allowance alone runs free above (State.reduceStep_point none' point),
    fun sensor temp runs hot free => ?_, fun sensor temp out hot free => ?_⟩
  · exact ⟨_, exec_powerSample runs free p temps, rfl, rfl, rfl, rfl, rfl, rfl, rfl⟩
  · refine ⟨_, exec_throttle_reduces twin allowance alone runs free above (State.reduceStep_context turn), ?_⟩
    rw [State.setHalved_pw]
    refine ⟨rfl, ?_, rfl, fun k other => ?_⟩
    · simp [inside]
    · simp [List.getElem?_set_ne (Ne.symm other)]
  · obtain ⟨geodes, budgets⟩ := (s.limited sensor temp).rebudget_geodes
    obtain ⟨mbx, recSeq, mpRecs, recLost, recorded⟩ := ((s.limited sensor temp).rebudget.throttleEvent (s.limited sensor temp).pw.mean).addRec_only
      0x0504 0xFF 0xFF 0xFF 0xFF 0 [w32 (sensor % 256 + temp % 256 * 2 ^ 8)]
    refine ⟨_, exec_thermalLimit sensor runs hot free, ?_⟩
    rw [recorded, budgets]
    exact ⟨rfl, rfl, rfl, rfl, rfl, rfl⟩
  · obtain ⟨mbx, recSeq, fcuRecs, recorded⟩ := (s.withFcu fun f =>
      { f with trip := true, clock := true, failed := setBit f.failed 1, faultN := true }).addFcuRec_only 0x0503 1 [w32 (sensor % 256 + temp % 256 * 2 ^ 8)]
    refine ⟨_, exec_thermalTrip sensor out hot free, ?_⟩
    rw [recorded]
    exact ⟨rfl, rfl, rfl, bitAt_setBit_self _ 1, State.mayFire_clock rfl, rfl, rfl⟩

end Sys2Proof.Machine
end

-- Alerts and watches.
section
/-!
PROOFS of 17_twin_and_faults.md. The alert wire, heartbeat, lockstep and clock watches, and the failover (R393, R394, R407 to R412).
-/
namespace Sys2Proof.Machine

/-! ### Records with room (R416) -/

theorem State.addRec_room {s : State} (room : s.mpRecs.length < 128) (code ctx geode unit strm interval : Nat) (detail : List W32) :
    (s.addRec code ctx geode unit strm interval detail).mpRecs.map FRec.code = s.mpRecs.map FRec.code ++ [code] := by
  obtain ⟨mbx, told⟩ := State.recNew_only { s with
    recSeq := s.recSeq + 1, mpRecs := s.mpRecs ++ [s.mkRec false code ctx geode unit strm interval detail] } (s.recCount == 0)
  unfold State.addRec
  dsimp only
  rw [if_pos room, told]
  exact List.map_append

theorem State.addRec_length {s : State} (room : s.mpRecs.length < 128) (code ctx geode unit strm interval : Nat) (detail : List W32) :
    (s.addRec code ctx geode unit strm interval detail).mpRecs.length = s.mpRecs.length + 1 := by
  have codes := congrArg List.length (State.addRec_room room code ctx geode unit strm interval detail)
  rwa [List.length_map, List.length_append, List.length_map] at codes

theorem State.addFcuRec_length {s : State} (room : s.fcuRecs.length < 8) (code unit : Nat) (detail : List W32) :
    (s.addFcuRec code unit detail).fcuRecs.length = s.fcuRecs.length + 1 := by
  obtain ⟨mbx, told⟩ := State.recNew_only { s with
    recSeq := s.recSeq + 1, fcuRecs := s.fcuRecs ++ [s.mkRec true code 0xFF 0xFF unit 0xFF 0 detail] } (s.recCount == 0)
  unfold State.addFcuRec
  rw [if_pos room, told]
  exact List.length_append

/-! ### Alert frames (R393, R394, R411, R412) -/

/-- The report of the twin's state moves the mailboxes alone. -/
theorem State.tellTwin_only (s : State) : ∃ mbx, s.tellTwin = { s with mbx := mbx } := by
  unfold State.tellTwin
  split
  · exact ⟨_, rfl⟩
  · exact ⟨_, rfl⟩

section
variable {s : State}

theorem exec_alertFrame {w : Nat} (on : s.alertsOn = true) (sync : fld w 8 8 = 0xA5) (check : fld w 4 4 = 15 - fld w 0 4) : exec (.alertFrame w) s =
    .next (s.withFcu fun f => { f with runCause := fld w 0 4, runLen := if f.runCause = fld w 0 4 then min 8 (f.runLen + 1) else 1 }) := by
  simp only [exec, execAlertFrame]
  exact if_neg (by simp [on, sync, check])

theorem exec_alertFrame_ignored {w : Nat} (wrong : fld w 8 8 ≠ 0xA5 ∨ fld w 4 4 ≠ 15 - fld w 0 4) : exec (.alertFrame w) s = .next s := by
  simp only [exec, execAlertFrame]
  refine if_pos ?_
  rcases wrong with sync | check
  · exact .inl sync
  · exact .inr (.inl check)

section
variable (eight : s.fcu.runLen = 8) (new : s.fcu.runCause ≠ s.fcu.rx)
include eight new

theorem exec_alertCauseApplied_signal (cause : s.fcu.runCause = 2) (out : s.dev.die ≠ .inReset) :
    exec .alertCauseApplied s = .next (s.withFcu fun f => { f with rx := f.runCause, twinSignal := true }).tellTwin := by
  have guard : ¬ (s.fcu.runLen < 8 ∨ s.fcu.runCause = s.fcu.rx) := by simp [eight, new]
  have noHold : ¬ s.fcu.runCause = 4 := by omega
  simp only [exec, execAlertCauseApplied]
  exact (if_neg guard).trans ((if_neg noHold).trans ((if_neg out).trans (congrArg (fun u : State => Host.Outcome.next u.tellTwin) (if_pos (Or.inl cause)))))

theorem exec_alertCauseApplied_hold (cause : s.fcu.runCause = 4) :
    exec .alertCauseApplied s = .next (s.withFcu fun f => { f with rx := f.runCause }).holdDie := by
  have guard : ¬ (s.fcu.runLen < 8 ∨ s.fcu.runCause = s.fcu.rx) := by simp [eight, new]
  simp only [exec, execAlertCauseApplied]
  exact (if_neg guard).trans (if_pos cause)
end

/-- A hold leaves the alert receiver, drives FAULT_N, and resets the compute die. -/
theorem State.holdDie_parts (s : State) : s.holdDie.fcu.rx = s.fcu.rx ∧ s.holdDie.fcu.held = true ∧ s.holdDie.fcu.faultN = true ∧ s.holdDie.dev.die = .inReset := by
  obtain ⟨f, ended, -⟩ := (s.withFcu fun f => { f with held := true, faultN := true }).endSession_outer 0 4
  unfold State.holdDie State.computeReset State.flintSees
  rw [ended]
  exact ⟨rfl, rfl, rfl, rfl⟩

theorem exec_alertAbsent (heard : s.fcu.rx ≠ 0) (serves : s.dev.die = .serving) (unannounced : s.tw.announced = false) :
    exec .alertAbsent s = .next (((s.withFcu fun f => { f with rx := 0, runCause := 0, runLen := 0 }).addRec 0x0404 0xFF 0xFF 0xFF 0xFF 0 []).tellTwin) := by
  simp only [exec, execAlertAbsent, if_neg heard, serves, unannounced]
  rfl

/-- The survivor with its two records. -/
def State.survived (s : State) : State :=
  (((s.withFcu fun f => { f with holdTx := true }).addRec 0x0401 0xFF 0xFF 0xFF 0xFF 0 [w32 s.fcu.rx]).addRec 0x0402 0xFF 0xFF 0xFF 0xFF 0 []).withTw fun t =>
    { t with leader := true, soloNext := true }

theorem exec_twinFailover (runs : s.mpRuns = true) (may : s.mayHold = true) (free : s.fcu.holdTx = false) (generator : s.running = true) :
    exec .twinFailover s = .next s.survived.tellTwin := by
  simp only [exec, execTwinFailover, runs, may, free, generator]
  rfl

theorem State.survived_parts (room : s.mpRecs.length < 127) : s.survived.fcu.holdTx = true ∧ s.survived.tw = { s.tw with leader := true, soloNext := true } ∧
    s.survived.mpRecs.map FRec.code = s.mpRecs.map FRec.code ++ [0x0401, 0x0402] := by
  have first := State.addRec_room (s := s.withFcu fun f => { f with holdTx := true }) (show s.mpRecs.length < 128 by omega)
    0x0401 0xFF 0xFF 0xFF 0xFF 0 [w32 s.fcu.rx]
  have one := State.addRec_length (s := s.withFcu fun f => { f with holdTx := true }) (show s.mpRecs.length < 128 by omega)
    0x0401 0xFF 0xFF 0xFF 0xFF 0 [w32 s.fcu.rx]
  obtain ⟨mbx, recSeq, mpRecs, recLost, same⟩ := (s.withFcu fun f => { f with holdTx := true }).addRec_only 0x0401 0xFF 0xFF 0xFF 0xFF 0 [w32 s.fcu.rx]
  unfold State.survived
  rw [same] at first one ⊢
  have second := State.addRec_room (s := { (s.withFcu fun f => { f with holdTx := true }) with mbx := mbx, recSeq := recSeq, mpRecs := mpRecs, recLost := recLost })
    (show mpRecs.length < 128 from one ▸ (show s.mpRecs.length + 1 < 128 by omega)) 0x0402 0xFF 0xFF 0xFF 0xFF 0 []
  obtain ⟨mbx', recSeq', mpRecs', recLost', same'⟩ := State.addRec_only
    { (s.withFcu fun f => { f with holdTx := true }) with mbx := mbx, recSeq := recSeq, mpRecs := mpRecs, recLost := recLost } 0x0402 0xFF 0xFF 0xFF 0xFF 0 []
  rw [same'] at second ⊢
  refine ⟨rfl, rfl, second.trans ?_⟩
  rw [first, List.append_assoc]
  rfl

theorem exec_holdEnd (held : s.fcu.held = true) (over' : s.fcu.rx ≠ 4) :
    exec .holdEnd s = .next (s.withFcu fun f => { f with held := false, faultN := false }) := by
  simp only [exec, execHoldEnd]
  exact if_neg (by simp [held, over'])

/-! ### The heartbeat, lockstep and clock watches (R56, R407, R409) -/

theorem exec_heartbeatTick (runs : s.mpRuns = true) :
    exec .heartbeatTick s = .next (s.withDev fun d => { d with heartbeat := (d.heartbeat + 1) % 2 ^ 32 }) := by
  simp only [State.mpRuns, Bool.and_eq_true, beq_iff_eq, Bool.not_eq_true'] at runs
  obtain ⟨⟨⟨⟨serves, -⟩, runs⟩, free⟩, active⟩ := runs
  simp only [exec, execHeartbeatTick]
  exact if_pos (by simp [serves, runs, free, active])

section
variable (out : s.dev.die = .starting ∨ s.dev.die = .serving) (active : s.pw.state = 0)
include out active

theorem exec_heartbeatMiss (free : s.sec.dbgHalt = false) (watched : s.fcu.quiet.getD 5 0 = 0) : exec .heartbeatMiss s = .next (s.haltMp 2) := by
  have exempt : decide (0 < s.fcu.quiet.getD 5 0) = false := by rw [watched]; rfl
  simp only [exec, execHeartbeatMiss, exempt]
  refine if_neg ?_
  rcases out with die | die <;> simp [die, active, free]

theorem exec_mpLockstepDiverge : exec .mpLockstepDiverge s = .next (s.haltMp 1) := by
  simp only [exec, execMpLockstepDiverge]
  refine if_neg ?_
  rcases out with die | die <;> simp [die, active]
end

theorem exec_heartbeatMiss_debugged (halted : s.sec.dbgHalt = true) : exec .heartbeatMiss s = .next s := by
  simp only [exec, execHeartbeatMiss, halted]
  exact if_pos (by simp)

theorem State.haltMp_records (runs : s.fcu.mpHalt = false) (room : s.fcuRecs.length < 8) (detail : Nat) :
    (s.haltMp detail).fcuRecs.length = s.fcuRecs.length + 1 := by
  unfold State.haltMp
  rw [if_neg (Bool.eq_false_iff.mp runs)]
  exact State.addFcuRec_length (s := s.withFcu _) room _ _ _

/-- A window of domain 0 counts down the exemption that covers the heartbeat. -/
def State.windowed (s : State) : State := s.withFcu fun f => { f with quiet := upd f.quiet 5 fun n => n - 1 }

/-- The window of a watched REFCLK25: its count is within 12.5 % of 2,560, or it is a clock fault. -/
theorem State.clockWindow_ref (out : s.dev.die ≠ .inReset) (high : s.pw.state ≤ 2) (watched : s.unwatched 0 = false) (count : Nat) : s.clockWindow 0 count =
    if 2240 ≤ count ∧ count ≤ 2880 then .next (s.windowed.withFcu fun f => { f with failed := clearBit f.failed 0 })
    else if bitAt s.fcu.failed 0 then .next s.windowed else .next (s.windowed.clockFault 0 count) := by
  have guard : (s.windowed.dev.die == .inReset || decide (3 ≤ s.windowed.pw.state) || decide (4 < 0)) = false := by
    have die : (s.windowed.dev.die == .inReset) = false := beq_eq_false_iff_ne.mpr out
    have state : decide (3 ≤ s.windowed.pw.state) = false := decide_eq_false (show ¬ 3 ≤ s.pw.state by omega)
    rw [die, state]
    rfl
  have looks : s.windowed.unwatched 0 = false := by
    rw [← watched]
    simp only [State.unwatched, State.windowed, State.withFcu, upd_getD_ne (show 5 ≠ 0 by decide)]
  have within : decide (s.windowed.expectClk 0 < 8 * (count - s.windowed.expectClk 0 + (s.windowed.expectClk 0 - count))) =
      !decide (2240 ≤ count ∧ count ≤ 2880) := by
    rw [show s.windowed.expectClk 0 = 2560 from rfl, ← decide_not]
    exact decide_eq_decide.mpr (by omega)
  unfold State.clockWindow
  simp only [if_true]
  rw [show (s.withFcu fun f => { f with quiet := upd f.quiet 5 fun n => n - 1 }) = s.windowed from rfl]
  simp only [guard, looks, within]
  by_cases inside : 2240 ≤ count ∧ count ≤ 2880
  · simp only [decide_eq_true inside, if_pos inside]
    rfl
  · simp only [decide_eq_false inside, if_neg inside]
    rfl

theorem State.clockFault_parts (clear : s.fcu.failed = 0) (count : Nat) : (s.clockFault 0 count).fcu.clock = true ∧ (s.clockFault 0 count).fcu.faultN = true ∧
    (s.clockFault 0 count).fcu.failed = 1 ∧ (s.clockFault 0 count).dev = s.dev := by
  unfold State.clockFault
  simp only [State.addFcuRec_parts]
  exact ⟨rfl, rfl, congrArg (setBit · 0) clear, rfl⟩
end

/-- Settles O29: the watches and the alert receiver by the equations of their handlers. -/
theorem alertsAndWatches : Obligations.AlertsAndWatches := by
  unfold Obligations.AlertsAndWatches
  refine ⟨fun s w => ⟨exec_alertFrame, exec_alertFrame_ignored, fun eight new => ⟨fun cause out => ?_, fun cause => ?_⟩, fun heard serves unannounced room => ?_,
    fun runs may free generator room => ?_, exec_holdEnd⟩, fun s count b => ⟨fun runs => ⟨_, exec_heartbeatTick runs, rfl⟩, fun out active runs room =>
    ⟨fun free watched => ?_, exec_heartbeatMiss_debugged, ?_⟩, fun receives watched clear => ?_, fun runs new may => ?_, fun _ => rfl⟩⟩
  · obtain ⟨mbx, told⟩ := (s.withFcu fun f => { f with rx := f.runCause, twinSignal := true }).tellTwin_only
    refine ⟨_, exec_alertCauseApplied_signal eight new cause out, ?_⟩
    rw [told]
    exact ⟨cause, rfl, rfl⟩
  · obtain ⟨rx, held, driven, die⟩ := (s.withFcu fun f => { f with rx := f.runCause }).holdDie_parts
    exact ⟨_, exec_alertCauseApplied_hold eight new cause, rx.trans cause, held, driven, die⟩
  · obtain ⟨mbx, recSeq, mpRecs, recLost, same⟩ := (s.withFcu fun f => { f with rx := 0, runCause := 0, runLen := 0 }).addRec_only 0x0404 0xFF 0xFF 0xFF 0xFF 0 []
    have length := State.addRec_length (s := s.withFcu fun f => { f with rx := 0, runCause := 0, runLen := 0 }) room 0x0404 0xFF 0xFF 0xFF 0xFF 0 []
    refine ⟨_, exec_alertAbsent heard serves unannounced, ?_⟩
    rw [same] at length ⊢
    obtain ⟨mbx', told⟩ := State.tellTwin_only
      { (s.withFcu fun f => { f with rx := 0, runCause := 0, runLen := 0 }) with mbx := mbx, recSeq := recSeq, mpRecs := mpRecs, recLost := recLost }
    rw [told]
    exact ⟨rfl, length⟩
  · obtain ⟨holdTx, tw, codes⟩ := State.survived_parts room
    obtain ⟨mbx, told⟩ := s.survived.tellTwin_only
    refine ⟨_, exec_twinFailover runs may free generator, ?_⟩
    rw [told]
    have part {α : Type} (p : Tw → α) : p s.survived.tw = _ := congrArg p tw
    exact ⟨holdTx, part Tw.leader, part Tw.soloNext, part Tw.mode, codes⟩
  · obtain ⟨halted, driven, -⟩ := State.haltMp_halts runs 2
    exact ⟨_, exec_heartbeatMiss out active free watched, halted, driven, State.haltMp_records runs room 2⟩
  · obtain ⟨halted, driven, -⟩ := State.haltMp_halts runs 1
    exact ⟨_, exec_mpLockstepDiverge out active, halted, driven, State.haltMp_records runs room 1⟩
  · have ⟨⟨out, clock⟩, high⟩ : (s.dev.die ≠ .inReset ∧ s.dev.refclk = true) ∧ s.pw.state ≤ 2 := by simpa [State.receives] using receives
    have fine : (s.withDev fun d => { d with refclk := true }) = s := by
      rw [← clock]
      rfl
    have unmarked : ¬ bitAt s.fcu.failed 0 = true := by rw [clear]; decide
    refine ⟨fun low most => ?_, fun outside => ?_, ?_⟩
    · simp only [exec, execClockMonitorWindow, if_true, fine]
      rw [State.clockWindow_ref out high watched, if_pos ⟨low, most⟩]
      have cleared : clearBit s.fcu.failed 0 = s.fcu.failed := by rw [clear]; rfl
      exact congrArg (fun n => Host.Outcome.next (s.windowed.withFcu fun f => { f with failed := n })) cleared
    · have ran : exec (.clockMonitorWindow 0 count true) s = .next (s.windowed.clockFault 0 count) := by
        simp only [exec, execClockMonitorWindow, if_true, fine]
        rw [State.clockWindow_ref out high watched, if_neg (by omega), if_neg unmarked]
      obtain ⟨fault, driven, failed, -⟩ := State.clockFault_parts (s := s.windowed) clear count
      exact ⟨_, ran, fault, driven, failed⟩
    · have ran : exec (.clockMonitorWindow 0 count false) s = .next ((s.withDev fun d => { d with refclk := false }).windowed.clockFault 0 0) := by
        have none' : ¬ (2240 ≤ 0 ∧ 0 ≤ 2880) := by decide
        simp only [exec, execClockMonitorWindow, Bool.false_eq_true, if_false]
        exact (State.clockWindow_ref (s := s.withDev fun d => { d with refclk := false }) out high watched 0).trans ((if_neg none').trans (if_neg unmarked))
      obtain ⟨fault, driven, -, dev⟩ := State.clockFault_parts (s := (s.withDev fun d => { d with refclk := false }).windowed) clear 0
      refine ⟨_, ran, ?_, ?_, fault, driven⟩
      · rw [dev]
        rfl
      · rw [State.qtzRuns, dev]
        simp [State.windowed, State.withFcu, State.withDev]
  · have goes : (b == s.fcu.holdTx || (b && !s.mayHold)) = false := by
      cases b with
      | true => simp [may rfl, beq_eq_false_iff_ne.mpr new]
      | false => simp [beq_eq_false_iff_ne.mpr new]
    refine ⟨(s.withFcu fun f => { f with holdTx := b }).twinEvent, ?_, rfl⟩
    simp only [exec, execFcuHoldWrite]
    exact congrArg Host.Outcome.next (if_neg (Bool.eq_false_iff.mp goes))

end Sys2Proof.Machine
end

-- Start and resets.
section
/-!
PROOFS of 19_startup.md. RST_N, rails, the always-on supply, the start and the calibration of the firmware (R443 to R446, R454, R459, R460).
-/
namespace Sys2Proof.Machine

/-! ### Resets and supplies (R443, R444, R454, R459, R460) -/

section
variable {s : State}

/-- Everything of the compute die is as after a reset; Flint sees the reset and keeps what it keeps. -/
theorem State.computeReset_eq (s : State) : ∃ f : Flint, s.computeReset = ({ s with fl := { f with hello := false, mode := .none } } : State).clearCompute ∧
    f.p = s.fl.p ∧ f.records = s.fl.records := by
  obtain ⟨f, ended, -, -, -, p, records⟩ := s.endSession_outer 0 4
  refine ⟨f, ?_, p, records⟩
  unfold State.computeReset State.flintSees
  rw [ended]
  rfl

theorem exec_rstNLow (shallow : s.pw.state ≤ 2) : exec .rstNLow s = .next (s.computeReset.withDev fun d => { d with rstN := false }) :=
  if_pos (decide_eq_true shallow)

theorem exec_railUndervoltage (shallow : s.pw.state ≤ 2) : exec .railUndervoltage s = .next (s.computeReset.withDev fun d => { d with rails := false }) :=
  if_pos (decide_eq_true shallow)

theorem exec_resets_deep (deep : 3 ≤ s.pw.state) : exec .rstNLow s = .next s ∧ exec .railUndervoltage s = .next s := by
  have kept : ¬ s.resettable = true := by simp [State.resettable]; omega
  exact ⟨if_neg kept, if_neg kept⟩

theorem exec_aonPowerDown (powered : s.dev.aon = true) : exec .aonPowerDown s = .next s.off := by
  simp only [exec, execAonPowerDown, powered]
  rfl

/-- OFF keeps Flint's MRAM alone. -/
theorem State.off_parts (s : State) : s.off.pw.state = 4 ∧ s.off.dev.aon = false ∧ s.off.dev.die = .inReset ∧ s.off.fl.up = false ∧ s.off.fcuRecs = [] ∧
    s.off.fl.p = s.fl.p ∧ s.off.fl.records = s.fl.records := by
  obtain ⟨f, ended, -, -, -, p, records⟩ := s.endSession_outer 0 4
  unfold State.off State.flintSees
  rw [ended]
  exact ⟨rfl, rfl, rfl, rfl, rfl, p, records⟩

/-- Flint as its supply starts it, with helper data: MRAM, the secret as the PUF gives it, the valid firmware slot. -/
def Flint.powered (f : Flint) (puf : Bool) : Flint :=
  { f.mram with up := true, helper := true, secret := puf, running := f.pickSlot, use := ⟨f.p, f.curve, f.events, 0, false⟩ }

theorem exec_aonPowerUp (off : s.dev.aon = false) (helper : s.fl.helper = true) (puf : Bool) :
    exec (.aonPowerUp puf) s = .next ((({ s with pw := {} } : State).withFl fun _ => s.fl.powered puf).withDev fun d => { d with aon := true }) := by
  simp only [exec, execAonPowerUp, off, helper]
  rfl

/-! ### The start of the compute die (R14, R81, R445) -/

/-- The state in which the compute die has started. -/
def State.started (s : State) (veins down : List Nat) : State :=
  (({ s with geodes := (List.range 32).map fun g => geodeStart (veins.getD g 0) } : State).withDev fun d =>
    { d with die := .starting, rails := true, rstN := true, down := down.filter (· < 3) }).sendFlint 0xF6 [1]

theorem exec_computeDieStart (reset : s.dev.die = .inReset) (active : s.pw.state = 0) (free : s.fcu.held = false) (up : s.fl.up = true)
    (clock : s.dev.refclk = true) (veins down : List Nat) : exec (.computeDieStart veins down) s = .next (s.started veins down) := by
  simp only [exec, execComputeDieStart]
  exact if_neg (by simp [reset, active, free, up, clock])

theorem State.started_geode (veins down : List Nat) {g : Nat} (inside : g < 32) : (s.started veins down).geode g = geodeStart (veins.getD g 0) := by
  have geodes : (s.started veins down).geodes = (List.range 32).map fun g => geodeStart (veins.getD g 0) := rfl
  unfold State.geode
  rw [geodes]
  simp [List.getD, inside]

theorem exec_flintStateTimeout (starts : s.dev.die = .starting) :
    exec .flintStateTimeout s = .next (s.withDev fun d => { d with die := .serving, phase := 0, stateLost := true }) := by
  simp only [exec, execFlintStateTimeout, starts]
  rfl

theorem exec_pllLockTimeout {domain : Nat} (starts : s.dev.die = .starting) (named : domain ≤ 4) (count : Nat) : exec (.pllLockTimeout domain count) s =
    .next ((s.withDev fun d => { d with die := .noPll, down := if domain = 4 then [0, 1, 2] else d.down }).clockFault domain count) := by
  simp only [exec, execPllLockTimeout]
  exact if_neg (by simp [starts, named])

theorem State.clockFault_fcu (s : State) (domain count : Nat) : (s.clockFault domain count).fcu =
    { s.fcu with clock := true, failed := setBit s.fcu.failed domain, faultN := true } ∧ (s.clockFault domain count).dev = s.dev :=
  State.addFcuRec_parts ..

/-! ### The calibration of the firmware (R446) -/

/-- A Geode that its start-up test has passed. -/
def Geode.passed (d : Geode) : Geode := { d with kat := { d.kat with done := true, fail := false, unit := 0 } }

theorem State.startKat_passes {g : Nat} (works : (s.geode g).retired = false) : s.startKat g none = s.withGeode g Geode.passed := by
  unfold State.startKat
  rw [works]
  rfl

/-- A Geode that works, with neither a spare Vein in use nor a retirement. -/
def Geode.whole (d : Geode) : Bool := !d.retired && !d.spareUsed

theorem State.geode_passed (g k : Nat) : (s.withGeode g Geode.passed).geode k = s.geode k ∨ (s.withGeode g Geode.passed).geode k = (s.geode k).passed := by
  by_cases same : g = k
  · subst same
    by_cases inside : g < s.geodes.length
    · exact .inr (State.geode_withGeode_self inside)
    · refine .inl ?_
      unfold State.geode
      rw [State.withGeode_geodes, upd_ge (not_lt.mp inside)]
  · exact .inl (State.geode_withGeode_ne same)

/-- The tests of some whole Geodes pass: they are done, and nothing but the Geodes moves. -/
theorem State.startKats_pass (l : List Nat) (whole : ∀ k, (s.geode k).whole = true) :
    ∃ geodes, l.foldl (fun s g => s.startKat g none) s = { s with geodes := geodes } ∧ geodes.length = s.geodes.length ∧
      ∀ k, (geodes.getD k {}).whole = true ∧ (k < s.geodes.length → k ∈ l ∨ (s.geode k).kat.done = true ∧ (s.geode k).kat.fail = false →
        (geodes.getD k {}).kat.done = true ∧ (geodes.getD k {}).kat.fail = false) := by
  induction l generalizing s with
  | nil => exact ⟨s.geodes, rfl, rfl, fun k => ⟨whole k, fun _ had => had.resolve_left (List.not_mem_nil)⟩⟩
  | cons g l ih =>
    have works : (s.geode g).retired = false := by
      have one := whole g
      simp only [Geode.whole, Bool.and_eq_true, Bool.not_eq_true'] at one
      exact one.1
    have still (k : Nat) : ((s.withGeode g Geode.passed).geode k).whole = true := by
      rcases s.geode_passed g k with same | passed
      · rw [same]; exact whole k
      · rw [passed]; exact whole k
    obtain ⟨geodes, ran, length, each⟩ := ih still
    have kept : (s.withGeode g Geode.passed).geodes.length = s.geodes.length := upd_length ..
    refine ⟨geodes, ?_, length.trans kept, fun k => ⟨(each k).1, fun inside had => (each k).2 (kept ▸ inside) ?_⟩⟩
    · rw [List.foldl_cons, State.startKat_passes works, ran]
      rfl
    · by_cases later : k ∈ l
      · exact .inl later
      · refine .inr ?_
        by_cases this : k = g
        · rw [this, State.geode_withGeode_self (this ▸ inside)]
          exact ⟨rfl, rfl⟩
        · have done : (s.geode k).kat.done = true ∧ (s.geode k).kat.fail = false := had.resolve_left (by simp [this, later])
          rwa [State.geode_withGeode_ne (Ne.symm this)]

/-- Whole Geodes leave no record. -/
theorem State.veinRecs_none {before : List Geode} (whole : ∀ k, (before.getD k {}).whole = true) (l : List Nat) :
    l.foldl (fun s g => s.veinRec before g) s = s := by
  refine List.foldlRecOn (motive := fun t => t = s) l _ rfl fun t same g _ => ?_
  have one := whole g
  simp only [Geode.whole, Bool.and_eq_true, Bool.not_eq_true'] at one
  obtain ⟨works, spare⟩ := one
  rw [same]
  unfold State.veinRec
  simp only [works, spare]
  rfl

/-- The Gallery is filled with zeros, and its scrub runs. -/
def State.galFilled (s : State) : State :=
  s.withGal fun g => { g with initBusy := false, initDone := true, mem := [], poison := [], ce := [], ue := [], badTag := [], scrubEn := true, period := 8 }

theorem exec_firmwareSelfCalibration (runs : s.mpRuns = true) (phase : s.dev.phase = 1) (key : s.sec.galSet.length = 8) (cold : s.dev.fromHib = false)
    (whole : ∀ k, (s.geode k).whole = true) : exec (.firmwareSelfCalibration []) s =
      .next (((List.range 32).foldl (fun s g => s.startKat g none) s.galFilled).withDev fun d => { d with phase := 2 }) := by
  have guard : ¬ (!s.mpRuns || s.dev.phase ≠ 1 || s.sec.galSet.length ≠ 8) = true := by simp [runs, phase, key]
  have records (u : State) := State.veinRecs_none (s := u) (before := s.galFilled.geodes) whole (List.range 32)
  simp only [exec, execFirmwareSelfCalibration, if_neg guard, cold]
  exact congrArg (fun u : State => Host.Outcome.next (u.withDev fun d => { d with phase := 2 })) (records _)
end

/-- Settles O43: resets and supplies by the equations of their handlers, the calibration by the tests of its Geodes. -/
theorem startAndResets : Obligations.StartAndResets := by
  unfold Obligations.StartAndResets
  intro s
  refine ⟨fun shallow => ⟨?_, ?_⟩, exec_resets_deep, fun powered => ⟨_, exec_aonPowerDown powered, s.off_parts⟩,
    fun puf off helper => ⟨_, exec_aonPowerUp off helper puf, rfl, rfl, rfl, rfl, rfl, rfl⟩, fun veins down reset active free up clock => ?_,
    exec_flintStateTimeout, fun domain count starts named => ?_, fun runs phase key cold length plain => ?_, fun errs runs => ?_⟩
  · obtain ⟨f, reset, p, -⟩ := s.computeReset_eq
    refine ⟨_, exec_rstNLow shallow, ?_⟩
    rw [reset]
    exact ⟨rfl, rfl, rfl, rfl, rfl, rfl, rfl, rfl, rfl, rfl, p⟩
  · obtain ⟨f, reset, -, -⟩ := s.computeReset_eq
    refine ⟨_, exec_railUndervoltage shallow, ?_⟩
    rw [reset]
    exact ⟨rfl, rfl, rfl, rfl, rfl, rfl⟩
  · refine ⟨_, exec_computeDieStart reset active free up clock veins down, rfl, fun k => ?_, rfl, by simp [State.started, State.sendFlint, State.withDev],
      fun g inside => ?_, rfl⟩
    · show k ∈ down.filter (· < 3) ↔ _
      simp
    · rw [State.started_geode veins down inside]
      exact ⟨rfl, rfl⟩
  · refine ⟨_, exec_pllLockTimeout starts named count, ?_⟩
    obtain ⟨fcu, dev⟩ := State.clockFault_fcu (s.withDev fun d => { d with die := .noPll, down := if domain = 4 then [0, 1, 2] else d.down }) domain count
    rw [fcu, dev]
    exact ⟨rfl, rfl, rfl, bitAt_setBit_self _ domain⟩
  · have whole (k : Nat) : (s.geode k).whole = true := by
      unfold State.geode
      by_cases inside : k < s.geodes.length
      · obtain ⟨works, spare⟩ := plain _ (List.getElem_mem inside)
        simp [List.getD, inside, Geode.whole, works, spare]
      · simp [List.getD, inside, Geode.whole]
    obtain ⟨geodes, ran, same, each⟩ := State.startKats_pass (s := s.galFilled) (List.range 32) whole
    refine ⟨_, exec_firmwareSelfCalibration runs phase key cold whole, ?_⟩
    rw [ran]
    refine ⟨rfl, rfl, fun a => rfl, rfl, rfl, rfl, fun g inside => ?_⟩
    obtain ⟨whole', passes⟩ := each g
    obtain ⟨done, fail⟩ := passes (by rw [show s.galFilled.geodes.length = 32 from length]; exact inside) (.inl (List.mem_range.mpr inside))
    simp only [Geode.whole, Bool.and_eq_true, Bool.not_eq_true'] at whole'
    exact ⟨done, fail, whole'.1⟩
  · simp only [exec, execMpSramScrub, runs]
    rfl

end Sys2Proof.Machine
end

-- Debug port.
section
/-!
PROOFS of 18_security_and_debug.md. Levels, reads, writes and control operations of the debug port (R431 to R441).
-/
namespace Sys2Proof.Machine

/-! ### Levels and power (R431, R441) -/

section
variable {s : State}

section
variable (out : s.dev.die ≠ .inReset) (active : s.pw.state = 0)
include out active

/-- On the compute die in ACTIVE the session's level decides. -/
theorem State.dap_active (level : Nat) (act : State → State) :
    s.dap 0 level act = .next (if s.sec.cdLevel < level then s.dapAck 0 2 none else act s) := by
  have up : s.tapUp 0 = true := bne_iff_ne.mpr out
  have power : s.dapPower 0 = some 0 := if_pos active
  unfold State.dap
  rw [up, power]
  rfl

theorem State.dap_denied {level : Nat} (low : s.sec.cdLevel < level) (act : State → State) : s.dap 0 level act = .next (s.dapAck 0 2 none) := by
  rw [State.dap_active out active, if_pos low]

theorem State.dap_allowed {level : Nat} (high : level ≤ s.sec.cdLevel) (act : State → State) : s.dap 0 level act = .next (act s) := by
  rw [State.dap_active out active, if_neg (not_lt.mpr high)]
end

theorem State.dap_powerDown (out : s.dev.die ≠ .inReset) (torpor : s.pw.state = 2) (level : Nat) (act : State → State) :
    s.dap 0 level act = .next (s.dapAck 0 3 none) := by
  have up : s.tapUp 0 = true := bne_iff_ne.mpr out
  have power : s.dapPower 0 = some 3 := (if_pos rfl).trans (if_neg (by omega))
  unfold State.dap
  rw [up, power]
  rfl

theorem exec_dapRead_powerDown (out : s.dev.die ≠ .inReset) (torpor : s.pw.state = 2) (a : Nat) : exec (.dapRead 0 a) s = .next (s.dapAck 0 3 none) := by
  simp only [exec, execDapRead, State.dap_powerDown out torpor]

/-- A read without a session is denied. -/
theorem exec_dapRead_denied (out : s.dev.die ≠ .inReset) (active : s.pw.state = 0) (closed : s.sec.cdLevel = 0) (a : Nat) :
    exec (.dapRead 0 a) s = .next (s.dapAck 0 2 none) := by
  have low : s.sec.cdLevel < 1 := by omega
  simp only [exec, execDapRead, State.dap_denied out active low]

/-- A write and a control operation below INVASIVE are denied. -/
theorem exec_dap_denied (out : s.dev.die ≠ .inReset) (active : s.pw.state = 0) (low : s.sec.cdLevel < 2) (a : Nat) (v : W32) (t : Nat) :
    exec (.dapWrite 0 a v) s = .next (s.dapAck 0 2 none) ∧ exec (.dapHalt 0 t) s = .next (s.dapAck 0 2 none) ∧
      exec (.dapResume 0 t) s = .next (s.dapAck 0 2 none) ∧ exec (.dapStep 0 t) s = .next (s.dapAck 0 2 none) := by
  simp only [exec, execDapWrite, execDapHalt, execDapResume, execDapStep, State.dap_denied out active low, and_self]

/-! ### The map (R434) -/

theorem State.dapAt_gallery {p : Nat} (inside : p < 512 * 2 ^ 20) (write : Bool) : s.dapAt (0x8000000000 + p) write = .gal p := by
  unfold State.dapAt
  rw [if_neg (by omega), if_pos (by omega), Nat.add_sub_cancel_left]

theorem State.dapAt_pocket {g o : Nat} (geode : g < 32) (inside : o < 2 ^ 21) (write : Bool) :
    s.dapAt (0x9000000000 + g * 2 ^ 21 + o) write = .pocket g o := by
  unfold State.dapAt
  rw [if_neg (by omega), if_neg (by omega), if_pos (by omega), show (0x9000000000 + g * 2 ^ 21 + o - 0x9000000000) / 2 ^ 21 = g by omega,
    show (0x9000000000 + g * 2 ^ 21 + o) % 2 ^ 21 = o by omega]

theorem State.dapAt_sram {o : Nat} (inside : o < 262144) (write : Bool) : s.dapAt (0xA000000000 + o) write = .sram o := by
  unfold State.dapAt
  rw [if_neg (by omega), if_neg (by omega), if_neg (by omega), if_pos (by omega), Nat.add_sub_cancel_left]

/-! ### Reads (R208, R212, R434) -/

section
variable (out : s.dev.die ≠ .inReset) (active : s.pw.state = 0) (observe : 1 ≤ s.sec.cdLevel)
include out active observe

theorem exec_dapRead_pocket {g o : Nat} (geode : g < 32) (inside : o < 2 ^ 21) (lives : s.retiredG g = false) :
    exec (.dapRead 0 (0x9000000000 + g * 2 ^ 21 + o)) s = .next (s.dapAck 0 0 (some (leNat ((s.geode g).pocket.readN o 4)))) := by
  simp only [exec, execDapRead, State.dap_allowed out active observe, State.dapAt_pocket geode inside, lives]
  rfl

theorem exec_dapRead_sram {o : Nat} (inside : o < 262144) :
    exec (.dapRead 0 (0xA000000000 + o)) s = .next (s.dapAck 0 0 (some (leNat (s.sec.sram.readN o 4)))) := by
  simp only [exec, execDapRead, State.dap_allowed out active observe, State.dapAt_sram inside]
  rfl

/-- Until its first fill has ended, the Gallery makes a read wait. -/
theorem exec_dapRead_waits {p : Nat} (inside : p < 512 * 2 ^ 20) (shut : s.galOpen = false) :
    exec (.dapRead 0 (0x8000000000 + p)) s = .next (s.dapAck 0 1 none) := by
  simp only [exec, execDapRead, State.dap_allowed out active observe, State.dapAt_gallery inside, State.dapShut, shut]
  rfl

theorem exec_dapRead_gallery {p : Nat} (inside : p < 512 * 2 ^ 20) (filled : s.galOpen = true) :
    exec (.dapRead 0 (0x8000000000 + p)) s = .next ((s.storedRead p).1.dapAck 0 0 (some (s.storedRead p).2)) := by
  simp only [exec, execDapRead, State.dap_allowed out active observe, State.dapAt_gallery inside, State.dapShut, filled]
  rfl
end

/-- The bytes of a store's word: as they are stored in a protected slab. -/
theorem State.storedRead_value (s : State) (p : Nat) : s.storedRead p = (s.galEcc p 4 0, leNat
    (if ((s.galEcc p 4 0).gal.slab (p / 2 ^ 20)).state = .prot then (List.range 4).map fun i => (s.galEcc p 4 0).storedByte (p / 2 ^ 20) (p % 2 ^ 20 + i)
    else (s.galEcc p 4 0).gal.mem.readN p 4)) := by
  unfold State.storedRead
  dsimp only
  rw [apply_ite leNat]

/-! ### Writes and control operations (R431, R434) -/

section
variable (out : s.dev.die ≠ .inReset) (active : s.pw.state = 0) (invasive : 2 ≤ s.sec.cdLevel)
include out active invasive

theorem exec_dapWrite_sram {o : Nat} (inside : o < 262144) (v : W32) : exec (.dapWrite 0 (0xA000000000 + o) v) s =
    .next ((s.withSec fun d => { d with sram := d.sram.writeN o (leBytes 4 v.toNat) }).dapAck 0 0 none) := by
  simp only [exec, execDapWrite, State.dap_allowed out active invasive, State.dapAt_sram inside]
  rfl

theorem exec_dapWrite_protected {p : Nat} (inside : p < 512 * 2 ^ 20) (filled : s.galOpen = true) (kept : (s.gal.slab (p / 2 ^ 20)).state = .prot) (v : W32) :
    exec (.dapWrite 0 (0x8000000000 + p) v) s = .next (s.dapAck 0 4 none) := by
  simp only [exec, execDapWrite, State.dap_allowed out active invasive, State.dapAt_gallery inside, State.dapShut, filled, kept]
  rfl

theorem exec_dapHalt_target {t : Nat} (target : dapTarget t = true) : exec (.dapHalt 0 t) s = .next ((s.haltTarget t true).dapAck 0 0 none) := by
  simp only [exec, execDapHalt, State.dap_allowed out active invasive, target]
  rfl

theorem exec_dapHalt_none {t : Nat} (target : dapTarget t = false) : exec (.dapHalt 0 t) s = .next (s.dapAck 0 4 none) := by
  simp only [exec, execDapHalt, State.dap_allowed out active invasive, target]
  rfl

theorem exec_dapResume_target {t : Nat} (target : dapTarget t = true) : exec (.dapResume 0 t) s = .next ((s.haltTarget t false).dapAck 0 0 none) := by
  simp only [exec, execDapResume, State.dap_allowed out active invasive, target]
  rfl

theorem exec_dapStep_geode {g : Nat} (inside : g < 32) : exec (.dapStep 0 (16 + g)) s =
    .next (((s.withSec fun d => { d with steps := d.steps + 1 }).withGeode g fun d => { d with step := d.halted }).dapAck 0 0 none) := by
  have target : dapTarget (16 + g) = true := by simp [dapTarget]; omega
  simp only [exec, execDapStep, State.dap_allowed out active invasive, target, Nat.le_add_right, if_true, Nat.add_sub_cancel_left]
  rfl
end

theorem dapTarget_geode {g : Nat} (inside : g < 32) : dapTarget (16 + g) = true := by
  simp [dapTarget]
  omega

/-- Halt and resume of a sequencer reach its Geode alone. -/
theorem State.haltTarget_geode (s : State) (g : Nat) (on : Bool) :
    s.haltTarget (16 + g) on = s.withGeode g fun d => { d with halted := on, step := false } := by
  unfold State.haltTarget
  rw [if_pos (Nat.le_add_right 16 g), Nat.add_sub_cancel_left]

/-! ### The end of a session, mailbox 3, and the MP's registers (R433, R435, R439, R440) -/

theorem exec_dapEnd (out : s.dev.die ≠ .inReset) (active : s.pw.state = 0) : exec (.dapEnd 0) s = .next ((s.endCdSession 2).dapAck 0 0 none) := by
  simp only [exec, execDapEnd, State.dap_allowed out active (Nat.zero_le _)]
  rfl

/-- The end of the compute die's session: the level falls, every target runs again, and the MP tells Flint. -/
theorem State.endCdSession_parts (opened : s.sec.cdLevel ≠ 0) (reason : Nat) : (s.endCdSession reason).sec.cdLevel = 0 ∧
    (s.endCdSession reason).sec.dbgHalt = false ∧ (s.endCdSession reason).sec.halts = [] ∧ (∀ d ∈ (s.endCdSession reason).geodes, d.halted = false) ∧
    (s.endCdSession reason).toFlint = s.toFlint ++ [(0xF6, [w32 4, w32 (reason * 16)])] := by
  unfold State.endCdSession
  rw [if_neg opened]
  refine ⟨rfl, rfl, rfl, fun d mem => ?_, rfl⟩
  obtain ⟨e, -, rfl⟩ := List.mem_map.mp mem
  rfl

theorem exec_mbx3Access_write (out : s.dev.die ≠ .inReset) (active : s.pw.state = 0) (v : W32) (upset : Bool) : exec (.mbx3Access true 0 v upset) s =
    .next (((s.withSec fun d => { d with tap := d.tap.set 0 9 }).withMbx 3 fun b => b.putCmd v upset).withSec fun d => { d with mbx3Ack := 0 }) := by
  have word : w32 v.toNat = v := (BitVec.ofNat_toNat 32 v).trans (BitVec.setWidth_eq v)
  have put (u : State) : u.perform (.write (.mbxCmdData 3) v.toNat upset) = u.withMbx 3 fun b => b.putCmd v upset :=
    congrArg (fun w => u.withMbx 3 fun b => b.putCmd w upset) word
  simp only [exec, execMbx3Access, if_neg out, active]
  exact congrArg (fun u : State => Host.Outcome.next (u.withSec fun d => { d with mbx3Ack := 0 })) (put _)

/-- A read of the register `MBX_CMD_COUNT` of mailbox 3. -/
theorem exec_mbx3Access_count (out : s.dev.die ≠ .inReset) (active : s.pw.state = 0) (v : W32) (upset : Bool) :
    exec (.mbx3Access false 1 v upset) s = .next (({ s.withSec (fun d => { d with tap := d.tap.set 0 9 }) with
      readData := (s.mb 3).cmd.length } : State).withSec fun d => { d with mbx3Ack := 0, mbx3Data := (s.mb 3).cmd.length }) := by
  simp only [exec, execMbx3Access, if_neg out, active]
  rfl

theorem exec_secGalKeyWrite {n : Nat} (w : W32) (named : n < 8) (opened : s.sec.galSet.length ≠ 8) : exec (.secGalKeyWrite n w) s =
    .next (s.withSec fun d => { d with galKey := d.galKey.set n w, galSet := insNat n d.galSet }) := by
  have word : w32 w.toNat = w := (BitVec.ofNat_toNat 32 w).trans (BitVec.setWidth_eq w)
  have taken : ¬ (s.sec.galSet.length = 8 ∨ 8 ≤ n) := by omega
  have written : s.writeReg 8 (.secGalKey n) w.toNat = s.withSec fun d => { d with galKey := d.galKey.set n (w32 w.toNat), galSet := insNat n d.galSet } :=
    congrArg (fun d => s.withSec fun _ => d) (if_neg taken)
  simp only [exec, execSecGalKeyWrite, written, word]

/-- Once the set is whole, its key words stay. -/
theorem exec_secGalKeyWrite_locked {n : Nat} (w : W32) (whole : s.sec.galSet.length = 8) : exec (.secGalKeyWrite n w) s = .next s := by
  have kept : s.writeReg 8 (.secGalKey n) w.toNat = s := congrArg (fun d => s.withSec fun _ => d) (if_pos (.inl whole))
  simp only [exec, execSecGalKeyWrite, kept]
end

/-- Settles O44: the level and the power state decide first, then the map of R434 or the target. -/
theorem debugPort : Obligations.DebugPort := by
  unfold Obligations.DebugPort
  intro s
  refine ⟨fun out active => ⟨exec_dapRead_denied out active, exec_dap_denied out active, fun observe => ⟨fun g o geode inside lives =>
      exec_dapRead_pocket out active observe geode inside lives, fun o inside => exec_dapRead_sram out active observe inside, fun p inside =>
      ⟨exec_dapRead_waits out active observe inside, fun filled => ?_⟩⟩, fun invasive => ⟨fun o v inside => exec_dapWrite_sram out active invasive inside v,
      fun p v inside filled kept => exec_dapWrite_protected out active invasive inside filled kept v, fun g inside listed => ⟨?_, ?_, ?_⟩, ?_, fun t past other => ?_⟩,
    fun opened => ?_⟩, exec_dapRead_powerDown, fun out active v upset => ⟨exec_mbx3Access_write out active v upset, ?_⟩, rfl,
    fun opened => ?_, fun n w named => ⟨fun opened => ?_, fun whole => ⟨s, exec_secGalKeyWrite_locked w whole, rfl, rfl⟩⟩, rfl⟩
  · rw [exec_dapRead_gallery out active observe inside filled, State.storedRead_value]
  · refine ⟨_, exec_dapHalt_target out active invasive (dapTarget_geode inside), ?_⟩
    rw [State.haltTarget_geode, State.geode_withGeode_self listed]
    exact ⟨rfl, rfl⟩
  · refine ⟨_, exec_dapResume_target out active invasive (dapTarget_geode inside), ?_⟩
    rw [State.haltTarget_geode, State.geode_withGeode_self listed]
    exact ⟨rfl, rfl⟩
  · refine ⟨_, exec_dapStep_geode out active invasive inside, ?_⟩
    rw [State.geode_withGeode_self (s := s.withSec _) listed]
    exact ⟨rfl, rfl⟩
  · refine ⟨_, exec_dapHalt_target out active invasive rfl, rfl, ?_, rfl⟩
    simp [State.mpRuns, State.haltTarget, State.withSec]
  · exact exec_dapHalt_none out active invasive (by simp [dapTarget]; omega)
  · obtain ⟨level, runs, halts, geodes, -⟩ := State.endCdSession_parts opened 2
    exact ⟨_, exec_dapEnd out active, level, runs, halts, geodes⟩
  · exact ⟨_, exec_mbx3Access_count out active v upset, rfl, rfl, rfl⟩
  · obtain ⟨level, runs, -, -, told⟩ := State.endCdSession_parts opened 2
    exact ⟨_, rfl, level, runs, told⟩
  · exact ⟨_, exec_secGalKeyWrite w named opened, rfl, mem_insNat.mpr (.inl rfl), rfl⟩

end Sys2Proof.Machine
end

-- The legal event counter: the shapes of an operation.
section
/-!
PROOFS of 14_flint_metrology.md. The event counter of R338 as a projection of its own: the shapes of an operation, and the updates of the state.
-/
namespace Sys2Proof.Machine

/-- The legal event counter of R338. -/
def State.eventCount (s : State) : Nat := s.fl.events

@[simp] theorem State.fl_events (s : State) : s.fl.events = s.eventCount := rfl

/-- A next state with `n` legal events. -/
def Out.Counts (n : Nat) : Out → Prop
  | .next t => t.eventCount = n
  | _ => True

@[simp] theorem Out.next_counts (n : Nat) (t : State) : Out.Counts n (.next t) ↔ t.eventCount = n := Iff.rfl

@[simp] theorem Out.ite_counts (n : Nat) (c : Prop) [Decidable c] (x y : Out) :
    Out.Counts n (if c then x else y) ↔ (c → x.Counts n) ∧ (¬ c → y.Counts n) := by
  split <;> simp [*]

@[simp] theorem State.mk_eventCount (time drip mtime mbx geodes gal ctxs mpRecs fcuRecs role recSeq recLost dev streams conduit cores cic shelf pw tw fcu
    sec fl host toFlint readData free pending) :
    (State.mk time drip mtime mbx geodes gal ctxs mpRecs fcuRecs role recSeq recLost dev streams conduit cores cic shelf pw tw fcu sec fl host toFlint
      readData free pending).eventCount = fl.events := by rfl

@[simp] theorem State.ite_eventCount (c : Prop) [Decidable c] (s t : State) :
    (if c then s else t).eventCount = if c then s.eventCount else t.eventCount := apply_ite _ _ _ _

@[simp] theorem Flint.ite_events (c : Prop) [Decidable c] (f g : Flint) :
    (if c then f else g).events = if c then f.events else g.events := apply_ite _ _ _ _

section
variable {α β : Type}

@[simp] theorem State.ite_fst_eventCount (c : Prop) [Decidable c] (s t : State × β) :
    (if c then s else t).1.eventCount = if c then s.1.eventCount else t.1.eventCount := apply_ite (fun x : State × β => x.1.eventCount) _ _ _

@[simp] theorem foldl_eventCount {f : State → α → State} (h : ∀ s x, (f s x).eventCount = s.eventCount) (l : List α) (s : State) :
    (l.foldl f s).eventCount = s.eventCount := foldl_keeps (p := State.eventCount) h l s

@[simp] theorem foldl_fst_eventCount {f : State × β → α → State × β} (h : ∀ r x, (f r x).1.eventCount = r.1.eventCount) (l : List α) (r : State × β) :
    (l.foldl f r).1.eventCount = r.1.eventCount := foldl_keeps (p := fun r : State × β => r.1.eventCount) h l r
end

section
variable (s : State)

@[simp] theorem State.withMbx_eventCount (m : Nat) (f : Mbx → Mbx) : (s.withMbx m f).eventCount = s.eventCount := by rfl
@[simp] theorem State.withCtx_eventCount (c : Nat) (f : Ctx → Ctx) : (s.withCtx c f).eventCount = s.eventCount := by rfl
@[simp] theorem State.withTime_eventCount (f : TimeSt → TimeSt) : (s.withTime f).eventCount = s.eventCount := by rfl
@[simp] theorem State.withDev_eventCount (f : Dev → Dev) : (s.withDev f).eventCount = s.eventCount := by rfl
@[simp] theorem State.withPw_eventCount (f : Pw → Pw) : (s.withPw f).eventCount = s.eventCount := by rfl
@[simp] theorem State.withTw_eventCount (f : Tw → Tw) : (s.withTw f).eventCount = s.eventCount := by rfl
@[simp] theorem State.withFcu_eventCount (f : Fcu → Fcu) : (s.withFcu f).eventCount = s.eventCount := by rfl
@[simp] theorem State.withShelf_eventCount (f : Shelf → Shelf) : (s.withShelf f).eventCount = s.eventCount := by rfl
@[simp] theorem State.withStream_eventCount (i : Nat) (f : Stream → Stream) : (s.withStream i f).eventCount = s.eventCount := by rfl
@[simp] theorem State.withCore_eventCount (h : Nat) (f : Core → Core) : (s.withCore h f).eventCount = s.eventCount := by rfl
@[simp] theorem State.withCic_eventCount (h : Nat) (f : Cic → Cic) : (s.withCic h f).eventCount = s.eventCount := by rfl
@[simp] theorem State.withDrip_eventCount (f : DripSt → DripSt) : (s.withDrip f).eventCount = s.eventCount := by rfl
@[simp] theorem State.withGeode_eventCount (g : Nat) (f : Geode → Geode) : (s.withGeode g f).eventCount = s.eventCount := by rfl
@[simp] theorem State.withSlot_eventCount (g i : Nat) (f : Slot → Slot) : (s.withSlot g i f).eventCount = s.eventCount := by rfl
@[simp] theorem State.withQueue_eventCount (g q : Nat) (f : Queue → Queue) : (s.withQueue g q f).eventCount = s.eventCount := by rfl
@[simp] theorem State.withFiring_eventCount (g : Nat) (f : Firing → Firing) : (s.withFiring g f).eventCount = s.eventCount := by rfl
@[simp] theorem State.withFsl_eventCount (g : Nat) (f : Slot → Slot) : (s.withFsl g f).eventCount = s.eventCount := by rfl
@[simp] theorem State.withGal_eventCount (f : Gallery → Gallery) : (s.withGal f).eventCount = s.eventCount := by rfl
@[simp] theorem State.withSec_eventCount (f : Sec → Sec) : (s.withSec f).eventCount = s.eventCount := by rfl
@[simp] theorem State.withLan_eventCount (f : Lan → Lan) : (s.withLan f).eventCount = s.eventCount := by rfl
@[simp] theorem State.withFl_eventCount (f : Flint → Flint) : (s.withFl f).eventCount = (f s.fl).events := by rfl
end

end Sys2Proof.Machine
end

-- The legal event counter under the Gallery and the sequencer.
section
/-!
PROOFS of 14_flint_metrology.md. The operations over the Gallery, the queues and a firing that keep the event counter.
-/
namespace Sys2Proof.Machine

@[simp] theorem State.draw_eventCount (s : State) : (s.draw).1.eventCount = s.eventCount := by rfl
@[simp] theorem State.sendFlint_eventCount (s : State) (kind : Nat) (body : List W32) : (s.sendFlint kind body).eventCount = s.eventCount := by rfl
@[simp] theorem State.takeFlint_eventCount (s : State) (kind : Nat) (body : List W32) : (s.takeFlint kind body).eventCount = s.eventCount := by rfl
@[simp] theorem State.send_eventCount (s : State) (m : Nat) (msg : OutMsg) : (s.send m msg).eventCount = s.eventCount := by rfl
@[simp] theorem State.event_eventCount (s : State) (m code tag discarded : Nat) (more : List W32) :
    (s.event m code tag discarded more).eventCount = s.eventCount := by rfl
@[simp] theorem State.event03_eventCount (s : State) (code : Nat) (more : List W32) : (s.event03 code more).eventCount = s.eventCount := by rfl
@[simp] theorem State.respond_eventCount (s : State) (m : Nat) (c : Cmd) (status : Nat) (words : List W32) :
    (s.respond m c status words).eventCount = s.eventCount := by rfl
@[simp] theorem State.recNew_eventCount (s : State) (wasEmpty : Bool) : (s.recNew wasEmpty).eventCount = s.eventCount := by simp [State.recNew]
@[simp] theorem State.addRec_eventCount (s : State) (code ctx geode unit strm interval : Nat) (detail : List W32) :
    (s.addRec code ctx geode unit strm interval detail).eventCount = s.eventCount := by simp [State.addRec]
@[simp] theorem State.addFcuRec_eventCount (s : State) (code unit : Nat) (detail : List W32) :
    (s.addFcuRec code unit detail).eventCount = s.eventCount := by simp [State.addFcuRec]
@[simp] theorem State.galError_eventCount (s : State) (p kind : Nat) : (s.galError p kind).eventCount = s.eventCount := by simp [State.galError]
@[simp] theorem State.galCorrected_eventCount (s : State) (p : Nat) : (s.galCorrected p).eventCount = s.eventCount := by rfl
@[simp] theorem State.galEcc_eventCount (s : State) (p n kind : Nat) : (s.galEcc p n kind).eventCount = s.eventCount := by simp [State.galEcc]
@[simp] theorem State.granEcc_eventCount (s : State) (p : Nat) : (s.granEcc p).eventCount = s.eventCount := by simp [State.granEcc]
@[simp] theorem State.galReadP_eventCount (s : State) (p n : Nat) : (s.galReadP p n).1.eventCount = s.eventCount := by simp [State.galReadP]
@[simp] theorem State.galStore_eventCount (s : State) (p : Nat) (bytes : List Byte) (poison : Bool) :
    (s.galStore p bytes poison).eventCount = s.eventCount := by simp [State.galStore]
@[simp] theorem State.galStoreGran_eventCount (s : State) (p : Nat) (bytes : List Byte) (poison : Bool) :
    (s.galStoreGran p bytes poison).eventCount = s.eventCount := by simp [State.galStoreGran]
@[simp] theorem State.galRead_eventCount (s : State) (c a n : Nat) : (s.galRead c a n).1.eventCount = s.eventCount := by simp [State.galRead]
@[simp] theorem State.creditBack_eventCount (s : State) (g q n : Nat) : (s.creditBack g q n).eventCount = s.eventCount := by
  unfold State.creditBack
  split <;> simp
@[simp] theorem State.discardQueue_eventCount (s : State) (g q : Nat) : (s.discardQueue g q).eventCount = s.eventCount := by simp [State.discardQueue]
@[simp] theorem State.fixInterval_eventCount (s : State) (g : Nat) : (s.fixInterval g).eventCount = s.eventCount := by
  unfold State.fixInterval
  split <;> simp
@[simp] theorem State.randoms_eventCount (s : State) (g k : Nat) : (s.randoms g k).1.eventCount = s.eventCount := by simp [State.randoms]
@[simp] theorem State.geodeFault_eventCount (s : State) (g b : Nat) : (s.geodeFault g b).eventCount = s.eventCount := by rfl
@[simp] theorem State.entryUe_eventCount (s : State) (g q ctx : Nat) (e : Entry) :
    (s.entryUe g q ctx e).eventCount = s.eventCount := by simp [State.entryUe]
@[simp] theorem State.release_eventCount (s : State) (g i : Nat) : (s.release g i).eventCount = s.eventCount := by simp [State.release]
@[simp] theorem State.dropOutputs_eventCount (s : State) (g i : Nat) : (s.dropOutputs g i).eventCount = s.eventCount := by simp [State.dropOutputs]
@[simp] theorem State.dropHeld_eventCount (s : State) (g i : Nat) : (s.dropHeld g i).eventCount = s.eventCount := by simp [State.dropHeld]
@[simp] theorem State.unpop_eventCount (s : State) (g i : Nat) : (s.unpop g i).eventCount = s.eventCount := by simp [State.unpop]
@[simp] theorem State.missing_eventCount (s : State) (g i n : Nat) : (s.missing g i n).eventCount = s.eventCount := by simp [State.missing]
@[simp] theorem State.dropIn_eventCount (s : State) (g i cut : Nat) : (s.dropIn g i cut).1.eventCount = s.eventCount := by simp [State.dropIn]
@[simp] theorem State.restoreBg_eventCount (s : State) (g i : Nat) : (s.restoreBg g i).eventCount = s.eventCount := by simp [State.restoreBg]
@[simp] theorem State.abandon_eventCount (s : State) (g i n : Nat) : (s.abandon g i n).eventCount = s.eventCount := by rfl
@[simp] theorem State.zeroBudgets_eventCount (s : State) (c : Nat) : (s.zeroBudgets c).eventCount = s.eventCount := by simp [State.zeroBudgets]
@[simp] theorem State.haltCtx_eventCount (s : State) (c g i : Nat) (byRetirement : Bool) :
    (s.haltCtx c g i byRetirement).eventCount = s.eventCount := by simp [State.haltCtx]
@[simp] theorem State.faultRec_eventCount (s : State) (g i : Nat) : (s.faultRec g i).eventCount = s.eventCount := by simp [State.faultRec]
@[simp] theorem State.retire_eventCount (s : State) (g : Nat) : (s.retire g).eventCount = s.eventCount := by simp [State.retire]
@[simp] theorem State.retireVein_eventCount (s : State) (g : Nat) : (s.retireVein g).eventCount = s.eventCount := by simp [State.retireVein]
@[simp] theorem State.faultyVeins_eventCount (s : State) (g n : Nat) : (s.faultyVeins g n).eventCount = s.eventCount := by simp [State.faultyVeins]
@[simp] theorem State.endFiring_eventCount (s : State) (g : Nat) : (s.endFiring g).eventCount = s.eventCount := by
  unfold State.endFiring
  split <;> simp
@[simp] theorem State.progFault_eventCount (s : State) (g i cause pc : Nat) :
    (s.progFault g i cause pc).eventCount = s.eventCount := by simp [State.progFault]
@[simp] theorem State.charge_eventCount (s : State) (g t : Nat) : (s.charge g t).eventCount = s.eventCount := by rfl
@[simp] theorem State.advance_eventCount (s : State) (g pc : Nat) (fl : Flow) : (s.advance g pc fl).eventCount = s.eventCount := by
  unfold State.advance
  split <;> simp
@[simp] theorem State.spend_eventCount (s : State) (g t : Nat) : (s.spend g t).eventCount = s.eventCount := by rfl
@[simp] theorem State.setS_eventCount (s : State) (g i : Nat) (v : W32) : (s.setS g i v).eventCount = s.eventCount := by simp [State.setS]
@[simp] theorem State.setA_eventCount (s : State) (g i v : Nat) : (s.setA g i v).eventCount = s.eventCount := by rfl
@[simp] theorem State.setV_eventCount (s : State) (g i : Nat) (v : VReg) : (s.setV g i v).eventCount = s.eventCount := by rfl
@[simp] theorem State.pocketEcc_eventCount (s : State) (g p n : Nat) : (s.pocketEcc g p n).eventCount = s.eventCount := by simp [State.pocketEcc]
@[simp] theorem State.pocketRead_eventCount (s : State) (g p n : Nat) : (s.pocketRead g p n).1.eventCount = s.eventCount := by simp [State.pocketRead]
@[simp] theorem State.pocketWrite_eventCount (s : State) (g p : Nat) (bytes : List Byte) (poison : Bool) :
    (s.pocketWrite g p bytes poison).eventCount = s.eventCount := by rfl
@[simp] theorem State.ownRead_eventCount (s : State) (g a n : Nat) : (s.ownRead g a n).1.eventCount = s.eventCount := by simp [State.ownRead]
@[simp] theorem State.calError_eventCount (s : State) (g src : Nat) (isQueue : Bool) (which cause block : Nat) :
    (s.calError g src isQueue which cause block).eventCount = s.eventCount := by simp [State.calError]
@[simp] theorem State.convert_eventCount (s : State) (g : Nat) (t : EType) (rnd : Bool) (trk : Option Nat) (poison : Bool) (lanes : List W32) :
    (s.convert g t rnd trk poison lanes).1.eventCount = s.eventCount := by
  unfold State.convert
  split <;> simp
@[simp] theorem State.finishStop_eventCount (s : State) (g i : Nat) : (s.finishStop g i).eventCount = s.eventCount := by rfl
@[simp] theorem State.yieldAt_eventCount (s : State) (g p : Nat) : (s.yieldAt g p).eventCount = s.eventCount := by
  unfold State.yieldAt
  split <;> simp
@[simp] theorem State.post_eventCount (s : State) (g w size : Nat) : (s.post g w size).eventCount = s.eventCount := by simp [State.post]
@[simp] theorem State.galQueue_eventCount (s : State) (g : Nat) (w : GalWrite) : (s.galQueue g w).eventCount = s.eventCount := by rfl
@[simp] theorem State.foldBlk_eventCount (s : State) (g : Nat) (l : Loc) (a : Nat) (b : List Byte) (p : Bool) :
    (s.foldBlk g l a b p).eventCount = s.eventCount := by simp [State.foldBlk]
@[simp] theorem State.asOne_eventCount (s : State) (g n total : Nat) : (s.asOne g n total).eventCount = s.eventCount := by rfl
@[simp] theorem State.qPost_eventCount (s : State) (g w st : Nat) : (s.qPost g w st).eventCount = s.eventCount := by simp [State.qPost]

end Sys2Proof.Machine
end

-- The legal event counter under the parts of an instruction.
section
/-!
PROOFS of 14_flint_metrology.md. The parts of an instruction keep the event counter, in the state they go on with and in the one they had reached where they stop.
-/
namespace Sys2Proof.Machine

section
variable (s : State)

@[simp] theorem State.galStoreProt_eventCount (k p : Nat) (bytes : List Byte) (poison : Bool) :
    (State.galStoreProt k s p bytes poison).eventCount = s.eventCount := by
  induction k generalizing s p bytes with
  | zero => rfl
  | succ k ih => simp [State.galStoreProt, ih]

@[simp] theorem State.galWriteP_eventCount (p : Nat) (bytes : List Byte) (poison : Bool) : (s.galWriteP p bytes poison).eventCount = s.eventCount := by
  simp [State.galWriteP]
@[simp] theorem State.galWrite_eventCount (c a : Nat) (bytes : List Byte) (poison : Bool) : (s.galWrite c a bytes poison).eventCount = s.eventCount := by
  simp [State.galWrite]
@[simp] theorem State.storeWrites_eventCount (c : Nat) (l : List GalWrite) : (s.storeWrites c l).eventCount = s.eventCount := by simp [State.storeWrites]

@[simp] theorem logEntry_eventCount (g src q pos half : Nat) (l : List (Except Nat (List Nat))) : (logEntry g src q pos half s l).eventCount = s.eventCount := by
  induction l generalizing half with
  | nil => rfl
  | cons x l ih => cases x <;> simp [logEntry, ih]

@[simp] theorem State.entryBlks_eventCount (g src q pos : Nat) (t : EType) (coded : Bool) (e : Entry) :
    (s.entryBlks g src q pos t coded e).1.eventCount = s.eventCount := by simp [State.entryBlks]
@[simp] theorem State.foldGroup_eventCount (g : Nat) (l : Loc) (bs : List (List Byte × Bool)) (a : Nat) :
    (State.foldGroup g l bs s a).eventCount = s.eventCount := by
  induction bs generalizing s a with
  | nil => rfl
  | cons b bs ih => simp [State.foldGroup, ih]
@[simp] theorem State.loadEntries_eventCount (g v : Nat) (t : EType) (es : List Entry) : (s.loadEntries g v t es).eventCount = s.eventCount := by
  induction es generalizing s v with
  | nil => rfl
  | cons e es ih => simp [State.loadEntries, ih]
@[simp] theorem State.publishAll_eventCount (g i : Nat) : (s.publishAll g i).eventCount = s.eventCount := by simp [State.publishAll]
@[simp] theorem State.commitAt_eventCount (g i pc : Nat) : (s.commitAt g i pc).eventCount = s.eventCount := by simp [State.commitAt]
end

/-! ### Results of the parts of an instruction -/

/-- What a part of an instruction gives has `n` legal events: the state it goes on with, or the one it had reached before it stopped. -/
def Res.Counts {α : Type} (n : Nat) (out : α → State) : Res α → Prop
  | .ok a => (out a).eventCount = n
  | .error e => ∀ u, e.reached = some u → u.eventCount = n

section
variable {α β : Type} {out : α → State} {out' : β → State} {s : State} {n : Nat}

@[simp] theorem Res.ok_counts_iff {a : α} : Res.Counts n out (.ok a) ↔ (out a).eventCount = n := Iff.rfl
@[simp] theorem Res.pure_counts_iff {a : α} : Res.Counts n out (pure a) ↔ (out a).eventCount = n := Iff.rfl
theorem Res.pure_counts {a : α} (h : (out a).eventCount = n) : Res.Counts n out (pure a) := h
theorem Res.stop_counts (c : Nat) : Res.Counts n out (stop c) := by rintro _ ⟨⟩

theorem Res.bind_counts {r : Res α} {f : α → Res β} (hr : r.Counts n out) (hf : ∀ a, (out a).eventCount = n → (f a).Counts n out') :
    (r >>= f).Counts n out' := by
  cases r with
  | error e => exact hr
  | ok a => exact hf a hr

theorem Res.ite_counts {c : Prop} [Decidable c] {x y : Res α} (hx : x.Counts n out) (hy : y.Counts n out) : (if c then x else y).Counts n out := by
  split
  · exact hx
  · exact hy

/-- Two ways to a state, and what follows either. -/
theorem Res.ite_bind_counts {c : Prop} [Decidable c] {x y : Res α} {f : α → Res β} (hx : x.Counts n out) (hy : y.Counts n out)
    (hf : ∀ a, (out a).eventCount = n → (f a).Counts n out') : (if c then x >>= f else y >>= f).Counts n out' :=
  Res.ite_counts (Res.bind_counts hx hf) (Res.bind_counts hy hf)

theorem held_counts {r : Res α} (h : s.eventCount = n) (hr : r.Counts n out) : (held s r).Counts n out := by
  unfold held
  split
  · rintro u ⟨⟩
    exact h
  · exact hr

/-- What follows a check may count on the state before it. -/
theorem Res.check_counts {r : Res α} {f : α → Res β} (hr : r.Check) (hf : ∀ a, r = .ok a → (f a).Counts n out') : (r >>= f).Counts n out' := by
  cases r with
  | error e =>
    intro u hu
    cases (hr e rfl).symm.trans hu
  | ok a => exact hf a rfl
end

section
variable {s : State} {n : Nat} (h : s.eventCount = n)
include h

theorem State.memRead_counts (g : Nat) (l : Loc) (a k : Nat) : (s.memRead g l a k).Counts n Prod.fst :=
  Res.check_counts (s.memCheck_check g l a k false) fun _ _ => by
    split <;> simp [h]

theorem State.memWrite_counts (g : Nat) (l : Loc) (a : Nat) (bytes : List Byte) (poison fold : Bool) : (s.memWrite g l a bytes poison fold).Counts n id :=
  Res.check_counts (s.memCheck_check g l a bytes.length true) fun _ _ => by
    split
    · exact (s.pocketWrite_eventCount _ _ _ _).trans h
    · exact (s.galQueue_eventCount g _).trans h

theorem State.locate_counts (g : Nat) (d : Desc) (k : Nat) : (s.locate g d k).Counts n Prod.fst :=
  Res.bind_counts (State.memRead_counts h _ _ _ _) fun _ h1 => held_counts h1 <|
    Res.bind_counts (State.memRead_counts h1 _ _ _ _) fun _ h2 => held_counts h2 <|
      Res.bind_counts (State.memRead_counts h2 _ _ _ _) fun _ h3 => h3

theorem State.codedBlk_counts (g src reg : Nat) (d : Desc) (k : Nat) : (s.codedBlk g src reg d k).Counts n Prod.fst := by
  refine Res.bind_counts (State.locate_counts h g d k) fun r h1 => held_counts h1 ?_
  refine Res.ite_bind_counts (State.memRead_counts h1 _ _ _ _) (Res.pure_counts h1) fun r h2 => Res.ite_counts (Res.pure_counts h2) ?_
  dsimp only
  split
  · exact (State.calError_eventCount _ _ _ _ _ _ _).trans h2
  · exact h2

theorem State.tensorBlk_counts (g src reg : Nat) (d : Desc) (r c : Nat) : (s.tensorBlk g src reg d r c).Counts n Prod.fst :=
  Res.check_counts (d.bounds_check r c) fun _ _ =>
    Res.ite_counts (State.codedBlk_counts h _ _ _ _ _) (Res.bind_counts (State.memRead_counts h _ _ _ _) fun _ h1 => h1)

theorem State.pop_counts (g q : Nat) : (s.pop g q).Counts n Prod.fst := by
  unfold State.pop
  split
  · exact Res.stop_counts _
  · refine Res.ite_counts (Res.stop_counts _) (Res.ite_counts (Res.stop_counts _) (Res.ite_counts (Res.stop_counts _) ?_))
    split
    · exact Res.stop_counts _
    · exact by simp [h]

theorem State.popN_counts (k g q : Nat) : (State.popN k s g q).Counts n Prod.fst := by
  induction k generalizing s with
  | zero => exact h
  | succ k ih => exact Res.bind_counts (State.pop_counts h _ _) fun _ h1 => held_counts h1 <| Res.bind_counts (ih h1) fun _ h2 => h2

theorem State.push_counts (g q : Nat) (e : Entry) : (s.push g q e).Counts n id := by
  unfold State.push
  split
  · exact Res.stop_counts _
  · exact Res.ite_counts (Res.stop_counts _) (Res.ite_counts ((s.withQueue_eventCount g q _).trans h) (Res.ite_counts (Res.stop_counts _) (by simp [h])))

/-! #### MATMUL (R120 to R122) -/

theorem State.tileRows_counts (g : Nat) (a : MatArgs) (l : List Nat) : (s.tileRows g a l).Counts n Prod.fst := by
  induction l generalizing s with
  | nil => exact h
  | cons i l ih => exact Res.bind_counts (State.tensorBlk_counts h _ _ _ _ _ _) fun _ h1 => held_counts h1 <| Res.bind_counts (ih h1) fun _ h2 => h2

theorem State.tile_counts (g : Nat) (a : MatArgs) : (s.tile g a).Counts n Prod.fst := by
  simp only [State.tile]
  split
  · exact (State.withGeode_eventCount _ _ _).trans h
  · exact Res.bind_counts (State.tileRows_counts h _ _ _) fun _ h1 => (State.withGeode_eventCount _ _ _).trans h1

theorem State.xBlk_counts (g : Nat) (a : MatArgs) (m : Nat) (xs : XState) : (s.xBlk g a m xs).Counts n Prod.fst := by
  refine Res.ite_counts ?_ (Res.bind_counts (State.tensorBlk_counts h _ _ _ _ _ _) fun _ h1 => h1)
  split
  · exact h
  · exact Res.bind_counts (State.pop_counts h _ _) fun _ h1 => (State.entryBlks_eventCount _ _ _ _ _ _ _ _).trans h1

theorem State.pRow_counts (g : Nat) (a : MatArgs) (m : Nat) : (s.pRow g a m).Counts n Prod.fst := by
  simp only [State.pRow]
  split
  · exact Res.check_counts (Desc.bounds_check _ _ _) fun _ _ => Res.bind_counts (State.memRead_counts h _ _ _ _) fun _ h1 => h1
  · exact h
  · exact h

theorem State.yPocket_counts (g : Nat) (a : MatArgs) (m : Nat) (ys : List Nat) (poison : Bool) : (s.yPocket g a m ys poison).Counts n id :=
  Res.check_counts (Desc.bounds_check _ _ _) fun _ _ => Res.check_counts (State.pocketAt_check _ _ _ _) fun _ _ => (s.pocketWrite_eventCount _ _ _ _).trans h

theorem State.deliverY_counts (g : Nat) (a : MatArgs) (vein : Option Nat) (half : Option (List Nat × Bool)) (r : YRow) :
    (s.deliverY g a vein half r).Counts n Prod.fst := by
  unfold State.deliverY
  extract_lets s0 broken T
  split
  next s1 lanes numbers =>
    split
    next s2 ys converted =>
      have h0 : s0.eventCount = n := by simp [s0, h]
      have h1 : s1.eventCount = n := (congrArg (·.1.eventCount) numbers).symm.trans (by simp [h0])
      have h2 : s2.eventCount = n := (congrArg (·.1.eventCount) converted).symm.trans (by simp [h1])
      refine held_counts h2 (Res.ite_counts ?_ (Res.ite_counts ?_ ?_))
      · exact Res.bind_counts (State.yPocket_counts h2 _ _ _ _ _) fun _ h3 => h3
      · exact Res.bind_counts (State.push_counts h2 _ _ _) fun _ h3 => h3
      · split
        · exact h2
        · exact Res.bind_counts (State.push_counts h2 _ _ _) fun _ h3 => h3

theorem State.deliverRows_counts (g : Nat) (a : MatArgs) (vein : Option Nat) (rows : List YRow) (half : Option (List Nat × Bool)) :
    (State.deliverRows g a vein rows s half).Counts n Prod.fst := by
  induction rows generalizing s half with
  | nil => exact h
  | cons r rows ih => exact Res.bind_counts (State.deliverY_counts h _ _ _ _ _) fun _ h1 => held_counts h1 (ih h1 _)

theorem State.matRows_counts (g : Nat) (a : MatArgs) (tile : Tile) (vein : Option Nat) (k m : Nat) (c : MatSt) :
    (State.matRows g a tile vein k s m c).Counts n id := by
  induction k generalizing s m c with
  | zero => exact Res.bind_counts (State.deliverRows_counts h _ _ _ _ _) fun _ h1 => h1
  | succ k ih => exact Res.bind_counts (State.deliverRows_counts h _ _ _ _ _) fun _ h1 => held_counts h1 <|
      Res.bind_counts (State.xBlk_counts h1 _ _ _ _) fun _ h2 => held_counts h2 <|
        Res.bind_counts (State.pRow_counts h2 _ _ _) fun _ h3 => held_counts h3 (ih h3 _ _)

theorem State.matmul_counts (g w : Nat) (vein : Option Nat) : (s.matmul g w vein).Counts n Prod.fst :=
  Res.check_counts (s.matArgs_check g w) fun _ _ => Res.bind_counts (State.tile_counts h _ _) fun _ h1 => held_counts h1 <|
    Res.bind_counts (State.matRows_counts h1 _ _ _ _ _ _ _) fun _ h2 => h2

/-! #### MOVE (R125 to R128) -/

theorem State.putRuns_counts (g : Nat) (l : Loc) (b : List (List Byte × Bool)) (a : Nat) : (State.putRuns g l b s a).Counts n id := by
  induction b generalizing s a with
  | nil => exact h
  | cons b bs ih => exact Res.bind_counts (State.memWrite_counts h _ _ _ _ _ _) fun _ h1 => held_counts h1 (ih h1 _)

theorem State.putBytes_counts (g : Nat) (l : Loc) (a : Nat) (b : List (Byte × Bool)) : (s.putBytes g l a b).Counts n id := State.putRuns_counts h _ _ _ _

theorem State.srcBlks_counts (g : Nat) (a : MoveArgs) (d : Desc) (q : XState) (l : List (Nat × Nat)) : (s.srcBlks g a d q l).Counts n Prod.fst := by
  induction l generalizing s q with
  | nil => exact h
  | cons rc l ih =>
    refine Res.bind_counts (out := Prod.fst) (Res.ite_counts ?_ (Res.bind_counts (State.tensorBlk_counts h _ _ _ _ _ _) fun _ h1 => h1)) fun _ h1 =>
      held_counts h1 (Res.bind_counts (ih h1 _) fun _ h2 => h2)
    split
    · exact h
    · exact Res.bind_counts (State.pop_counts h _ _) fun _ h1 => (State.entryBlks_eventCount _ _ _ _ _ _ _ _).trans h1

theorem State.pushBlks_counts (g : Nat) (d : Desc) (k : Nat) (bs : List Blk) : (State.pushBlks g d k s bs).Counts n id := by
  induction k generalizing s bs with
  | zero => exact h
  | succ k ih => exact Res.ite_counts h (Res.bind_counts (State.push_counts h _ _ _) fun _ h1 => held_counts h1 (ih h1 _))

theorem State.putBlks_counts (g : Nat) (d : Desc) (l : List ((Nat × Nat) × Blk)) : (s.putBlks g d l).Counts n id := by
  induction l generalizing s with
  | nil => exact h
  | cons x l ih => exact Res.check_counts (Desc.bounds_check _ _ _) fun _ _ => Res.bind_counts (State.memWrite_counts h _ _ _ _ _ _) fun _ h1 => held_counts h1 (ih h1)

theorem State.putGroups_counts (g : Nat) (d : Desc) (k off : Nat) (bs : List (List Byte × Bool)) : (State.putGroups g d k s off bs).Counts n Prod.fst := by
  induction k generalizing s off bs with
  | zero => exact h
  | succ k ih => exact Res.bind_counts (State.putBytes_counts h _ _ _ _) fun _ h1 => held_counts h1 <|
      Res.bind_counts (ih ((State.foldGroup_eventCount _ _ _ _ _).trans h1) _ _) fun _ h2 => h2

theorem State.putCoded_counts (g : Nat) (d : Desc) (blocks : List (List Byte × Bool)) : (s.putCoded g d blocks).Counts n id :=
  Res.bind_counts (State.putGroups_counts h _ _ _ _ _) fun _ h1 => held_counts h1 <| Res.bind_counts (State.putBytes_counts h1 _ _ _ _) fun _ h2 => by simpa using h2

theorem State.readFlagged_counts (g : Nat) (l : Loc) (k a : Nat) : (State.readFlagged g l k s a).Counts n Prod.fst := by
  induction k generalizing s a with
  | zero => exact h
  | succ k ih => exact Res.bind_counts (State.memRead_counts h _ _ _ _) fun _ h1 => held_counts h1 <| Res.bind_counts (ih h1 _) fun _ h2 => h2

theorem State.copyCoded_counts (g : Nat) (x d : Desc) : (s.copyCoded g x d).Counts n id :=
  Res.bind_counts (State.readFlagged_counts h _ _ _ _) fun _ h1 => held_counts h1 <| Res.bind_counts (State.readFlagged_counts h1 _ _ _ _) fun _ h2 => held_counts h2 <|
    Res.bind_counts (State.putBytes_counts h2 _ _ _ _) fun _ h3 => held_counts h3 (State.putBytes_counts h3 _ _ _ _)

theorem State.foldCopied_counts (g : Nat) (x d : Desc) (rows k : Nat) : (State.foldCopied g x d rows k s).Counts n id := by
  induction k generalizing s with
  | zero => exact h
  | succ k ih =>
    exact Res.bind_counts (State.memRead_counts h _ _ _ _) fun _ h1 => held_counts h1 <| Res.ite_counts (held_counts h1 (ih h1)) <|
      Res.bind_counts (State.memRead_counts h1 _ _ _ _) fun _ h2 => held_counts h2 <| Res.ite_counts (held_counts h2 (ih h2)) <|
        Res.bind_counts (State.memRead_counts h2 _ _ _ _) fun _ h3 => held_counts h3 (ih ((State.foldBlk_eventCount _ _ _ _ _ _).trans h3))

theorem State.move_counts (g w : Nat) (zero : Bool) : (s.move g w zero).Counts n Prod.fst := by
  refine Res.check_counts (s.moveArgs_check g w zero) fun a _ => Res.ite_counts h ?_
  split
  · refine Res.ite_counts ?_ ?_
    · exact Res.bind_counts (State.copyCoded_counts h _ _ _) fun _ h1 => held_counts h1 <|
        Res.ite_bind_counts (State.foldCopied_counts h1 _ _ _ _ _) (Res.pure_counts h1) fun _ h2 => Res.pure_counts h2
    · refine Res.bind_counts (State.srcBlks_counts h _ _ _ _ _) fun _ h1 => held_counts h1 (Res.ite_counts ?_ (Res.ite_counts ?_ ?_))
      · exact Res.bind_counts (State.pushBlks_counts h1 _ _ _ _) fun _ h2 => by simpa using h2
      · exact Res.bind_counts (State.putCoded_counts h1 _ _ _) fun _ h2 => h2
      · exact Res.bind_counts (State.putBlks_counts h1 _ _ _) fun _ h2 => h2
  · exact Res.ite_bind_counts (State.pushBlks_counts h _ _ _ _) (State.putBlks_counts h _ _ _) fun _ h1 => Res.pure_counts h1

/-! #### Queue instructions and SIG (R129 to R133) -/

theorem State.storeEntries_counts (g a st : Nat) (es : List Entry) : (s.storeEntries g a st es).Counts n id := by
  induction es generalizing s a with
  | nil => exact h
  | cons e es ih =>
    exact Res.ite_bind_counts (out := id) (Res.pure_counts h) (Res.check_counts (State.pocketAt_check _ _ _ _) fun _ _ =>
      Res.pure_counts ((s.pocketWrite_eventCount _ _ _ _).trans h)) fun _ h1 => held_counts h1 (ih h1 _)

theorem State.pushPocket_counts (g q st k a : Nat) : (State.pushPocket g q st k s a).Counts n id := by
  induction k generalizing s a with
  | zero => exact h
  | succ k ih =>
    refine Res.check_counts (State.pocketAt_check _ _ _ _) fun p _ => ?_
    have h1 : (s.pocketRead g p st).1.eventCount = n := ((State.pocketRead_eventCount _ _ _ _).trans h)
    exact held_counts h1 (Res.bind_counts (State.push_counts h1 _ _ _) fun _ h2 => held_counts h2 (ih h2 _))

theorem State.pushV_counts (g q w : Nat) (t : EType) (k v : Nat) : (State.pushV g q w t k s v).Counts n id := by
  induction k generalizing s v with
  | zero => exact h
  | succ k ih =>
    have h1 := ((s.convert_eventCount g t (bitAt w 29) (if bitAt w 28 then some (fld w 26 2) else none) (s.vreg g v).poison (s.vreg g v).lanes).trans h)
    exact held_counts h1 (Res.bind_counts (State.push_counts h1 _ _ _) fun _ h2 => held_counts h2 (ih h2 _))

theorem State.sigFold_counts (g : Nat) (d : Desc) (l : List (Nat × Nat)) : (s.sigFold g d l).Counts n id := by
  induction l generalizing s with
  | nil => exact h
  | cons x l ih =>
    refine Res.check_counts (Desc.bounds_check _ _ _) fun _ _ => Res.bind_counts (State.memRead_counts h _ _ _ _) fun r h1 => ?_
    have h2 := fun f => (r.1.withFsl_eventCount g f).trans h1
    exact held_counts (h2 _) (ih (h2 _))

end

end Sys2Proof.Machine
end

-- The legal event counter under the Geode's instructions.
section
/-!
PROOFS of 14_flint_metrology.md. Every instruction of a stage program keeps the event counter.
-/
namespace Sys2Proof.Machine

theorem ite_eq_of_both {α : Type} {c : Prop} [Decidable c] {x y z : α} (hx : x = z) (hy : y = z) : (if c then x else y) = z := by
  split
  · exact hx
  · exact hy

section
variable {s : State} {n : Nat} (h : s.eventCount = n)
include h

theorem State.issue_counts (g t : Nat) (isOp : Nat → Bool) {body : Nat → State → Res (State × Flow)}
    (hb : ∀ w u, u.eventCount = n → (body w u).Counts n Prod.fst) : (s.issue g t isOp body).eventCount = n := by
  have h1 : (s.spend g t).eventCount = n := ((s.spend_eventCount g t).trans h)
  unfold State.issue
  split
  · exact h
  · rw [State.ite_eventCount, State.ite_eventCount, State.ite_eventCount]
    refine ite_eq_of_both h (ite_eq_of_both (by simp [h]) (ite_eq_of_both (by simp [h]) ?_))
    split
    next e failed =>
      have found := hb ((s.fsl g).prog.getD (s.fsl g).pc 0).toNat _ h1
      rw [failed] at found
      rw [State.progFault_eventCount]
      cases reached : e.reached with
      | none => exact h1
      | some u => exact found u reached
    next s2 fl worked =>
      have found := hb ((s.fsl g).prog.getD (s.fsl g).pc 0).toNat _ h1
      rw [worked] at found
      exact (s2.advance_eventCount g _ fl).trans found

section
variable (g t : Nat)

@[simp] theorem execUnassignedOpcode_counts : (execUnassignedOpcode g t s).Counts n := State.issue_counts h g t _ fun _ _ _ => Res.stop_counts _
@[simp] theorem execNop_counts : (execNop g t s).Counts n := State.issue_counts h g t _ fun _ _ h1 => h1

@[simp] theorem execYieldI_counts : (execYieldI g t s).Counts n :=
  State.issue_counts h g t _ fun _ u h1 => Res.ite_counts h1 (Res.ite_counts (Res.stop_counts _) ((u.yieldAt_eventCount _ _).trans h1))

@[simp] theorem execCommit_counts : (execCommit g t s).Counts n :=
  State.issue_counts h g t _ fun _ _ h1 => Res.ite_counts h1 (Res.ite_counts h1 ((State.commitAt_eventCount _ _ _ _).trans h1))

@[simp] theorem execSeti_counts : (execSeti g t s).Counts n := State.issue_counts h g t _ fun _ _ h1 => (State.setS_eventCount _ _ _ _).trans h1
@[simp] theorem execAddi_counts : (execAddi g t s).Counts n := State.issue_counts h g t _ fun _ _ h1 => (State.setS_eventCount _ _ _ _).trans h1
@[simp] theorem execAdd_counts : (execAdd g t s).Counts n := State.issue_counts h g t _ fun _ _ h1 => (State.setS_eventCount _ _ _ _).trans h1
@[simp] theorem execSub_counts : (execSub g t s).Counts n := State.issue_counts h g t _ fun _ _ h1 => (State.setS_eventCount _ _ _ _).trans h1
@[simp] theorem execMuli_counts : (execMuli g t s).Counts n := State.issue_counts h g t _ fun _ _ h1 => (State.setS_eventCount _ _ _ _).trans h1
@[simp] theorem execAlui_counts : (execAlui g t s).Counts n :=
  State.issue_counts h g t _ fun _ _ h1 => Res.check_counts (aluOp_check _ _ _) fun _ _ => (State.setS_eventCount _ _ _ _).trans h1
@[simp] theorem execRdspec_counts : (execRdspec g t s).Counts n :=
  State.issue_counts h g t _ fun _ _ h1 => Res.check_counts (State.special_check _ _ _) fun _ _ => (State.setS_eventCount _ _ _ _).trans h1
@[simp] theorem execLoopI_counts : (execLoopI g t s).Counts n := State.issue_counts h g t _ fun _ _ h1 => (State.setS_eventCount _ _ _ _).trans h1
@[simp] theorem execBr_counts : (execBr g t s).Counts n := State.issue_counts h g t _ fun _ _ h1 => h1
@[simp] theorem execBcmp_counts : (execBcmp g t s).Counts n := State.issue_counts h g t _ fun _ _ h1 => Res.check_counts (cmpOp_check _ _ _) fun _ _ => h1
@[simp] theorem execAset_counts : (execAset g t s).Counts n := State.issue_counts h g t _ fun _ _ h1 => Res.ite_counts (Res.stop_counts _) ((State.setA_eventCount _ _ _ _).trans h1)
@[simp] theorem execTset_counts : (execTset g t s).Counts n := State.issue_counts h g t _ fun _ _ h1 => Res.ite_counts (Res.stop_counts _) ((State.withFsl_eventCount _ _ _).trans h1)
@[simp] theorem execSld_counts : (execSld g t s).Counts n :=
  State.issue_counts h g t _ fun _ _ h1 => Res.ite_counts (Res.stop_counts _) <| Res.ite_counts (Res.stop_counts _) <| Res.check_counts (State.pocketAt_check _ _ _ _) fun _ _ =>
    Res.ite_counts (held_counts ((State.pocketRead_eventCount _ _ _ _).trans h1) (Res.stop_counts _)) (by simp [h1])
@[simp] theorem execScaleGet_counts : (execScaleGet g t s).Counts n := State.issue_counts h g t _ fun _ _ h1 => (State.setS_eventCount _ _ _ _).trans h1
@[simp] theorem execScaleSet_counts : (execScaleSet g t s).Counts n :=
  State.issue_counts h g t _ fun _ _ h1 => Res.ite_counts ((State.withFsl_eventCount _ _ _).trans h1) (Res.stop_counts _)
@[simp] theorem execScaleObserve_counts : (execScaleObserve g t s).Counts n :=
  State.issue_counts h g t _ fun _ _ h1 => Res.ite_counts h1 ((State.withFsl_eventCount _ _ _).trans h1)
@[simp] theorem execScaleHold_counts : (execScaleHold g t s).Counts n := State.issue_counts h g t _ fun _ _ h1 => (State.withFsl_eventCount _ _ _).trans h1
@[simp] theorem execSigFold_counts : (execSigFold g t s).Counts n :=
  State.issue_counts h g t _ fun _ _ h1 => Res.check_counts (State.desc_check _ _ _) fun _ _ => Res.ite_counts (Res.stop_counts _) <| Res.ite_counts (Res.stop_counts _) <|
    Res.bind_counts (State.sigFold_counts h1 _ _ _) fun _ h2 => h2
@[simp] theorem execSigRead_counts : (execSigRead g t s).Counts n := State.issue_counts h g t _ fun _ _ h1 => (State.setS_eventCount _ _ _ _).trans h1

@[simp] theorem execVld_counts : (execVld g t s).Counts n := State.issue_counts h g t _ fun _ _ h1 => by
  dsimp only
  split
  · exact Res.stop_counts _
  · exact Res.check_counts (State.pocketAt_check _ _ _ _) fun _ _ => by simp [h1]

@[simp] theorem execVst_counts : (execVst g t s).Counts n := State.issue_counts h g t _ fun _ u h1 => by
  dsimp only
  split
  · exact Res.stop_counts _
  · refine Res.check_counts (State.pocketAt_check _ _ _ _) fun _ _ => ?_
    exact by simp [h1]

@[simp] theorem execVop_counts : (execVop g t s).Counts n := State.issue_counts h g t _ fun _ _ h1 => by
  dsimp only
  split
  · exact Res.stop_counts _
  · exact (State.setV_eventCount _ _ _ _).trans h1
@[simp] theorem execVopi_counts : (execVopi g t s).Counts n := State.issue_counts h g t _ fun _ _ h1 => by
  dsimp only
  split
  · exact Res.stop_counts _
  · exact (State.setV_eventCount _ _ _ _).trans h1
@[simp] theorem execVfma_counts : (execVfma g t s).Counts n := State.issue_counts h g t _ fun _ _ h1 => (State.setV_eventCount _ _ _ _).trans h1
@[simp] theorem execVun_counts : (execVun g t s).Counts n := State.issue_counts h g t _ fun _ _ h1 => by
  dsimp only
  split
  · exact Res.stop_counts _
  · exact (State.setV_eventCount _ _ _ _).trans h1
@[simp] theorem execVexpsub_counts : (execVexpsub g t s).Counts n := State.issue_counts h g t _ fun _ _ h1 => (State.setV_eventCount _ _ _ _).trans h1
@[simp] theorem execVred_counts : (execVred g t s).Counts n := State.issue_counts h g t _ fun _ _ h1 => by
  dsimp only
  split
  · exact Res.stop_counts _
  · exact (State.setV_eventCount _ _ _ _).trans h1
@[simp] theorem execVbcast_counts : (execVbcast g t s).Counts n := State.issue_counts h g t _ fun _ _ h1 => by
  dsimp only
  split
  · exact (State.setV_eventCount _ _ _ _).trans h1
  · exact (State.setV_eventCount _ _ _ _).trans h1
  · exact Res.stop_counts _
@[simp] theorem execVsel_counts : (execVsel g t s).Counts n := State.issue_counts h g t _ fun _ _ h1 => (State.setV_eventCount _ _ _ _).trans h1
@[simp] theorem execVmoments_counts : (execVmoments g t s).Counts n := State.issue_counts h g t _ fun _ _ h1 => Res.ite_counts (Res.stop_counts _) (by simp [h1])
@[simp] theorem execVadamw_counts : (execVadamw g t s).Counts n := State.issue_counts h g t _ fun _ _ h1 => Res.ite_counts (Res.stop_counts _) (by simp [h1])
@[simp] theorem execVcvt_counts : (execVcvt g t s).Counts n := State.issue_counts h g t _ fun _ _ h1 => by
  dsimp only
  split
  · exact (State.setV_eventCount _ _ _ _).trans h1
  · exact (State.setV_eventCount _ _ _ _).trans h1
  · exact Res.stop_counts _
@[simp] theorem execMatmul_counts (vein : Option Nat) : (execMatmul g t vein s).Counts n := State.issue_counts h g t _ fun _ _ h1 => State.matmul_counts h1 _ _ _
@[simp] theorem execMatmulT_counts (vein : Option Nat) : (execMatmulT g t vein s).Counts n := State.issue_counts h g t _ fun _ _ h1 => State.matmul_counts h1 _ _ _
@[simp] theorem execMoveI_counts : (execMoveI g t s).Counts n := State.issue_counts h g t _ fun _ _ h1 => State.move_counts h1 _ _ _
@[simp] theorem execMoveZero_counts : (execMoveZero g t s).Counts n := State.issue_counts h g t _ fun _ _ h1 => State.move_counts h1 _ _ _

@[simp] theorem execQpop_counts : (execQpop g t s).Counts n :=
  State.issue_counts h g t _ fun _ _ h1 => Res.check_counts (State.qCheck_check _ _ _ _) fun _ _ => Res.ite_counts (Res.stop_counts _) <| Res.ite_counts
    (Res.check_counts (qType_check _ _) fun _ _ => Res.ite_counts (Res.stop_counts _) <| Res.bind_counts (State.popN_counts h1 _ _ _) fun _ h2 => (by simpa using h2))
    (Res.check_counts (State.pocketAt_check _ _ _ _) fun _ _ => Res.bind_counts (State.popN_counts h1 _ _ _) fun _ h2 => held_counts h2 <|
      Res.bind_counts (State.storeEntries_counts h2 _ _ _ _) fun _ h3 => (by simpa using h3))
@[simp] theorem execQskip_counts : (execQskip g t s).Counts n :=
  State.issue_counts h g t _ fun _ _ h1 => Res.check_counts (State.qCheck_check _ _ _ _) fun _ _ => Res.bind_counts (State.popN_counts h1 _ _ _) fun _ h2 => by simpa using h2
@[simp] theorem execQpush_counts : (execQpush g t s).Counts n :=
  State.issue_counts h g t _ fun _ _ h1 => Res.check_counts (State.qCheck_check _ _ _ _) fun _ _ => Res.ite_counts (Res.stop_counts _) <| Res.ite_counts
    (Res.check_counts (qType_check _ _) fun _ _ => Res.ite_counts (Res.stop_counts _) <| Res.bind_counts (State.pushV_counts h1 _ _ _ _ _ _) fun _ h2 => (by simpa using h2))
    (Res.bind_counts (State.pushPocket_counts h1 _ _ _ _ _) fun _ h2 => (by simpa using h2))
@[simp] theorem execQfwd_counts : (execQfwd g t s).Counts n := State.issue_counts h g t _ fun _ _ h1 => Res.ite_counts (Res.stop_counts _) <| Res.ite_counts (Res.stop_counts _) <| by
  split
  · exact Res.stop_counts _
  · exact Res.bind_counts (State.push_counts h1 _ _ _) fun _ h2 => by simpa using h2

end
end

end Sys2Proof.Machine
end

-- The legal event counter under the sequencer, the mailboxes and the time commands.
section
/-!
PROOFS of 14_flint_metrology.md. The sequencer's events, the shapes `run` and `begin` of a command, and the time commands keep the event counter.
-/
namespace Sys2Proof.Machine

@[simp] theorem State.publish_eventCount (s : State) (g i : Nat) : (s.publish g i).eventCount = s.eventCount := by simp [State.publish]
@[simp] theorem execMoveGalleryWriteDone_counts (g slot k : Nat) (s : State) : (execMoveGalleryWriteDone g slot k s).Counts s.eventCount := by
  simp only [execMoveGalleryWriteDone]
  split <;> simp
@[simp] theorem State.conflictFault_eventCount (s : State) (g : Nat) : (s.conflictFault g).eventCount = s.eventCount := by
  unfold State.conflictFault
  split
  · simp
  · split <;> simp
@[simp] theorem execFiringStart_counts (g slot : Nat) (s : State) : (execFiringStart g slot s).Counts s.eventCount := by simp [execFiringStart]
@[simp] theorem execMarkerHandling_counts (g slot q : Nat) (s : State) :
    (execMarkerHandling g slot q s).Counts s.eventCount := by simp [execMarkerHandling]
@[simp] theorem State.deliver_eventCount (s : State) (g q : Nat) (e : Entry) : (s.deliver g q e).eventCount = s.eventCount := by simp [State.deliver]
@[simp] theorem execBlockArrival_counts (g q : Nat) (parity : Bool) (s : State) : (execBlockArrival g q parity s).Counts s.eventCount := by
  simp only [execBlockArrival]
  split <;> simp
@[simp] theorem execCreditReturn_counts (g q : Nat) (s : State) : (execCreditReturn g q s).Counts s.eventCount := by simp [execCreditReturn]
@[simp] theorem execFiringLimit_counts (g : Nat) (s : State) : (execFiringLimit g s).Counts s.eventCount := by
  unfold execFiringLimit
  split <;> simp
@[simp] theorem State.emptySlot_eventCount (s : State) (g i : Nat) : (s.emptySlot g i).eventCount = s.eventCount := by simp [State.emptySlot]
@[simp] theorem execProgramFaultHandling_counts (g slot : Nat) (s : State) :
    (execProgramFaultHandling g slot s).Counts s.eventCount := by simp [execProgramFaultHandling]
@[simp] theorem execVeinRepairDone_counts (g : Nat) (s : State) : (execVeinRepairDone g s).Counts s.eventCount := by simp [execVeinRepairDone]
@[simp] theorem State.katStart_eventCount (s : State) (g : Nat) : (s.katStart g).eventCount = s.eventCount := by simp [State.katStart]
@[simp] theorem execKatStart_counts (g : Nat) (s : State) : (execKatStart g s).Counts s.eventCount := by simp [execKatStart]
@[simp] theorem execKatDone_counts (g : Nat) (unit : Option Nat) (s : State) : (execKatDone g unit s).Counts s.eventCount := by simp [execKatDone]
@[simp] theorem State.retireReq_eventCount (s : State) (g : Nat) : (s.retireReq g).eventCount = s.eventCount := by simp [State.retireReq]
@[simp] theorem execGeodeRetire_counts (g : Nat) (s : State) : (execGeodeRetire g s).Counts s.eventCount := by simp [execGeodeRetire]
@[simp] theorem State.setSlotState_eventCount (s : State) (g i v : Nat) : (s.setSlotState g i v).eventCount = s.eventCount := by
  simp only [State.setSlotState]
  split <;> simp
@[simp] theorem execSlotStateWrite_counts (g slot v : Nat) (s : State) :
    (execSlotStateWrite g slot v s).Counts s.eventCount := by simp [execSlotStateWrite]
@[simp] theorem execQueueDiscard_counts (g q : Nat) (s : State) : (execQueueDiscard g q s).Counts s.eventCount := by simp [execQueueDiscard]
@[simp] theorem execPocketScrub_counts (g err word : Nat) (s : State) :
    (execPocketScrub g err word s).Counts s.eventCount := by simp [execPocketScrub]
@[simp] theorem State.mpEvent_eventCount (s : State) (m : Nat) (msg : OutMsg) : (s.mpEvent m msg).eventCount = s.eventCount := by rfl
@[simp] theorem State.flush_eventCount (s : State) (m : Nat) (cmd rsp : Bool) : (s.flush m cmd rsp).eventCount = s.eventCount := by simp [State.flush]
@[simp] theorem State.reject_eventCount (s : State) (m : Nat) (h : W32) (status : Nat) : (s.reject m h status).eventCount = s.eventCount := by rfl
@[simp] theorem State.resync_eventCount (s : State) (m code tag n : Nat) : (s.resync m code tag n).eventCount = s.eventCount := by rfl
@[simp] theorem State.loseFraming_eventCount (s : State) (m : Nat) (h : W32) (words : List InWord) :
    (s.loseFraming m h words).eventCount = s.eventCount := by simp [State.loseFraming]
@[simp] theorem State.admitMsg_eventCount (s : State) (m : Nat) (h : W32) (words : List InWord) :
    (s.admitMsg m h words).eventCount = s.eventCount := by
  unfold State.admitMsg
  split <;> simp
@[simp] theorem State.readMsg_eventCount (s : State) (m : Nat) (h : W32) (have' : List InWord) :
    (s.readMsg m h have').eventCount = s.eventCount := by simp [State.readMsg]
@[simp] theorem State.visit_eventCount (s : State) (m : Nat) : (s.visit m).eventCount = s.eventCount := by
  simp only [State.visit]
  split
  · simp
  · split <;> simp
@[simp] theorem execMpAcceptCommand_counts (s : State) : (execMpAcceptCommand s).Counts s.eventCount := by
  unfold execMpAcceptCommand
  split
  · simp
  · split <;> simp
@[simp] theorem execCmdPayloadTimeout_counts (m : Nat) (s : State) : (execCmdPayloadTimeout m s).Counts s.eventCount := by
  unfold execCmdPayloadTimeout
  split <;> simp
@[simp] theorem execHeldMessageWrite_counts (m : Nat) (s : State) : (execHeldMessageWrite m s).Counts s.eventCount := by
  simp only [execHeldMessageWrite]
  repeat' split
  all_goals simp
@[simp] theorem State.finish_eventCount (s : State) (m : Nat) (c : Cmd) (status : Nat) (words : List W32) (choices : List Nat) :
    (s.finish m c status words choices).eventCount = s.eventCount := by simp [State.finish]
@[simp] theorem State.runBody_eventCount (s : State) (m : Nat) (c : Cmd) {body : State → Answer} (h : Grants (fun x => x.1.eventCount = s.eventCount) (body s)) :
    (s.runBody m c body).eventCount = s.eventCount := by
  unfold State.runBody
  split
  · simp
  · split
    · simp
    next answered =>
      rw [answered] at h
      simpa using h
@[simp] theorem State.run_counts (s : State) (m tag op : Nat) {body : Cmd → State → Answer} (h : ∀ c, Grants (fun x => x.1.eventCount = s.eventCount) (body c s)) :
    (s.run m tag op body).Counts s.eventCount := by
  unfold State.run
  split <;> simp [h]
@[simp] theorem State.setPhase_eventCount (s : State) (m : Nat) (c : Cmd) (phase : Nat) (note : List Nat) :
    (s.setPhase m c phase note).eventCount = s.eventCount := by rfl
@[simp] theorem State.beginBody_eventCount (s : State) (m : Nat) (c : Cmd) {body : State → Begun} (h : Grants (fun x => x.eventCount = s.eventCount) (body s)) :
    (s.beginBody m c body).eventCount = s.eventCount := by
  unfold State.beginBody
  split
  · simp
  · split
    · simp
    next begun =>
      rw [begun] at h
      exact h
@[simp] theorem State.begin_counts (s : State) (m tag op : Nat) {body : Cmd → State → Begun} (h : ∀ c, Grants (fun x => x.eventCount = s.eventCount) (body c s)) :
    (s.begin m tag op body).Counts s.eventCount := by
  unfold State.begin
  split <;> simp [h]
@[simp] theorem State.jump_eventCount (s : State) (d : Int) : (s.jump d).eventCount = s.eventCount := by rfl
@[simp] theorem State.takeStep_eventCount (s : State) : (s.takeStep).eventCount = s.eventCount := by simp [State.takeStep]
@[simp] theorem State.cycles_eventCount (s : State) (k : Nat) : (s.cycles k).eventCount = s.eventCount := by simp [State.cycles]
@[simp] theorem State.advanceTo_eventCount (s : State) (t : Int) : (s.advanceTo t).eventCount = s.eventCount := by simp [State.advanceTo]
@[simp] theorem State.stepBefore_eventCount (s : State) (t : Int) : (s.stepBefore t).eventCount = s.eventCount := by simp [State.stepBefore]
@[simp] theorem State.idle_eventCount (s : State) : (s.idle).eventCount = s.eventCount := by simp [State.idle]
@[simp] theorem execQtzNowFracRead_counts (req : Nat) (s : State) : (execQtzNowFracRead req s).Counts s.eventCount := by rfl
@[simp] theorem execDripCountLoRead_counts (req : Nat) (s : State) : (execDripCountLoRead req s).Counts s.eventCount := by rfl
@[simp] theorem execQtzStatusRead_counts (req : Nat) (s : State) : (execQtzStatusRead req s).Counts s.eventCount := by rfl
@[simp] theorem execQtzStepWrite_counts (req : Nat) (v : W32) (s : State) :
    (execQtzStepWrite req v s).Counts s.eventCount := by simp [execQtzStepWrite]
@[simp] theorem State.writeBudgets_eventCount (s : State) (c : Nat) : (s.writeBudgets c).eventCount = s.eventCount := by simp [State.writeBudgets]
@[simp] theorem State.rebudget_eventCount (s : State) : (s.rebudget).eventCount = s.eventCount := by simp [State.rebudget]
@[simp] theorem setDripStart_counts (c : Cmd) (ch : List Nat) (s : State) :
    Grants (fun x => x.1.eventCount = s.eventCount) (setDripStart c ch s) := by simp [setDripStart]
@[simp] theorem execSetDripStart_counts (m tag : Nat) (s : State) : (execSetDripStart m tag s).Counts s.eventCount := by
  unfold execSetDripStart
  split <;> simp
@[simp] theorem setDrip_counts (c : Cmd) (ch : List Nat) (s : State) :
    Grants (fun x => x.1.eventCount = s.eventCount) (setDrip c ch s) := by simp [setDrip]
@[simp] theorem execSetDrip_counts (m tag : Nat) (s : State) : (execSetDrip m tag s).Counts s.eventCount := by
  unfold execSetDrip
  split <;> simp
@[simp] theorem execTimeSet_counts (m tag : Nat) (s : State) : (execTimeSet m tag s).Counts s.eventCount := by simp [execTimeSet]
@[simp] theorem execTimeRead_counts (m tag : Nat) (s : State) : (execTimeRead m tag s).Counts s.eventCount := by simp [execTimeRead]
@[simp] theorem execPpsConfig_counts (m tag : Nat) (s : State) : (execPpsConfig m tag s).Counts s.eventCount := by simp [execPpsConfig]
@[simp] theorem execPpsInEdge_counts (phase : Nat) (s : State) : (execPpsInEdge phase s).Counts s.eventCount := by simp [execPpsInEdge]
@[simp] theorem State.servo_eventCount (s : State) (edge : Edge) (e : Int) : (s.servo edge e).eventCount = s.eventCount := by simp [State.servo]
@[simp] theorem execTimeAdjust_counts (m tag : Nat) (s : State) : (execTimeAdjust m tag s).Counts s.eventCount :=
  State.run_counts s m tag _ fun c => by
    simp only [Grants.bind_iff, Grants.need_iff]
    intro _ _
    split <;> simp
@[simp] theorem execTimeServoSecond_counts (s : State) : (execTimeServoSecond s).Counts s.eventCount := by
  simp only [execTimeServoSecond]
  repeat' split
  all_goals simp
@[simp] theorem execPpsOutEdge_counts (s : State) : (execPpsOutEdge s).Counts s.eventCount := by simp [execPpsOutEdge]

end Sys2Proof.Machine
end

-- The legal event counter under the Shelf and the Gallery's commands.
section
/-!
PROOFS of 14_flint_metrology.md. Lines and sectors of the Shelf, slabs, transfers and walks keep the event counter.
-/
namespace Sys2Proof.Machine

@[simp] theorem State.backRead_eventCount (s : State) (p : Place) (n : Nat) (ext : List Byte) :
    (s.backRead p n ext).1.eventCount = s.eventCount := by simp [State.backRead]
@[simp] theorem State.backWrite_eventCount (s : State) (p : Place) (b : List Byte) :
    (s.backWrite p b).eventCount = s.eventCount := by simp [State.backWrite]
@[simp] theorem State.writeBack_eventCount (s : State) (host : Bool) (a : Nat) (x : Sector) :
    (s.writeBack host a x).eventCount = s.eventCount := by simp [State.writeBack]
@[simp] theorem State.writeBackAll_eventCount (s : State) (host : Bool) (a : Nat) (l : List Sector) :
    (s.writeBackAll host a l).eventCount = s.eventCount := by simp [State.writeBackAll]
@[simp] theorem State.shelfUe_eventCount (s : State) (p : Place) : (s.shelfUe p).eventCount = s.eventCount := by simp [State.shelfUe]
@[simp] theorem State.shelfEcc_eventCount (s : State) (p : Place) : (s.shelfEcc p).1.eventCount = s.eventCount := by
  unfold State.shelfEcc
  split <;> simp
@[simp] theorem State.cleanSector_eventCount (s : State) (p : Place) : (s.cleanSector p).eventCount = s.eventCount := by
  unfold State.cleanSector
  split <;> simp
@[simp] theorem State.dropSector_eventCount (s : State) (p : Place) : (s.dropSector p).eventCount = s.eventCount := by rfl
@[simp] theorem State.flushGather_eventCount (s : State) (k : Nat) : (s.flushGather k).eventCount = s.eventCount := by
  unfold State.flushGather
  split <;> simp
@[simp] theorem State.flushAt_eventCount (s : State) (p : Place) (n : Nat) : (s.flushAt p n).eventCount = s.eventCount :=
  foldl_eventCount (fun _ _ => by split <;> simp) _ _
@[simp] theorem State.killRes_eventCount (s : State) (who : Nat) (p : Place) (n : Nat) : (s.killRes who p n).eventCount = s.eventCount := by rfl
@[simp] theorem State.dmaReadP_eventCount (s : State) (p n : Nat) : (s.dmaReadP p n).1.eventCount = s.eventCount := by simp [State.dmaReadP]
@[simp] theorem State.dmaWriteP_eventCount (s : State) (p : Nat) (b : List Byte) :
    (s.dmaWriteP p b).eventCount = s.eventCount := by simp [State.dmaWriteP]
@[simp] theorem State.dmaRead_eventCount (s : State) (c a n : Nat) : (s.dmaRead c a n).1.eventCount = s.eventCount := by simp [State.dmaRead]
@[simp] theorem State.dmaWrite_eventCount (s : State) (c a : Nat) (bytes : List Byte) :
    (s.dmaWrite c a bytes).eventCount = s.eventCount := by simp [State.dmaWrite]
@[simp] theorem slabAlloc_counts (c : Cmd) (ch : List Nat) (s : State) : Grants (fun x => x.1.eventCount = s.eventCount) (slabAlloc c ch s) := by
  simp only [slabAlloc]
  split <;> simp [bad]
@[simp] theorem slabShare_counts (c : Cmd) (s : State) : Grants (fun x => x.1.eventCount = s.eventCount) (slabShare c s) := by simp [slabShare]
@[simp] theorem execSlabAlloc_counts (m tag : Nat) (s : State) : (execSlabAlloc m tag s).Counts s.eventCount := by
  unfold execSlabAlloc
  split <;> simp
@[simp] theorem execSlabAllocShare_counts (m tag : Nat) (s : State) : (execSlabAllocShare m tag s).Counts s.eventCount := by
  unfold execSlabAllocShare
  split <;> simp
@[simp] theorem State.startZero_eventCount (s : State) (sl : Nat) : (s.startZero sl).eventCount = s.eventCount := by rfl
@[simp] theorem slabFree_counts (m : Nat) (c : Cmd) (s : State) : Grants (fun x => x.eventCount = s.eventCount) (slabFree m c s) := by simp [slabFree]
@[simp] theorem execSlabFree_counts (m tag : Nat) (s : State) : (execSlabFree m tag s).Counts s.eventCount := by simp [execSlabFree]
@[simp] theorem State.zeroSlab_eventCount (s : State) (sl : Nat) : (s.zeroSlab sl).eventCount = s.eventCount := by rfl
@[simp] theorem State.oneDone_eventCount (s : State) (ops : List Nat) (sl : Nat) : (s.oneDone ops sl).eventCount = s.eventCount := by
  unfold State.oneDone
  split <;> simp
@[simp] theorem execSlabZeroed_counts (sl : Nat) (s : State) : (execSlabZeroed sl s).Counts s.eventCount := by simp [execSlabZeroed]
@[simp] theorem slabProtect_counts (m : Nat) (c : Cmd) (s : State) :
    Grants (fun x => x.eventCount = s.eventCount) (slabProtect m c s) := by simp [slabProtect]
@[simp] theorem execSlabProtect_counts (m tag : Nat) (s : State) : (execSlabProtect m tag s).Counts s.eventCount := by simp [execSlabProtect]
@[simp] theorem execProtectionConversionDone_counts (sl : Nat) (s : State) :
    (execProtectionConversionDone sl s).Counts s.eventCount := by simp [execProtectionConversionDone]
@[simp] theorem startXfer_counts (m : Nat) (write : Bool) (extra : State → Nat → Except (Nat × List W32) Unit) (c : Cmd) (s : State) :
    Grants (fun x => x.eventCount = s.eventCount) (startXfer m write extra c s) := by simp [startXfer]
@[simp] theorem execDmaIn_counts (m tag : Nat) (s : State) : (execDmaIn m tag s).Counts s.eventCount := by simp [execDmaIn]
@[simp] theorem execDmaOut_counts (m tag : Nat) (s : State) : (execDmaOut m tag s).Counts s.eventCount := by simp [execDmaOut]
@[simp] theorem imageLoad_counts (m : Nat) (c : Cmd) (s : State) :
    Grants (fun x => x.eventCount = s.eventCount) (imageLoad m c s) := by simp [imageLoad]
@[simp] theorem execImageLoad_counts (m tag : Nat) (s : State) : (execImageLoad m tag s).Counts s.eventCount := by simp [execImageLoad]
@[simp] theorem State.dmaStride_eventCount (s : State) (k : Nat) (pieces : List (Nat × Nat)) :
    (s.dmaStride k pieces).eventCount = s.eventCount := by simp [State.dmaStride]
@[simp] theorem State.endIn_eventCount (s : State) (m : Nat) (c : Cmd) (data : List Byte) (failed : Option Nat) :
    (s.endIn m c data failed).eventCount = s.eventCount := by
  unfold State.endIn
  split <;> simp
@[simp] theorem State.endOut_eventCount (s : State) (m : Nat) (c : Cmd) (failed : Option Nat) : (s.endOut m c failed).eventCount = s.eventCount := by
  unfold State.endOut
  split <;> simp
theorem State.eventCount_of_pair {α : Type} {p : State × α} {t : State} {a : α} (e : p = (t, a)) : t.eventCount = p.1.eventCount := by rw [e]

@[simp] theorem State.walkBlocks_eventCount (bf full : Bool) (c base stride : Nat) (s : State) (k o : Nat) (l : List Nat) :
    (State.walkBlocks bf full c base stride s k o l).1.eventCount = s.eventCount := by
  induction l generalizing s k o with
  | nil => rfl
  | cons len t ih =>
    simp only [State.walkBlocks]
    split
    · rfl
    split
    · rfl
    split
    · simp
    split
    · split <;> simp [ih]
    · simp [ih]
@[simp] theorem State.walkGroups_eventCount (bf full : Bool) (c base stride n j : Nat) (s : State) (k o : Nat) (idx : List Nat) :
    (State.walkGroups bf full c base stride n j s k o idx).1.eventCount = s.eventCount := by
  induction j generalizing s k o idx with
  | zero => rfl
  | succ j ih =>
    simp only [State.walkGroups]
    split
    · rfl
    split
    · simp
    split
    · next walked => simp [State.eventCount_of_pair walked]
    · next walked => simp [ih, State.eventCount_of_pair walked]
@[simp] theorem State.walk_eventCount (s : State) (bf full : Bool) (c base stride n : Nat) :
    (s.walk bf full c base stride n).1.eventCount = s.eventCount := by simp [State.walk]
@[simp] theorem imageVerify_counts (m : Nat) (c : Cmd) (s : State) :
    Grants (fun x => x.eventCount = s.eventCount) (imageVerify m c s) := by simp [imageVerify]
@[simp] theorem execImageVerify_counts (m tag : Nat) (s : State) : (execImageVerify m tag s).Counts s.eventCount := by simp [execImageVerify]
@[simp] theorem execImageVerifyDone_counts (m tag : Nat) (s : State) : (execImageVerifyDone m tag s).Counts s.eventCount := by
  unfold execImageVerifyDone
  split
  · simp
  split
  · simp
  dsimp only
  split
  · split <;> (next walked => simp [State.eventCount_of_pair walked])
  · simp
@[simp] theorem indexBuild_counts (m : Nat) (c : Cmd) (s : State) :
    Grants (fun x => x.eventCount = s.eventCount) (indexBuild m c s) := by simp [indexBuild]
@[simp] theorem execIndexBuild_counts (m tag : Nat) (s : State) : (execIndexBuild m tag s).Counts s.eventCount := by simp [execIndexBuild]
@[simp] theorem execIndexBuildDone_counts (m tag : Nat) (s : State) : (execIndexBuildDone m tag s).Counts s.eventCount := by
  unfold execIndexBuildDone
  split
  · simp
  split
  · simp
  dsimp only
  split <;> (next walked => simp [State.eventCount_of_pair walked])
@[simp] theorem scrubConfig_counts (c : Cmd) (s : State) : Grants (fun x => x.1.eventCount = s.eventCount) (scrubConfig c s) := by simp [scrubConfig]
@[simp] theorem execScrubConfig_counts (m tag : Nat) (s : State) : (execScrubConfig m tag s).Counts s.eventCount := by simp [execScrubConfig]
@[simp] theorem execGalleryInit_counts (s : State) : (execGalleryInit s).Counts s.eventCount := by simp [execGalleryInit]
@[simp] theorem execGalleryInitDone_counts (s : State) : (execGalleryInitDone s).Counts s.eventCount := by simp [execGalleryInitDone]
@[simp] theorem execPatrolScrub_counts (ch err word : Nat) (s : State) :
    (execPatrolScrub ch err word s).Counts s.eventCount := by simp [execPatrolScrub]

end Sys2Proof.Machine
end

-- The legal event counter under streams and the conduit.
section
/-!
PROOFS of 14_flint_metrology.md. Streams, frames and copies keep the event counter.
-/
namespace Sys2Proof.Machine

@[simp] theorem State.count_eventCount (s : State) (i : Nat) (f : Counters → Counters) : (s.count i f).eventCount = s.eventCount := by rfl
@[simp] theorem State.streamEvent_eventCount (s : State) (i cause : Nat) : (s.streamEvent i cause).eventCount = s.eventCount := by
  simp only [State.streamEvent]
  split
  · simp
  · split <;> simp
@[simp] theorem State.discard_eventCount (s : State) (i d k : Nat) : (s.discard i d k).eventCount = s.eventCount := by simp [State.discard]
@[simp] theorem streamOpen_counts (c : Cmd) (s : State) : Grants (fun x => x.1.eventCount = s.eventCount) (streamOpen c s) := by
  unfold streamOpen
  iterate 2 refine Grants.of_need_bind ?_
  split
  · trivial
  iterate 16 refine Grants.of_need_bind ?_
  simp
@[simp] theorem execStreamOpen_counts (m tag : Nat) (s : State) : (execStreamOpen m tag s).Counts s.eventCount := by simp [execStreamOpen]
@[simp] theorem streamStat_counts (c : Cmd) (s : State) : Grants (fun x => x.1.eventCount = s.eventCount) (streamStat c s) := by simp [streamStat]
@[simp] theorem execStreamStat_counts (m tag : Nat) (s : State) : (execStreamStat m tag s).Counts s.eventCount := by simp [execStreamStat]
@[simp] theorem State.put_eventCount (s : State) (i d : Nat) (e : Entry) : (s.put i d e).eventCount = s.eventCount := by simp [State.put]
@[simp] theorem State.unitIn_eventCount (s : State) (i j : Nat) : (s.unitIn i j).eventCount = s.eventCount := by simp [State.unitIn]
@[simp] theorem State.fill_eventCount (k : Nat) (s : State) (i : Nat) : (State.fill k s i).eventCount = s.eventCount := by
  induction k generalizing s with
  | zero => rfl
  | succ k ih =>
    simp only [State.fill]
    split
    · rfl
    · split <;> simp [ih]
@[simp] theorem State.credit_eventCount (s : State) (i : Nat) : (s.credit i).eventCount = s.eventCount := by simp [State.credit]
@[simp] theorem State.decode_eventCount (s : State) (i : Nat) (b : Mica) : (s.decode i b).eventCount = s.eventCount := by simp [State.decode]
theorem State.pump_eventCount {s t : State} {i : Nat} (e : s.pump i = some t) : t.eventCount = s.eventCount := by
  revert e
  fun_cases State.pump <;> simp
  all_goals (rintro rfl; simp +zetaDelta)

@[simp] theorem State.pumps_eventCount (k : Nat) (s : State) (i : Nat) : (State.pumps k s i).eventCount = s.eventCount := by
  induction k generalizing s with
  | zero => rfl
  | succ k ih =>
    simp only [State.pumps]
    split
    next pumped => rw [ih, State.pump_eventCount pumped]
    · rfl
@[simp] theorem State.dropMica_eventCount (s : State) (i : Nat) : (s.dropMica i).eventCount = s.eventCount := by
  unfold State.dropMica
  split <;> simp
@[simp] theorem State.cameraTile_eventCount (s : State) (camera depth chroma mode count bytes : Nat) (blocks : List (Nat × Option (List Nat))) :
    (s.cameraTile camera depth chroma mode count bytes blocks).eventCount = s.eventCount := by
  unfold State.cameraTile
  split
  · simp
  · split <;> simp
@[simp] theorem execIngestBlockDeliver_counts (i : Nat) (upset : Bool) (s : State) : (execIngestBlockDeliver i upset s).Counts s.eventCount := by
  simp only [execIngestBlockDeliver]
  split
  · simp
  split
  · simp
  split
  next pumped => simp [State.pump_eventCount pumped]
  · simp
@[simp] theorem State.receive_eventCount (s : State) (kind : Nat) (raw : List Byte) : (s.receive kind raw).1.eventCount = s.eventCount := by
  unfold State.receive
  split <;> simp
@[simp] theorem State.feed_eventCount (s : State) (i ts k : Nat) (payload : List Byte) (poison : Bool) :
    (s.feed i ts k payload poison).eventCount = s.eventCount := by simp [State.feed]
@[simp] theorem State.lose_eventCount (s : State) (kind source n : Nat) : (s.lose kind source n).eventCount = s.eventCount := by simp [State.lose]
@[simp] theorem State.feedAll_eventCount (s : State) (kind source ts : Nat) (payload : List Byte) (poison : Bool) :
    (s.feedAll kind source ts payload poison).eventCount = s.eventCount := by simp [State.feedAll]
@[simp] theorem State.standIn_eventCount (s : State) (kind source ts k : Nat) :
    (s.standIn kind source ts k).eventCount = s.eventCount := by simp [State.standIn]
@[simp] theorem State.acceptFrame_eventCount (s : State) (f : Frame) (poison : Bool) :
    (s.acceptFrame f poison).eventCount = s.eventCount := by simp [State.acceptFrame]
@[simp] theorem State.disagree_eventCount (s : State) (f : Frame) : (s.disagree f).eventCount = s.eventCount := by
  unfold State.disagree
  split
  · simp
  · split <;> simp
@[simp] theorem execSampleFrame_counts (raw : List Byte) (upset : Bool) (s : State) : (execSampleFrame raw upset s).Counts s.eventCount := by
  unfold execSampleFrame
  split
  · simp
  · split <;> (next received => simp [State.eventCount_of_pair received])
@[simp] theorem execLanternEvent_counts (raw : List Byte) (upset : Bool) (s : State) : (execLanternEvent raw upset s).Counts s.eventCount := by
  unfold execLanternEvent
  split
  · simp
  · split <;> (next received => simp [State.eventCount_of_pair received])
@[simp] theorem execRecordFrame_counts (raw : List Byte) (s : State) : (execRecordFrame raw s).Counts s.eventCount := by
  unfold execRecordFrame
  split
  · simp
  · split <;> (next received => simp [State.eventCount_of_pair received])
@[simp] theorem execConduitCopy_counts (kind source seq lost ts : Nat) (payload : List Byte) (poison : Bool) (s : State) :
    (execConduitCopy kind source seq lost ts payload poison s).Counts s.eventCount := by simp [execConduitCopy]
@[simp] theorem execTwinLate_counts (source ts : Nat) (s : State) : (execTwinLate source ts s).Counts s.eventCount := by simp [execTwinLate]
@[simp] theorem State.ringPut_eventCount (s : State) (i : Nat) (e : Entry) : (s.ringPut i e).eventCount = s.eventCount := by rfl
@[simp] theorem State.ringIndex_eventCount (s : State) (i : Nat) : (s.ringIndex i).eventCount = s.eventCount := by simp [State.ringIndex]
@[simp] theorem State.putMark_eventCount (s : State) (i : Nat) (e : Entry) : (s.putMark i e).eventCount = s.eventCount := by rfl
@[simp] theorem State.flushHeld_eventCount (s : State) (i : Nat) : (s.flushHeld i).eventCount = s.eventCount := by
  unfold State.flushHeld
  split <;> simp
@[simp] theorem State.mark_eventCount (s : State) (i : Nat) (e : Entry) : (s.mark i e).eventCount = s.eventCount := by simp [State.mark]
@[simp] theorem State.closeTo_eventCount (s : State) (i d : Nat) : (s.closeTo i d).eventCount = s.eventCount := by simp [State.closeTo]
@[simp] theorem State.takeOut_eventCount (s : State) (i : Nat) : (s.takeOut i).eventCount = s.eventCount := by
  simp only [State.takeOut]
  repeat' split
  all_goals simp
@[simp] theorem State.closeBefore_eventCount (s : State) (i o : Nat) : (s.closeBefore i o).eventCount = s.eventCount := by simp [State.closeBefore]
@[simp] theorem State.refuse_eventCount (s : State) (i o : Nat) : (s.refuse i o).eventCount = s.eventCount := by simp [State.refuse]
@[simp] theorem State.putData_eventCount (s : State) (i : Nat) (e : Entry) : (s.putData i e).eventCount = s.eventCount := by simp [State.putData]
@[simp] theorem State.drain1_eventCount (s : State) (i : Nat) : (s.drain1 i).eventCount = s.eventCount := by
  unfold State.drain1
  split <;> simp
@[simp] theorem execRingEntryWrite_counts (i : Nat) (s : State) : (execRingEntryWrite i s).Counts s.eventCount := by simp [execRingEntryWrite]
@[simp] theorem execRingWriteIndexUpdate_counts (i : Nat) (s : State) :
    (execRingWriteIndexUpdate i s).Counts s.eventCount := by simp [execRingWriteIndexUpdate]
@[simp] theorem State.readIdx_eventCount (s : State) (i r : Nat) : (s.readIdx i r).eventCount = s.eventCount := by simp [State.readIdx]
@[simp] theorem execRingReadIndexRead_counts (i r : Nat) (s : State) :
    (execRingReadIndexRead i r s).Counts s.eventCount := by simp [execRingReadIndexRead]
@[simp] theorem execHostLinkReject_counts (i : Nat) (s : State) : (execHostLinkReject i s).Counts s.eventCount := by simp [execHostLinkReject]
@[simp] theorem State.inBoundary_eventCount (s : State) (i n : Nat) : (s.inBoundary i n).eventCount = s.eventCount := by
  unfold State.inBoundary
  split <;> simp
@[simp] theorem State.outBoundary_eventCount (s : State) (i n r : Nat) : (s.outBoundary i n r).eventCount = s.eventCount := by
  simp only [State.outBoundary]
  split
  · simp
  · split <;> simp
@[simp] theorem State.streamsBoundary_eventCount (s : State) (n : Nat) (reads : List (Nat × Nat)) :
    (s.streamsBoundary n reads).eventCount = s.eventCount := by simp [State.streamsBoundary]
@[simp] theorem State.closeOut_eventCount (k : Nat) (s : State) (i : Nat) (ok : Bool) (w d : Nat) :
    (State.closeOut k s i ok w d).1.eventCount = s.eventCount := by
  induction k generalizing s ok w d with
  | zero => rfl
  | succ k ih =>
    simp only [State.closeOut]
    split <;> simp [ih]
@[simp] theorem State.closeStream_eventCount (s : State) (i r : Nat) : (s.closeStream i r).1.eventCount = s.eventCount := by simp [State.closeStream]
@[simp] theorem streamClose_counts (c : Cmd) (r : Nat) (s : State) :
    Grants (fun x => x.1.eventCount = s.eventCount) (streamClose c r s) := by simp [streamClose]
@[simp] theorem execStreamClose_counts (m tag r : Nat) (s : State) : (execStreamClose m tag r s).Counts s.eventCount := by simp [execStreamClose]

end Sys2Proof.Machine
end

-- The legal event counter under contexts.
section
/-!
PROOFS of 14_flint_metrology.md. Frames that Flint sends, context commands and checkpoints keep the event counter.
-/
namespace Sys2Proof.Machine

@[simp] theorem State.drawWords_eventCount (k : Nat) (s : State) : (State.drawWords k s).1.eventCount = s.eventCount := by
  induction k generalizing s with
  | zero => rfl
  | succ k ih => simp [State.drawWords, ih]
@[simp] theorem State.rtcAt_eventCount (s : State) (t : Nat) : (s.rtcAt t).eventCount = s.eventCount := by rfl
@[simp] theorem Flint.frame_events (f : Flint) (kind source ts : Nat) (payload : List Byte) :
    (f.frame kind source ts payload).events = f.events := by simp [Flint.frame]
@[simp] theorem State.frame_eventCount (s : State) (kind source ts : Nat) (payload : List Byte) :
    (s.frame kind source ts payload).eventCount = s.eventCount := by simp [State.frame]
@[simp] theorem State.flintSay_eventCount (s : State) (kind tag status : Nat) (body : List W32) :
    (s.flintSay kind tag status body).eventCount = s.eventCount := by rfl
@[simp] theorem State.kcMsg_counts (s : State) (kind : Nat) (body : List W32) (ctr : Nat) (tag : List W32) {act : State → State} 
    (h : ∀ t, (act t).eventCount = t.eventCount) : (s.kcMsg kind body ctr tag act).Counts s.eventCount := by
  simp [State.kcMsg, h]
@[simp] theorem ctxCreate_counts (c : Cmd) (ch : List Nat) (s : State) : Grants (fun x => x.1.eventCount = s.eventCount) (ctxCreate c ch s) := by
  unfold ctxCreate
  refine Grants.of_need_bind ?_
  split
  · trivial
  iterate 10 refine Grants.of_need_bind ?_
  simp
@[simp] theorem execCtxCreate_counts (m tag : Nat) (s : State) : (execCtxCreate m tag s).Counts s.eventCount := by simp [execCtxCreate]
@[simp] theorem State.readImage_eventCount (s : State) (x a : Nat) : (s.readImage x a).1.eventCount = s.eventCount := by simp [State.readImage]
@[simp] theorem State.imageQueues_eventCount (s : State) (g : Nat) (b : List Byte) :
    (s.imageQueues g b).eventCount = s.eventCount := by simp [State.imageQueues]
@[simp] theorem State.bindQueue_eventCount (s : State) (g : Nat) (e : BindEnt) : (s.bindQueue g e).eventCount = s.eventCount := by rfl
@[simp] theorem ctxBind_counts (c : Cmd) (ch : List Nat) (s : State) : Grants (fun x => x.1.eventCount = s.eventCount) (ctxBind c ch s) := by
  unfold ctxBind
  iterate 5 refine Grants.of_need_bind ?_
  split
  · trivial
  next read =>
  iterate 4 refine Grants.of_need_bind ?_
  split
  · trivial
  iterate 5 refine Grants.of_need_bind ?_
  split
  · trivial
  refine Grants.of_need_bind ?_
  simp [State.eventCount_of_pair read]
@[simp] theorem execCtxBind_counts (m tag : Nat) (s : State) : (execCtxBind m tag s).Counts s.eventCount := by simp [execCtxBind]
@[simp] theorem ctxStart_counts (c : Cmd) (ch : List Nat) (s : State) :
    Grants (fun x => x.1.eventCount = s.eventCount) (ctxStart c ch s) := by simp [ctxStart]
@[simp] theorem execCtxStart_counts (m tag : Nat) (s : State) : (execCtxStart m tag s).Counts s.eventCount := by simp [execCtxStart]
@[simp] theorem State.stopNow_eventCount (s : State) (x : Nat) : (s.stopNow x).eventCount = s.eventCount := by simp [State.stopNow]
@[simp] theorem ctxStop_counts (m : Nat) (c : Cmd) (s : State) : Grants (fun x => x.eventCount = s.eventCount) (ctxStop m c s) := by simp [ctxStop]
@[simp] theorem execCtxStop_counts (m tag : Nat) (s : State) : (execCtxStop m tag s).Counts s.eventCount := by simp [execCtxStop]
@[simp] theorem execCtxStopComplete_counts (ctx : Nat) (s : State) : (execCtxStopComplete ctx s).Counts s.eventCount := by
  unfold execCtxStopComplete
  split <;> simp
@[simp] theorem State.tearDown_eventCount (s : State) (x : Nat) (reads : List (Nat × Nat)) :
    (s.tearDown x reads).eventCount = s.eventCount := by simp [State.tearDown]
@[simp] theorem ctxDestroy_counts (reads : List (Nat × Nat)) (m : Nat) (c : Cmd) (s : State) :
    Grants (fun x => x.eventCount = s.eventCount) (ctxDestroy reads m c s) := by simp [ctxDestroy]
@[simp] theorem execCtxDestroy_counts (m tag : Nat) (reads : List (Nat × Nat)) (s : State) :
    (execCtxDestroy m tag reads s).Counts s.eventCount := by simp [execCtxDestroy]
@[simp] theorem State.slabRec_eventCount (s : State) (i : Nat) (e : MapEnt) : (s.slabRec i e).1.eventCount = s.eventCount := by simp [State.slabRec]
@[simp] theorem State.ckptRaw_eventCount (s : State) (x : Nat) : (s.ckptRaw x).1.eventCount = s.eventCount := by simp [State.ckptRaw]
@[simp] theorem ckptSave_counts (m : Nat) (c : Cmd) (s : State) : Grants (fun x => x.eventCount = s.eventCount) (ckptSave m c s) := by simp [ckptSave]
@[simp] theorem execCtxCheckpointSave_counts (m tag : Nat) (s : State) : (execCtxCheckpointSave m tag s).Counts s.eventCount := by
  unfold execCtxCheckpointSave
  split <;> simp
@[simp] theorem ckptRestore_counts (m : Nat) (ch : List Nat) (c : Cmd) (s : State) :
    Grants (fun x => x.eventCount = s.eventCount) (ckptRestore m ch c s) := by simp [ckptRestore]
@[simp] theorem execCtxCheckpointRestore_counts (m tag : Nat) (s : State) : (execCtxCheckpointRestore m tag s).Counts s.eventCount := by
  unfold execCtxCheckpointRestore
  split <;> simp
@[simp] theorem State.ckptImage_eventCount (s : State) (x : Nat) (slabs : List SlabIn) (a n : Nat) :
    (s.ckptImage x slabs a n).1.eventCount = s.eventCount := by
  unfold State.ckptImage
  split <;> simp
@[simp] theorem State.restoreSlot_eventCount (s0 : State) (x : Nat) (imgs : List (Nat × Nat × Nat)) (r : List Byte × List Byte) :
    (s0.restoreSlot x imgs r).eventCount = s0.eventCount := by simp [State.restoreSlot]
@[simp] theorem State.endRestore_eventCount (s : State) (m : Nat) (c : Cmd) (data : List Byte) (ch : List Nat) :
    (s.endRestore m c data ch).eventCount = s.eventCount := by
  simp only [State.endRestore]
  split <;> simp
@[simp] theorem State.endSave_eventCount (s : State) (m : Nat) (c : Cmd) (failed : Option Nat) :
    (s.endSave m c failed).eventCount = s.eventCount := by
  unfold State.endSave
  split <;> simp
@[simp] theorem execDmaTransferDone_counts (m tag : Nat) (data : List Byte) (failed : Option Nat) (s : State) :
    (execDmaTransferDone m tag data failed s).Counts s.eventCount := by
  simp only [execDmaTransferDone]
  repeat' split
  all_goals simp

end Sys2Proof.Machine
end

-- The legal event counter under registers, power operations and drops.
section
/-!
PROOFS of 14_flint_metrology.md. Register accesses, the operations of the power states, and the end of a drop at Flint keep the event counter.
-/
namespace Sys2Proof.Machine

@[simp] theorem State.readEffect_eventCount (s : State) (who : Nat) (r : Reg) : (s.readEffect who r).eventCount = s.eventCount := by
  unfold State.readEffect
  split <;> simp
@[simp] theorem State.readReg_eventCount (s : State) (who : Nat) (r : Reg) : (s.readReg who r).1.eventCount = s.eventCount := by simp [State.readReg]
@[simp] theorem State.twinEvent_eventCount (s : State) : (s.twinEvent).eventCount = s.eventCount := by rfl
@[simp] theorem State.setHold_eventCount (s : State) (b : Bool) : (s.setHold b).eventCount = s.eventCount := by simp [State.setHold]
@[simp] theorem State.endCdSession_eventCount (s : State) (reason : Nat) :
    (s.endCdSession reason).eventCount = s.eventCount := by simp [State.endCdSession]
@[simp] theorem State.writeGReg_eventCount (s : State) (g v : Nat) (r : GReg) : (s.writeGReg g v r).eventCount = s.eventCount := by
  unfold State.writeGReg
  split <;> simp
@[simp] theorem State.writeCic_eventCount (s : State) (who b v : Nat) (r : Reg) : (s.writeCic who b v r).eventCount = s.eventCount := by
  unfold State.writeCic
  split <;> simp
@[simp] theorem State.writeReg_eventCount (s : State) (who : Nat) (r : Reg) (v : Nat) : (s.writeReg who r v).eventCount = s.eventCount := by
  unfold State.writeReg
  split
  · simp
  · split <;> simp
@[simp] theorem execFcuHoldWrite_counts (b : Bool) (s : State) : (execFcuHoldWrite b s).Counts s.eventCount := by simp [execFcuHoldWrite]
@[simp] theorem execFcuResultWrite_counts (b : Bool) (s : State) : (execFcuResultWrite b s).Counts s.eventCount := by rfl
@[simp] theorem execSecGalKeyWrite_counts (n : Nat) (w : W32) (s : State) : (execSecGalKeyWrite n w s).Counts s.eventCount := by rfl
@[simp] theorem execFwLockWrite_counts (s : State) : (execFwLockWrite s).Counts s.eventCount := by rfl
@[simp] theorem execCicIpi_counts (req v : Nat) (s : State) : (execCicIpi req v s).Counts s.eventCount := by simp [execCicIpi]
@[simp] theorem execDoorbell_counts (h v : Nat) (s : State) : (execDoorbell h v s).Counts s.eventCount := by simp [execDoorbell]
@[simp] theorem execMachineTimer_counts (h : Nat) (s : State) : (execMachineTimer h s).Counts s.eventCount := by rfl
@[simp] theorem State.pwrEvent_eventCount (s : State) : (s.pwrEvent).eventCount = s.eventCount := by rfl
@[simp] theorem State.rollback_eventCount (s : State) (outcome block cause : Nat) : (s.rollback outcome block cause).eventCount = s.eventCount := by
  unfold State.rollback
  split <;> simp
@[simp] theorem State.ackWakes_eventCount (s : State) (bits : Nat) : (s.ackWakes bits).eventCount = s.eventCount := by rfl
@[simp] theorem State.abortWake_eventCount (s : State) (bits : Nat) : (s.abortWake bits).eventCount = s.eventCount := by simp [State.abortWake]
@[simp] theorem State.answerCommit_eventCount (s : State) : (s.answerCommit).eventCount = s.eventCount := by simp [State.answerCommit]
@[simp] theorem State.wakeActs_eventCount (s : State) : (s.wakeActs).eventCount = s.eventCount := by
  unfold State.wakeActs
  split <;> simp
@[simp] theorem State.raiseLevel_eventCount (s : State) (k : Nat) : (s.raiseLevel k).eventCount = s.eventCount := by simp [State.raiseLevel]
@[simp] theorem State.dropLevel_eventCount (s : State) (k : Nat) : (s.dropLevel k).eventCount = s.eventCount := by rfl
@[simp] theorem State.raiseEdge_eventCount (s : State) (k : Nat) : (s.raiseEdge k).eventCount = s.eventCount := by simp [State.raiseEdge]
@[simp] theorem State.askBlock_eventCount (s : State) (b target : Nat) (busy : List Nat) (again : Bool) :
    (s.askBlock b target busy again).1.eventCount = s.eventCount := by
  unfold State.askBlock
  split <;> simp
@[simp] theorem State.startPending_eventCount (s : State) : (s.startPending).eventCount = s.eventCount := by rfl
@[simp] theorem State.refused_eventCount (s : State) (b cause : Nat) : (s.refused b cause).eventCount = s.eventCount := by simp [State.refused]
@[simp] theorem State.askFrom_eventCount (k : Nat) (s : State) (b : Nat) (busy : List Nat) (again : Bool) :
    (State.askFrom k s b busy again).eventCount = s.eventCount := by
  induction k generalizing s b again with
  | zero => rfl
  | succ k ih =>
    have asked (t : Nat) : (if b = 1 then (s, Verdict.delay) else s.askBlock b t busy again).1.eventCount = s.eventCount := by simp
    simp only [State.askFrom]
    split
    · rfl
    split
    · simp
    split
    · simp
    split
    · exact ih ..
    next t _ _ _ _ =>
    have asked := asked t
    generalize (if b = 1 then (s, Verdict.delay) else s.askBlock b t busy again) = p at asked ⊢
    split
    · simpa using asked
    · simpa using asked
    · split
      · simpa using asked
      · simpa [ih] using asked
@[simp] theorem State.latchPads_eventCount (s : State) : (s.latchPads).eventCount = s.eventCount := by rfl
@[simp] theorem Flint.compare_events (f : Flint) (drip index : Nat) (twin : Int) : (f.compare drip index twin).events = f.events := by
  simp only [Flint.compare]
  split <;> simp
@[simp] theorem Flint.notice_events (f : Flint) (drip index : Nat) (twin : Int) :
    (f.notice drip index twin).events = f.events := by simp [Flint.notice]
@[simp] theorem Flint.zeroing_events (f : Flint) (w : Weigh) : (f.zeroing w).1.events = f.events := by
  simp only [Flint.zeroing]
  repeat' split
  all_goals simp
@[simp] theorem Flint.boundary_events (f : Flint) (initial : Bool) : (f.boundary initial).events = f.events := by simp [Flint.boundary]
@[simp] theorem State.fire_eventCount (s : State) (st ts : Nat) (x : Nat × Rule) : (s.fire st ts x).eventCount = s.eventCount := by simp [State.fire]
@[simp] theorem State.lantern_eventCount (s : State) (codes : List Int) (w : Weigh) (reads : List (Nat × Nat × List Byte)) (skip : Bool) (ts : Nat) :
    (s.lantern codes w reads skip ts).eventCount = s.eventCount := by simp [State.lantern]
@[simp] theorem State.lanStatus_eventCount (s : State) (ts k : Nat) : (s.lanStatus ts k).eventCount = s.eventCount := by simp [State.lanStatus]
@[simp] theorem State.drop_eventCount (s : State) (new : List (List Int)) (volts : Nat) (reads' : List (Nat × Nat × List Byte)) (skip : Bool) :
    (s.drop new volts reads' skip).eventCount = s.eventCount := by
  unfold State.drop
  extract_lets f codes reads w ts key x note f1 f2 flags on rises makes gross item
  have compared : f2.events = s.eventCount := by cases e : note <;> simp [f2, e, f1, f]
  clear_value f2 makes item flags
  have zeroed := f2.zeroing_events w
  generalize f2.zeroing w = z at zeroed ⊢
  obtain ⟨f3, initial⟩ := z
  dsimp -zeta only at zeroed ⊢
  extract_lets s1 s2 sent s3 s4 s5
  have weighed : s1.eventCount = s.eventCount := by simp [s1, zeroed, compared]
  clear_value s1
  have noticed : s2.eventCount = s.eventCount := by simp [s2, weighed]
  clear_value s2
  have framed : s3.eventCount = s.eventCount := by simp [s3, sent, noticed]
  clear_value s3
  have sampled : s4.eventCount = s.eventCount := by simp [s4, framed]
  clear_value s4
  have stepped : s5.eventCount = s.eventCount := by simp [s5, sampled]
  simp [stepped]
@[simp] theorem execFlintDropSample_counts (codes : List (List Int)) (volts : Nat) (reads : List (Nat × Nat × List Byte)) (skip : Bool) (s : State) :
    (execFlintDropSample codes volts reads skip s).Counts s.eventCount := by simp [execFlintDropSample]
@[simp] theorem execRtcWake_counts (codes : List (List Int)) (volts : Nat) (reads : List (Nat × Nat × List Byte)) (s : State) :
    (execRtcWake codes volts reads s).Counts s.eventCount := by
  simp only [execRtcWake]
  split
  · simp
  split
  · simp
  · simp
@[simp] theorem execWeightRecordDecision_counts (s : State) : (execWeightRecordDecision s).Counts s.eventCount := by
  simp only [execWeightRecordDecision]
  split <;> simp
@[simp] theorem execWeightRecordSigned_counts (s : State) : (execWeightRecordSigned s).Counts s.eventCount := by
  unfold execWeightRecordSigned
  split <;> simp
@[simp] theorem State.rtcLatch_eventCount (s : State) (stamp : Nat) : (s.rtcLatch stamp).eventCount = s.eventCount := by rfl
@[simp] theorem execTiming_counts (body : List W32) (ctr : Nat) (tag : List W32) (rtc : Nat) (s : State) :
    (execTiming body ctr tag rtc s).Counts s.eventCount := by simp [execTiming]
@[simp] theorem execTimingHoldover_counts (s : State) : (execTimingHoldover s).Counts s.eventCount := by simp [execTimingHoldover]
@[simp] theorem execHello_counts (s : State) : (execHello s).Counts s.eventCount := by simp [execHello]
@[simp] theorem execModeMsg_counts (body : List W32) (ctr : Nat) (tag : List W32) (s : State) :
    (execModeMsg body ctr tag s).Counts s.eventCount := by simp [execModeMsg]
@[simp] theorem execPairCertificate_counts (body : List W32) (ctr : Nat) (tag : List W32) (certOk : Bool) (s : State) :
    (execPairCertificate body ctr tag certOk s).Counts s.eventCount := by simp [execPairCertificate]
@[simp] theorem execPairTwinCmp_counts (body : List W32) (ctr : Nat) (tag : List W32) (s : State) :
    (execPairTwinCmp body ctr tag s).Counts s.eventCount := by simp [execPairTwinCmp]
@[simp] theorem execTwinCmpRelay_counts (body : List W32) (s : State) : (execTwinCmpRelay body s).Counts s.eventCount := by simp [execTwinCmpRelay]
@[simp] theorem execCalEnNAsserted_counts (s : State) : (execCalEnNAsserted s).Counts s.eventCount := by rfl
@[simp] theorem execCalEnNDeasserted_counts (s : State) : (execCalEnNDeasserted s).Counts s.eventCount := by rfl
@[simp] theorem Flint.audits_events (f : Flint) (ts kind v ident value : Nat) :
    (f.audits ts kind v ident value).events = f.events := by simp [Flint.audits]
@[simp] theorem State.endSession_eventCount (s : State) (die reason : Nat) : (s.endSession die reason).eventCount = s.eventCount := by
  unfold State.endSession
  split <;> simp
@[simp] theorem Flint.mram_events (f : Flint) : (f.mram).events = f.events := by rfl
@[simp] theorem State.flintReset_eventCount (s : State) : (s.flintReset).eventCount = s.eventCount := by simp [State.flintReset]
@[simp] theorem execFlintReset_counts (s : State) : (execFlintReset s).Counts s.eventCount := by simp [execFlintReset]
@[simp] theorem execBrownout_counts (s : State) : (execBrownout s).Counts s.eventCount := by simp [execBrownout]

end Sys2Proof.Machine
end

-- The legal event counter under metrology, device and power commands.
section
/-!
PROOFS of 14_flint_metrology.md. Relayed metrology commands, the board record, Lantern, resets and power commands keep the event counter where they make no change of R338.
-/
namespace Sys2Proof.Machine

@[simp] theorem State.metAnswer_eventCount (s : State) (key : Option (List Byte)) (c : Cmd) (status : Nat) (body : List W32) (ctr : W32) :
    (s.metAnswer key c status body ctr).eventCount = s.eventCount := by
  unfold State.metAnswer
  split <;> simp
@[simp] theorem State.metRun_counts (s : State) (m tag op : Nat) (sel : Cmd → Bool) {body : List Nat → State → MetAns} 
    (h : ∀ b t, Grants (fun x => x.1.eventCount = t.eventCount) (body b t)) : (s.metRun m tag op sel body).Counts s.eventCount := by
  unfold State.metRun
  split
  · simp
  next c _ =>
  split
  · simp
  split
  · simp
  extract_lets s1 k ctr key s2
  have asked : s1.eventCount = s.eventCount := by simp [s1]
  have used : s2.eventCount = s.eventCount := by simp [s2, s1]
  have kept := h ((c.words.take k).map fun w => w.toNat) s2
  clear_value s2 s1
  split
  · simp [asked]
  split
  · simp [asked]
  split
  · simp [used]
  next answered =>
    rw [answered] at kept
    have same := (Grants.ok_iff _ _).mp kept
    simp [same, used]
@[simp] theorem execFlintResponseRelay_counts (m tag : Nat) (s : State) : (execFlintResponseRelay m tag s).Counts s.eventCount := by
  unfold execFlintResponseRelay
  split
  · simp
  · split <;> simp
@[simp] theorem execMetrologyTimeout_counts (m tag : Nat) (s : State) : (execMetrologyTimeout m tag s).Counts s.eventCount := by
  unfold execMetrologyTimeout
  split <;> simp
@[simp] theorem metRead_counts (b : List Nat) (s : State) : Grants (fun x => x.1.eventCount = s.eventCount) (metRead b s) := by
  simp only [metRead]
  split <;> simp
@[simp] theorem execMetRead_counts (m tag : Nat) (s : State) : (execMetRead m tag s).Counts s.eventCount := by simp [execMetRead]
@[simp] theorem metTare_counts (b : List Nat) (s : State) : Grants (fun x => x.1.eventCount = s.eventCount) (metTare b s) := by simp [metTare]
@[simp] theorem execTare_counts (m tag : Nat) (s : State) : (execTare m tag s).Counts s.eventCount := by simp [execTare]
@[simp] theorem metZero_counts (b : List Nat) (s : State) : Grants (fun x => x.1.eventCount = s.eventCount) (metZero b s) := by simp [metZero]
@[simp] theorem execZero_counts (m tag : Nat) (s : State) : (execZero m tag s).Counts s.eventCount := by simp [execZero]
@[simp] theorem metKeyGeneration_counts (b : List Nat) (s : State) :
    Grants (fun x => x.1.eventCount = s.eventCount) (metKeyGeneration b s) := by simp [metKeyGeneration]
@[simp] theorem execKeyGeneration_counts (m tag : Nat) (s : State) : (execKeyGeneration m tag s).Counts s.eventCount := by simp [execKeyGeneration]
@[simp] theorem metCalStart_counts (b : List Nat) (s : State) :
    Grants (fun x => x.1.eventCount = s.eventCount) (metCalStart b s) := by simp [metCalStart]
@[simp] theorem execMetCalStart_counts (m tag : Nat) (s : State) : (execMetCalStart m tag s).Counts s.eventCount := by simp [execMetCalStart]
@[simp] theorem metCalCapture_counts (b : List Nat) (s : State) : Grants (fun x => x.1.eventCount = s.eventCount) (metCalCapture b s) := by
  simp only [metCalCapture]
  split <;> simp
@[simp] theorem execMetCalCapture_counts (m tag : Nat) (s : State) : (execMetCalCapture m tag s).Counts s.eventCount := by simp [execMetCalCapture]
@[simp] theorem metCalAbort_counts (b : List Nat) (s : State) : Grants (fun x => x.1.eventCount = s.eventCount) (metCalAbort b s) := by
  unfold metCalAbort
  split <;> simp
@[simp] theorem execMetCalAbort_counts (m tag : Nat) (s : State) : (execMetCalAbort m tag s).Counts s.eventCount := by simp [execMetCalAbort]
@[simp] theorem metLogRead_counts (b : List Nat) (s : State) :
    Grants (fun x => x.1.eventCount = s.eventCount) (metLogRead b s) := by simp [metLogRead]
@[simp] theorem execMetLogRead_counts (m tag : Nat) (s : State) : (execMetLogRead m tag s).Counts s.eventCount := by simp [execMetLogRead]
@[simp] theorem metLogAck_counts (b : List Nat) (s : State) : Grants (fun x => x.1.eventCount = s.eventCount) (metLogAck b s) := by simp [metLogAck]
@[simp] theorem execMetLogAck_counts (m tag : Nat) (s : State) : (execMetLogAck m tag s).Counts s.eventCount := by simp [execMetLogAck]
@[simp] theorem State.sendChunks_eventCount (s : State) (kind op k : Nat) (data : List Byte) :
    (s.sendChunks kind op k data).eventCount = s.eventCount := by simp [State.sendChunks]
@[simp] theorem execIdentify_counts (m tag : Nat) (s : State) : (execIdentify m tag s).Counts s.eventCount := by simp [execIdentify]
@[simp] theorem boardRecord_counts (data : List Byte) (failed : Option Nat) (sigOk : Bool) (m : Nat) (c : Cmd) (s : State) :
    Grants (fun x => x.eventCount = s.eventCount) (boardRecord data failed sigOk m c s) := by
  simp only [boardRecord]
  split <;> simp
@[simp] theorem execBoardRecord_counts (m tag : Nat) (data : List Byte) (failed : Option Nat) (sigOk : Bool) (s : State) :
    (execBoardRecord m tag data failed sigOk s).Counts s.eventCount := by simp [execBoardRecord]
@[simp] theorem State.acceptBoard_eventCount (s : State) (b : Board) : (s.acceptBoard b).eventCount = s.eventCount := by simp [State.acceptBoard]
@[simp] theorem State.boardAnswer_eventCount (s : State) (status : Nat) : (s.boardAnswer status).eventCount = s.eventCount := by
  unfold State.boardAnswer
  split <;> simp
@[simp] theorem execGetStatus_counts (m tag : Nat) (s : State) : (execGetStatus m tag s).Counts s.eventCount := by simp [execGetStatus]
@[simp] theorem lanModelLoad_counts (data : List Byte) (failed : Option Nat) (m : Nat) (c : Cmd) (s : State) :
    Grants (fun x => x.eventCount = s.eventCount) (lanModelLoad data failed m c s) := by simp [lanModelLoad]
@[simp] theorem execLanModelLoad_counts (m tag : Nat) (data : List Byte) (failed : Option Nat) (s : State) :
    (execLanModelLoad m tag data failed s).Counts s.eventCount := by simp [execLanModelLoad]
@[simp] theorem State.modelAnswer_eventCount (s : State) (status : Nat) (body : List W32) :
    (s.modelAnswer status body).eventCount = s.eventCount := by
  unfold State.modelAnswer
  split <;> simp
@[simp] theorem execLanRules_counts (m tag : Nat) (s : State) : (execLanRules m tag s).Counts s.eventCount := by simp [execLanRules]
@[simp] theorem execLanternChunk_counts (body : List W32) (ctr : Nat) (tag : List W32) (s : State) :
    (execLanternChunk body ctr tag s).Counts s.eventCount := by simp [execLanternChunk]
@[simp] theorem execLanternCommit_counts (body : List W32) (ctr : Nat) (tag : List W32) (s : State) :
    (execLanternCommit body ctr tag s).Counts s.eventCount := by simp [execLanternCommit]
@[simp] theorem execLanternRules_counts (body : List W32) (ctr : Nat) (tag : List W32) (s : State) :
    (execLanternRules body ctr tag s).Counts s.eventCount := by simp [execLanternRules]
@[simp] theorem execLanternReport_counts (body : List W32) (ctr : Nat) (tag : List W32) (s : State) :
    (execLanternReport body ctr tag s).Counts s.eventCount := by simp [execLanternReport]
@[simp] theorem execLanternBoard_counts (body : List W32) (ctr : Nat) (tag : List W32) (sigOk : Bool) (s : State) :
    (execLanternBoard body ctr tag sigOk s).Counts s.eventCount := by
  refine s.kcMsg_counts _ _ _ _ fun t => ?_
  have stored : (if (chunkOf body).1 + (chunkOf body).2.length ≤ 16384 then
      t.withFl fun f => { f with boardBuf := f.boardBuf.writeN (chunkOf body).1 (chunkOf body).2 } else t).eventCount = t.eventCount := by simp
  dsimp only
  generalize (if (chunkOf body).1 + (chunkOf body).2.length ≤ 16384 then
      t.withFl fun f => { f with boardBuf := f.boardBuf.writeN (chunkOf body).1 (chunkOf body).2 } else t) = u at stored ⊢
  split
  · exact stored
  split
  · simp [stored]
  split <;> simp [stored]
@[simp] theorem State.flintSees_eventCount (s : State) (reason : Nat) : (s.flintSees reason).eventCount = s.eventCount := by simp [State.flintSees]
@[simp] theorem State.clearCompute_eventCount (s : State) : (s.clearCompute).eventCount = s.eventCount := by rfl
@[simp] theorem State.computeReset_eventCount (s : State) : (s.computeReset).eventCount = s.eventCount := by simp [State.computeReset]
@[simp] theorem State.dropRecords_eventCount (s : State) : (s.dropRecords).eventCount = s.eventCount := by rfl
@[simp] theorem pwrRequest_counts (c : Cmd) (s : State) : Grants (fun x => x.1.eventCount = s.eventCount) (pwrRequest c s) := by
  simp only [pwrRequest]
  split <;> simp
@[simp] theorem State.reverseNow_eventCount (s : State) : (s.reverseNow).eventCount = s.eventCount := by simp [State.reverseNow]
@[simp] theorem execPwrRequest_counts (m tag : Nat) (s : State) : (execPwrRequest m tag s).Counts s.eventCount := by
  have ran : (s.run m tag 0x48 pwrRequest).Counts s.eventCount := by simp
  unfold execPwrRequest
  split
  next t e =>
    rw [e] at ran
    simpa using ran
  · exact ran
@[simp] theorem execPwrStatus_counts (m tag : Nat) (s : State) : (execPwrStatus m tag s).Counts s.eventCount := by simp [execPwrStatus]
@[simp] theorem execPadRelease_counts (m tag : Nat) (s : State) : (execPadRelease m tag s).Counts s.eventCount := by simp [execPadRelease]
@[simp] theorem dvfsSet_counts (c : Cmd) (s : State) : Grants (fun x => x.1.eventCount = s.eventCount) (dvfsSet c s) := by simp [dvfsSet]
@[simp] theorem execDvfsSet_counts (m tag : Nat) (s : State) : (execDvfsSet m tag s).Counts s.eventCount := by simp [execDvfsSet]
@[simp] theorem execDvfsChangeStart_counts (lead : Option Nat) (s : State) : (execDvfsChangeStart lead s).Counts s.eventCount := by
  unfold execDvfsChangeStart
  split
  · simp
  · split <;> simp
@[simp] theorem State.quietClk_eventCount (s : State) (d k : Nat) : (s.quietClk d k).eventCount = s.eventCount := by rfl
@[simp] theorem execDvfsChangeDone_counts (s : State) : (execDvfsChangeDone s).Counts s.eventCount := by
  unfold execDvfsChangeDone
  split <;> simp
@[simp] theorem execPowerHandshakeStart_counts (busy : List Nat) (s : State) :
    (execPowerHandshakeStart busy s).Counts s.eventCount := by simp [execPowerHandshakeStart]
@[simp] theorem State.twinAgrees_eventCount (s : State) (busy : List Nat) : (s.twinAgrees busy).eventCount = s.eventCount := by
  simp only [State.twinAgrees]
  split <;> simp
@[simp] theorem execBlockAnswer_counts (busy : List Nat) (twin : Nat) (s : State) : (execBlockAnswer busy twin s).Counts s.eventCount := by
  unfold execBlockAnswer
  split <;> simp
@[simp] theorem execBlockDelayTimeout_counts (busy : List Nat) (s : State) : (execBlockDelayTimeout busy s).Counts s.eventCount := by
  simp only [execBlockDelayTimeout]
  repeat' split
  all_goals simp
@[simp] theorem execFollowerHandshake_counts (target ticks : Nat) (follows : Bool) (busy : List Nat) (s : State) :
    (execFollowerHandshake target ticks follows busy s).Counts s.eventCount := by simp [execFollowerHandshake]
@[simp] theorem Flint.commit_events (f : Flint) (t : Nat) : (f.commit t).events = f.events := by simp [Flint.commit]
@[simp] theorem State.commitShallow_eventCount (s : State) (t : Nat) : (s.commitShallow t).eventCount = s.eventCount := by simp [State.commitShallow]
@[simp] theorem State.commitDeep_eventCount (s : State) : (s.commitDeep).eventCount = s.eventCount := by simp [State.commitDeep]
@[simp] theorem State.commitTo_eventCount (s : State) (t : Nat) : (s.commitTo t).eventCount = s.eventCount := by simp [State.commitTo]
@[simp] theorem execEntryCommit_counts (s : State) : (execEntryCommit s).Counts s.eventCount := by
  unfold execEntryCommit
  split <;> simp
@[simp] theorem execHibernateEntry_counts (s : State) : (execHibernateEntry s).Counts s.eventCount := by
  unfold execHibernateEntry
  split <;> simp
@[simp] theorem execSbSync_counts (s : State) : (execSbSync s).Counts s.eventCount := by
  unfold execSbSync
  split <;> simp
@[simp] theorem State.setPin_eventCount (s : State) (n : Nat) (level : Bool) : (s.setPin n level).eventCount = s.eventCount := by simp [State.setPin]
@[simp] theorem execWakePin_counts (pin : Nat) (level : Bool) (s : State) : (execWakePin pin level s).Counts s.eventCount := by simp [execWakePin]
@[simp] theorem execWake_counts (src : Nat) (s : State) : (execWake src s).Counts s.eventCount := by simp [execWake]
@[simp] theorem execHostAccessWake_counts (s : State) : (execHostAccessWake s).Counts s.eventCount := by simp [execHostAccessWake]
@[simp] theorem execTckWake_counts (s : State) : (execTckWake s).Counts s.eventCount := by simp [execTckWake]
@[simp] theorem execSbWake_counts (level : Bool) (s : State) : (execSbWake level s).Counts s.eventCount := by simp [execSbWake]
@[simp] theorem State.tdoFree_eventCount (s : State) (bits : Nat) : (s.tdoFree bits).eventCount = s.eventCount := by simp [State.tdoFree]
@[simp] theorem execHibernateExit_counts (s : State) : (execHibernateExit s).Counts s.eventCount := by simp [execHibernateExit]
@[simp] theorem execPowerEnter_counts (body : List W32) (ctr : Nat) (tag : List W32) (rtc : Nat) (s : State) :
    (execPowerEnter body ctr tag rtc s).Counts s.eventCount := by simp [execPowerEnter]
@[simp] theorem execPowerCommit_counts (body : List W32) (ctr : Nat) (tag : List W32) (s : State) :
    (execPowerCommit body ctr tag s).Counts s.eventCount :=
  s.kcMsg_counts _ _ _ _ fun t => by split <;> simp
@[simp] theorem execPowerAbort_counts (body : List W32) (ctr : Nat) (tag : List W32) (s : State) :
    (execPowerAbort body ctr tag s).Counts s.eventCount := by simp [execPowerAbort]
@[simp] theorem execPowerRunning_counts (body : List W32) (ctr : Nat) (tag : List W32) (rtc : Nat) (s : State) :
    (execPowerRunning body ctr tag rtc s).Counts s.eventCount := by simp [execPowerRunning]
@[simp] theorem execRtcLatch_counts (raw : List Byte) (s : State) : (execRtcLatch raw s).Counts s.eventCount := by
  unfold execRtcLatch
  split
  · simp
  split <;> (next received => simp [State.eventCount_of_pair received])
@[simp] theorem State.throttleEvent_eventCount (s : State) (mean : Nat) : (s.throttleEvent mean).eventCount = s.eventCount := by rfl
@[simp] theorem State.setHalved_eventCount (s : State) (c n : Nat) : (s.setHalved c n).eventCount = s.eventCount := by simp [State.setHalved]
@[simp] theorem execPowerSample_counts (p : Nat) (temps : List Nat) (s : State) :
    (execPowerSample p temps s).Counts s.eventCount := by simp [execPowerSample]
theorem State.undoStep_eventCount {s t : State} (e : s.undoStep = some t) : t.eventCount = s.eventCount := by
  unfold State.undoStep at e
  split at e
  · cases e
  · cases e
    simp
theorem State.reduceStep_eventCount {s t : State} (e : s.reduceStep = some t) : t.eventCount = s.eventCount := by
  unfold State.reduceStep at e
  split at e
  · cases e
    simp
  · split at e
    · cases e
    · cases e
      simp
@[simp] theorem execThrottle_counts (twin : Nat) (s : State) : (execThrottle twin s).Counts s.eventCount := by
  have stepped (c d e : Prop) [Decidable c] [Decidable d] [Decidable e] {t : State}
      (step : (if c then none else if d then s.reduceStep else if e then s.undoStep else none) = some t) : t.eventCount = s.eventCount := by
    split_ifs at step
    · exact State.reduceStep_eventCount step
    · exact State.undoStep_eventCount step
  unfold execThrottle
  split
  · simp
  dsimp only
  split
  next step => simp [stepped _ _ _ step]
  · simp
@[simp] theorem execThermalLimit_counts (sensor temp : Nat) (s : State) :
    (execThermalLimit sensor temp s).Counts s.eventCount := by simp [execThermalLimit]
@[simp] theorem execThermalTrip_counts (sensor temp : Nat) (s : State) :
    (execThermalTrip sensor temp s).Counts s.eventCount := by simp [execThermalTrip]

end Sys2Proof.Machine
end

-- The legal event counter under the cores and the host.
section
/-!
PROOFS of 14_flint_metrology.md. Accesses of the cores, of their caches and of the host keep the event counter.
-/
namespace Sys2Proof.Machine

@[simp] theorem State.stepped_eventCount (s : State) (h : Nat) : (s.stepped h).eventCount = s.eventCount := by rfl
@[simp] theorem State.give_eventCount (s : State) (h v : Nat) : (s.give h v).eventCount = s.eventCount := by rfl
@[simp] theorem State.accessFault_eventCount (s : State) (h : Nat) : (s.accessFault h).eventCount = s.eventCount := by rfl
@[simp] theorem State.loaded_eventCount (s : State) (h : Nat) (b : List Byte) (poison : Bool) :
    (s.loaded h b poison).eventCount = s.eventCount := by simp [State.loaded]
@[simp] theorem State.noteStore_eventCount (s : State) (k : Nat) (at' : Option Place) :
    (s.noteStore k at').eventCount = s.eventCount := by simp [State.noteStore]
@[simp] theorem State.train_eventCount (s : State) (k : Nat) (p : Place) : (s.train k p).eventCount = s.eventCount := by simp [State.train]
@[simp] theorem State.fetch_eventCount (s : State) (p : Place) (ext : List Byte) : (s.fetch p ext).eventCount = s.eventCount := by simp [State.fetch]
@[simp] theorem State.loadBack_eventCount (s : State) (h : Nat) (p : Place) (n : Nat) (ext : List Byte) :
    (s.loadBack h p n ext).eventCount = s.eventCount := by simp [State.loadBack]
@[simp] theorem State.loadHit_eventCount (s : State) (h : Nat) (p : Place) (n : Nat) (x : Sector) (ue : Bool) :
    (s.loadHit h p n x ue).eventCount = s.eventCount := by simp [State.loadHit]
@[simp] theorem State.loadEvicted_eventCount (s : State) (h : Nat) (p : Place) (n : Nat) (ext : List Byte) :
    (s.loadEvicted h p n ext).eventCount = s.eventCount := by
  simp only [State.loadEvicted]
  split
  · simp
  · split <;> simp
theorem State.loadMiss_eventCount {s t : State} {who n : Nat} {p : Place} {ext : List Byte} (e : s.loadMiss who p n ext = some t) :
    t.eventCount = s.eventCount := by
  revert e
  fun_cases State.loadMiss <;> simp
  all_goals (rintro rfl; simp)

/-- An operation that may have to wait, or the state that waits. -/
theorem State.getD_eventCount {n : Nat} {o : Option State} {s : State} (h : ∀ t, o = some t → t.eventCount = n) (hs : s.eventCount = n) :
    (o.getD s).eventCount = n := by
  cases o with
  | none => exact hs
  | some t => exact h t rfl
theorem State.loadCached_eventCount {s t : State} {who n err : Nat} {p : Place} {ext : List Byte} (e : s.loadCached who p n err ext = some t) :
    t.eventCount = s.eventCount := by
  unfold State.loadCached at e
  split at e
  · cases e
    simp
  extract_lets s0 r at e
  have flushed : s0.eventCount = s.eventCount := by simp [s0]
  clear_value s0
  have served (u : State) (e : r = some u) : u.eventCount = s0.eventCount := by
    unfold r at e
    split at e
    · exact State.loadMiss_eventCount e
    dsimp only at e
    split at e
    · cases e
      simp
    · exact (State.loadMiss_eventCount e).trans (by simp)
  obtain ⟨u, found, rfl⟩ := Option.map_eq_some_iff.mp e
  simp [served u found, flushed]
@[simp] theorem execCoreLoad_counts (req addr n err : Nat) (ext : List Byte) (s : State) :
    (execCoreLoad req addr n err ext s).Counts s.eventCount := by
  unfold execCoreLoad
  split
  · simp
  extract_lets u
  have stepped : u.eventCount = s.eventCount := by simp [u]
  clear_value u
  split
  · simp [stepped]
  · split
    · simp [stepped]
    · split <;> simp [stepped]
  · split
    · exact State.getD_eventCount (fun _ e => (State.loadCached_eventCount e).trans stepped) stepped
    · simp [stepped]
@[simp] theorem State.storeHit_eventCount (s : State) (p : Place) (b : List Byte) : (s.storeHit p b).eventCount = s.eventCount := by
  simp only [State.storeHit]
  split
  · split <;> simp
  · simp
@[simp] theorem State.storeEvicted_eventCount (s : State) (p : Place) (b : List Byte) (e : EvEntry) (ext : List Byte) :
    (s.storeEvicted p b e ext).eventCount = s.eventCount := by simp [State.storeEvicted]
theorem State.storeCached_eventCount {s t : State} {who : Nat} {p : Place} {b ext : List Byte} {stream : Bool} 
    (e : s.storeCached who p b stream ext = some t) : t.eventCount = s.eventCount := by
  unfold State.storeCached at e
  extract_lets s1 det at e
  have noted : s1.eventCount = s.eventCount := by simp [s1]
  clear_value s1 det
  split at e
  · cases e
    simp [noted]
  split at e
  · cases e
    simp [noted]
  split at e
  · cases e
    simp [noted]
  split at e
  · cases e
  split at e
  · cases e
    simp [noted]
  split at e
  · cases e
    simp +zetaDelta [noted]
  split at e
  · split at e
    · obtain rfl := Option.some.inj e
      simp [noted]
    · cases e
  split at e
  · cases e
  · obtain rfl := Option.some.inj e
    simp [noted]
@[simp] theorem execCoreStore_counts (req addr : Nat) (data ext : List Byte) (s : State) :
    (execCoreStore req addr data ext s).Counts s.eventCount := by
  unfold execCoreStore
  extract_lets n u w
  split
  · simp
  have stepped : u.eventCount = s.eventCount := by simp [u]
  clear_value u
  split
  · simp [stepped]
  · split
    · simp [stepped]
    · split <;> simp [w, stepped]
  · split
    · exact State.getD_eventCount (fun _ e => (State.storeCached_eventCount e).trans stepped) stepped
    · simp [stepped]
theorem State.atomicRead_eventCount {s : State} {p : Place} {n : Nat} {ext : List Byte} {r : State × List Byte × Bool} 
    (e : s.atomicRead p n ext = some r) : r.1.eventCount = s.eventCount := by
  unfold State.atomicRead at e
  extract_lets s0 at e
  have flushed : s0.eventCount = s.eventCount := by simp [s0]
  clear_value s0
  split at e
  · cases e
    simp [flushed]
  split at e
  · cases e
  dsimp only at e
  split at e
  · cases e
    simp [flushed]
  split at e
  · cases e
    simp [flushed]
  split at e
  · cases e
  split at e
  · cases e
    simp [flushed]
  · cases e
@[simp] theorem State.atomicWrite_eventCount (s : State) (h : Nat) (p : Place) (b : List Byte) : (s.atomicWrite h p b).eventCount = s.eventCount := by
  simp only [State.atomicWrite]
  split <;> simp
@[simp] theorem execCoreAmo_counts (req addr n op v : Nat) (ext : List Byte) (s : State) :
    (execCoreAmo req addr n op v ext s).Counts s.eventCount := by
  unfold execCoreAmo
  split
  · simp
  extract_lets u
  have stepped : u.eventCount = s.eventCount := by simp [u]
  clear_value u
  split
  · split
    · simp [stepped]
    dsimp only
    split
    · simp [stepped]
    split
    · simp [stepped]
    next t b bad read =>
    have read : t.eventCount = u.eventCount := State.atomicRead_eventCount read
    simp [read, stepped]
  · simp [stepped]
@[simp] theorem execFence_counts (req : Nat) (s : State) : (execFence req s).Counts s.eventCount := by simp [execFence]
@[simp] theorem State.cbo_counts (s : State) (req addr : Nat) (write : Bool) {f : Place → State → Option State} 
    (acts : ∀ p t u, f p t = some u → u.eventCount = t.eventCount) : (s.cbo req addr write f).Counts s.eventCount := by
  unfold State.cbo
  split
  · simp
  extract_lets u
  have stepped : u.eventCount = s.eventCount := by simp [u]
  clear_value u
  split
  · simpa using stepped
  · simpa using stepped
  · dsimp only
    split
    · simpa using stepped
    · exact State.getD_eventCount (fun t e => (acts _ _ t e).trans (by simpa using stepped)) stepped
@[simp] theorem execCboClean_counts (req addr : Nat) (s : State) : (execCboClean req addr s).Counts s.eventCount := by simp [execCboClean]
@[simp] theorem execCboFlush_counts (req addr : Nat) (s : State) : (execCboFlush req addr s).Counts s.eventCount := by simp [execCboFlush]
@[simp] theorem execCboInval_counts (req addr : Nat) (s : State) : (execCboInval req addr s).Counts s.eventCount := by simp [execCboInval]
@[simp] theorem execCboZero_counts (req addr : Nat) (s : State) : (execCboZero req addr s).Counts s.eventCount :=
  s.cbo_counts _ _ _ fun _ _ _ e => State.storeCached_eventCount e
@[simp] theorem execShelfMissFill_counts (k : Nat) (ext : List Byte) (s : State) : (execShelfMissFill k ext s).Counts s.eventCount := by
  simp only [execShelfMissFill]
  repeat' split
  all_goals simp
@[simp] theorem State.cleanLine_eventCount (s : State) (host : Bool) (a : Nat) :
    (s.cleanLine host a).eventCount = s.eventCount := by simp [State.cleanLine]
@[simp] theorem execEvictionWritebackDone_counts (k : Nat) (issue : Bool) (ext : List Byte) (s : State) :
    (execEvictionWritebackDone k issue ext s).Counts s.eventCount := by
  unfold execEvictionWritebackDone
  split <;> simp
@[simp] theorem execShelfDisable_counts (s : State) : (execShelfDisable s).Counts s.eventCount := by rfl
@[simp] theorem execShelfEnable_counts (s : State) : (execShelfEnable s).Counts s.eventCount := by rfl
@[simp] theorem execShelfDrainDone_counts (s : State) : (execShelfDrainDone s).Counts s.eventCount := by simp [execShelfDrainDone]
@[simp] theorem State.perform_eventCount (s : State) (a : HostAcc) : (s.perform a).eventCount = s.eventCount := by
  fun_cases State.perform
  · simp
  · simp
  · simp +zetaDelta
  · next read => simp [State.eventCount_of_pair read]
  · simp +zetaDelta
  · simp +zetaDelta
  · simp
@[simp] theorem State.releaseHost_eventCount (s : State) : (s.releaseHost).eventCount = s.eventCount := by simp [State.releaseHost]
@[simp] theorem State.fromHost_counts (s : State) (a : HostAcc) : (s.fromHost a).Counts s.eventCount := by simp [State.fromHost]
@[simp] theorem execMbxCmdDataWrite_counts (m : Nat) (w : W32) (bad : Bool) (s : State) :
    (execMbxCmdDataWrite m w bad s).Counts s.eventCount := by simp [execMbxCmdDataWrite]
@[simp] theorem execMbxRspDataRead_counts (m : Nat) (upset : Bool) (s : State) :
    (execMbxRspDataRead m upset s).Counts s.eventCount := by simp [execMbxRspDataRead]
@[simp] theorem execCmdFlush_counts (m : Nat) (s : State) : (execCmdFlush m s).Counts s.eventCount := by simp [execCmdFlush]
@[simp] theorem execRspFlush_counts (m : Nat) (s : State) : (execRspFlush m s).Counts s.eventCount := by simp [execRspFlush]
@[simp] theorem execCmdHeldClear_counts (m : Nat) (s : State) : (execCmdHeldClear m s).Counts s.eventCount := by simp [execCmdHeldClear]
@[simp] theorem execFaultCtrlRelease_counts (s : State) : (execFaultCtrlRelease s).Counts s.eventCount := by simp [execFaultCtrlRelease]
@[simp] theorem execWindowAccessRejected_counts (read : Bool) (off width v : Nat) (s : State) :
    (execWindowAccessRejected read off width v s).Counts s.eventCount := by simp [execWindowAccessRejected]
@[simp] theorem execCameraTile_counts (camera depth chroma mode count bytes : Nat) (blocks : List (Nat × Option (List Nat))) (s : State) :
    (execCameraTile camera depth chroma mode count bytes blocks s).Counts s.eventCount := by simp [execCameraTile]
@[simp] theorem execRegisterWrite_counts (who : Nat) (r : Reg) (v : Nat) (s : State) :
    (execRegisterWrite who r v s).Counts s.eventCount := by simp [execRegisterWrite]
@[simp] theorem execClearingRead_counts (who : Nat) (r : Reg) (s : State) :
    (execClearingRead who r s).Counts s.eventCount := by simp [execClearingRead]

end Sys2Proof.Machine
end

-- The legal event counter under debug and security.
section
/-!
PROOFS of 14_flint_metrology.md. DEBUG messages, sessions, the debug port and answers of Flint keep the event counter.
-/
namespace Sys2Proof.Machine

@[simp] theorem State.dbgSay_eventCount (s : State) (op status : Nat) (body : List W32) :
    (s.dbgSay op status body).eventCount = s.eventCount := by rfl
@[simp] theorem State.dbgMsg_counts (s : State) (body : List W32) {act : State → State} (h : ∀ t, (act t).eventCount = t.eventCount) :
    (s.dbgMsg body act).Counts s.eventCount := by
  simp [State.dbgMsg, h]
@[simp] theorem State.dbgEnd_eventCount (s : State) (op : Nat) {r : DbgAns} (h : Grants (fun x => x.1.eventCount = s.eventCount) r) :
    (s.dbgEnd op r).eventCount = s.eventCount := by
  cases r with
  | error e => simp [State.dbgEnd]
  | ok x => simpa [State.dbgEnd] using h
@[simp] theorem execDebugMsgState_counts (s : State) : (execDebugMsgState s).Counts s.eventCount := by simp [execDebugMsgState]
@[simp] theorem execDebugMsgChallenge_counts (body : List W32) (rtc : Nat) (s : State) :
    (execDebugMsgChallenge body rtc s).Counts s.eventCount := by simp [execDebugMsgChallenge]
@[simp] theorem unlock_counts (ch : Option Chal) (w : Nat) (sigOk : Bool) (s : State) :
    Grants (fun x => x.1.eventCount = s.eventCount) (unlock ch w sigOk s) := by
  unfold unlock
  split <;> simp
@[simp] theorem execDebugMsgUnlock_counts (body : List W32) (sigOk : Bool) (rtc : Nat) (s : State) :
    (execDebugMsgUnlock body sigOk rtc s).Counts s.eventCount :=
  s.dbgMsg_counts _ fun t => by
    have used : ((t.rtcAt rtc).withFl fun f => { f with chal := none }).eventCount = t.eventCount := by simp
    exact (State.dbgEnd_eventCount _ _ (unlock_counts ..)).trans used
@[simp] theorem execDebugMsgEnd_counts (body : List W32) (ctr : Nat) (tag : List W32) (s : State) :
    (execDebugMsgEnd body ctr tag s).Counts s.eventCount := by simp [execDebugMsgEnd]
@[simp] theorem execDebugMsgChunk_counts (body : List W32) (s : State) : (execDebugMsgChunk body s).Counts s.eventCount := by simp [execDebugMsgChunk]
@[simp] theorem advance_counts (tgt len : Nat) (sigOk certOk : Bool) (s : State) :
    Grants (fun x => x.1.eventCount = s.eventCount) (advance tgt len sigOk certOk s) := by
  simp only [advance]
  split <;> simp
@[simp] theorem execDebugMsgAdvance_counts (body : List W32) (sigOk certOk : Bool) (s : State) :
    (execDebugMsgAdvance body sigOk certOk s).Counts s.eventCount := by simp [execDebugMsgAdvance]
@[simp] theorem execDebugMsgFloor_counts (body : List W32) (sigOk : Bool) (s : State) :
    (execDebugMsgFloor body sigOk s).Counts s.eventCount := by simp [execDebugMsgFloor]
@[simp] theorem execDebugMsgSign_counts (body : List W32) (ctr : Nat) (tag : List W32) (s : State) :
    (execDebugMsgSign body ctr tag s).Counts s.eventCount := by simp [execDebugMsgSign]
@[simp] theorem lifecycleAdvance_counts (data : List Byte) (failed : Option Nat) (m : Nat) (c : Cmd) (s : State) :
    Grants (fun x => x.eventCount = s.eventCount) (lifecycleAdvance data failed m c s) := by simp [lifecycleAdvance]
@[simp] theorem execLifecycleAdvance_counts (m tag : Nat) (data : List Byte) (failed : Option Nat) (s : State) :
    (execLifecycleAdvance m tag data failed s).Counts s.eventCount := by simp [execLifecycleAdvance]
@[simp] theorem State.dropCd_eventCount (s : State) : (s.dropCd).eventCount = s.eventCount := by simp [State.dropCd]
@[simp] theorem debugChallenge_counts (m : Nat) (c : Cmd) (s : State) :
    Grants (fun x => x.eventCount = s.eventCount) (debugChallenge m c s) := by simp [debugChallenge]
@[simp] theorem execDebugChallenge_counts (m tag : Nat) (s : State) : (execDebugChallenge m tag s).Counts s.eventCount := by simp [execDebugChallenge]
@[simp] theorem debugUnlock_counts (m : Nat) (c : Cmd) (s : State) :
    Grants (fun x => x.eventCount = s.eventCount) (debugUnlock m c s) := by simp [debugUnlock]
@[simp] theorem execDebugUnlock_counts (m tag : Nat) (s : State) : (execDebugUnlock m tag s).Counts s.eventCount := by simp [execDebugUnlock]
@[simp] theorem State.mpStart_eventCount (s : State) (version : Nat) : (s.mpStart version).eventCount = s.eventCount := by rfl
@[simp] theorem fwUpdateMp_counts (data : List Byte) (failed : Option Nat) (sigOk : Bool) (m : Nat) (c : Cmd) (s : State) :
    Grants (fun x => x.eventCount = s.eventCount) (fwUpdateMp data failed sigOk m c s) := by simp [fwUpdateMp]
@[simp] theorem execFwUpdateMp_counts (m tag : Nat) (data : List Byte) (failed : Option Nat) (sigOk : Bool) (s : State) :
    (execFwUpdateMp m tag data failed sigOk s).Counts s.eventCount := by
  unfold execFwUpdateMp
  split <;> simp
@[simp] theorem fwUpdateFlint_counts (data : List Byte) (failed : Option Nat) (m : Nat) (c : Cmd) (s : State) :
    Grants (fun x => x.eventCount = s.eventCount) (fwUpdateFlint data failed m c s) := by simp [fwUpdateFlint]
@[simp] theorem execFwUpdateFlint_counts (m tag : Nat) (data : List Byte) (failed : Option Nat) (s : State) :
    (execFwUpdateFlint m tag data failed s).Counts s.eventCount := by
  unfold execFwUpdateFlint
  split <;> simp
@[simp] theorem State.answerFor_eventCount (s : State) (op status : Nat) (words : List W32) :
    (s.answerFor op status words).eventCount = s.eventCount := by
  unfold State.answerFor
  split <;> simp
@[simp] theorem State.setLife_eventCount (s : State) (lc : Nat) : (s.setLife lc).eventCount = s.eventCount := by rfl
@[simp] theorem State.dbgAnswer_eventCount (s : State) (op status : Nat) (body : List W32) :
    (s.dbgAnswer op status body).eventCount = s.eventCount := by
  simp only [State.dbgAnswer]
  repeat' split
  all_goals simp
@[simp] theorem State.dapAck_eventCount (s : State) (die ack : Nat) (data : Option Nat) : (s.dapAck die ack data).eventCount = s.eventCount := by rfl
@[simp] theorem State.dap_counts (s : State) (die level : Nat) {act : State → State} (h : (act s).eventCount = s.eventCount) :
    (s.dap die level act).Counts s.eventCount := by
  unfold State.dap
  split
  · simp
  · split <;> simp [h]
@[simp] theorem State.storedRead_eventCount (s : State) (p : Nat) : (s.storedRead p).1.eventCount = s.eventCount := by simp [State.storedRead]
@[simp] theorem execDapRead_counts (die a : Nat) (s : State) : (execDapRead die a s).Counts s.eventCount := by
  refine s.dap_counts _ _ ?_
  split_ifs
  · simp
  · simp
  split
  case h_4 => split <;> simp
  all_goals simp
@[simp] theorem execDapWrite_counts (die a : Nat) (v : W32) (s : State) : (execDapWrite die a v s).Counts s.eventCount := by
  refine s.dap_counts _ _ ?_
  extract_lets b
  split
  · simp
  split
  · simp
  split
  · simp
  · simp
  all_goals simp
@[simp] theorem State.haltTarget_eventCount (s : State) (t : Nat) (on : Bool) :
    (s.haltTarget t on).eventCount = s.eventCount := by simp [State.haltTarget]
@[simp] theorem execDapHalt_counts (die t : Nat) (s : State) : (execDapHalt die t s).Counts s.eventCount := by simp [execDapHalt]
@[simp] theorem execDapResume_counts (die t : Nat) (s : State) : (execDapResume die t s).Counts s.eventCount := by simp [execDapResume]
@[simp] theorem execDapStep_counts (die t : Nat) (s : State) : (execDapStep die t s).Counts s.eventCount := by simp [execDapStep]
@[simp] theorem execDapEnd_counts (die : Nat) (s : State) : (execDapEnd die s).Counts s.eventCount := by simp [execDapEnd]
@[simp] theorem execMbx3Access_counts (write : Bool) (idx : Nat) (v : W32) (upset : Bool) (s : State) :
    (execMbx3Access write idx v upset s).Counts s.eventCount := by
  unfold execMbx3Access
  split
  · simp
  extract_lets s0 regs
  have touched : s0.eventCount = s.eventCount := by simp [s0]
  clear_value s0
  split
  · simp [touched]
  split <;> simp [touched]
@[simp] theorem execTrstN_counts (s : State) : (execTrstN s).Counts s.eventCount := by rfl
@[simp] theorem execDbgCtrlEnd_counts (s : State) : (execDbgCtrlEnd s).Counts s.eventCount := by simp [execDbgCtrlEnd]
@[simp] theorem State.powerAnswer_eventCount (s : State) (tag : Nat) (body : List W32) : (s.powerAnswer tag body).eventCount = s.eventCount := by
  unfold State.powerAnswer
  split <;> simp
@[simp] theorem State.takeKc_eventCount (s : State) (kc : List Byte) : (s.takeKc kc).eventCount = s.eventCount := by rfl
@[simp] theorem State.flintAnswer_eventCount (s : State) (kind tag status : Nat) (body : List W32) :
    (s.flintAnswer kind tag status body).eventCount = s.eventCount := by
  unfold State.flintAnswer
  split <;> simp
@[simp] theorem execMailboxResponse_counts (raw : List Byte) (s : State) : (execMailboxResponse raw s).Counts s.eventCount := by
  unfold execMailboxResponse
  split
  · simp
  split
  · next received => simp [State.eventCount_of_pair received]
  · next received =>
    dsimp only
    split <;> simp [State.eventCount_of_pair received]

end Sys2Proof.Machine
end

-- The legal event counter under the drip boundary and the start.
section
/-!
PROOFS of 14_flint_metrology.md. The comparison, the boundary, and the start of the block keep the event counter.
-/
namespace Sys2Proof.Machine

@[simp] theorem State.tellTwin_eventCount (s : State) : (s.tellTwin).eventCount = s.eventCount := by simp [State.tellTwin]
@[simp] theorem State.dropFollowed_eventCount (s : State) : (s.dropFollowed).eventCount = s.eventCount := by simp [State.dropFollowed]
@[simp] theorem State.setMode_eventCount (s : State) (m : TwinMode) : (s.setMode m).eventCount = s.eventCount := by simp [State.setMode]
@[simp] theorem State.linkDown_eventCount (s : State) : (s.linkDown).eventCount = s.eventCount := by simp [State.linkDown]
@[simp] theorem State.voidDrip_eventCount (s : State) (c num : Nat) : (s.voidDrip c num).eventCount = s.eventCount := by simp [State.voidDrip]
@[simp] theorem State.mismatch_eventCount (s : State) (code c num : Nat) (detail : List W32) :
    (s.mismatch code c num detail).eventCount = s.eventCount := by simp [State.mismatch]
@[simp] theorem State.judge_eventCount (s : State) (a b : PkEnt) : (s.judge a b).eventCount = s.eventCount := by simp [State.judge]
@[simp] theorem State.matchOwn_eventCount (s : State) : s.matchOwn.eventCount = s.eventCount :=
  foldl_eventCount (fun _ _ => by split <;> simp) _ _
@[simp] theorem State.matchBg_eventCount (s : State) : s.matchBg.eventCount = s.eventCount := by
  refine foldl_eventCount (fun _ _ => foldl_eventCount (fun _ _ => ?_) _ _) _ _
  split
  · rfl
  · split <;> simp
@[simp] theorem State.ageOut_eventCount (s : State) (d : Nat) : (s.ageOut d).eventCount = s.eventCount := by simp [State.ageOut]
@[simp] theorem State.compareTime_eventCount (s : State) (p : Packet) : (s.compareTime p).eventCount = s.eventCount := by
  unfold State.compareTime
  split <;> simp
@[simp] theorem State.comparePk_eventCount (s : State) (d : Nat) : (s.comparePk d).eventCount = s.eventCount := by
  simp only [State.comparePk]
  repeat' split
  all_goals simp
@[simp] theorem State.condemn_eventCount (s : State) (l : Local) (twin : List Nat) (g : Nat) :
    (s.condemn l twin g).eventCount = s.eventCount := by simp [State.condemn]
@[simp] theorem State.localEnd_eventCount (s : State) (d : Nat) (twin : List Nat) (l : Local) :
    (s.localEnd d twin l).eventCount = s.eventCount := by simp [State.localEnd]
@[simp] theorem State.localise_eventCount (s : State) (d : Nat) (kats : Option (List Nat)) (retired : List Nat) :
    (s.localise d kats retired).eventCount = s.eventCount := by
  unfold State.localise
  split <;> simp
@[simp] theorem State.openDrip_eventCount (s : State) : (s.openDrip).eventCount = s.eventCount := by simp [State.openDrip]
@[simp] theorem State.overrunSlot_eventCount (s : State) (d g i : Nat) : (s.overrunSlot d g i).eventCount = s.eventCount := by
  simp only [State.overrunSlot]
  split
  · simp
  · split <;> simp
@[simp] theorem State.overrun_eventCount (s : State) (d : Nat) : (s.overrun d).eventCount = s.eventCount := by simp [State.overrun]
@[simp] theorem State.reload_eventCount (s : State) : (s.reload).eventCount = s.eventCount := by rfl
@[simp] theorem State.scales_eventCount (s : State) (d : Nat) : (s.scales d).eventCount = s.eventCount := by rfl
@[simp] theorem State.closeSig_eventCount (s : State) (d c o : Nat) : (s.closeSig d c o).eventCount = s.eventCount := by simp [State.closeSig]
@[simp] theorem State.closeSigs_eventCount (s : State) (d : Nat) : (s.closeSigs d).eventCount = s.eventCount := by simp [State.closeSigs]
@[simp] theorem State.dripIrq_eventCount (s : State) (k : Nat) : (s.dripIrq k).eventCount = s.eventCount := by rfl
@[simp] theorem State.sendTiming_eventCount (s : State) : (s.sendTiming).eventCount = s.eventCount := by rfl
@[simp] theorem State.sendPacket_eventCount (s : State) (d : Nat) : (s.sendPacket d).eventCount = s.eventCount := by simp [State.sendPacket]
@[simp] theorem State.modeAtBoundary_eventCount (s : State) : (s.modeAtBoundary).eventCount = s.eventCount := by
  unfold State.modeAtBoundary
  split
  · simp
  · split <;> simp
@[simp] theorem State.dueAtBoundary_eventCount (s : State) (k : Nat) : (s.dueAtBoundary k).eventCount = s.eventCount := by simp [State.dueAtBoundary]
@[simp] theorem execDripBoundary_counts (reads : List (Nat × Nat)) (kats : Option (List Nat)) (retired : List Nat) (s : State) :
    (execDripBoundary reads kats retired s).Counts s.eventCount := by simp [execDripBoundary]
@[simp] theorem execDropStart_counts (s : State) : (execDropStart s).Counts s.eventCount := by simp [execDropStart]
@[simp] theorem State.ownReports_eventCount (s : State) (d : Nat) : (s.ownReports d).eventCount = s.eventCount := by simp [State.ownReports]
@[simp] theorem execBoundaryWork_counts (s : State) : (execBoundaryWork s).Counts s.eventCount := by
  unfold execBoundaryWork
  split <;> simp
@[simp] theorem execExchangePacketReceive_counts (raw : List Byte) (named : List Nat) (s : State) :
    (execExchangePacketReceive raw named s).Counts s.eventCount := by
  simp only [execExchangePacketReceive]
  split
  · simp
  · split <;> simp
@[simp] theorem execExchangeTimeout_counts (s : State) : (execExchangeTimeout s).Counts s.eventCount := by
  unfold execExchangeTimeout
  split <;> simp
@[simp] theorem execTwinPacketAuthFail_counts (s : State) : (execTwinPacketAuthFail s).Counts s.eventCount := by simp [execTwinPacketAuthFail]
@[simp] theorem State.catchUp_eventCount (s : State) (k : Nat) (reads : List (Nat × Nat)) :
    (s.catchUp k reads).eventCount = s.eventCount := by simp [State.catchUp]
@[simp] theorem execExitRoostTorpor_counts (reads : List (Nat × Nat)) (s : State) : (execExitRoostTorpor reads s).Counts s.eventCount := by
  simp only [execExitRoostTorpor]
  split <;> simp
@[simp] theorem execAonPowerUp_counts (puf : Bool) (s : State) : (execAonPowerUp puf s).Counts s.eventCount := by simp [execAonPowerUp]
@[simp] theorem State.off_eventCount (s : State) : (s.off).eventCount = s.eventCount := by simp [State.off]
@[simp] theorem execAonPowerDown_counts (s : State) : (execAonPowerDown s).Counts s.eventCount := by simp [execAonPowerDown]
@[simp] theorem execRstNLow_counts (s : State) : (execRstNLow s).Counts s.eventCount := by simp [execRstNLow]
@[simp] theorem execRailUndervoltage_counts (s : State) : (execRailUndervoltage s).Counts s.eventCount := by simp [execRailUndervoltage]
@[simp] theorem execComputeDieStart_counts (veins down : List Nat) (s : State) :
    (execComputeDieStart veins down s).Counts s.eventCount := by simp [execComputeDieStart]
@[simp] theorem execFlintStateTimeout_counts (s : State) : (execFlintStateTimeout s).Counts s.eventCount := by simp [execFlintStateTimeout]
@[simp] theorem State.clockFault_eventCount (s : State) (domain count : Nat) :
    (s.clockFault domain count).eventCount = s.eventCount := by simp [State.clockFault]
@[simp] theorem execPllLockTimeout_counts (domain count : Nat) (s : State) :
    (execPllLockTimeout domain count s).Counts s.eventCount := by simp [execPllLockTimeout]
@[simp] theorem State.startKat_eventCount (s : State) (g : Nat) (unit : Option Nat) : (s.startKat g unit).eventCount = s.eventCount := by
  unfold State.startKat
  split
  · simp
  · split <;> simp
@[simp] theorem State.veinRec_eventCount (s : State) (before : List Geode) (g : Nat) :
    (s.veinRec before g).eventCount = s.eventCount := by simp [State.veinRec]
@[simp] theorem execFirmwareSelfCalibration_counts (fails : List (Nat × Nat)) (s : State) :
    (execFirmwareSelfCalibration fails s).Counts s.eventCount := by simp [execFirmwareSelfCalibration]
@[simp] theorem execHeartbeatTick_counts (s : State) : (execHeartbeatTick s).Counts s.eventCount := by simp [execHeartbeatTick]
@[simp] theorem execMpSramScrub_counts (errs : List (Nat × Nat)) (s : State) :
    (execMpSramScrub errs s).Counts s.eventCount := by simp [execMpSramScrub]

end Sys2Proof.Machine
end

-- The legal event counter under the twin and injected faults.
section
/-!
PROOFS of 14_flint_metrology.md. The pair, its journal, the watches and injected faults keep the event counter.
-/
namespace Sys2Proof.Machine

@[simp] theorem State.attach_eventCount (s : State) (t : TwinId) : (s.attach t).eventCount = s.eventCount := by simp [State.attach]
@[simp] theorem execTwinAttach_counts (m tag : Nat) (asked : Bool) (twin : Option TwinId) (s : State) :
    (execTwinAttach m tag asked twin s).Counts s.eventCount := by
  simp only [execTwinAttach]
  repeat' split
  all_goals simp
@[simp] theorem State.detach_eventCount (s : State) : (s.detach).eventCount = s.eventCount := by simp [State.detach]
@[simp] theorem execTwinDetach_counts (m tag : Nat) (asked : Bool) (s : State) :
    (execTwinDetach m tag asked s).Counts s.eventCount := by simp [execTwinDetach]
@[simp] theorem State.changeMode_eventCount (s : State) (m : TwinMode) : (s.changeMode m).eventCount = s.eventCount := by simp [State.changeMode]
@[simp] theorem twinMode_counts (twinRuns twinHolds : Bool) (m : Nat) (c : Cmd) (s : State) :
    Grants (fun x => x.eventCount = s.eventCount) (twinMode twinRuns twinHolds m c s) := by simp [twinMode]
@[simp] theorem execTwinMode_counts (m tag : Nat) (twinRuns twinHolds : Bool) (lead : Option Nat) (s : State) :
    (execTwinMode m tag twinRuns twinHolds lead s).Counts s.eventCount := by
  unfold execTwinMode
  split <;> simp
@[simp] theorem twinSync_counts (twinHolds : Bool) (m : Nat) (c : Cmd) (s : State) :
    Grants (fun x => x.eventCount = s.eventCount) (twinSync twinHolds m c s) := by simp [twinSync]
@[simp] theorem execTwinSync_counts (m tag : Nat) (twinHolds : Bool) (s : State) :
    (execTwinSync m tag twinHolds s).Counts s.eventCount := by simp [execTwinSync]
@[simp] theorem State.ringHeader_eventCount (s : State) (i : Nat) : (s.ringHeader i).eventCount = s.eventCount := by simp [State.ringHeader]
@[simp] theorem State.takeCopy_eventCount (s : State) (c : TwinCopy) : (s.takeCopy c).eventCount = s.eventCount := by simp [State.takeCopy]
@[simp] theorem State.syncRead_eventCount (s : State) : (s.syncRead).eventCount = s.eventCount := by simp [State.syncRead]
@[simp] theorem execTwinSyncGalleryDone_counts (copy : Option TwinCopy) (pockets : Bool) (s : State) :
    (execTwinSyncGalleryDone copy pockets s).Counts s.eventCount := by
  simp only [execTwinSyncGalleryDone]
  repeat' split
  all_goals simp
@[simp] theorem execPocketPhaseDone_counts (copy : Option TwinCopy) (s : State) : (execPocketPhaseDone copy s).Counts s.eventCount := by
  simp only [execPocketPhaseDone]
  repeat' split
  all_goals simp
@[simp] theorem State.runAs_eventCount (s : State) (m : Nat) (c : Cmd) (ch : List Nat) (reads : List (Nat × Nat)) :
    (s.runAs m c ch reads).eventCount = s.eventCount := by
  have go {body : State → Answer} (runs : Grants (fun x => x.1.eventCount = s.eventCount) (body s)) := s.runBody_eventCount m c runs
  have start {body : State → Begun} (begins : Grants (fun x => x.eventCount = s.eventCount) (body s)) := s.beginBody_eventCount m c begins
  unfold State.runAs
  split
  · exact go (by split <;> simp)
  · exact go (by split <;> simp)
  · exact start (by simp)
  · exact start (by simp)
  · exact start (by simp)
  · exact start (by simp)
  · exact start (by simp)
  · exact go (by simp)
  · exact go (by simp)
  · exact go (by simp)
  · exact go (by simp)
  · exact start (by simp)
  · exact start (by split <;> simp)
  · exact start (by simp)
  · exact go (by simp)
  · exact go (by simp)
  · rfl
@[simp] theorem State.applyEntry_eventCount (s : State) (e : Journal) (c : Cmd) (reads : List (Nat × Nat)) :
    (s.applyEntry e c reads).eventCount = s.eventCount := by simp [State.applyEntry]
@[simp] theorem State.pumpJournal_eventCount (k : Nat) (s : State) (reads : List (Nat × Nat)) :
    (State.pumpJournal k s reads).eventCount = s.eventCount := by
  fun_induction State.pumpJournal k s reads with
  | case1 => rfl
  | case2 => rfl
  | case3 k t reads e _ t1 _ ih => simp [ih, t1]
  | case4 => rfl
  | case5 k t reads e _ t1 _ c _ _ ih => simp [ih, t1]
  | case6 => rfl
@[simp] theorem execJournalEntry_counts (m seq op : Nat) (crc : W32) (status : Nat) (choices : List Nat) (reads : List (Nat × Nat)) (s : State) :
    (execJournalEntry m seq op crc status choices reads s).Counts s.eventCount := by simp [execJournalEntry]
@[simp] theorem execJournalTimeout_counts (m tag : Nat) (s : State) : (execJournalTimeout m tag s).Counts s.eventCount := by
  unfold execJournalTimeout
  split <;> simp
@[simp] theorem execAlertFrame_counts (w : Nat) (s : State) : (execAlertFrame w s).Counts s.eventCount := by simp [execAlertFrame]
@[simp] theorem State.holdDie_eventCount (s : State) : (s.holdDie).eventCount = s.eventCount := by simp [State.holdDie]
@[simp] theorem execAlertCauseApplied_counts (s : State) : (execAlertCauseApplied s).Counts s.eventCount := by
  simp only [execAlertCauseApplied]
  repeat' split
  all_goals simp
@[simp] theorem execAlertAbsent_counts (s : State) : (execAlertAbsent s).Counts s.eventCount := by simp [execAlertAbsent]
@[simp] theorem execTwinFailover_counts (s : State) : (execTwinFailover s).Counts s.eventCount := by simp [execTwinFailover]
@[simp] theorem execHoldEnd_counts (s : State) : (execHoldEnd s).Counts s.eventCount := by simp [execHoldEnd]
@[simp] theorem State.haltMp_eventCount (s : State) (detail : Nat) : (s.haltMp detail).eventCount = s.eventCount := by simp [State.haltMp]
@[simp] theorem execHeartbeatMiss_counts (s : State) : (execHeartbeatMiss s).Counts s.eventCount := by simp [execHeartbeatMiss]
@[simp] theorem execMpLockstepDiverge_counts (s : State) : (execMpLockstepDiverge s).Counts s.eventCount := by simp [execMpLockstepDiverge]
@[simp] theorem State.clockWindow_counts (s' : State) (domain count : Nat) :
    (s'.clockWindow domain count).Counts s'.eventCount := by simp [State.clockWindow]
@[simp] theorem execClockMonitorWindow_counts (domain count : Nat) (ref : Bool) (s : State) :
    (execClockMonitorWindow domain count ref s).Counts s.eventCount :=
  State.clockWindow_counts (s.withDev fun d => { d with refclk := ref }) ..
@[simp] theorem faultRead_counts (c : Cmd) (s : State) : Grants (fun x => x.1.eventCount = s.eventCount) (faultRead c s) := by simp [faultRead]
@[simp] theorem execFaultRead_counts (m tag : Nat) (s : State) : (execFaultRead m tag s).Counts s.eventCount := by simp [execFaultRead]
@[simp] theorem faultClear_counts (c : Cmd) (s : State) : Grants (fun x => x.1.eventCount = s.eventCount) (faultClear c s) := by simp [faultClear]
@[simp] theorem execFaultClear_counts (m tag : Nat) (s : State) : (execFaultClear m tag s).Counts s.eventCount := by simp [execFaultClear]
@[simp] theorem faultInject_counts (c : Cmd) (s : State) : Grants (fun x => x.1.eventCount = s.eventCount) (faultInject c s) := by simp [faultInject]
@[simp] theorem execFaultInject_counts (m tag : Nat) (s : State) : (execFaultInject m tag s).Counts s.eventCount := by simp [execFaultInject]
@[simp] theorem State.upsetQueue_eventCount (s : State) (code g q b : Nat) :
    (s.upsetQueue code g q b).eventCount = s.eventCount := by simp [State.upsetQueue]
@[simp] theorem State.injectGeode_eventCount (s : State) (code g v : Nat) : (s.injectGeode code g v).eventCount = s.eventCount := by
  unfold State.injectGeode
  split <;> simp
@[simp] theorem State.inject_eventCount (s : State) (code t : Nat) : (s.inject code t).eventCount = s.eventCount := by
  simp only [State.inject]
  split <;> simp
@[simp] theorem execInjectedFault_counts (s : State) : (execInjectedFault s).Counts s.eventCount := by
  unfold execInjectedFault
  split <;> simp

end Sys2Proof.Machine
end

-- The legal event counter: nothing but three changes moves it.
section
/-!
PROOFS of 14_flint_metrology.md. The three changes of R338 count once and refuse a full counter; every other command, and so every step, keeps it (O60).
-/
namespace Sys2Proof.Machine

/-- A next state whose legal event counter satisfies `P`. -/
def Out.Leaves (P : Nat → Prop) : Out → Prop
  | .next t => P t.eventCount
  | _ => True

/-- The counter after a step that may count one event: as before, or one more where 2^32 − 1 is not passed. -/
def CountedOnce (n k : Nat) : Prop := k = n ∨ k = n + 1 ∧ n < 2 ^ 32 - 1

theorem State.metRun_leaves {P : Nat → Prop} (s : State) (m tag op : Nat) (sel : Cmd → Bool) {body : List Nat → State → MetAns} (same : P s.eventCount)
    (h : ∀ b t, t.eventCount = s.eventCount → Grants (fun x => P x.1.eventCount) (body b t)) : (s.metRun m tag op sel body).Leaves P := by
  unfold State.metRun
  split
  · exact same
  next c _ =>
  split
  · exact same
  split
  · simpa [Out.Leaves] using same
  extract_lets s1 k ctr key s2
  have asked : s1.eventCount = s.eventCount := by simp [s1]
  have used : s2.eventCount = s.eventCount := by simp [s2, s1]
  have kept := h ((c.words.take k).map fun w => w.toNat) s2 used
  clear_value s2 s1
  split
  · simpa [Out.Leaves, asked] using same
  split
  · simpa [Out.Leaves, asked] using same
  split
  · simpa [Out.Leaves, used] using same
  next answered =>
    rw [answered] at kept
    simpa [Out.Leaves] using kept

theorem State.kcMsg_leaves {P : Nat → Prop} (s : State) (kind : Nat) (body : List W32) (ctr : Nat) (tag : List W32) {act : State → State}
    (same : P s.eventCount) (h : ∀ t, t.eventCount = s.eventCount → P (act t).eventCount) : (s.kcMsg kind body ctr tag act).Leaves P := by
  unfold State.kcMsg
  split
  · exact same
  extract_lets s1
  split
  · exact h _ (by simp [s1])
  · simpa [Out.Leaves, s1] using same

@[simp] theorem State.change_eventCount (s : State) (kind v ident value : Nat) : (s.change kind v ident value).eventCount = s.eventCount + 1 := by rfl

theorem Flint.full_false {f : Flint} (h : f.full = false) : f.trailFull = false ∧ f.events < 2 ^ 32 - 1 := by
  simpa [Flint.full] using h

/-! ### The three changes of R338 -/

theorem metParamSet_counts_one (b : List Nat) (s : State) : Grants (fun x => x.1.eventCount = s.eventCount + 1 ∧ s.fl.full = false) (metParamSet b s) := by
  simp +contextual [metParamSet]

theorem metCalCommit_counts_one (volts : Nat) (b : List Nat) (s : State) :
    Grants (fun x => x.1.eventCount = s.eventCount + 1 ∧ s.fl.full = false) (metCalCommit volts b s) := by
  refine Grants.of_bind fun _ => ?_
  dsimp only
  split
  · trivial
  · simp +contextual

theorem flintImage_counts_one (b : List Byte) (len : Nat) (sigOk : Bool) (s : State) :
    Grants (fun x => x.1.eventCount = s.eventCount + 1 ∧ s.fl.full = false) (flintImage b len sigOk s) := by
  simp +contextual [flintImage]

theorem CountedOnce.of_grants {α : Type} {s t : State} {r : Except Nat (State × α)} (h : Grants (fun x => x.1.eventCount = t.eventCount + 1 ∧ t.fl.full = false) r)
    (same : t.eventCount = s.eventCount) : Grants (fun x => CountedOnce s.eventCount x.1.eventCount) r := by
  cases r with
  | error e => trivial
  | ok x =>
    obtain ⟨counted, room⟩ := (Grants.ok_iff _ _).mp h
    have below : t.eventCount < 2 ^ 32 - 1 := (Flint.full_false room).2
    exact .inr (same ▸ ⟨counted, below⟩)

theorem execMetParamSet_leaves (m tag : Nat) (s : State) : (execMetParamSet m tag s).Leaves (CountedOnce s.eventCount) :=
  s.metRun_leaves _ _ _ _ (.inl rfl) fun b t same => by
    exact CountedOnce.of_grants (metParamSet_counts_one b t) same

theorem execMetCalCommit_leaves (m tag volts : Nat) (s : State) : (execMetCalCommit m tag volts s).Leaves (CountedOnce s.eventCount) :=
  s.metRun_leaves _ _ _ _ (.inl rfl) fun b t same => CountedOnce.of_grants (metCalCommit_counts_one volts b t) same

theorem execFirmware_leaves (body : List W32) (ctr : Nat) (tag : List W32) (sigOk : Bool) (s : State) :
    (execFirmware body ctr tag sigOk s).Leaves (CountedOnce s.eventCount) := by
  refine s.kcMsg_leaves _ _ _ _ (.inl rfl) fun t same => ?_
  have stored : (if (chunkOf body).1 + (chunkOf body).2.length ≤ 524288 then
      t.withFl fun f => { f with image := f.image.writeN (chunkOf body).1 (chunkOf body).2 } else t).eventCount = s.eventCount := by simp [same]
  dsimp only
  generalize (if (chunkOf body).1 + (chunkOf body).2.length ≤ 524288 then
      t.withFl fun f => { f with image := f.image.writeN (chunkOf body).1 (chunkOf body).2 } else t) = u at stored ⊢
  split
  · exact .inl stored
  have once := CountedOnce.of_grants (flintImage_counts_one (u.fl.image.readN 0 (byteFld (u.fl.image.readN 16 4) 0 4)) (byteFld (u.fl.image.readN 16 4) 0 4) sigOk u) stored
  split
  next answered =>
    rw [answered] at once
    simpa using once
  · exact .inl (by simp [stored])

/-! ### Every command and every step -/

/-- The commands that carry the changes of R338. -/
def MayCount (i : Instr) : Prop :=
  (∃ m tag, i = .metParamSet m tag) ∨ (∃ m tag v, i = .metCalCommit m tag v) ∨ ∃ body ctr tag ok, i = .firmware body ctr tag ok

/-- Every other command keeps the counter: one rule per row of the dispatch. -/
theorem exec_counts {i : Instr} (other : ¬ MayCount i) (s : State) : Out.Counts s.eventCount (exec i s) := by
  cases i
  case metParamSet => exact absurd (.inl ⟨_, _, rfl⟩) other
  case metCalCommit => exact absurd (.inr (.inl ⟨_, _, _, rfl⟩)) other
  case firmware => exact absurd (.inr (.inr ⟨_, _, _, _, rfl⟩)) other
  all_goals simp [exec]

theorem exec_leaves {i : Instr} (change : MayCount i) (s : State) : Out.Leaves (CountedOnce s.eventCount) (exec i s) := by
  obtain ⟨m, tag, rfl⟩ | ⟨m, tag, v, rfl⟩ | ⟨body, ctr, tag, ok, rfl⟩ := change
  · exact execMetParamSet_leaves m tag s
  · simp only [exec]
    exact execMetCalCommit_leaves m tag v s
  · exact execFirmware_leaves body ctr tag ok s

theorem step_counts {s t : State} (stepped : step s = .next t) :
    t.eventCount = s.eventCount ∨ CountedOnce s.eventCount t.eventCount ∧ ∃ i, s.pending.head? = some i ∧ MayCount i := by
  unfold step at stepped
  split at stepped
  · cases stepped
    exact .inl (by simp)
  next i rest front =>
    by_cases change : MayCount i
    · have once := exec_leaves change { s with pending := rest }
      rw [stepped] at once
      exact .inr ⟨once, i, by rw [front]; rfl, change⟩
    · have kept := exec_counts change { s with pending := rest }
      rw [stepped] at kept
      exact .inl kept

/-! ### A full counter -/

theorem metNeed_bind_ok {α : Type} {b : Bool} {e : Nat} {f : Unit → Except Nat α} {x : α} :
    (metNeed b e >>= f) = .ok x ↔ b = true ∧ f () = .ok x := by
  cases b <;> simp [metNeed, bind, Except.bind]

theorem metNeed_bind_error {α : Type} {b : Bool} {e : Nat} {f : Unit → Except Nat α} (h : b = false) : (metNeed b e >>= f) = .error e := by
  subst h; rfl

/-- The state with its event counter at 2^32 − 1. -/
def State.counterFull (s : State) : State := s.withFl fun f => { f with events := 2 ^ 32 - 1 }

theorem State.counterFull_full (s : State) : s.counterFull.fl.full = true := by simp [State.counterFull, Flint.full]

theorem metParamSet_full {b : List Nat} {s : State} {r : State × List W32} (h : metParamSet b s = .ok r) : metParamSet b s.counterFull = .error eFull := by
  unfold metParamSet at h ⊢
  simp only [metNeed_bind_ok] at h
  obtain ⟨fields, legal, sealed, idle, -⟩ := h
  dsimp only
  rw [metNeed_bind (by exact fields), metNeed_bind (by exact legal), metNeed_bind (by exact sealed), metNeed_bind (by exact idle),
    metNeed_bind_error (by rw [s.counterFull_full]; rfl)]

theorem metCalCommit_full {volts : Nat} {b : List Nat} {s : State} {r : State × List W32} (h : metCalCommit volts b s = .ok r) :
    metCalCommit volts b s.counterFull = .error eFull := by
  unfold metCalCommit calFields at h ⊢
  simp only [bind_assoc, metNeed_bind_ok] at h ⊢
  obtain ⟨fields, sealed, h⟩ := h
  rw [metNeed_bind (by exact fields), metNeed_bind (by exact sealed)]
  split at h
  · cases h
  next pts found =>
    have found' : s.counterFull.fl.cal = some pts := found
    obtain ⟨idle, rises, -⟩ := by simpa only [metNeed_bind_ok] using h
    simp only [found']
    rw [metNeed_bind (by exact idle), metNeed_bind (by exact rises), metNeed_bind_error (by rw [s.counterFull_full]; rfl)]

theorem flintImage_full {b : List Byte} {len : Nat} {sigOk : Bool} {s : State} {r : State × List W32} (h : flintImage b len sigOk s = .ok r) :
    flintImage b len sigOk s.counterFull = .error eFull := by
  unfold flintImage at h ⊢
  simp only [metNeed_bind_ok] at h
  obtain ⟨form, sealed, auth, version, idle, -⟩ := h
  dsimp only
  rw [metNeed_bind (by exact form), metNeed_bind (by exact sealed), metNeed_bind (by exact auth), metNeed_bind (by exact version),
    metNeed_bind (by exact idle), metNeed_bind_error (by rw [s.counterFull_full]; rfl)]

/-- Settles O60: every step keeps the counter but for the three changes, which count once and refuse a full counter last. -/
theorem eventCounter : Obligations.EventCounter := by
  unfold Obligations.EventCounter
  refine ⟨fun s t stepped => ?steps, fun s t b ws => ⟨?param, ?commit, ?firmware⟩⟩
  case steps =>
    obtain kept | ⟨kept | ⟨counted, below⟩, i, front, change⟩ := step_counts stepped
    · exact .inl kept
    · exact .inl kept
    · refine .inr ⟨counted, below, ?_⟩
      rw [front]
      simpa [MayCount] using change
  case param =>
    intro ok
    have counted := metParamSet_counts_one b s
    rw [ok] at counted
    exact ⟨counted.1, metParamSet_full ok⟩
  case commit =>
    intro volts ok
    have counted := metCalCommit_counts_one volts b s
    rw [ok] at counted
    exact ⟨counted.1, metCalCommit_full ok⟩
  case firmware =>
    intro img len ok
    have counted := flintImage_counts_one img len true s
    rw [ok] at counted
    exact ⟨counted.1, flintImage_full ok⟩

end Sys2Proof.Machine
end
